-- ==== Sys2Proof/Word.lean ====
section
/-!
DEFINITION. The machine words of the Hieri (00_scope.md R9): bytes, BF16 halves, 32-bit register words and
64-bit times, counters and digests.
-/
namespace Sys2Proof

/-- One byte, the smallest addressable unit (R114). -/
abbrev Byte := BitVec 8

/-- A 16-bit word: a BF16 value or a half of an SP32 value. -/
abbrev Half := BitVec 16

/-- A 32-bit word: a register, or an FP32 pattern. -/
abbrev Word := BitVec 32

/-- A 64-bit word: Hall Time, digests, counters of the host interface. -/
abbrev DWord := BitVec 64

end Sys2Proof
end

