-- ==== Sys2Proof/Config.lean ====
section
/-!
DEFINITION. What the spec leaves to the part or leaves open: free values and part values as opaque constants, of
which no proof can know a value (notes/assumptions 1, 12 and the entries named at each).
-/
namespace Sys2Proof.Config

/-- What byte `a` of a memory reads as once its contents became undefined for the `g`-th time (log 1). -/
opaque freeByte (g a : Nat) : Byte

/-- What 32-bit word `i` of a register array reads as once it became undefined for the `g`-th time (log 1). -/
opaque freeWord (g i : Nat) : Word

/-- The approximation of `1 / x` that V.RCP delivers where it lies within the bound of R222 (log 5). -/
opaque rcpApprox (x : Word) : Word

/-- The approximation of `1 / sqrt x` that V.RSQ delivers where it lies within the bound of R222 (log 5). -/
opaque rsqApprox (x : Word) : Word

/-- The approximation of `e^x` that V.EXP delivers where it lies within the bound of R222 (log 5). -/
opaque expApprox (x : Word) : Word

/-- The approximation of `1 / sqrt x` that U.RSQ delivers where it lies within the bound of R294 (log 5). -/
opaque ursqApprox (x : BitVec 40) : BitVec 40

/-- How far after its guard the header of the slot that starts at tick `t` begins on die lane `l`, in 1/64 tick below
108: the first message bit at or after the guard, where the codewords of the lane put it (R432, R433, log 30). -/
opaque slotPlacement (l t : Nat) : Nat

/-- The bytes per tick that a hot stack leaves of `q` (R301, R405, log 1). -/
opaque hotQueue (q : Nat) : Nat

/-! ### What the part's fuses, ROM and flash hold (log 12) -/

/-- Silicon revision (R598). -/
opaque revision : BitVec 8

/-- The fused security state (R637): Manufacturing, Production-Locked or Vendor-Return. -/
opaque fusedState : BitVec 2

/-- The fuse that TAMPERED loads from (R657). -/
opaque fusedTampered : Bool

/-- Fuse word `a` (R658). -/
opaque fuseWord (a : Nat) : Word

/-- The fused voltage-table entry of region `r` (numbered 4d + r) for gear `g` (R519). -/
opaque vtab (r g : Nat) : Word

/-- Word `i` of the fused HBM_TIMING of die `d` (R422). -/
opaque hbmTiming (d i : Nat) : Word

/-- Identifiers of the fused sets, the part's serial number and the other colophon bytes of R653. -/
opaque serial : List Byte
opaque enterprise : Word
opaque romVersion : List Byte
opaque idkDigest : List Byte
opaque vtabSet : Half
opaque hbmSet : Half
opaque svnMin : Word

/-- What the flash holds when 72 V is first applied (R623): the active slot, the versions of the two slots, empty
where a slot is empty, the SVN, settings, their FORMAT, and the boots counted so far, with whatever the following
constants say of the slots' images, their soundness and their IVs. -/
opaque flashActive : Bool
opaque flashTrial : Bool
opaque flashSound (slot : Nat) : Bool
opaque flashVersion (slot : Nat) : List Byte
opaque flashImage (slot : Nat) : List Byte
opaque flashIv (slot : Nat) : List Byte
opaque flashSvn : Word
opaque flashSettings : List (Half × Word)
opaque flashFormat : Nat
opaque flashBoots : Word

/-- A boot-log line whose text the spec does not give (R608, R610), by its number. -/
opaque bootLine (n : Nat) : List Byte

/-! ### Cryptography (R639, R642, R654): opaque (log 13) -/

/-- SHA-512 of a byte string. -/
opaque sha512 (b : List Byte) : List Byte

/-- AES-256-GCM decryption under the firmware key: the plain body, where the tag is right. -/
opaque gcmOpen (iv aad body tag : List Byte) : Option (List Byte)

/-- Whether an ECDSA P-521 signature verifies under a key over a message. -/
opaque verifies (key msg sig : List Byte) : Bool

/-- The `n`-th ECDSA P-521 signature by IDK, over a message. -/
opaque signature (n : Nat) (msg : List Byte) : List Byte

/-- The digests of the firmware and vendor keys, fused at test; the owner's, fused in Manufacturing: what it is, and whether
it is fused, as the words burnt since say (R639). -/
opaque firmwareDigest : List Byte
opaque vendorDigest : List Byte
opaque ownerDigest (burnt : List (Nat × Word)) : List Byte
opaque ownerFused (burnt : List (Nat × Word)) : Bool

/-- Word `i` of the `n`-th challenge the enclave draws (R642). -/
opaque challenge (n i : Nat) : Word

/-- Digests of R654 that the package does not compute from its state. -/
opaque romDigest : List Byte
opaque fusedDigest : List Byte

/-- The certificate chain of slot 0 (R655). -/
opaque certChain : List Byte

end Sys2Proof.Config
end

