-- ==== Sys2Proof/Machine/Map.lean ====
section
/-!
DEFINITION. Plain-data maps: keyed tables with a default, and memories of bytes in one canonical form
(sorted by address, no entry equal to what an unlisted byte reads as).
-/
namespace Sys2Proof.Machine

/-! ### Keyed tables -/

/-- A finite table over a default that the reader names. -/
structure AMap (α β : Type) where
  entries : List (α × β)
  deriving DecidableEq, Repr

def AMap.empty {α β : Type} : AMap α β := ⟨[]⟩

/-- The entry of key `k`, or `d`. -/
def AMap.getD {α β : Type} [DecidableEq α] (m : AMap α β) (k : α) (d : β) : β :=
  match m.entries.find? (fun e => e.1 = k) with
  | some e => e.2
  | none => d

/-- The entry of key `k`, if the table lists it. -/
def AMap.get? {α β : Type} [DecidableEq α] (m : AMap α β) (k : α) : Option β :=
  (m.entries.find? (fun e => e.1 = k)).map (·.2)

/-- The table with `k` set to `v`. -/
def AMap.set {α β : Type} [DecidableEq α] (m : AMap α β) (k : α) (v : β) : AMap α β :=
  ⟨(k, v) :: m.entries.filter (fun e => e.1 ≠ k)⟩

/-- The table without key `k`. -/
def AMap.erase {α β : Type} [DecidableEq α] (m : AMap α β) (k : α) : AMap α β :=
  ⟨m.entries.filter (fun e => e.1 ≠ k)⟩

/-- Every listed value changed by `f`. -/
def AMap.mapVals {α β : Type} (m : AMap α β) (f : α → β → β) : AMap α β :=
  ⟨m.entries.map fun e => (e.1, f e.1 e.2)⟩

/-- The table without the keys of which `p` holds. -/
def AMap.drop {α β : Type} (m : AMap α β) (p : α → Bool) : AMap α β :=
  ⟨m.entries.filter fun e => !p e.1⟩

/-! ### Memories of bytes -/

/-- What an unlisted byte reads as: zero, or the free value of the contents' `g`-th loss. -/
inductive Fill where
  | zero
  | free (g : Nat)
  deriving DecidableEq, Repr

/-- The byte an unlisted address `a` reads as. -/
def Fill.byte (f : Fill) (a : Nat) : Byte :=
  match f with
  | .zero => 0
  | .free g => Config.freeByte g a

/-- A memory: the cells that differ from its fill, addresses strictly rising. -/
structure Memory where
  fill : Fill
  cells : List Host.Cell
  deriving DecidableEq, Repr

def Memory.empty : Memory := ⟨.zero, []⟩

/-- The byte at `a`. -/
def Memory.byte (m : Memory) (a : Nat) : Byte :=
  match m.cells.find? (fun c => c.1 = a) with
  | some c => c.2
  | none => m.fill.byte a

/-- The `n` bytes from `a`. -/
def Memory.bytes (m : Memory) (a n : Nat) : List Byte := (List.range n).map fun i => m.byte (a + i)

/-- The cells of bytes laid from `a` up that differ from the fill. -/
def cellsFrom (f : Fill) : Nat → List Byte → List Host.Cell
  | _, [] => []
  | a, b :: bs => if b = f.byte a then cellsFrom f (a + 1) bs else (a, b) :: cellsFrom f (a + 1) bs

/-- Bytes written from `a` up; a byte equal to the fill leaves no cell. -/
def Memory.write (m : Memory) (a : Nat) (bs : List Byte) : Memory :=
  ⟨m.fill, m.cells.filter (fun c => c.1 < a) ++ cellsFrom m.fill a bs
    ++ m.cells.filter (fun c => a + bs.length ≤ c.1)⟩

/-- The contents become undefined: nothing listed, every byte a free value. -/
def Memory.lost (_m : Memory) (g : Nat) : Memory := ⟨.free g, []⟩

/-- Whether the memory is in its canonical form. -/
def Memory.wf (m : Memory) : Bool :=
  decide (m.cells.Pairwise (fun x y => x.1 < y.1)) && m.cells.all (fun c => c.2 != m.fill.byte c.1)

/-- The 32-bit little-endian word at `a` (R114). -/
def Memory.word (m : Memory) (a : Nat) : Word :=
  BitVec.ofNat 32 ((m.byte a).toNat + 256 * (m.byte (a + 1)).toNat + 65536 * (m.byte (a + 2)).toNat
    + 16777216 * (m.byte (a + 3)).toNat)

end Sys2Proof.Machine
end

