-- ==== Sys2Proof/Machine/Num.lean ====
section
/-!
DEFINITION. Exact numbers and their roundings: bit fields, round to nearest even, the values of the long formats
(03_number_formats.md R112 to R117) and exact arithmetic on them (R145, R147, R222).
-/
namespace Sys2Proof.Machine

/-! ### Bit fields -/

/-- Bits `hi:lo` of a word, as a number (R9). -/
def fld {w : Nat} (x : BitVec w) (hi lo : Nat) : Nat := (x.toNat >>> lo) % 2 ^ (hi + 1 - lo)

/-- Bit `i` of a word. -/
def bit {w : Nat} (x : BitVec w) (i : Nat) : Bool := x.getLsbD i

/-- `x` with bits `hi:lo` replaced by the low bits of `v`. -/
def setFld {w : Nat} (x : BitVec w) (hi lo v : Nat) : BitVec w :=
  let m := BitVec.ofNat w ((2 ^ (hi + 1 - lo) - 1) <<< lo)
  (x &&& ~~~m) ||| (BitVec.ofNat w ((v % 2 ^ (hi + 1 - lo)) <<< lo))

/-- `x` with bit `i` set to `b`. -/
def setBit {w : Nat} (x : BitVec w) (i : Nat) (b : Bool) : BitVec w :=
  if b then x ||| BitVec.ofNat w (1 <<< i) else x &&& ~~~(BitVec.ofNat w (1 <<< i))

/-- The number of ones among the low `n` bits of `x`. -/
def popcount (n x : Nat) : Nat := (List.range n).foldl (fun a i => a + x / 2 ^ i % 2) 0

/-- The number read from bytes, least significant first (R114). -/
def leNat : List Byte → Nat
  | [] => 0
  | b :: bs => b.toNat + 256 * leNat bs

/-- The low `n` bytes of a number, least significant first (R114). -/
def natLe : Nat → Nat → List Byte
  | 0, _ => []
  | n + 1, v => BitVec.ofNat 8 v :: natLe n (v / 256)

/-- The field of `n` bytes at offset `at_` of a byte string (R114); bytes past its end read as 0. -/
def blockField (b : List Byte) (at_ n : Nat) : Nat := leNat ((b.drop at_).take n)

/-- A byte string cut or filled with zeros to `n` bytes. -/
def padTo (n : Nat) (b : List Byte) : List Byte := (b ++ List.replicate n 0).take n

/-- One byte into a CRC-32 of IEEE 802.3 (R435, R557): reflected, polynomial 0xEDB88320. -/
def crc32Step (c : Word) (b : Byte) : Word :=
  (List.range 8).foldl (fun c _ => if c.getLsbD 0 then (c >>> 1) ^^^ 0xEDB88320 else c >>> 1) (c ^^^ b.setWidth 32)

def crc32 (b : List Byte) : Word := ~~~(b.foldl crc32Step 0xFFFFFFFF)

/-- `x + 1`, held at `top`. -/
def satInc (top x : Nat) : Nat := if x < top then x + 1 else top

/-- A 32-bit counter raised by `n` that holds at 0xFFFF_FFFF. -/
def satAdd32 (x : Word) (n : Nat) : Word := BitVec.ofNat 32 (min (x.toNat + n) 0xFFFFFFFF)

/-! ### Rounding a magnitude -/

/-- `m / 2^k` rounded to nearest, ties to even. -/
def rneShr (m k : Nat) : Nat :=
  if k = 0 then m else
  let q := m >>> k
  let r := m % 2 ^ k
  let h := 2 ^ (k - 1)
  if h < r ∨ (r = h ∧ q % 2 = 1) then q + 1 else q

/-- `n / d` rounded to nearest, ties to even (`d` not 0). -/
def rneDiv (n d : Nat) : Nat :=
  let q := n / d
  let r := n % d
  if d < 2 * r ∨ (2 * r = d ∧ q % 2 = 1) then q + 1 else q

/-- `n / d` of an integer by a natural number, rounded to nearest, ties to even. -/
def rneDivInt (n : Int) (d : Nat) : Int :=
  if n < 0 then -(rneDiv n.natAbs d : Int) else (rneDiv n.natAbs d : Int)

/-! ### Values -/

/-- The value of a long-format pattern or of an exact intermediate: a NaN, an infinity, or the finite value
`(-1)^neg * mag * 2^e` with the sign of a zero kept (R112). -/
inductive Val where
  | nan
  | inf (neg : Bool)
  | fin (neg : Bool) (mag : Nat) (e : Int)
  deriving DecidableEq, Repr

/-- A zero of a given sign. -/
def Val.zero (neg : Bool) : Val := .fin neg 0 0

/-- The value of an integer times a power of two; a zero is +0. -/
def Val.ofInt (i : Int) (e : Int) : Val := .fin (decide (i < 0)) i.natAbs e

def Val.isNan : Val → Bool
  | .nan => true
  | _ => false

def Val.isInf : Val → Bool
  | .inf _ => true
  | _ => false

def Val.isZero : Val → Bool
  | .fin _ 0 _ => true
  | _ => false

/-- NaN or an infinity. -/
def Val.special : Val → Bool
  | .fin .. => false
  | _ => true

def Val.sign : Val → Bool
  | .nan => false
  | .inf n => n
  | .fin n _ _ => n

def Val.neg : Val → Val
  | .nan => .nan
  | .inf n => .inf (!n)
  | .fin n m e => .fin (!n) m e

def Val.abs : Val → Val
  | .nan => .nan
  | .inf _ => .inf false
  | .fin _ m e => .fin false m e

/-- The value times `2^k`. -/
def Val.scale (k : Int) : Val → Val
  | .fin n m e => .fin n m (e + k)
  | v => v

/-- The signed integer of a finite value on the grid `2^g`, for `g` at or below its exponent. -/
def onGrid (neg : Bool) (mag : Nat) (e g : Int) : Int :=
  let m : Int := ((mag <<< (e - g).toNat : Nat) : Int)
  if neg then -m else m

/-- The exact sum. Two zeros give +0 unless both are -0; a cancelled sum is +0 (R113, IEEE). -/
def Val.add : Val → Val → Val
  | .nan, _ => .nan
  | _, .nan => .nan
  | .inf a, .inf b => if a = b then .inf a else .nan
  | .inf a, _ => .inf a
  | _, .inf b => .inf b
  | .fin n1 m1 e1, .fin n2 m2 e2 =>
    if m1 = 0 then (if m2 = 0 then .zero (n1 && n2) else .fin n2 m2 e2)
    else if m2 = 0 then .fin n1 m1 e1
    else
      let g := min e1 e2
      .ofInt (onGrid n1 m1 e1 g + onGrid n2 m2 e2 g) g

def Val.sub (a b : Val) : Val := a.add b.neg

/-- The exact product; infinity times zero is NaN. -/
def Val.mul : Val → Val → Val
  | .nan, _ => .nan
  | _, .nan => .nan
  | .inf a, .inf b => .inf (a != b)
  | .inf a, .fin b m _ => if m = 0 then .nan else .inf (a != b)
  | .fin a m _, .inf b => if m = 0 then .nan else .inf (a != b)
  | .fin n1 m1 e1, .fin n2 m2 e2 => .fin (n1 != n2) (m1 * m2) (e1 + e2)

/-- `|a| < |b|`, `a = b` or more, of two finite magnitudes. -/
def magLt (m1 : Nat) (e1 : Int) (m2 : Nat) (e2 : Int) : Bool :=
  let g := min e1 e2
  decide (m1 <<< (e1 - g).toNat < m2 <<< (e2 - g).toNat)

/-- `a < b` on values that are not NaN. -/
def Val.lt : Val → Val → Bool
  | .nan, _ => false
  | _, .nan => false
  | .inf a, .inf b => a && !b
  | .inf a, .fin .. => a
  | .fin .., .inf b => !b
  | .fin n1 m1 e1, .fin n2 m2 e2 =>
    let g := min e1 e2
    decide (onGrid n1 m1 e1 g < onGrid n2 m2 e2 g)

def Val.le (a b : Val) : Bool := !a.isNan && !b.isNan && !b.lt a

/-- Equality of numbers (zeros of either sign are equal). -/
def Val.numEq (a b : Val) : Bool := a.le b && b.le a

/-- `floor (log2 (mag * 2^e))` of a nonzero magnitude. -/
def floorLog2 (mag : Nat) (e : Int) : Int := (Nat.log2 mag : Int) + e

/-! ### Rounding into a long format -/

/-- A binary format of the FP32 exponent range: the fraction bits it keeps. -/
abbrev FracBits := Nat

/-- A magnitude `mag * 2^e` rounded to `fb + 1` significant bits, ties to even, as `sig * 2^g` (R113). -/
def roundSig (fb : FracBits) (mag : Nat) (e : Int) : Nat × Int :=
  let g := floorLog2 mag e - (fb : Int)
  if g ≤ e then (mag <<< (e - g).toNat, g) else (rneShr mag (g - e).toNat, g)

/-- A value rounded into a format of `fb` fraction bits with the FP32 exponent range: RNE, overflow to an
infinity, and a result below `2^-126` after rounding gives zero of the exact sign (R112, R113). -/
def Val.round (fb : FracBits) : Val → Val
  | .fin n m e =>
    if m = 0 then .zero n else
    let (s, g) := roundSig fb m e
    let l := floorLog2 s g
    if 127 < l then .inf n
    else if l < -126 then .zero n
    else .fin n s g
  | v => v

/-- The canonical quiet NaN of FP32 (R112). -/
def nan32 : Word := 0x7FC00000

/-- The pattern of a value that is already in a format of `fb` fraction bits, sign at bit `fb + 8`. -/
def packBits (fb : FracBits) : Val → Nat
  | .nan => 0xFF <<< fb ||| 1 <<< (fb - 1)
  | .inf n => (cond n 1 0) <<< (fb + 8) ||| 0xFF <<< fb
  | .fin n m e =>
    let s := (cond n 1 0) <<< (fb + 8)
    if m = 0 then s else
    let l := floorLog2 m e
    let g := l - (fb : Int)
    let sig := if g ≤ e then m <<< (e - g).toNat else m >>> (g - e).toNat
    s ||| (l + 127).toNat <<< fb ||| (sig - 2 ^ fb)

/-- The value of a pattern of `fb` fraction bits: a subnormal reads as zero of its sign, every NaN as NaN (R112). -/
def unpackBits (fb : FracBits) (x : Nat) : Val :=
  let n := decide (x / 2 ^ (fb + 8) % 2 = 1)
  let ex := x / 2 ^ fb % 256
  let f := x % 2 ^ fb
  if ex = 255 then (if f = 0 then .inf n else .nan)
  else if ex = 0 then .zero n
  else .fin n (2 ^ fb + f) ((ex : Int) - 127 - (fb : Int))

/-- The value of an FP32 pattern (R112). -/
def f32 (w : Word) : Val := unpackBits 23 w.toNat

/-- A value rounded once to FP32 (R112, R113). -/
def toF32 (v : Val) : Word := BitVec.ofNat 32 (packBits 23 (v.round 23))

/-- The value of a BF16 pattern (R112). -/
def bf16 (h : Half) : Val := unpackBits 7 h.toNat

/-- A value rounded once to BF16 (R112, R113). -/
def toBf16 (v : Val) : Half := BitVec.ofNat 16 (packBits 7 (v.round 7))

/-- A value rounded to the update engine's 40-bit format: 31 fraction bits, the FP32 exponent range (R294). -/
abbrev E40 := BitVec 40

def e40 (x : E40) : Val := unpackBits 31 x.toNat

def toE40 (v : Val) : E40 := BitVec.ofNat 40 (packBits 31 (v.round 31))

/-- An input of magnitude below `2^-126` becomes zero of its sign (R112, R150 stage 1). -/
def Val.flush : Val → Val
  | .fin n m e => if m = 0 ∨ floorLog2 m e < -126 then .zero n else .fin n m e
  | v => v

/-! ### The split pair -/

/-- The FP32 pattern that the update engine splits: flushed, its NaN canonical (R117). -/
def canon32 (w : Word) : Word := toF32 (f32 w)

/-- SPH, the high half (R115). -/
def sphOf (w : Word) : Half := BitVec.ofNat 16 (w.toNat / 65536)

/-- SPL, the low half (R115). -/
def splOf (w : Word) : Half := BitVec.ofNat 16 w.toNat

/-- The pattern of a split pair (R115). -/
def joinSp (h l : Half) : Word := BitVec.ofNat 32 (h.toNat * 65536 + l.toNat)

/-! ### Division and square root -/

/-- `a / b` of finite nonzero magnitudes as a value with a sticky bit far below any format's last bit. -/
def divMag (m1 : Nat) (e1 : Int) (m2 : Nat) (e2 : Int) : Nat × Int :=
  let k := 80 + Nat.log2 m2
  let n := m1 <<< k
  let q := n / m2
  (2 * q + (if n % m2 = 0 then 0 else 1), e1 - e2 - (k : Int) - 1)

/-- The quotient with IEEE special values: `0/0` and `inf/inf` are NaN, a nonzero over zero is an infinity. -/
def Val.div : Val → Val → Val
  | .nan, _ => .nan
  | _, .nan => .nan
  | .inf _, .inf _ => .nan
  | .inf a, .fin b _ _ => .inf (a != b)
  | .fin a _ _, .inf b => .zero (a != b)
  | .fin n1 m1 e1, .fin n2 m2 e2 =>
    if m2 = 0 then (if m1 = 0 then .nan else .inf (n1 != n2))
    else if m1 = 0 then .zero (n1 != n2)
    else
      let (m, e) := divMag m1 e1 m2 e2
      .fin (n1 != n2) m e

/-- The integer square root, by bits from the top: `fuel` bits of `r` are settled from bit `fuel - 1` down. -/
def isqrtAux : Nat → Nat → Nat → Nat
  | 0, _, r => r
  | k + 1, n, r =>
    let t := r + 2 ^ k
    isqrtAux k n (if t * t ≤ n then t else r)

def isqrt (n : Nat) : Nat := isqrtAux (Nat.log2 n / 2 + 1) n 0

/-- The square root of a finite nonzero magnitude, with a sticky bit. -/
def sqrtMag (m : Nat) (e : Int) : Nat × Int :=
  let k := 100 + (if (e - 100) % 2 = 0 then 0 else 1)
  let n := m <<< k
  let r := isqrt n
  (2 * r + (if r * r = n then 0 else 1), (e - (k : Int)) / 2 - 1)

/-- The square root with IEEE special values: a zero keeps its sign, a negative gives NaN. -/
def Val.sqrt : Val → Val
  | .nan => .nan
  | .inf n => if n then .nan else .inf false
  | .fin n m e =>
    if m = 0 then .zero n
    else if n then .nan
    else
      let (r, g) := sqrtMag m e
      .fin false r g

/-! ### FP32 arithmetic, one rounding each (R222) -/

def fAdd (a b : Word) : Word := toF32 ((f32 a).add (f32 b))
def fSub (a b : Word) : Word := toF32 ((f32 a).sub (f32 b))
def fMul (a b : Word) : Word := toF32 ((f32 a).mul (f32 b))
def fFma (a b c : Word) : Word := toF32 (((f32 a).mul (f32 b)).add (f32 c))

end Sys2Proof.Machine
end

