-- ==== Sys2Proof/Machine/Formats.lean ====
section
/-!
DEFINITION. The number formats (03_number_formats.md R118 to R148): element types, format codes, block-scaled
families and their layouts, AQ and carried formats, and forming an element at a given scale.
-/
namespace Sys2Proof.Machine

/-! ### Element types (R119 to R122) -/

/-- The narrow element types (R119). -/
inductive Elem where
  | e4m3 | e5m2 | e3m2 | e2m3 | e2m1 | int8 | int4 | t2
  deriving DecidableEq, Repr

/-- Width in bits. -/
def Elem.bits : Elem → Nat
  | .e4m3 | .e5m2 | .int8 => 8
  | .e3m2 | .e2m3 => 6
  | .e2m1 | .int4 => 4
  | .t2 => 2

/-- The exponent of the type's largest power of two (R119). -/
def Elem.emax : Elem → Int
  | .e4m3 => 8
  | .e5m2 => 15
  | .e3m2 => 4
  | .e2m3 | .e2m1 => 2
  | .int8 | .int4 | .t2 => 0

/-- Mantissa bits and bias of a floating type (R119). -/
def Elem.floatParams : Elem → Option (Nat × Int)
  | .e4m3 => some (3, 7)
  | .e5m2 => some (2, 15)
  | .e3m2 => some (2, 3)
  | .e2m3 => some (3, 1)
  | .e2m1 => some (1, 1)
  | _ => none

/-- The exponent `f` of an integer type's step `2^-f`, and its largest code (R119, R122). -/
def Elem.intParams : Elem → Nat × Nat
  | .int8 => (6, 127)
  | .int4 => (2, 7)
  | _ => (0, 1)

/-- The largest finite magnitude, as an integer times a power of two (R119). -/
def Elem.maxFinite : Elem → Nat × Int
  | .e4m3 => (448, 0)
  | .e5m2 => (57344, 0)
  | .e3m2 => (28, 0)
  | .e2m3 => (15, -1)
  | .e2m1 => (6, 0)
  | .int8 => (127, -6)
  | .int4 => (7, -2)
  | .t2 => (1, 0)

/-- Significand bits of a product operand (R194). -/
def Elem.sigBits : Elem → Nat
  | .e4m3 => 4
  | .e5m2 => 3
  | .e3m2 => 3
  | .e2m3 => 4
  | .e2m1 => 2
  | .int8 => 7
  | .int4 => 3
  | .t2 => 1

/-- A two's-complement number of `n` bits. -/
def signed (n c : Nat) : Int := if c < 2 ^ (n - 1) then (c : Int) else (c : Int) - 2 ^ n

/-- The value of an element code (R119 to R121). -/
def Elem.decode (t : Elem) (c : Nat) : Val :=
  match t.floatParams with
  | some (m, bias) =>
    let n := decide (c / 2 ^ (t.bits - 1) % 2 = 1)
    let f := c % 2 ^ m
    let e := c % 2 ^ (t.bits - 1) / 2 ^ m
    if t = .e4m3 ∧ c % 128 = 127 then .nan
    else if t = .e5m2 ∧ e = 31 then (if f = 0 then .inf n else .nan)
    else if e = 0 then .fin n f (1 - bias - (m : Int))
    else .fin n (2 ^ m + f) ((e : Int) - bias - (m : Int))
  | none =>
    match t with
    | .int8 => .ofInt (signed 8 (c % 256)) (-6)
    | .int4 => .ofInt (signed 4 (c % 16)) (-2)
    | _ => if c % 4 = 1 then .ofInt 1 0 else if c % 4 = 3 then .ofInt (-1) 0 else .zero false

/-- The exponent of a nonzero element in R194: its unbiased exponent, `1 - bias` for a subnormal, 0 for the
integer types. -/
def Elem.expOf (t : Elem) (mag : Nat) (e : Int) : Int :=
  match t.floatParams with
  | some (_, bias) => max (floorLog2 mag e) (1 - bias)
  | none => 0

/-- The exponent of the grid step at a nonzero magnitude, the grid extended without limit above (R146, R158). -/
def Elem.gridExp (t : Elem) (mag : Nat) (e : Int) : Int :=
  match t.floatParams with
  | some (m, bias) => max (floorLog2 mag e) (1 - bias) - (m : Int)
  | none => -(t.intParams.1 : Int)

/-- A nonzero magnitude rounded to the type's extended grid, ties to the even code: `q * 2^g` (R158). -/
def Elem.rneToGrid (t : Elem) (mag : Nat) (e : Int) : Nat × Int :=
  let g := t.gridExp mag e
  if g ≤ e then (mag <<< (e - g).toNat, g) else (rneShr mag (g - e).toNat, g)

/-- The code of `q * 2^g` on the type's own grid, not above its largest finite value; a zero has sign bit 0
(R122). -/
def Elem.encode (t : Elem) (neg : Bool) (q : Nat) (g : Int) : Nat :=
  if q = 0 then 0 else
  match t.floatParams with
  | some (m, bias) =>
    let s := (cond neg 1 0) <<< (t.bits - 1)
    let l := floorLog2 q g
    if l < 1 - bias then s ||| q
    else
      let h := l - (m : Int)
      let sig := if h ≤ g then q <<< (g - h).toNat else q >>> (h - g).toNat
      s ||| (l + bias).toNat <<< m ||| (sig - 2 ^ m)
  | none => if neg then 2 ^ t.bits - q else q

/-- One formed element: its code, whether it was clamped, whether it came out as zero (R146, R163). -/
structure Formed where
  code : Nat
  sat : Bool
  zero : Bool
  deriving DecidableEq, Repr

/-- Form the element of a finite value at scale code `s` (R146). -/
def Elem.form (t : Elem) (s : Nat) : Val → Formed
  | .fin n m e =>
    if m = 0 then ⟨0, false, true⟩ else
    let (q, g) := t.rneToGrid m (e + 127 - (s : Int))
    let (mx, mg) := t.maxFinite
    if magLt mx mg q g then ⟨t.encode n mx mg, true, false⟩
    else ⟨t.encode n q g, false, q == 0⟩
  | _ => ⟨0, false, true⟩

/-! ### Format codes (R134, R135) -/

/-- The two-dimensional families (R131). -/
inductive TsFam where
  | ts16 | ts64 | ts128
  deriving DecidableEq, Repr

/-- Block rows and columns (R131). -/
def TsFam.shape : TsFam → Nat × Nat
  | .ts16 => (4, 4)
  | .ts64 => (8, 8)
  | .ts128 => (8, 16)

/-- The valid formats (R135). -/
inductive Fmt where
  | bf16 | fp32 | sph | spl
  | mx (axis : Bool) (t : Elem)
  | ts (f : TsFam) (t : Elem)
  | aq (n128 : Bool) (u4 : Bool)
  | cf8 | cf16
  deriving DecidableEq, Repr

/-- Element codes 0 to 7 (R134). -/
def Elem.ofCode : Nat → Elem
  | 0 => .e4m3
  | 1 => .e5m2
  | 2 => .e3m2
  | 3 => .e2m3
  | 4 => .e2m1
  | 5 => .int8
  | 6 => .int4
  | _ => .t2

/-- The format that a code names, if it is valid (R134, R135). -/
def Fmt.ofCode (c : Nat) : Option Fmt :=
  let fam := c / 32 % 8
  let axis := decide (c / 16 % 2 = 1)
  let el := c % 16
  if fam = 1 then (if el ≤ 5 then some (.mx axis (.ofCode el)) else none)
  else if axis then none
  else if fam = 0 then
    (if el = 8 then some .bf16 else if el = 9 then some .fp32 else if el = 10 then some .sph
     else if el = 11 then some .spl else none)
  else if fam = 2 then (if el ≤ 7 then some (.ts .ts16 (.ofCode el)) else none)
  else if fam = 3 then (if el ≤ 7 then some (.ts .ts64 (.ofCode el)) else none)
  else if fam = 4 then (if el ≤ 7 then some (.ts .ts128 (.ofCode el)) else none)
  else if fam = 7 then (if el = 14 then some .cf8 else if el = 8 then some .cf16 else none)
  else if el = 12 then some (.aq (fam == 6) false)
  else if el = 13 then some (.aq (fam == 6) true)
  else none

/-- The element type of a block-scaled format. -/
def Fmt.elem? : Fmt → Option Elem
  | .mx _ t => some t
  | .ts _ t => some t
  | _ => none

/-- MX or TS: a format with one E8M0 scale a block. -/
def Fmt.blockScaled (f : Fmt) : Bool := f.elem?.isSome

/-- Elements in one block of a block-scaled or AQ format; 1 for a long format. -/
def Fmt.blockLen : Fmt → Nat
  | .mx .. => 32
  | .ts f _ => f.shape.1 * f.shape.2
  | .aq n _ => if n then 128 else 64
  | .cf8 | .cf16 => 64
  | _ => 1

/-- Bits of one element in the element array. -/
def Fmt.elemBits : Fmt → Nat
  | .fp32 => 32
  | .bf16 | .sph | .spl | .cf16 => 16
  | .mx _ t => t.bits
  | .ts _ t => t.bits
  | .aq _ u4 => if u4 then 4 else 8
  | .cf8 => 8

/-- Whether an extent of `rows` by `cols` is a whole number of blocks (R129, R132, R139, R156). -/
def Fmt.wholeBlocks (f : Fmt) (rows cols : Nat) : Bool :=
  match f with
  | .mx axis _ => if axis then rows % 32 == 0 else cols % 32 == 0
  | .ts t _ => rows % t.shape.1 == 0 && cols % t.shape.2 == 0
  | .aq .. => rows * cols % f.blockLen == 0
  | _ => true

/-- Bytes of the element array of a `rows` by `cols` operand (R126, R127, R139, R141). -/
def Fmt.arrayBytes (f : Fmt) (rows cols : Nat) : Nat :=
  match f with
  | .aq .. => rows * cols / f.blockLen * (4 + f.blockLen * f.elemBits / 8)
  | .cf8 => rows * cols / 64 * 66
  | _ => rows * cols * f.elemBits / 8

/-- Blocks of a `rows` by `cols` operand. -/
def Fmt.blocks (f : Fmt) (rows cols : Nat) : Nat := rows * cols / f.blockLen

/-- The block that holds element (`i`, `j`) of a `rows` by `cols` tensor, and the element's index in it in stored
order (R129, R132, R139, R170). -/
def Fmt.locate (f : Fmt) (rows cols i j : Nat) : Nat × Nat :=
  match f with
  | .mx axis _ =>
    if axis then (i / 32 + rows / 32 * j, i % 32) else (j / 32 + cols / 32 * i, j % 32)
  | .ts t _ =>
    let (br, bc) := t.shape
    (i / br * (cols / bc) + j / bc, i % br * bc + j % bc)
  | .aq .. => ((i * cols + j) / f.blockLen, (i * cols + j) % f.blockLen)
  | _ => (i * cols + j, 0)

/-- The tensor position of in-block index `x` of block `b`: the inverse of `locate` (R129, R132, R209). -/
def Fmt.position (f : Fmt) (rows cols b x : Nat) : Nat × Nat :=
  match f with
  | .mx axis _ =>
    if axis then (32 * (b % (rows / 32)) + x, b / (rows / 32))
    else (b / (cols / 32), 32 * (b % (cols / 32)) + x)
  | .ts t _ =>
    let (br, bc) := t.shape
    (b / (cols / bc) * br + x / bc, b % (cols / bc) * bc + x % bc)
  | _ =>
    let n := b * f.blockLen + x
    (n / cols, n % cols)

/-! ### Reading arrays of bytes -/

/-- A byte reader: what an operand array is read through. -/
abbrev Reader := Nat → Byte

/-- The little-endian number of `n` bytes at `a` (R114). -/
def rdLe (r : Reader) (a : Nat) : Nat → Nat
  | 0 => 0
  | n + 1 => (r a).toNat + 256 * rdLe r (a + 1) n

/-- Element code `n` of width `w` bits in an element array at `base` (R127). -/
def rdElem (r : Reader) (base w n : Nat) : Nat :=
  let b := n * w
  rdLe r (base + b / 8) 2 / 2 ^ (b % 8) % 2 ^ w

/-- The decoded value of an element under scale code `s` (R124). -/
def decodeScaled (t : Elem) (s c : Nat) : Val :=
  if s = 255 then .nan else (t.decode c).scale ((s : Int) - 127)

/-- The decoded value of code `c` of an AQ block (R140), before its rounding into FP32. -/
def decodeAq (scale : Half) (zp c : Nat) : Val :=
  match bf16 scale with
  | .fin n m e =>
    if m = 0 ∨ c = zp then .zero false
    else (Val.fin n m e).mul (.ofInt ((c : Int) - (zp : Int)) 0)
  | _ => .nan

/-- Element (`i`, `j`) of a `rows` by `cols` operand in format `f`, with the element array at `eb` and the scale
array at `sb`: the exact value (R124, R132, R140, R142). SPL reads as zero (R116). An AQ4 header is read with its whole ZP byte,
also where bits 7:4 are not zero (DESIGN CHOICE, log 32: R139 gives such a byte no meaning). -/
def Fmt.readAt (f : Fmt) (r : Reader) (eb sb rows cols i j : Nat) : Val :=
  let (b, x) := f.locate rows cols i j
  match f with
  | .fp32 => f32 (BitVec.ofNat 32 (rdLe r (eb + 4 * b) 4))
  | .bf16 | .sph | .cf16 => Machine.bf16 (BitVec.ofNat 16 (rdLe r (eb + 2 * b) 2))
  | .spl => .zero false
  | .mx _ t | .ts _ t => decodeScaled t (r (sb + b)).toNat (rdElem r eb t.bits (b * f.blockLen + x))
  | .aq _ u4 =>
    let o := eb + b * (4 + f.blockLen * f.elemBits / 8)
    decodeAq (BitVec.ofNat 16 (rdLe r o 2)) (r (o + 2)).toNat (rdElem r (o + 4) (if u4 then 4 else 8) x)
  | .cf8 =>
    let i := i * cols + j
    let o := eb + i / 64 * 66
    let s := (r o).toNat
    if s = 255 then .nan
    else .ofInt (signed 8 (r (o + 2 + i % 64)).toNat) ((s : Int) - 127 + ((r (o + 1)).toNat % 4 : Nat))

/-! ### Packing element codes -/

/-- The bytes of a list of codes of `w` bits, least significant first (R127). -/
def packCodes (w : Nat) (cs : List Nat) : List Byte :=
  natLe (cs.length * w / 8) (cs.foldr (fun c a => c % 2 ^ w + 2 ^ w * a) 0)

end Sys2Proof.Machine
end

