-- ==== Sys2Proof/Machine/Quant.lean ====
section
/-!
DEFINITION. The arithmetic of the operand writer (04_operand_writer.md R149 to R186): rotation, special blocks,
outliers, the choice of a scale, forming and counting, and asymmetric quantisation.
-/
namespace Sys2Proof.Machine

/-! ### Profiles (R155) -/

/-- How the block scale is chosen (R155 SRULE). -/
inductive SRule where
  | ocp | fit | imm | array
  deriving DecidableEq, Repr

/-- A writer profile (R155). -/
structure Profile where
  fmt : Nat
  srule : SRule
  simm : Nat
  rotEn : Bool
  rotLen : Nat
  rotCol : Bool
  sideB : Bool
  rotMask : Nat
  outEn : Bool
  outT : Nat
  outGal : Nat
  mon : Nat
  guard : Bool
  pair : Bool
  rest : Nat
  deriving DecidableEq, Repr

/-- The fields of the 64-bit profile word (R155). -/
def Profile.ofWord (w : DWord) : Profile where
  fmt := fld w 7 0
  srule := match fld w 9 8 with
    | 0 => .ocp
    | 1 => .fit
    | 2 => .imm
    | _ => .array
  simm := fld w 17 10
  rotEn := bit w 18
  rotLen := 16 * 2 ^ fld w 20 19
  rotCol := bit w 21
  sideB := bit w 22
  rotMask := fld w 25 23
  outEn := bit w 26
  outT := fld w 30 27
  outGal := fld w 33 31
  mon := fld w 37 34
  guard := bit w 38
  pair := bit w 39
  rest := fld w 63 40

/-- Whether the writer refuses an operation of this profile on an input of `rows` by `cols`, whose output is
transposed or not (R156). -/
def Profile.refused (p : Profile) (fromGroup tr : Bool) (rows cols : Nat) : Bool :=
  match Fmt.ofCode p.fmt with
  | none => true
  | some f =>
    f == .cf8 || f == .cf16 || f == .spl
    || ((p.srule == .imm || p.srule == .array || p.rotEn || p.outEn) && !f.blockScaled)
    || (match f with
        | .mx axis _ => p.rotEn && p.rotCol != axis
        | _ => false)
    || (p.rotEn && (if p.rotCol then rows else cols) % p.rotLen != 0)
    || (p.pair && (!fromGroup || !p.rotEn))
    || !(if tr then f.wholeBlocks cols rows else f.wholeBlocks rows cols)
    || p.rest != 0

/-! ### Grids of values -/

/-- A rectangular input, row-major. -/
structure Grid where
  rows : Nat
  cols : Nat
  data : Array Val

def Grid.get (g : Grid) (i j : Nat) : Val := g.data.getD (i * g.cols + j) (.zero false)

/-- The grid of a function of row and column. -/
def Grid.of (rows cols : Nat) (f : Nat → Nat → Val) : Grid :=
  ⟨rows, cols, (Array.range (rows * cols)).map fun n => f (n / cols) (n % cols)⟩

/-! ### Rotation (R164, R165) -/

/-- The shift of R165. -/
def rotShift (len : Nat) (sideB : Bool) : Nat :=
  match len with
  | 16 => 2
  | 32 => if sideB then 2 else 3
  | 64 => 3
  | _ => if sideB then 3 else 4

/-- Position `j` of a rotated group `x` of `len` values: the exact signed sum times `2^-k`, rounded once (R164). -/
def rotateOne (len k mask : Nat) (x : Nat → Val) (j : Nat) : Val :=
  let acc := (List.range len).foldl (fun (a : Val) i =>
    let h := popcount 8 (i &&& j) % 2 == 1
    let d := mask / 2 ^ i % 2 == 1
    a.add (if h != d then (x i).neg else x i)) (.zero false)
  (acc.scale (-(k : Int))).round 23

/-- Stage 2: each group of `L` values along the axis (R164). -/
def Profile.rotate (p : Profile) (mask : Nat) (g : Grid) : Grid :=
  let l := p.rotLen
  let k := rotShift l p.sideB
  Grid.of g.rows g.cols fun i j =>
    if p.rotCol then rotateOne l k mask (fun t => g.get (i / l * l + t) j) (i % l)
    else rotateOne l k mask (fun t => g.get i (j / l * l + t)) (j % l)

/-! ### Choosing the scale (R157, R158) -/

/-- The scale code of the two hardware rules from the largest remaining magnitude (R157). -/
def chooseScale (t : Elem) (fit : Bool) (mag : Nat) (e : Int) : Nat :=
  let ocp := min (max (floorLog2 mag e - t.emax + 127) 0) 254
  let (q, g) := t.rneToGrid mag (e + 127 - ocp)
  let (mx, mg) := t.maxFinite
  if fit && magLt mx mg q g then (min (ocp + 1) 254).toNat else ocp.toNat

/-! ### Counts (R180) -/

/-- The counts of one operation (R162, R163, R169, R174, R175, R177). -/
structure Counts where
  satElem : Nat := 0
  unfElem : Nat := 0
  zeroBlk : Nat := 0
  nanBlk : Nat := 0
  flatBlk : Nat := 0
  outlier : Nat := 0
  satBlk : Nat := 0
  unfBlk : Nat := 0
  nzIn : Nat := 0
  deriving DecidableEq, Repr

def Counts.add (a b : Counts) : Counts where
  satElem := a.satElem + b.satElem
  unfElem := a.unfElem + b.unfElem
  zeroBlk := a.zeroBlk + b.zeroBlk
  nanBlk := a.nanBlk + b.nanBlk
  flatBlk := a.flatBlk + b.flatBlk
  outlier := a.outlier + b.outlier
  satBlk := a.satBlk + b.satBlk
  unfBlk := a.unfBlk + b.unfBlk
  nzIn := a.nzIn + b.nzIn

/-! ### One block of a block-scaled output (R162, R163, R169 to R172) -/

/-- An extracted outlier: its value and its in-block index (R172). -/
structure Outlier where
  value : Half
  index : Nat
  block : Nat
  deriving DecidableEq, Repr

/-- What stages 3 to 7 make of one block. -/
structure BlockOut where
  scale : Nat
  codes : List Nat
  outlier : Option Outlier
  counts : Counts
  deriving DecidableEq, Repr

/-- The magnitude of a finite value as a comparable number on the grid `2^g`. -/
def Val.magOn (g : Int) : Val → Nat
  | .fin _ m e => m <<< (e - g).toNat
  | _ => 0

/-- The smallest exponent among finite values. -/
def minExp (vs : List Val) : Int :=
  vs.foldl (fun a v =>
    match v with
    | .fin _ m e => if m = 0 then a else min a e
    | _ => a) 0

/-- The index and magnitude of the first largest of `ms`, and the largest of the others (R169). -/
def top2 (ms : List Nat) : Nat × Nat × Nat :=
  let a := ms.foldl max 0
  let i := ms.findIdx (· == a)
  (i, a, (ms.eraseIdx i).foldl max 0)

/-- Whether a value counts as NaN or an infinity in stage 3: an exact value whose FP32 rounding would be an
infinity counts as one (R152, R162). -/
def Val.stage3Special (v : Val) : Bool := (v.round 23).special

/-- Stages 3 to 7 for one block, values in stored order after stage 2 (R150). -/
def quantBlock (p : Profile) (t : Elem) (forced : Option Nat) (b : Nat) (vs : List Val) : BlockOut :=
  let zeros := vs.map fun _ => 0
  if forced = some 255 ∨ vs.any Val.stage3Special then
    ⟨255, zeros, none, { nanBlk := 1 }⟩
  else if vs.all Val.isZero then
    ⟨0, zeros, none, { zeroBlk := 1 }⟩
  else
    let g := minExp vs
    let ms := vs.map (Val.magOn g)
    let (i, a, m2) := top2 ms
    let ext := p.outEn && decide (0 < m2) && decide (m2 <<< p.outT ≤ a)
    let amax := if ext then m2 else a
    let s := forced.getD (chooseScale t (p.srule == .fit) amax g)
    let fs := vs.zipIdx.map fun (v, x) => if ext && x == i then (⟨0, false, true⟩ : Formed) else t.form s v
    let kept := vs.zipIdx.filterMap fun (v, x) => if ext && x == i then none else some v
    let nz := (kept.filter fun v => !v.isZero).length
    let satN := (fs.filter (·.sat)).length
    let unf := ((kept.filter fun v => !v.isZero && (t.form s v).zero)).length
    let satB := forced.isSome && decide (t.emax + 1 ≤ floorLog2 amax (g + 127 - (s : Int)))
    let unfB := forced.isSome && !satB && fs.all (fun f => f.zero)
    ⟨s, fs.map (·.code),
      if ext then some ⟨toBf16 (vs.getD i (.zero false)), i, b⟩ else none,
      { satElem := satN, unfElem := unf, nzIn := nz, outlier := cond ext 1 0,
        satBlk := cond satB 1 0, unfBlk := cond unfB 1 0 }⟩

/-! ### Outlier tiles (R171, R172) -/

/-- The 8 bytes of an entry (R172). -/
def Outlier.bytes (o : Outlier) : List Byte :=
  natLe 2 o.value.toNat ++ [BitVec.ofNat 8 o.index, 1] ++ natLe 4 o.block

/-- Tile `n` of an operation: the entry of block `b` is entry `b mod 256` of tile `b div 256` (R171). -/
def outlierTile (outs : List (Option Outlier)) (n : Nat) : List Byte :=
  ((List.range 256).map fun k =>
    match (outs[256 * n + k]?).join with
    | some o => o.bytes
    | none => List.replicate 8 0).flatten

/-! ### Asymmetric quantisation (R174 to R177) -/

/-- The smallest positive BF16 value at or above `n / d * 2^e`, at least `2^-126`: significand and exponent
(R176 round_up_bf16). -/
def roundUpBf16 (n d : Nat) (e : Int) : Nat × Int :=
  let q := (n <<< 40) / d
  let st := (n <<< 40) % d != 0
  let e := e - 40
  let l := if q = 0 then -1000 else floorLog2 q e
  if l < -126 then (128, -133)
  else
    let g := l - 7
    let k := (g - e).toNat
    let s := q >>> k
    let up := decide (q % 2 ^ k ≠ 0) || st
    let s := if up then s + 1 else s
    if s = 256 then (128, g + 1) else (s, g)

/-- One AQ block: SCALE, ZP, codes and counts (R174 to R177). -/
structure AqOut where
  scale : Half
  zp : Nat
  codes : List Nat
  counts : Counts
  deriving DecidableEq, Repr

/-- Quantise one AQ block of FP32 values after stage 1, `q` the largest code (R174 to R177). A flat block whose value rounds to
the BF16 infinity takes that as its scale (DESIGN CHOICE, log 32: R140 and R175 do not say). -/
def aqBlock (q : Nat) (xs : List Val) : AqOut :=
  let zeros := xs.map fun _ => 0
  match xs with
  | [] => ⟨0x0080, 0, [], {}⟩
  | x0 :: _ =>
    if xs.any Val.special then ⟨0x7FC0, 0, zeros, { nanBlk := 1 }⟩
    else if xs.all (Val.numEq x0) then
      if x0.isZero then ⟨0x0080, 0, zeros, { flatBlk := 1 }⟩
      else if x0.sign then ⟨toBf16 x0.abs, 1, zeros, { flatBlk := 1 }⟩
      else ⟨toBf16 x0, 0, xs.map fun _ => 1, { flatBlk := 1 }⟩
    else
      let g := minExp xs
      let is := xs.map fun v =>
        match v with
        | .fin n m e => onGrid n m e g
        | _ => 0
      let lo := is.foldl min 0
      let hi := is.foldl max 0
      let (sc, sg) := roundUpBf16 (hi - lo).toNat q g
      -- x / scale = i * 2^(g - sg) / sc
      let num := fun (i : Int) => if sg ≤ g then i * (2 ^ (g - sg).toNat : Nat) else i
      let den := if sg ≤ g then sc else sc * 2 ^ (sg - g).toNat
      let zp := min (max (rneDivInt (num (-lo)) den) 0) q
      let raw := is.map fun i => rneDivInt (num i) den + zp
      let codes := raw.map fun c => (min (max c 0) (q : Int)).toNat
      let satN := ((raw.zip codes).filter fun (r, c) => r != (c : Int)).length
      let nz := (is.filter (· != 0)).length
      let unf := ((is.zip codes).filter fun (i, c) => i != 0 && (c : Int) == zp).length
      ⟨BitVec.ofNat 16 (packBits 7 (.fin false sc sg)), zp.toNat, codes,
        { satElem := satN, nzIn := nz, unfElem := unf }⟩

/-- The stored bytes of an AQ block (R139). -/
def AqOut.bytes (a : AqOut) (w : Nat) : List Byte :=
  natLe 2 a.scale.toNat ++ [BitVec.ofNat 8 a.zp, 0] ++ packCodes w a.codes

/-! ### One W-slot operation -/

/-- What a whole operation writes: the element array, the scale array, the second array of an SP32 output, the
outlier tiles and the counts. -/
structure WriteOut where
  elems : List Byte
  scales : List Byte
  second : List Byte
  tiles : List (List Byte)
  counts : Counts
  deriving DecidableEq, Repr

/-- The block values of an output, in stored order. -/
def Fmt.blockVals (f : Fmt) (g : Grid) (b : Nat) : List Val :=
  (List.range f.blockLen).map fun x =>
    let (i, j) := f.position g.rows g.cols b x
    g.get i j

/-- The operation of profile `p` on input `g` of exact values: the stages of R150 in their order. `mask` is the
profile's sign mask, `forced b` the scale array's byte for block `b` (R160). -/
def Profile.write (p : Profile) (f : Fmt) (g : Grid) (mask : Nat) (forced : Nat → Nat) : WriteOut :=
  let g := Grid.of g.rows g.cols fun i j => (g.get i j).flush
  match f with
  | .bf16 => ⟨(g.data.toList.map fun v => natLe 2 (toBf16 v).toNat).flatten, [], [], [], {}⟩
  | .fp32 => ⟨(g.data.toList.map fun v => natLe 4 (toF32 v).toNat).flatten, [], [], [], {}⟩
  | .sph =>
    ⟨(g.data.toList.map fun v => natLe 2 (sphOf (toF32 v)).toNat).flatten, [],
      (g.data.toList.map fun v => natLe 2 (splOf (toF32 v)).toNat).flatten, [], {}⟩
  | .aq _ u4 =>
    let q := if u4 then 15 else 255
    let os := (List.range (f.blocks g.rows g.cols)).map fun b =>
      aqBlock q ((f.blockVals g b).map (Val.round 23))
    ⟨(os.map fun o => o.bytes (if u4 then 4 else 8)).flatten, [], [], [],
      (os.map (·.counts)).foldl Counts.add {}⟩
  | .mx _ t | .ts _ t =>
    let g := if p.rotEn then
        p.rotate mask (Grid.of g.rows g.cols fun i j => (g.get i j).round 23)
      else g
    let os := (List.range (f.blocks g.rows g.cols)).map fun b =>
      let fo := match p.srule with
        | .imm => some p.simm
        | .array => some (forced b)
        | _ => none
      quantBlock p t fo b (f.blockVals g b)
    let outs := os.map (·.outlier)
    ⟨(os.map fun o => packCodes t.bits o.codes).flatten,
      os.map fun o => BitVec.ofNat 8 o.scale, [],
      if p.outEn then (List.range ((os.length + 255) / 256)).map (outlierTile outs) else [],
      (os.map (·.counts)).foldl Counts.add {}⟩
  | _ => ⟨[], [], [], [], {}⟩

/-- The trip limits of R183, from the operation's own counts: saturation, underflow. -/
def trips (limits : Word) (c : Counts) : Bool × Bool :=
  let t := fun (lim n : Nat) => decide (lim ≠ 0) && decide (0 < c.nzIn) && decide (lim * c.nzIn < n * 65536)
  (t (fld limits 15 0) c.satElem, t (fld limits 31 16) c.unfElem)

end Sys2Proof.Machine
end

