-- ==== Sys2Proof/Machine/MatArith.lean ====
section
/-!
DEFINITION. Matrix arithmetic (05_matrix_arithmetic.md R187 to R222): operand pairs and rate classes, runs in the
exact and the truncated class, promotion into a compensated pair, side products, the exact sums of proof mode and
the terms of the checksum comparison (12_silent_errors_and_faults.md R465 to R467).
-/
namespace Sys2Proof.Machine

/-! ### Operand pairs (R188, R189) -/

/-- What the array multiplies: a narrow element type or BF16 (SPH reads as BF16, R116). -/
inductive MType where
  | bf16
  | el (t : Elem)
  deriving DecidableEq, Repr

/-- The type the M slot reads a format as (R188). -/
def Fmt.mtype : Fmt → Option MType
  | .bf16 | .sph => some .bf16
  | .mx _ t => some (.el t)
  | .ts _ t => some (.el t)
  | _ => none

inductive RateClass where
  | c2 | c4 | c8 | c68 | c16
  deriving DecidableEq, Repr

/-- The exact run classes (R188). -/
def RateClass.exact : RateClass → Bool
  | .c2 | .c4 | .c8 => true
  | _ => false

/-- Array occupancy for an extent `k` (R189). -/
def RateClass.cycles (c : RateClass) (k : Nat) : Nat :=
  match c with
  | .c2 => k / 2
  | .c4 => k
  | .c8 | .c68 => 2 * k
  | .c16 => 4 * k

def Elem.small (t : Elem) : Bool := t == .e2m1 || t == .int4

def Elem.wide (t : Elem) : Bool := t == .e4m3 || t == .e5m2 || t == .e3m2 || t == .e2m3

/-- The permitted pairs, A first (R133, R188). -/
def classify : MType → MType → Option RateClass
  | .bf16, .bf16 => some .c16
  | .el a, .el b =>
    if a = .t2 then none
    else if a.wide || b.wide then some .c68
    else if a = .int8 || b = .int8 then some .c8
    else if b = .t2 then some .c2
    else some .c4
  | _, _ => none

/-- Significand bits of an operand (R194). -/
def MType.sigBits : MType → Nat
  | .bf16 => 8
  | .el t => t.sigBits

/-- The exponent of a nonzero finite operand value (R194). -/
def MType.expOf (t : MType) (mag : Nat) (e : Int) : Int :=
  match t with
  | .bf16 => max (floorLog2 mag e) (-126)
  | .el t => t.expOf mag e

/-! ### Operands as presented -/

/-- One side of a matrix operation as the array reads it: the element without its scale and the scale code, by
free index (row of op(A), column of op(B)) and by `k` (R187, R192). -/
structure Side where
  ty : MType
  depth : Nat
  elem : Nat → Nat → Val
  scale : Nat → Nat → Nat

/-- The block depth along K of a format, `alongCols` when K runs along the stored columns (R191). -/
def Fmt.depth (f : Fmt) (alongCols : Bool) : Nat :=
  match f with
  | .ts t _ => if alongCols then t.shape.2 else t.shape.1
  | .mx .. => 32
  | _ => 8

/-- The element of a stored position without its scale. -/
def Fmt.rawAt (f : Fmt) (r : Reader) (eb rows cols i j : Nat) : Val :=
  match f with
  | .mx _ t | .ts _ t =>
    let (b, x) := f.locate rows cols i j
    t.decode (rdElem r eb t.bits (b * f.blockLen + x))
  | _ => f.readAt r eb 0 rows cols i j

/-- The scale code of a stored position: that of value 1 for a format without scales (R192). -/
def Fmt.scaleAt (f : Fmt) (r : Reader) (sb rows cols i j : Nat) : Nat :=
  match f with
  | .mx .. | .ts .. => (r (sb + (f.locate rows cols i j).1)).toNat
  | _ => 127

/-- The value of an element with its block scale (R124). -/
def Side.value (s : Side) (i k : Nat) : Val :=
  if s.scale i k = 255 then .nan else (s.elem i k).scale ((s.scale i k : Int) - 127)

/-! ### Runs (R191 to R195) -/

/-- The result of one run at one cell: its sum, the scale exponent it is promoted at, the exact sum, and the
exponent of its truncation grid with the count of products beside the first (R194, R466). -/
structure Run where
  sum : Val
  exact : Val
  scale : Int
  bound : Option (Nat × Int)
  deriving DecidableEq, Repr

/-- The special outcome of a run's products, if any (R195). -/
def specialSum (ps : List Val) : Option Val :=
  if ps.any Val.isNan then some .nan
  else
    let p := ps.any fun v => v == .inf false
    let n := ps.any fun v => v == .inf true
    if p && n then some .nan else if p then some (.inf false) else if n then some (.inf true) else none

/-- The exponent of a product in R194. -/
def prodExp (ta tb : MType) : Val × Val → Option Int
  | (.fin _ m1 e1, .fin _ m2 e2) =>
    if m1 = 0 ∨ m2 = 0 then none else some (ta.expOf m1 e1 + tb.expOf m2 e2 + 2)
  | _ => none

/-- A product truncated toward zero to the grid `2^g`, as an integer. -/
def truncOn (g : Int) : Val → Int
  | .fin n m e =>
    let q := if g ≤ e then m <<< (e - g).toNat else m >>> (g - e).toNat
    if n then -(q : Int) else (q : Int)
  | _ => 0

/-- The exact sum of values. -/
def sumVals (vs : List Val) : Val := vs.foldl Val.add (.zero false)

/-- One run of cell (`i`, `j`): the pairs at its `b` K indices (R193 to R195). -/
def runOf (c : RateClass) (ta tb : MType) (sa sb : Nat) (ab : List (Val × Val)) : Run :=
  let ps := ab.map fun (a, b) => a.mul b
  let sc : Int := (sa : Int) + (sb : Int) - 254
  if sa = 255 ∨ sb = 255 then ⟨.nan, .nan, sc, none⟩
  else
    match specialSum ps with
    | some v => ⟨v, v, sc, none⟩
    | none =>
      let ex := sumVals ps
      if c.exact then ⟨ex, ex, sc, none⟩
      else
        match (ab.filterMap (prodExp ta tb)).max? with
        | none => ⟨.zero false, ex, sc, none⟩
        | some er =>
          let g := er - ((ta.sigBits + tb.sigBits : Nat) : Int) - 3
          let r := ps.foldl (fun (a : Int) p => a + truncOn g p) 0
          ⟨.ofInt r g, ex, sc, some (ab.length - 1, g)⟩

/-- Run `n` of length `b` at cell (`i`, `j`) of a pair of sides. -/
def Side.run (c : RateClass) (a b : Side) (len n i j : Nat) : Run :=
  let k0 := n * len
  runOf c a.ty b.ty (a.scale i k0) (b.scale j k0)
    ((List.range len).map fun t => (a.elem i (k0 + t), b.elem j (k0 + t)))

/-! ### Promotion (R196, R197) -/

/-- An element of a group: sum and compensation, FP32 patterns (R197). -/
structure Pair where
  s : Word
  c : Word
  deriving DecidableEq, Repr

def Pair.zero : Pair := ⟨0, 0⟩

/-- What promotions raise: ACC_NAN, ACC_INF, ACC_FLUSH (R206). -/
structure AccFlags where
  nan : Bool := false
  inf : Bool := false
  flush : Bool := false
  deriving DecidableEq, Repr

def AccFlags.or (a b : AccFlags) : AccFlags := ⟨a.nan || b.nan, a.inf || b.inf, a.flush || b.flush⟩

/-- A nonzero exact value that a rounding into FP32 delivers as zero. -/
def flushes (v : Val) : Bool := !v.isZero && (v.round 23).isZero

/-- The promoted value of an exact value, with the flags its forming raises (R196): a zero promotes as +0, and a nonzero value
below the range becomes zero of its sign (log 32: the rule's bullet, where its last sentence calls every zero +0). -/
def promoted (v : Val) : Val × AccFlags :=
  match v with
  | .nan => (.nan, {})
  | .inf n => (.inf n, { inf := true })
  | .fin n m e =>
    if m = 0 then (.zero false, {})
    else if floorLog2 m e < -126 then (.zero n, { flush := true })
    else if 127 < floorLog2 m e then (.inf n, { inf := true })
    else (v, {})

/-- Add a promoted value to a pair (R197). -/
def Pair.promote (p : Pair) (x : Val) : Pair × AccFlags :=
  let s := f32 p.s
  let c := f32 p.c
  if s.isNan || c.isNan || x.isNan then (⟨nan32, 0⟩, { nan := true })
  else if s.isInf || x.isInf then
    let v := s.add x
    (⟨toF32 v, 0⟩, { nan := v.isNan })
  else
    let ex := s.add x
    let t := ex.round 23
    if t.isInf then (⟨toF32 t, 0⟩, { inf := true })
    else
      let e := ex.sub t
      let e' := e.flush
      let ce := c.add e'
      (⟨toF32 t, toF32 ce⟩,
        { flush := (!e.isZero && e'.isZero) || flushes ce, inf := (ce.round 23).isInf })

/-- Promote an exact value: its forming and its adding (R196, R197). -/
def Pair.add (p : Pair) (v : Val) : Pair × AccFlags :=
  let (x, f) := promoted v
  let (q, g) := p.promote x
  (q, f.or g)

/-- The exact value of a pair (R147). -/
def Pair.value (p : Pair) : Val := (f32 p.s).add (f32 p.c)

/-! ### Exact fixed-point sums: proof mode and the comparator -/

/-- The engine's grid: integers scaled by `2^-300` (R215). -/
def grid300 : Int := -300

/-- A finite value in units of `2^-300`; the values that occur are multiples of it (R215). -/
def fix300 : Val → Int
  | .fin n m e => truncOn grid300 (.fin n m e)
  | _ => 0

/-- One exact accumulator of a proof engine and its flags (R215). -/
structure Exact where
  sum : Int
  nan : Bool
  pinf : Bool
  ninf : Bool
  deriving DecidableEq, Repr

def Exact.zero : Exact := ⟨0, false, false, false⟩

/-- The accumulator keeps its sum as a 640-bit two's-complement integer (R215). -/
def wrap640 (i : Int) : Int := (i + 2 ^ 639) % 2 ^ 640 - 2 ^ 639

def Exact.add (a : Exact) (v : Val) : Exact :=
  match v with
  | .nan => { a with nan := true }
  | .inf n => if n then { a with ninf := true } else { a with pinf := true }
  | v => { a with sum := wrap640 (a.sum + fix300 v) }

/-- The result the engine forms (R218): an exact zero gives +0. -/
def Exact.result (a : Exact) : Word :=
  if a.nan || (a.pinf && a.ninf) then nan32
  else if a.pinf then toF32 (.inf false)
  else if a.ninf then toF32 (.inf true)
  else toF32 (.ofInt a.sum grid300)

/-- The comparator's terms of one cell since GRP_OPEN: D, T and whether a NaN or infinity left it out (R466,
R467), in units of `2^-300`. -/
structure Chk where
  d : Int
  t : Int
  skip : Bool
  deriving DecidableEq, Repr

def Chk.zero : Chk := ⟨0, 0, false⟩

/-- The comparator after one promotion of `got` where the checksum cells formed `want` (R465, R466). -/
def Chk.add (k : Chk) (got want : Val) (bound : Option (Nat × Int)) (scale : Int) : Chk :=
  if got.special || want.special || (promoted got).1.special then { k with skip := true }
  else
    let t := match bound with
      | some (n, g) => fix300 (.ofInt (n : Int) (g + scale))
      | none => 0
    { k with d := k.d + (fix300 got - fix300 want), t := k.t + t }

/-- Whether a row or column of terms is in mismatch at MULT, and whether it is skipped (R467). -/
def Chk.mismatch (mult : Nat) (ks : List Chk) : Bool × Bool :=
  if ks.any (·.skip) then (false, true)
  else
    let d := ks.foldl (fun a k => a + k.d) (0 : Int)
    let t := ks.foldl (fun a k => a + k.t) (0 : Int)
    (decide ((mult : Int) * t < 4 * (d.natAbs : Int)), false)

/-! ### The outlier side path (R208 to R211) -/

/-- One entry of an outlier tile, as stored (R172). -/
structure Entry where
  value : Half
  index : Nat
  valid : Bool
  block : Nat
  deriving DecidableEq, Repr

/-- The entry in 8 bytes read at `a` (R172). -/
def Entry.read (r : Reader) (a : Nat) : Entry :=
  ⟨BitVec.ofNat 16 (rdLe r a 2), (r (a + 2)).toNat, (r (a + 3)).toNat % 2 == 1, rdLe r (a + 4) 4⟩

/-- The stored position of an entry in its 64 x 64 tile, if it lies inside (R209). A format without blocks has no
positions. -/
def Entry.position (f : Fmt) (n : Entry) : Option (Nat × Nat) :=
  match f with
  | .mx .. | .ts .. =>
    if n.block < f.blocks 64 64 ∧ n.index < f.blockLen then some (f.position 64 64 n.block n.index) else none
  | _ => none

end Sys2Proof.Machine
end

