-- ==== Sys2Proof/Machine/Types.lean ====
section
/-!
DEFINITION. The names of the parts of the package (01_package_and_levels.md R11, R12, R14, R44).
-/
namespace Sys2Proof.Machine

/-- A compute die CD0 to CD15. -/
abbrev Die := Fin 16

/-- A link die LD0 to LD3. -/
abbrev LinkDie := Fin 4

/-- A partition (R38). -/
abbrev Part := Fin 8

/-- A hall port 0 to 47, or 48 for the twin port (R19, R230). -/
abbrev Port := Fin 49

/-- A lane of the package: lane `l` of link die `k` (R19). -/
structure Lane where
  ld : LinkDie
  n : Fin 50
  deriving DecidableEq, Repr

/-- Region `r` of a compute die. -/
structure RegionId where
  d : Die
  r : Fin 4
  deriving DecidableEq, Repr

/-- A logical cluster. -/
structure ClusterId where
  d : Die
  r : Fin 4
  c : Fin 8
  deriving DecidableEq, Repr

/-- A logical unit by its index `8 c + u` in its region (R44). With `alt` it is not the unit itself but spare position
64 + k, which replays for it (R479, R480). -/
structure LU where
  d : Die
  r : Fin 4
  n : Fin 64
  alt : Option (Fin 2)
  deriving DecidableEq, Repr

/-- A physical unit by its position (R12). -/
structure PU where
  d : Die
  r : Fin 4
  p : Fin 66
  deriving DecidableEq, Repr

def LU.region (u : LU) : RegionId := ⟨u.d, u.r⟩

def PU.region (u : PU) : RegionId := ⟨u.d, u.r⟩

/-- The logical cluster of a logical unit (R44). -/
def LU.cluster (u : LU) : ClusterId := ⟨u.d, u.r, ⟨u.n.val / 8, by omega⟩⟩

/-- The unit's index in its cluster. -/
def LU.inCluster (u : LU) : Nat := u.n.val % 8

def ClusterId.region (c : ClusterId) : RegionId := ⟨c.d, c.r⟩

/-- The link die that a compute die is bonded to (R15): CD 4k to CD 4k+3 to LD k. -/
def linkDieOf (d : Die) : LinkDie := ⟨d.val / 4, by omega⟩

/-- Mesh hops between two compute dies of the 4 x 4 grid (R14, R17). -/
def hops (a b : Die) : Nat :=
  let dx := fun (x y : Nat) => if x < y then y - x else x - y
  dx (a.val / 4) (b.val / 4) + dx (a.val % 4) (b.val % 4)

/-- Hops from a die to the nearest die bonded to link die `k` (R259): along the column to row `k`. -/
def hopsToLink (a : Die) (k : LinkDie) : Nat :=
  let x := a.val / 4
  if x < k.val then k.val - x else x - k.val

/-- The link die of a hall port; a twin lane's die depends on the lane (R19). -/
def portLinkDie (p : Port) (lane : Nat) : LinkDie :=
  if p.val = 48 then ⟨lane / 2 % 4, by omega⟩ else ⟨p.val / 12 % 4, by omega⟩

/-- All compute dies, link dies, partitions, regions. -/
def allDies : List Die := List.finRange 16
def allLinkDies : List LinkDie := List.finRange 4
def allParts : List Part := List.finRange 8
def dieRegions (d : Die) : List RegionId := (List.finRange 4).map fun r => ⟨d, r⟩
def allRegions : List RegionId := allDies.flatMap dieRegions
def regionLus (r : RegionId) : List LU := (List.finRange 64).map fun n => ⟨r.d, r.r, n, none⟩
def regionPus (r : RegionId) : List PU := (List.finRange 66).map fun p => ⟨r.d, r.r, p⟩
def regionClusters (r : RegionId) : List ClusterId := (List.finRange 8).map fun c => ⟨r.d, r.r, c⟩

/-- Clock domains (R516). -/
inductive ClkDom where
  | region (r : RegionId)
  | uncore (d : Die)
  | hbm (d : Die)
  | linkLogic (k : LinkDie)
  | linkSerdes (k : LinkDie)
  | xd (i : Fin 8)
  deriving DecidableEq, Repr

/-- The gears (02_hall_time.md). -/
inductive Gear where
  | full | threeQuarter | half
  deriving DecidableEq, Repr

/-- The ticks that `c` core cycles take at a gear (R10), rounded up at three-quarter gear, where the spec gives the average
rate alone (DESIGN CHOICE, log 2). -/
def Gear.ticks (g : Gear) (c : Nat) : Nat :=
  match g with
  | .full => c
  | .threeQuarter => (4 * c + 2) / 3
  | .half => 2 * c

/-- Whether a core edge falls on tick `t` of a furrow: the pattern of edges is the model's (log 2). -/
def Gear.edge (g : Gear) (t : Nat) : Bool :=
  match g with
  | .full => true
  | .threeQuarter => t % 4 != 1
  | .half => t % 2 == 0

end Sys2Proof.Machine
end

