-- ==== Sys2Proof/Machine/UnitTypes.lean ====
section
/-!
DEFINITION. The tensor unit's data: the operand fields of its slots (06_unit_programming.md R236 to R248), operands
as descriptors name them (R228 to R231), operations in flight (R235, R258) and the state of one unit.
-/
namespace Sys2Proof.Machine

/-! ### Slot fields -/

/-- M.MMA (R236). -/
structure MmaOp where
  group : Fin 4
  adesc : Fin 64
  areg : Fin 16
  bdesc : Fin 64
  breg : Fin 16
  oga : Option (Fin 8)
  ogb : Option (Fin 8)
  deriving DecidableEq, Repr

/-- GRP_OPEN (R236): `load` is MODE. -/
structure OpenOp where
  group : Fin 4
  load : Bool
  proof : Bool
  desc : Fin 64
  areg : Fin 16
  deriving DecidableEq, Repr

/-- W.WRITE (R239): `srcg` says that the source is a group. -/
structure WriteOp where
  prof : Fin 8
  srcg : Bool
  src : Fin 64
  sreg : Fin 16
  dst : Fin 64
  dreg : Fin 16
  aux : Fin 64
  deriving DecidableEq, Repr

/-- A local or far move of the X slot (R243). -/
structure MoveOp where
  ldesc : Fin 64
  lreg : Fin 16
  fdesc : Fin 64
  freg : Fin 16
  slot : Fin 128
  fsel : Bool
  gal : Fin 8
  deriving DecidableEq, Repr

/-- The slots of a bundle in bundle order (R225). -/
inductive Slot where
  | m | w | v | x | a | l
  deriving DecidableEq, Repr

def Slot.rank : Slot → Nat
  | .m => 0
  | .w => 1
  | .v => 2
  | .x => 3
  | .a => 4
  | .l => 5

/-! ### Operands -/

/-- Spaces of a far descriptor (R230). -/
inductive Space where
  | cache | hbm | send | recv | red
  deriving DecidableEq, Repr

/-- A far target with its offset applied (R230). -/
structure Far where
  space : Space
  die : Die
  addr : Nat
  port : Fin 64
  lane : Fin 8
  buf : Fin 8
  deriving DecidableEq, Repr

/-- A local operand with its offsets applied (R228, R229). -/
structure Opnd where
  fmt : Option Fmt
  tr : Bool
  rows : Nat
  cols : Nat
  eb : Nat
  sb : Nat
  estride : Nat
  sstride : Nat
  gal : Option (Fin 8)
  deriving DecidableEq, Repr

/-- Bytes of one row group of the element array, and how many groups there are (R228 ESTRIDE). A CF8 row is whole blocks of
66 B (R141). R228 names no group for CF8, CF16 and AQ: a row of CF8 (its blocks, the last rounded up) and of CF16 is taken as
one, and an AQ array is one group, which ESTRIDE does not divide (DESIGN CHOICE, log 32). -/
def Opnd.group (o : Opnd) : Nat × Nat :=
  match o.fmt with
  | some (.ts t e) => (t.shape.1 * o.cols * e.bits / 8, o.rows / t.shape.1)
  | some (.mx true e) => (o.rows * e.bits / 8, o.cols)
  | some (.aq n u) => (Fmt.arrayBytes (.aq n u) o.rows o.cols, 1)
  | some .cf8 => ((o.cols + 63) / 64 * 66, o.rows)
  | some f => (o.cols * f.elemBits / 8, o.rows)
  | none => (o.cols, o.rows)

/-- Bytes of one row of scales, and how many rows there are (R228 SSTRIDE). -/
def Opnd.scaleGroup (o : Opnd) : Nat × Nat :=
  match o.fmt with
  | some (.ts t _) => (o.cols / t.shape.2, o.rows / t.shape.1)
  | some (.mx true _) => (o.rows / 32, o.cols)
  | some (.mx false _) => (o.cols / 32, o.rows)
  | _ => (0, 0)

/-- Where the scale array of an operand begins in its virtual byte space. -/
def scaleOrigin : Nat := 16777216

/-- The scratchpad byte of a virtual byte of the operand: element bytes from 0, scales from `scaleOrigin`. -/
def Opnd.phys (o : Opnd) (v : Nat) : Nat :=
  if v < scaleOrigin then
    let g := max o.group.1 1
    (o.eb + v / g * o.estride + v % g) % 2 ^ 20
  else
    let v := v - scaleOrigin
    let g := max o.scaleGroup.1 1
    (o.sb + v / g * o.sstride + v % g) % 2 ^ 20

/-- The index of scratchpad byte `p` in an array of `n` groups of `g` bytes at `base` with a stride. -/
def unstride (base g n stride p : Nat) : Option Nat :=
  let d := (p + 2 ^ 20 - base % 2 ^ 20) % 2 ^ 20
  let q := if stride = 0 then 0 else d / stride
  let r := if stride = 0 then d else d % stride
  if q < n ∧ r < g then some (q * g + r) else none

/-- The virtual byte of a scratchpad byte, if the operand covers it. -/
def Opnd.virt (o : Opnd) (p : Nat) : Option Nat :=
  match unstride o.eb o.group.1 o.group.2 o.estride p with
  | some v => some v
  | none => (unstride o.sb o.scaleGroup.1 o.scaleGroup.2 o.sstride p).map (· + scaleOrigin)

/-- The lines that `n` bytes from `a` touch, in order. -/
def linesOf (a n : Nat) : List Nat :=
  if n = 0 then [] else
  (List.range ((a % 128 + n + 127) / 128)).map fun k => (a / 128 + k) % 8192

/-- The lines a local operand touches, each once: element rows, then scale rows (R231). -/
def Opnd.lines (o : Opnd) : List Nat :=
  let (g, n) := o.group
  let (h, m) := o.scaleGroup
  (((List.range n).flatMap fun q => linesOf ((o.eb + q * o.estride) % 2 ^ 20) g)
    ++ ((List.range m).flatMap fun q => linesOf ((o.sb + q * o.sstride) % 2 ^ 20) h)).eraseDups

/-- Bytes of a 64 x 64 record and the tiles it takes (R261). -/
def recordBytes (f : Fmt) : Nat :=
  f.arrayBytes 64 64 + (if f.blockScaled then f.blocks 64 64 else 0)

def recordTiles (f : Fmt) : Nat := (recordBytes f + 2047) / 2048

/-! ### Operations in flight -/

/-- What one line access does: it reads into its operation; it writes the destination line `n` of its operation; it
writes given bytes; it lands an inbound line; it only takes its bank, for a line of a tile that enters its galley when its
last line lands (`hall`: the tile comes from the fabric, on Hall Time, R256), or for a line that shows later (R258: X.POP
and X.MON). -/
inductive Access where
  | read
  | out
  | data (b : List (Option Byte)) (blank : Bool)
  | land (b : List (Option Byte)) (blank : Bool)
  | tile (hall : Bool)
  | claim
  deriving DecidableEq, Repr

def Access.isTile : Access → Bool
  | .tile _ => true
  | _ => false

/-- Whether an access goes on in a suppressed cycle (R256). -/
def Access.isLand : Access → Bool
  | .land _ _ => true
  | .tile h => h
  | _ => false

/-- One line access still to come: the unit's cycle, the line, the stream and line number it belongs to (R233, R235).
With `gal` the line counts in the tile `n / 16` that the stream pops from that galley. -/
structure LineAcc where
  due : Nat
  line : Nat
  gal : Option (Fin 8)
  stream : Nat
  n : Nat
  act : Access
  deriving DecidableEq, Repr

/-- A pop still to come of a multi-tile operand: the cycle, the galley, the stream and the tile's number in it. -/
structure PopDue where
  due : Nat
  gal : Fin 8
  stream : Nat
  tile : Nat
  deriving DecidableEq, Repr

/-- What the accesses of an operation have brought so far: lines read, by stream and line number, and the tiles
popped (`none` is a blank tile), by stream and tile number; whether anything read was blank; the lines written later than
their access that lost their bank; the stamps of the lines of a pushed tile that have landed (R272). -/
structure Caught where
  lines : AMap (Nat × Nat) (List Byte)
  tiles : AMap (Nat × Nat) (Option Nat)
  blank : Bool
  lost : List Nat
  marks : AMap Nat (Word × Word)
  deriving DecidableEq, Repr

def Caught.start : Caught := ⟨.empty, .empty, false, [], .empty⟩

/-- What the runs of an M.MMA from number `run` on added to: the group's pairs and comparator terms and the engine's
accumulators before that run, and the upsets of each run since (R190). -/
structure MmaBase where
  run : Nat
  cells : List Pair
  chk : List Chk
  acc : List Exact
  ups : List (List (Nat × Word))
  deriving DecidableEq, Repr

/-- An M.MMA in flight. `rate` is `none` where its formats were refused; `dead` one adds nothing (R136, R201), a `late`
one was issued before its group's GRP_CLOSE (R202); `base` is kept while a run has taken lines whose access was still to
come (R190, R235); a `crossed` one leaves its group undefined (R269). -/
structure MmaFlight where
  op : MmaOp
  a : Opnd
  b : Opnd
  rate : Option RateClass
  k : Nat
  runLen : Nat
  runs : Nat
  next : Nat
  occ : Nat
  proof : Bool
  dead : Bool
  late : Bool
  base : Option MmaBase
  crossed : Bool
  deriving DecidableEq, Repr

/-- A W.WRITE in flight: the latched profile, mask and limits (R155), its source, the pairs it read of a group, its
input's extent, its destination, the cycle at which it completes, and the tiles it pushed so far. A `refused` one writes nothing (R156); a `blank` one writes blanks (R469); a `counted` one has added its
counts; a `crossed` one has crossed a step boundary: it writes free values (R269) and counts in the previous-step bank
(R178). -/
structure WFlight where
  profile : DWord
  mask : Nat
  limits : Word
  src : Option Opnd
  cells : List Pair
  rows : Nat
  cols : Nat
  fmt : Fmt
  dst : Opnd
  aux : Opnd
  done : Nat
  blank : Bool
  refused : Bool
  tiles : Nat
  pushed : Nat
  counted : Bool
  crossed : Bool
  deriving DecidableEq, Repr

/-- The kinds of move (R243). -/
inductive MoveKind where
  | ld | st | send | recv | push | pop | racc | iload | wtbl | dtbl | eng | mon
  deriving DecidableEq, Repr

/-- A move in flight: its local lines in order, its far target, its fixed ticks, the tick and cycle of its issue, the
tag it names (R265), the number of lines and of those landed. A `dead` one delivers zeros or nothing (R245); `bank` is
the instruction bank an X.ILOAD fills (R267); `gal` the galley a pushed tile goes to. `own` says that no step boundary has
passed (R269), `err` that an error response has been counted (R617), `pushed` counts the tiles put into `gal`, `checked` that
an X.RECV has tested its tag (R266). `who` is the partition and step that its suspect events are charged to (R34); a move
that is not `carried` found no fabric slot (R16, log 30). -/
structure MoveFlight where
  kind : MoveKind
  lines : List Nat
  far : Option Far
  fixed : Nat
  issueTick : Nat
  tag : Nat
  next : Nat
  total : Nat
  dead : Bool
  gal : Option (Fin 8)
  bank : Bool
  own : Bool
  err : Bool
  checked : Bool
  pushed : Nat
  opnd : Option Opnd
  who : Option (Part × Nat)
  carried : Bool
  deriving DecidableEq, Repr

/-- What an operation in flight is; a `deposit` is the landing of an engine's rows and placement words, a `tile` the lines
of a tile that the drill pushes (R385). A LOAD that has `crossed` a step boundary leaves its group undefined (R269). -/
inductive FlightKind where
  | mma (f : MmaFlight)
  | load (group : Fin 4) (crossed : Bool)
  | write (f : WFlight)
  | vld (vd : Fin 16) (o : Opnd)
  | vst
  | deposit
  | tile
  | move (f : MoveFlight)
  deriving DecidableEq, Repr

/-- An operation in flight, numbered in issue order: its slot, the cycle, bundle and bank of its issue, the reads of it
that timing audit mode has recorded (R274), whether its next tile lands at the end of this cycle (R262), and what is still
to come of it. -/
structure Flight where
  id : Nat
  slot : Slot
  issue : Nat
  bundle : Nat
  verso : Bool
  hits : List Nat
  armed : Bool
  accs : List LineAcc
  pops : List PopDue
  caught : Caught
  kind : FlightKind
  deriving DecidableEq, Repr

/-! ### The unit -/

inductive GroupState where
  | shut | open_ | proof
  deriving DecidableEq, Repr

/-- An accumulation group: its state, pairs and comparator terms, row-major (R199, R466). -/
structure Group where
  st : GroupState
  cells : List Pair
  chk : List Chk
  deriving DecidableEq, Repr

def Group.reset : Group := ⟨.shut, List.replicate 4096 Pair.zero, List.replicate 4096 Chk.zero⟩

/-- A galley's queue: the place of its oldest tile, its count, and the places that hold blank tiles (R260 to R264,
R469). -/
structure Galley where
  head : Fin 16
  count : Nat
  blanks : List Nat
  deriving DecidableEq, Repr

def Galley.reset : Galley := ⟨0, 0, []⟩

/-- An active loop (R249): first and last bundle of the body and the iterations left, this one included. -/
structure Loop where
  first : Nat
  last : Nat
  left : Nat
  deriving DecidableEq, Repr

/-- What holds issue (R251, R254). -/
inductive Hold where
  | none
  | untilTick (t : Nat)
  | untilCycle (c : Nat)
  | halted
  deriving DecidableEq, Repr

/-- The sequencer of a unit. `issued` lists the slots that have issued in this cycle; `newHold`, `newLoop` and `skip`
are what an L-slot operation of this cycle leaves for the next. -/
structure Ctl where
  fetch : Nat
  entry : Nat
  armed : Bool
  verso : Bool
  loops : List Loop
  hold : Hold
  segEnd : Bool
  issued : List Slot
  newHold : Hold
  newLoop : Option (Nat × Nat)
  skip : Nat
  deriving DecidableEq, Repr

def Ctl.reset : Ctl := ⟨0, 0, false, false, [], .none, false, [], .none, none, 0⟩

/-- A result on its way to a vector register (R258). -/
structure VPend where
  due : Nat
  id : Nat
  vd : Fin 16
  val : List Word
  deriving DecidableEq, Repr

/-- A comparison or proof rounding that is running, and the bundle and bank of its GRP_CLOSE (R203, R218, R475); one that
has `crossed` a step boundary leaves its group undefined (R269). -/
structure CmpDue where
  due : Nat
  group : Fin 4
  proof : Bool
  cells : List Chk
  bundle : Nat
  verso : Bool
  crossed : Bool
  deriving DecidableEq, Repr

/-- A GRP_OPEN or GRP_CLOSE of this cycle, which takes effect at its end (R202, R258). -/
inductive GroupPend where
  | open_ (g : Fin 4) (load proof : Bool)
  | close (g : Fin 4) (bundle : Nat) (verso : Bool)
  deriving DecidableEq, Repr

/-- One physical tensor unit (R21). The busy fields are the cycles until which the array, the group load path, the
writer and the X engine are occupied (R258); `badCmp` lists the groups whose last comparison mismatched (R469); `held` the
port cycles of refused moves: inbound or not, the first edge and how many (R136, R244); `galUndef` the cycles at which an
operation of an earlier step would move a galley's pointers (R269). -/
structure UnitS where
  sp : Memory
  blank : List Nat
  vregs : List (List Word)
  aregs : List Word
  apend : List (Fin 16 × Word)
  vpend : List VPend
  dtab : Memory
  wtab : Memory
  recto : Memory
  verso : Memory
  groups : List Group
  galleys : List Galley
  ctl : Ctl
  flights : List Flight
  nextId : Nat
  mBusy : Nat
  loadBusy : Nat
  wBusy : Nat
  xBusy : Nat
  mPend : Option GroupPend
  cmps : List CmpDue
  badCmp : List (Fin 4)
  stamps : AMap Nat (Word × Word × Bool)
  held : List (Bool × Nat × Nat)
  galUndef : List (Nat × Fin 8)
  deriving DecidableEq, Repr

def UnitS.reset : UnitS where
  sp := .empty
  blank := []
  vregs := List.replicate 16 (List.replicate 64 0)
  aregs := List.replicate 16 0
  apend := []
  vpend := []
  dtab := .empty
  wtab := .empty
  recto := .empty
  verso := .empty
  groups := List.replicate 4 Group.reset
  galleys := List.replicate 8 Galley.reset
  ctl := .reset
  flights := []
  nextId := 0
  mBusy := 0
  loadBusy := 0
  wBusy := 0
  xBusy := 0
  mPend := none
  cmps := []
  badCmp := []
  stamps := .empty
  held := []
  galUndef := []

/-- One monitor set (R180, R182): its counters, each held at 0xFFFF_FFFF, and its TRIP word. -/
structure MonSet where
  c : Counts
  trip : Word
  deriving DecidableEq, Repr

def MonSet.zero : MonSet := ⟨{}, 0⟩

/-- What the region keeps for a logical unit: its monitor banks (R178, R179), its write digest (R472), its audit
ring (R275), each record as READ_T, ADDR, BUNDLE and ENTRY, WRITE_T. -/
structure LuS where
  live : List MonSet
  prev : List MonSet
  wdigest : DWord
  audit : AMap Nat (Word × Word × Word × Word)
  deriving DecidableEq, Repr

def LuS.reset : LuS := ⟨List.replicate 16 .zero, List.replicate 16 .zero, 0, .empty⟩

/-- A region: its core clock's gear, the cycles of the furrow so far, the unsuppressed cycles it has counted (R272),
the cap count of the furrow and of the furrow before with their C_m (R527, R531), whether issue is suppressed in the
current cycle (R83, R256), the cycles until a tripped droop suppresses, the good cycles since it suppresses, and whether the
present one is bad (R524), the lag
of the furrow in cycles, the voltage entry it stands at (R522) and that entry's gear, and whether a proof runs it one
step below (R520). -/
structure RegionS where
  gear : Gear
  cyc : Nat
  live : Nat
  q : Nat
  cm : Nat
  qPrev : Nat
  cmPrev : Nat
  suppressed : Bool
  droopIn : Option Nat
  droop : Option Nat
  droopBad : Bool
  lag : Nat
  rail : Word
  railGear : Gear
  proving : Bool
  onDue : Option Nat
  vtab : List (Nat × Word)
  deriving DecidableEq, Repr

def RegionS.reset : RegionS :=
  ⟨.full, 0, 0, 0, 15872, 0, 15872, false, none, none, false, 0, 0, .full, false, none, []⟩

end Sys2Proof.Machine
end

