-- ==== Sys2Proof/Machine/FormeTypes.lean ====
section
/-!
DEFINITION. The tables of a forme, as the chapters name them: update schedules (07_training_step.md R292 to R298),
reduction windows and ring entries (08_gradient_reduction.md R326, R342), drill routes and rake tables
(09_irregular_work.md R381, R392), link slot tables (11_links_and_twin.md R438), variants (07_training_step.md
R311) and what the loading rules read (R687).
-/
namespace Sys2Proof.Machine

/-! ### The update engine (R292, R295, R298) -/

/-- A stream descriptor of an invocation (R298). -/
structure Stream where
  offset : Nat
  space : Nat
  output : Bool
  en : Bool
  srule : Nat
  fmt : Nat
  mon : Fin 16
  second : Nat
  deriving DecidableEq, Repr

/-- An invocation (R292). -/
structure Invocation where
  start : Nat
  prog : Nat
  tensor : Nat
  row0 : Nat
  rows : Nat
  tcols : Nat
  col0 : Nat
  scols : Nat
  streams : List Stream
  deriving DecidableEq, Repr

/-! ### Reduction (R326, R342) -/

/-- A reduction window of a die (R326). -/
structure RedWindow where
  lines : Nat
  blocks : Nat
  pitch : Nat
  tensor : Nat
  sp32 : Bool
  ring : Bool
  glean : Bool
  checker : Die
  expected : Nat
  openAt : Nat
  sealAt : Nat
  hist : Nat
  floor : Nat
  deriving DecidableEq, Repr

inductive RingAction where
  | start | hop | home | pass | end_
  deriving DecidableEq, Repr

/-- A ring entry of a die (R342). -/
structure RingEntry where
  furrow : Nat
  rxSlot : Nat
  txSlot : Nat
  rxPort : Port
  rxLane : Nat
  txPort : Port
  txLane : Nat
  action : RingAction
  cf16 : Bool
  window : Nat
  count : Nat
  rxBack : Nat
  first : Nat
  result : Nat
  hbm : Bool
  deriving DecidableEq, Repr

/-! ### Engines (R381, R392) -/

/-- A route entry of a drill (R381). -/
structure Route where
  link : Bool
  windowDie : Die
  window : Nat
  cap : Nat
  hcap : Nat
  buf0 : Nat
  nb : Nat
  nh : Nat
  deriving DecidableEq, Repr

/-- A buffer record (R381). -/
structure BufRec where
  port : Fin 64
  lane : Fin 8
  buf : Fin 8
  slot : Fin 128
  fsel : Bool
  deriving DecidableEq, Repr

/-- A table of a rake (R392). -/
structure RakeTable where
  hbm : Bool
  die : Die
  base : Nat
  rows : Nat
  pitch : Nat
  fmt : Nat
  cols : Nat
  deriving DecidableEq, Repr

/-- What FORME_LOAD puts into a cluster's engines: the die of each window that a SOW names (R379; its own die where the
forme names none), the drill's routes and buffer list, the rake's registry and reply map (R381, R392, R394). -/
structure ClusterTables where
  cluster : ClusterId
  sowDie : List (Nat × Die)
  routes : List Route
  bufs : List BufRec
  tables : List RakeTable
  reply : List BufRec
  deriving DecidableEq, Repr

/-! ### Links (R438) -/

inductive RKind where
  | none | land | accum | capacity
  deriving DecidableEq, Repr

/-- A link slot table entry (R438). -/
structure LinkEntry where
  send : Bool
  cond : Bool
  tbuf : Fin 8
  rkind : RKind
  rbuf : Fin 8
  rarg : Nat
  part : Part
  deriving DecidableEq, Repr

/-- Whether an entry sends or receives anything. -/
def LinkEntry.used (e : LinkEntry) : Bool := e.send || e.rkind != .none

/-- An entry of a pattern of a lane. -/
structure LinkSlot where
  port : Port
  lane : Fin 8
  pattern : Nat
  slot : Fin 128
  entry : LinkEntry
  deriving DecidableEq, Repr

/-- What an ACCUM entry turns its slot into (R331). -/
structure AccumDesc where
  die : Die
  window : Nat
  elem : Nat
  fmt : Nat
  rows : Nat
  cols : Nat
  deriving DecidableEq, Repr

/-- What a CAPACITY entry does with its slot (R391). -/
structure CapDesc where
  sow : Bool
  die : Die
  window : Nat
  rshift : Nat
  e : Nat
  fmt : Nat
  cols : Nat
  deriving DecidableEq, Repr

/-- An end of a path of the fabric (R15): a compute die, the stack behind a die's HBM interface, a link die behind its
link-die port. -/
inductive FabricEnd where
  | die (d : Die)
  | stack (n : Die)
  | link (k : LinkDie)
  deriving DecidableEq, Repr

/-- A fabric slot (R16): its ends, the compute dies its path passes in order, joined by mesh ports, the tick of the
furrow it opens at, and how many ticks before that its source may fill it (log 30). -/
structure FabricSlot where
  src : FabricEnd
  dst : FabricEnd
  via : List Die
  tick : Nat
  lead : Nat
  deriving DecidableEq, Repr

/-- Who uses the cycles of a cluster port: a unit, the drill or the rake (R23, R377). -/
inductive PortUser where
  | unit (i : Fin 8)
  | drill
  | rake
  deriving DecidableEq, Repr

def engineUser (rake : Bool) : PortUser := if rake then .rake else .drill

/-- Port cycles of a cluster port assigned to a unit or to an engine of the cluster (R23, R377): cycles of the furrow
from `first`, `len` of them, in one direction. -/
structure PortCycles where
  cluster : ClusterId
  inbound : Bool
  first : Nat
  len : Nat
  user : PortUser
  deriving DecidableEq, Repr

/-- The peer the forme expects at a port it claims, and whether it carries degraded tables (R430, R450). -/
structure PortClaim where
  port : Port
  peerNode : Nat
  peerPort : Nat
  lanes : List (Fin 8)
  degradeOk : Bool
  deriving DecidableEq, Repr

/-! ### Variants (R310, R311, R317) -/

inductive VariantKind where
  | plain | cold | snapshot
  deriving DecidableEq, Repr

/-- The snapshot buffer of a snapshot variant: where it lies in each die's stack and the format of the copy (R317,
R318). -/
structure SnapBuf where
  base : Nat
  len : Nat
  fmt : Byte
  deriving DecidableEq, Repr

/-- The two instruction banks of a logical unit in a variant's image (R312, R562). -/
structure BankImage where
  unit : LU
  recto : List Byte
  verso : List Byte
  deriving DecidableEq, Repr

/-- A variant: its kind and gear, its promotion table (R310), for a snapshot variant the variant it is the form of and
its buffer, and its images. -/
structure Variant where
  kind : VariantKind
  gear : Gear
  promotes : List (Nat × Nat)
  snapOf : Option Nat
  snap : Option SnapBuf
  images : List BankImage
  deriving DecidableEq, Repr

/-- A promotable operation (R308): the monitor sets that stand for it and its threshold, 0 for none. -/
structure PromOp where
  sets : List (LU × Fin 16)
  threshold : Nat
  deriving DecidableEq, Repr

/-- A replay table entry (R478). -/
structure ReplayEntry where
  region : RegionId
  unit : LU
  twin : Bool
  bundle : Nat
  verso : Bool
  prog : Nat
  lines : Nat
  area : Nat
  deriving DecidableEq, Repr

/-! ### The forme -/

/-- The unclean policy (R314). -/
inductive Unclean where
  | repeat_ | skip | halt
  deriving DecidableEq, Repr

/-- The NaN policy (08_gradient_reduction.md R363). -/
inductive NanPolicy where
  | suspect | carry
  deriving DecidableEq, Repr

/-- This package's place in the job's verdict tree (R90, R91): its parent port and child ports, its height, its depth,
the tree's depth, and the number of packages (R489). -/
structure Tree where
  parent : Option Port
  children : List Port
  height : Nat
  depth : Nat
  treeDepth : Nat
  packages : Nat
  deriving DecidableEq, Repr

/-- A pair of equal areas in a die's stack: the state pair or the history pair (R282, 08_gradient_reduction.md R353). -/
structure DiePair where
  die : Die
  a : Nat
  b : Nat
  len : Nat
  deriving DecidableEq, Repr

/-- What the forme puts on one of its dies, for the variants it names (all where it names none); `hostSlots` are the
intervals of the furrow that it reserves for host traffic, each its first tick and its length (R18). -/
structure FormeDie where
  die : Die
  variants : List Nat
  windows : List RedWindow
  rings : List RingEntry
  schedule : List Invocation
  programs : List (List Word)
  stepTable : Nat
  stepRows : Nat
  hostSlots : List (Nat × Nat)
  queueBytes : Nat
  deriving DecidableEq, Repr

/-! ### The tables as the image holds them -/

/-- What an image holds of one die's tables, in the order of `Forme.perDie`: windows of 32 B (R326), ring entries of 32 B
(R342), invocations of 160 B (R292). -/
structure DieImage where
  windows : List Byte
  rings : List Byte
  schedule : List Byte
  deriving DecidableEq, Repr

/-- What an image holds of one cluster's engine stores, in the order of `Forme.clusters`: routes of 16 B, buffer records of
4 B (R381), the reply map (R394); and the die of each route's window, which the route entry does not hold. -/
structure ClusterImage where
  routes : List Byte
  routeDies : List Die
  bufs : List Byte
  reply : List Byte
  deriving DecidableEq, Repr

/-- A furrow pattern of a lane: 128 entries of 8 B (R438). -/
structure PatternImage where
  port : Port
  lane : Fin 8
  pattern : Nat
  entries : List Byte
  deriving DecidableEq, Repr

/-- The tables whose bytes the manual lays out; `degraded` names the lane that a degraded pattern does without, `replay`
the entries of 16 B of each region (R478). -/
structure TableImage where
  dies : List DieImage
  clusters : List ClusterImage
  links : List PatternImage
  degraded : List (Nat × PatternImage)
  replay : List (RegionId × List Byte)
  deriving DecidableEq, Repr

/-- A forme (R561, R687) as the loading rules and the other chapters read it; the layout of its image as a whole is not in
the spec (log 20). -/
structure Forme where
  digest : List Byte
  job : Word
  node : Nat
  mirror : Bool
  level : Nat
  twinDup : Bool
  mult : Nat
  dies : List Die
  needs : List LU
  needLanes : List Lane
  length : Nat
  headland : Nat
  verdictAt : Nat
  commitAt : Nat
  tree : Tree
  unclean : Unclean
  nan : NanPolicy
  seed : DWord
  pages : List DiePair
  inBase : Nat
  inLen : Nat
  inCount : Nat
  hists : List DiePair
  redCfg : Word
  perDie : List FormeDie
  clusters : List ClusterTables
  portCycles : List PortCycles
  linkSlots : List LinkSlot
  patterns : List (Port × List Nat)
  degraded : List (Nat × LinkSlot)
  claims : List PortClaim
  accums : List AccumDesc
  caps : List CapDesc
  fabric : List FabricSlot
  galleys : List (LU × Nat)
  prologues : List (LU × Nat × Nat)
  audit : List LU
  shadows : List (LU × LU)
  promotable : List PromOp
  variants : List Variant
  bases : List (Gear × Nat)
  replay : List ReplayEntry
  mailbox : List (RegionId × Nat)
  replayImage : List (RegionId × List Byte)
  guests : List RegionId
  monMap : List (LU × Fin 16 × Nat)
  updMap : List (Die × Fin 16 × Nat)
  dropMap : List (ClusterId × Nat × Nat)
  deriving DecidableEq, Repr

def Forme.onDie (f : Forme) (d : Die) (v : Nat) : Option FormeDie :=
  f.perDie.find? fun e => e.die = d && (e.variants.isEmpty || e.variants.contains v)

/-- The entries of all its link slot tables, the degraded ones among them, that send or receive (R438, R450). -/
def Forme.slotsUsed (f : Forme) : List LinkSlot :=
  (f.linkSlots ++ f.degraded.map (·.2)).filter (·.entry.used)

/-- Whether the forme claims a port, by its claim or by a slot of it that it uses (R40). -/
def Forme.claimsPort (f : Forme) (p : Port) : Bool := f.claims.any (·.port = p) || f.slotsUsed.any (·.port = p)

/-- The ports that the forme claims. -/
def Forme.ports (f : Forme) : List Port := (f.claims.map (·.port) ++ f.slotsUsed.map (·.port)).eraseDups

/-- The twin-port slots that a forme claims: lane and slot index (R40). -/
def Forme.twinSlots (f : Forme) : List (Fin 8 × Fin 128) :=
  (f.slotsUsed.filter (·.port.val = 48)).map fun e => (e.lane, e.slot)

/-- Whether the forme carries a variant of a gear. -/
def Forme.hasGear (f : Forme) (g : Gear) : Bool := f.bases.any (·.1 = g)

/-- What the read and the first checks of an image give (R687 checks 3 to 5): an error response, a digest that does
not match, a structure or version that is wrong, or what the image holds: the forme without the tables whose layouts the
manual gives, and the bytes of those. -/
inductive FormeRead where
  | dmaError
  | badDigest
  | badFormat
  | ok (f : Forme) (t : TableImage)
  deriving DecidableEq, Repr

end Sys2Proof.Machine
end

