-- ==== Sys2Proof/Machine/DieTypes.lean ====
section
/-!
DEFINITION. The data of a compute die beside its regions: memories (10_memory_system.md), update engine
(07_training_step.md) and reduction (08_gradient_reduction.md).
-/
namespace Sys2Proof.Machine

/-- A retirement copy (R413): the page, its spare, the accesses copied, and whether the copy is complete and waits for
the step boundary. -/
structure CopyRun where
  page : Nat
  spare : Nat
  done : Nat
  waits : Bool
  deriving DecidableEq, Repr

/-- Who makes a memory access: an operation of a step, issued on a die, or a host transfer or bulk stream, which
belongs to no step (R284, R406). -/
inductive Issuer where
  | step (d : Die)
  | host
  deriving DecidableEq, Repr

/-- What an access delivers: data, or a blank (R406, R410, R418, R419), or an error answer of the isolation wrapper
(R616). -/
inductive Delivery where
  | data (b : List Byte)
  | blank
  | error
  deriving DecidableEq, Repr

/-! ### The update engine (R292 to R301) -/

/-- An invocation that runs: its number in the schedule, the tick it began and the tick at which its time is over, the
furrow it belongs to, the band and the program word that come next, the element registers of the band, the band's
input and output streams (SP32 outputs as FP32 words). A `bad` one writes nothing (R297). -/
structure InvRun where
  index : Nat
  inv : Invocation
  began : Nat
  ends : Nat
  furrow : Nat
  band : Nat
  pc : Nat
  regs : AMap Nat (List E40)
  ins : AMap Nat (List E40)
  outs : AMap Nat (List E40)
  words : AMap Nat (List Word)
  bad : Bool
  deriving DecidableEq, Repr

/-- The update engine of a die: the invocation that runs, the invocations of the step that have begun or been passed
over, the row of constants in force (R300), the tick of its last write (R456), its monitor banks (R299). -/
structure UpdS where
  run : Option InvRun
  next : Nat
  row : List Word
  wrote : Nat
  live : List MonSet
  prev : List MonSet
  deriving DecidableEq, Repr

def UpdS.reset : UpdS := ⟨none, 0, List.replicate 16 0, 0, List.replicate 16 .zero, List.replicate 16 .zero⟩

/-! ### Reduction (R326 to R364) -/

/-- A block as the adders and the checker hold it: its 64 line elements (integers, or FP32 patterns as numbers) and
its tag (R327). -/
structure RedBlock where
  lines : List Int
  s : Nat
  nan : Bool
  sat : Bool
  count : Nat
  deriving DecidableEq, Repr

/-- A block as the ring carries it (R141 to R144, R344): blank, a CF8 block, or a CF16 block. -/
inductive RingBlock where
  | cf8 (s h : Nat) (sat : Bool) (e : List Int)
  | cf16 (e : List Half)
  deriving DecidableEq, Repr

/-- The three things a member copies to the checker for a gleaned block of a ring entry (R361), and what a PASS or an END
stored, the carried blocks as their bytes. -/
structure RingCopy where
  owner : Die
  entry : Nat
  window : Nat
  block : Nat
  received : Option (List Byte)
  loc : RedBlock
  out : Option (List Byte)
  stored : Option (List Byte)
  deriving DecidableEq, Repr

/-- A contribution that the adders of a die have still to apply (R336, R338): the port and the tick it came by, the bytes
of intake up to its last, its window, and its blocks, each with its 64 elements and their scale codes. -/
structure AdderWork where
  port : Nat
  tick : Nat
  behind : Nat
  window : Nat
  blocks : List (Nat × List (Val × Nat))
  deriving DecidableEq, Repr

/-- The reduction adders of a die: the contributions still to be applied and the bytes of intake still to be taken in
(R338), its windows that are open and those sealed in this step, the ring entries that have run, the result blocks stored
in this step (R354), the windows whose verso record is written, what it has copied as checker and what it has compared
(R360 to R362), and the recto records as they were read at OPEN (R353, R355). -/
structure RedS where
  work : List AdderWork
  owed : Nat
  opened : List Nat
  sealedW : List Nat
  ringDone : List Nat
  stored : List (Nat × Nat)
  recorded : List Nat
  copies : AMap (Die × Nat × Nat) RedBlock
  ringCopies : List RingCopy
  compared : List (Die × Nat × Nat)
  recs : AMap Nat (List Byte)
  deriving DecidableEq, Repr

def RedS.reset : RedS := ⟨[], 0, [], [], [], [], [], .empty, [], [], .empty⟩

/-- A compute die. `syms` lists the accesses of the stack with bad symbols (R408), `cacheBad` the 8 B words of the cache with bad
bits (R419), `blanks` the lines that read as blank (R480), `banks` the banks used in this tick, each with the rank of its source
(R418); `scrubAt`, `copyAt` and `calAt` number the tramline intervals last used for scrub, retirement copy and PHY calibration,
`calCount` is the count of the interval last calibrated in (R403); `tempAt` is the elapsed tick of the last temperature reading
(R404), `repairs` what boot training repaired of the stack's lanes (R397); `refreshed` and `added` are the banks whose refresh began
last, at the base rate and in an added window (R400, R405). -/
structure DieS where
  cache : Memory
  hbm : Memory
  blanks : List Nat
  cacheBad : List (Nat × Nat)
  banks : List (Nat × Nat)
  syms : List (Nat × Nat)
  remap : List (Nat × Nat)
  badSpares : List Nat
  copy : Option CopyRun
  exitArmed : Bool
  hbmRefused : Bool
  scrubAt : Option Nat
  copyAt : Option Nat
  calAt : Option Nat
  calCount : Nat
  refreshed : Option Nat
  added : Option Nat
  tempAt : Option Nat
  repairs : Word
  digest : DWord
  delivered : Option Delivery
  upd : UpdS
  red : RedS
  deriving DecidableEq, Repr

def DieS.reset : DieS where
  cache := .empty
  hbm := .empty
  blanks := []
  cacheBad := []
  banks := []
  syms := []
  remap := []
  badSpares := []
  copy := none
  exitArmed := false
  hbmRefused := false
  scrubAt := none
  copyAt := none
  calAt := none
  calCount := 0
  refreshed := none
  added := none
  tempAt := none
  repairs := 0
  digest := 0
  delivered := none
  upd := .reset
  red := .reset

end Sys2Proof.Machine
end

