-- ==== Sys2Proof/Machine/EngineTypes.lean ====
section
/-!
DEFINITION. The data of a cluster's proof engine (05_matrix_arithmetic.md R215, R216) and of its drill and rake
(09_irregular_work.md R371 to R396).
-/
namespace Sys2Proof.Machine

/-- A proof engine bound to a group (R216): the unit's index in its cluster, the group, and the exact accumulators;
`closing` from GRP_CLOSE on (R218). A PROOF_RUN of the host binds it without a group (`host`, R565). -/
structure ProofS where
  owner : Nat
  group : Fin 4
  acc : List Exact
  closing : Bool
  host : Bool
  deriving DecidableEq, Repr

/-- An item record of a command block (R373). -/
structure Item where
  index : Word
  src : Nat
  pos : Nat
  deriving DecidableEq, Repr

/-- The commands of the drill and the rake (R373). -/
inductive EngOp where
  | sow | pack | drain | gather | pick
  deriving DecidableEq, Repr

/-- A command block as an engine holds it (R373): `dest` has a[FREG] added. `rows` are the rows it carries. -/
structure EngCmd where
  op : EngOp
  fmt : Fmt
  cols : Nat
  rowBytes : Nat
  items : List Item
  rows : List (List Byte)
  target : Nat
  col0 : Nat
  route0 : Nat
  nroute : Nat
  shift : Nat
  ogal : Fin 8
  maxOvf : Nat
  dest : Nat
  deriving DecidableEq, Repr

/-- What an engine sends out once its lines have had their port cycles, or lands in the issuing unit (R376, R377): a row
for a sown window; a capacity buffer; an entry appended to one; the request for row `j`; lines `2 i` and `2 i + 1` of row
`j`. -/
inductive EngOut where
  | sow (die : Die) (window row col0 : Nat) (b : List Byte)
  | fill (r : BufRec) (b : List Byte)
  | append (r : BufRec) (pos : Nat) (index : Word) (b : List Byte)
  | fetch (j : Nat)
  | land (j i : Nat) (b : List Byte) (blank : Bool)
  deriving DecidableEq, Repr

/-- What an engine does in one of its core cycles (R376): it takes up what it sends next, for a DRAIN item `j` after
finding its place; it puts lines `2 i` and `2 i + 1` of `n` on the port; the whole has left; cycle `i` of the push window of
a tile; the placement words of the items `js`. -/
inductive EngStep where
  | take (x : EngOut)
  | item (j : Nat)
  | pair (i n : Nat)
  | send
  | push (is : List Item) (i : Nat)
  | words (js : List Nat)
  deriving DecidableEq, Repr

/-- A command that an engine runs: for which unit, partition and step (a guest replay's is of none, R488), the furrow its X.ENG issued in, its core cycles
from `start`, whether it has begun, and then what is still to be done with the cycle of each, what is on its way out with
the lines of it that were dropped, the tile it is pushing, and the placement words it has made. -/
structure EngRun where
  cmd : EngCmd
  unit : LU
  pos : PU
  part : Part
  ord : Nat
  guest : Bool
  furrow : Nat
  start : Nat
  occ : Nat
  made : Bool
  plan : List (Nat × EngStep)
  cur : Option EngOut
  lost : List Nat
  tile : Option (Option Nat × List Item)
  words : List (Nat × Word)
  deriving DecidableEq, Repr

/-- What an engine has sent, on its way: the tick at which it arrives. -/
structure EngFly where
  at_ : Nat
  run : EngRun
  out : EngOut
  lost : List Nat
  deriving DecidableEq, Repr

/-- A cluster: its engines, the drill's drop counters by route entry with the BADKEY counts, live and previous (R389),
and the headland positions of each route that the DRAINs of a furrow have taken (R387); what its engines have sent and is
still on its way; the reply buffers whose tags have failed a PICK (R394). -/
structure ClusterS where
  proof : Option ProofS
  drill : Option EngRun
  rake : Option EngRun
  drops : AMap Nat Word
  dropsPrev : AMap Nat Word
  badKey : Word
  badKeyPrev : Word
  headFurrow : Nat
  head : AMap Nat Nat
  fly : List EngFly
  blankBufs : List (Nat × Nat)
  deriving DecidableEq, Repr

def ClusterS.reset : ClusterS := ⟨none, none, none, .empty, .empty, 0, 0, 0, .empty, [], []⟩

end Sys2Proof.Machine
end

