-- ==== Sys2Proof/Machine/RegMap.lean ====
section
/-!
DEFINITION. The register map (15_registers.md R579 to R601 and the register tables of every chapter): the register
families, where each lies in its window, the access code of each bit, the reset value and the quoin of WQ bits.
-/
namespace Sys2Proof.Machine

/-- The register families of the manual. -/
inductive RegName where
  | secId | secQuoin | secAccess | secAccessAddr | clkStat | clkRegionLockLo
  | clkRegionLockHi | secState | secDebugCtl | secChal | secFuseCtl | secFuseData
  | secFuseRead | htNodeId | htConfig | htNowLo | htNowHi | htStatus
  | htOffset | htDelay | htSetLo | htSetHi | htSlipCnt | htGear
  | htVlocal | htVhall | htVstep | htVflags | twCfg | twStatus
  | twPeer | twDigestOwnLo | twDigestOwnHi | twDigestTwinLo | twDigestTwinHi | cmdStat
  | cmdPendLo | cmdPendHi | cmdCollectLo | cmdCollectHi | cmdCount | rstLatch
  | rstReplace | rstFaultCnt | rstFaultNext | rstCause | rstStrap | rstBoots
  | rstWdogCnt | rstFw | rstBlock | rstFwVer | rstBackup | pwrCap
  | pwrStatus | pwrVin | pwrPin | pwrEDomLo | pwrEDomHi | pwrEPartLo
  | pwrEPartHi | pwrEInLo | pwrEInHi | pwrEUnassignedLo | pwrEUnassignedHi | pwrJobBaseLo
  | pwrJobBaseHi | faultRec | retained | ldSpareLo | ldSpareHi | ldReact
  | ldLaneStat | ldLaneCw | ldLaneUcw | ldLaneBlank | ldPortStat | ldPortDelay
  | ldPortPeer | cdPartition | tuImpose | tuRegionStat | tuRegionLag | tuRegionRpl
  | cdProofStat | cdDrillStat | cdRakeStat | cdChkCfg | cdFault | cdIso
  | cdUpdStat | cdStep | cdPage | cdPageALo | cdPageAHi | cdPageBLo
  | cdPageBHi | cdPageLenLo | cdPageLenHi | cdInput | updMon | updMonPrev
  | cdRedStat | cdRedCfg | cdRedFallow | cdHist | cdHistALo | cdHistAHi
  | cdHistBLo | cdHistBHi | cdHistLenLo | cdHistLenHi | cdRedExhCnt | cdRedGleanCnt
  | cdRedMismCnt | cdRedNanCnt | cdRedUnfCnt | hbmStat | hbmTemp | hbmCfg
  | hbmCeCnt | hbmUeCnt | hbmRefuseCnt | hbmUeAddrLo | hbmUeAddrHi | hbmScrubPtr
  | hbmScrubPass | hbmRetire | hbmTiming | scStat | scCeCnt | scUeAddr
  | tgCtl | tgBase | tgLen | tgSeed | tgErr | tgFirst
  | tgPass | cdReact | pwrVtab | pwrRegionStat | pwrDroopCyc | pwrCapCyc
  | pwrDroopEv | pwrTj | pwrDieStat | drillDrop | unitMon | tuAccStat
  | tuStat | tuGalleyLo | tuGalleyHi | tuIbank | tuAudit | tuChk
  | tuWdigestLo | tuWdigestHi | auditRec
  deriving DecidableEq, Repr

/-- The window a family lies in: the control die's, a link die's or a compute die's (R584 to R586). -/
inductive Window where
  | xd | ld | cd
  deriving DecidableEq, Repr

/-- A family: its window, the offset of its first register, its two index ranges with their strides, its bits by
access code (R579; RK bits are written as RW bits are and stand with them), the known part of its reset value, and the quoin that locks its WQ bits (R592). -/
structure RegInfo where
  window : Window
  base : Nat
  n1 : Nat
  s1 : Nat
  n2 : Nat
  s2 : Nat
  rw : Word
  wq : Word
  rc : Word
  reset : Word
  quoin : Nat
  deriving DecidableEq, Repr

/-- A row of the table, its words as numbers. -/
def regRow (w : Window) (base n1 s1 n2 s2 rw wq rc reset quoin : Nat) : RegInfo :=
  ⟨w, base, n1, s1, n2, s2, BitVec.ofNat 32 rw, BitVec.ofNat 32 wq, BitVec.ofNat 32 rc, BitVec.ofNat 32 reset, quoin⟩

/-- The table of families. Bits outside `rw`, `wq` and `rc` are RO. UNIT_MON is RO in every word for every requester, TRIP's bits
31:4 among them (DESIGN CHOICE, log 32: R181 makes each word RO, R182 gives those bits the code RK). -/
def RegName.info : RegName → RegInfo
  /- SEC_ID R598 -/ | .secId => regRow .xd 0x0 1 0x0 1 0x0 0xff000000 0x0 0x0 0xc25 0
  /- SEC_QUOIN R599 -/ | .secQuoin => regRow .xd 0x4 1 0x0 1 0x0 0xffffffff 0x0 0x0 0x0 0
  /- SEC_ACCESS R600 -/ | .secAccess => regRow .xd 0x8 1 0x0 1 0x0 0xffffff88 0x0 0x7 0x0 0
  /- SEC_ACCESS_ADDR R600 -/ | .secAccessAddr => regRow .xd 0xc 1 0x0 1 0x0 0x7c000000 0x0 0x80000000 0x0 0
  /- CLK_STAT R601 -/ | .clkStat => regRow .xd 0x10 1 0x0 1 0x0 0xe0000000 0x0 0x10000000 0x0 0
  /- CLK_REGION_LOCK_LO R601 -/ | .clkRegionLockLo => regRow .xd 0x18 1 0x0 1 0x0 0x0 0x0 0x0 0x0 0
  /- CLK_REGION_LOCK_HI R601 -/ | .clkRegionLockHi => regRow .xd 0x1c 1 0x0 1 0x0 0x0 0x0 0x0 0x0 0
  /- SEC_STATE R657 -/ | .secState => regRow .xd 0x800 1 0x0 1 0x0 0xffffffe0 0x0 0x0 0x0 0
  /- SEC_DEBUG_CTL R657 -/ | .secDebugCtl => regRow .xd 0x804 1 0x0 1 0x0 0xfffffff8 0x7 0x0 0x0 6
  /- SEC_CHAL R656 -/ | .secChal => regRow .xd 0x810 4 0x4 1 0x0 0x0 0x0 0x0 0x0 0
  /- SEC_FUSE_CTL R658 -/ | .secFuseCtl => regRow .xd 0x820 1 0x0 1 0x0 0xffff8000 0x1fff 0x4000 0x0 2
  /- SEC_FUSE_DATA R656 -/ | .secFuseData => regRow .xd 0x824 1 0x0 1 0x0 0x0 0xffffffff 0x0 0x0 2
  /- SEC_FUSE_READ R656 -/ | .secFuseRead => regRow .xd 0x828 1 0x0 1 0x0 0x0 0x0 0x0 0x0 0
  /- HT_NODE_ID R43 -/ | .htNodeId => regRow .xd 0x2000 1 0x0 1 0x0 0xffffffff 0x0 0x0 0x0 0
  /- HT_CONFIG R104 -/ | .htConfig => regRow .xd 0x2004 1 0x0 1 0x0 0xffffffff 0x0 0x0 0x0 0
  /- HT_NOW_LO R105 -/ | .htNowLo => regRow .xd 0x2008 1 0x0 1 0x0 0x0 0x0 0x0 0x0 0
  /- HT_NOW_HI R105 -/ | .htNowHi => regRow .xd 0x200c 1 0x0 1 0x0 0x0 0x0 0x0 0x0 0
  /- HT_STATUS R106 -/ | .htStatus => regRow .xd 0x2010 1 0x0 1 0x0 0xfffe0018 0x0 0x1f800 0x0 0
  /- HT_OFFSET R107 -/ | .htOffset => regRow .xd 0x2014 1 0x0 1 0x0 0xffff0000 0x0 0x0 0x0 0
  /- HT_DELAY R107 -/ | .htDelay => regRow .xd 0x2018 1 0x0 1 0x0 0xff000000 0x0 0x0 0x0 0
  /- HT_SET_LO R108 -/ | .htSetLo => regRow .xd 0x2020 1 0x0 1 0x0 0xffffffff 0x0 0x0 0x0 0
  /- HT_SET_HI R108 -/ | .htSetHi => regRow .xd 0x2024 1 0x0 1 0x0 0xffffffff 0x0 0x0 0x0 0
  /- HT_SLIP_CNT R109 -/ | .htSlipCnt => regRow .xd 0x2028 1 0x0 1 0x0 0x0 0x0 0x0 0x0 0
  /- HT_GEAR R110 -/ | .htGear => regRow .xd 0x2030 8 0x4 1 0x0 0xffffff4c 0x0 0x0 0x0 0
  /- HT_VLOCAL R510 -/ | .htVlocal => regRow .xd 0x2100 8 0x10 1 0x0 0x0 0x0 0x0 0x0 0
  /- HT_VHALL R510 -/ | .htVhall => regRow .xd 0x2104 8 0x10 1 0x0 0x0 0x0 0x0 0x0 0
  /- HT_VSTEP R510 -/ | .htVstep => regRow .xd 0x2108 8 0x10 1 0x0 0x0 0x0 0x0 0x0 0
  /- HT_VFLAGS R510 -/ | .htVflags => regRow .xd 0x210c 8 0x10 1 0x0 0xfffffff8 0x0 0x0 0x0 0
  /- TW_CFG R463 -/ | .twCfg => regRow .xd 0x3000 1 0x0 1 0x0 0xffffffff 0x0 0x0 0x0 0
  /- TW_STATUS R464 -/ | .twStatus => regRow .xd 0x3004 1 0x0 1 0x0 0xfffff000 0x0 0xfe0 0x0 0
  /- TW_PEER R463 -/ | .twPeer => regRow .xd 0x3008 1 0x0 1 0x0 0x7fff8000 0x0 0x0 0x0 0
  /- TW_DIGEST_OWN_LO R463 -/ | .twDigestOwnLo => regRow .xd 0x3010 8 0x10 1 0x0 0x0 0x0 0x0 0x0 0
  /- TW_DIGEST_OWN_HI R463 -/ | .twDigestOwnHi => regRow .xd 0x3014 8 0x10 1 0x0 0x0 0x0 0x0 0x0 0
  /- TW_DIGEST_TWIN_LO R463 -/ | .twDigestTwinLo => regRow .xd 0x3018 8 0x10 1 0x0 0x0 0x0 0x0 0x0 0
  /- TW_DIGEST_TWIN_HI R463 -/ | .twDigestTwinHi => regRow .xd 0x301c 8 0x10 1 0x0 0x0 0x0 0x0 0x0 0
  /- CMD_STAT R578 -/ | .cmdStat => regRow .xd 0x4000 1 0x0 1 0x0 0xffffffe0 0x0 0x13 0x0 0
  /- CMD_PEND_LO R577 -/ | .cmdPendLo => regRow .xd 0x4008 1 0x0 1 0x0 0x0 0x0 0x0 0x0 0
  /- CMD_PEND_HI R577 -/ | .cmdPendHi => regRow .xd 0x400c 1 0x0 1 0x0 0x0 0x0 0x0 0x0 0
  /- CMD_COLLECT_LO R577 -/ | .cmdCollectLo => regRow .xd 0x4010 1 0x0 1 0x0 0x0 0x0 0x0 0x0 0
  /- CMD_COLLECT_HI R577 -/ | .cmdCollectHi => regRow .xd 0x4014 1 0x0 1 0x0 0x0 0x0 0x0 0x0 0
  /- CMD_COUNT R577 -/ | .cmdCount => regRow .xd 0x4018 1 0x0 1 0x0 0x0 0x0 0x0 0x0 0
  /- RST_LATCH R511 -/ | .rstLatch => regRow .xd 0x5000 1 0x0 1 0x0 0xffffff00 0x0 0x0 0x0 0
  /- RST_REPLACE R511 -/ | .rstReplace => regRow .xd 0x5004 1 0x0 1 0x0 0xffffffc0 0x0 0x0 0x0 0
  /- RST_FAULT_CNT R511 -/ | .rstFaultCnt => regRow .xd 0x5008 1 0x0 1 0x0 0x0 0x0 0x0 0x0 0
  /- RST_FAULT_NEXT R511 -/ | .rstFaultNext => regRow .xd 0x500c 1 0x0 1 0x0 0xffffff00 0x0 0x0 0x0 0
  /- RST_CAUSE R635 -/ | .rstCause => regRow .xd 0x5020 1 0x0 1 0x0 0xfffffff0 0x0 0x0 0x0 0
  /- RST_STRAP R635 -/ | .rstStrap => regRow .xd 0x5024 1 0x0 1 0x0 0xffffff80 0x0 0x10 0x0 0
  /- RST_BOOTS R634 -/ | .rstBoots => regRow .xd 0x5028 1 0x0 1 0x0 0x0 0x0 0x0 0x0 0
  /- RST_WDOG_CNT R634 -/ | .rstWdogCnt => regRow .xd 0x502c 1 0x0 1 0x0 0x0 0x0 0x0 0x0 0
  /- RST_FW R635 -/ | .rstFw => regRow .xd 0x5030 1 0x0 1 0x0 0xffffff80 0x0 0x70 0x0 0
  /- RST_BLOCK R635 -/ | .rstBlock => regRow .xd 0x5034 1 0x0 1 0x0 0x7ffffc00 0x0 0x0 0x0 0
  /- RST_FW_VER R634 -/ | .rstFwVer => regRow .xd 0x5040 4 0x4 1 0x0 0x0 0x0 0x0 0x0 0
  /- RST_BACKUP R622 -/ | .rstBackup => regRow .xd 0x5100 32 0x4 1 0x0 0xffffffff 0x0 0x0 0x0 0
  /- PWR_CAP R541 -/ | .pwrCap => regRow .xd 0x7000 8 0x4 1 0x0 0x6000e000 0x0 0x0 0x0 0
  /- PWR_STATUS R542 -/ | .pwrStatus => regRow .xd 0x7020 1 0x0 1 0x0 0xffffc03f 0x0 0x3c0 0x0 0
  /- PWR_VIN R540 -/ | .pwrVin => regRow .xd 0x7024 1 0x0 1 0x0 0xffffe000 0x0 0x0 0x0 0
  /- PWR_PIN R540 -/ | .pwrPin => regRow .xd 0x7028 1 0x0 1 0x0 0xffffe000 0x0 0x0 0x0 0
  /- PWR_E_DOM_LO R540 -/ | .pwrEDomLo => regRow .xd 0x7100 96 0x8 1 0x0 0x0 0x0 0x0 0x0 0
  /- PWR_E_DOM_HI R540 -/ | .pwrEDomHi => regRow .xd 0x7104 96 0x8 1 0x0 0x0 0x0 0x0 0x0 0
  /- PWR_E_PART_LO R540 -/ | .pwrEPartLo => regRow .xd 0x7400 8 0x8 1 0x0 0x0 0x0 0x0 0x0 0
  /- PWR_E_PART_HI R540 -/ | .pwrEPartHi => regRow .xd 0x7404 8 0x8 1 0x0 0x0 0x0 0x0 0x0 0
  /- PWR_E_IN_LO R540 -/ | .pwrEInLo => regRow .xd 0x7440 1 0x0 1 0x0 0x0 0x0 0x0 0x0 0
  /- PWR_E_IN_HI R540 -/ | .pwrEInHi => regRow .xd 0x7444 1 0x0 1 0x0 0x0 0x0 0x0 0x0 0
  /- PWR_E_UNASSIGNED_LO R540 -/ | .pwrEUnassignedLo => regRow .xd 0x7448 1 0x0 1 0x0 0x0 0x0 0x0 0x0 0
  /- PWR_E_UNASSIGNED_HI R540 -/ | .pwrEUnassignedHi => regRow .xd 0x744c 1 0x0 1 0x0 0x0 0x0 0x0 0x0 0
  /- PWR_JOB_BASE_LO R540 -/ | .pwrJobBaseLo => regRow .xd 0x7480 8 0x8 1 0x0 0x0 0x0 0x0 0x0 0
  /- PWR_JOB_BASE_HI R540 -/ | .pwrJobBaseHi => regRow .xd 0x7484 8 0x8 1 0x0 0x0 0x0 0x0 0x0 0
  /- FAULT_REC R511 -/ | .faultRec => regRow .xd 0x8000 256 0x20 8 0x4 0x0 0x0 0x0 0x0 0
  /- RETAINED R622 -/ | .retained => regRow .xd 0x10000 16384 0x4 1 0x0 0xffffffff 0x0 0x0 0x0 0
  /- LD_SPARE_LO R459 -/ | .ldSpareLo => regRow .ld 0x10 1 0x0 1 0x0 0x0 0xffffffff 0x0 0x0 5
  /- LD_SPARE_HI R459 -/ | .ldSpareHi => regRow .ld 0x14 1 0x0 1 0x0 0xfffc0000 0x3ffff 0x0 0x0 5
  /- LD_REACT R496 -/ | .ldReact => regRow .ld 0x100 4 0x4 1 0x0 0xffffffff 0x0 0x0 0x0 0
  /- LD_LANE_STAT R461 -/ | .ldLaneStat => regRow .ld 0x1000 50 0x10 1 0x0 0xffff0070 0x0 0xff00 0x0 0
  /- LD_LANE_CW R459 -/ | .ldLaneCw => regRow .ld 0x1004 50 0x10 1 0x0 0x0 0x0 0x0 0x0 0
  /- LD_LANE_UCW R459 -/ | .ldLaneUcw => regRow .ld 0x1008 50 0x10 1 0x0 0x0 0x0 0x0 0x0 0
  /- LD_LANE_BLANK R459 -/ | .ldLaneBlank => regRow .ld 0x100c 50 0x10 1 0x0 0x0 0x0 0x0 0x0 0
  /- LD_PORT_STAT R462 -/ | .ldPortStat => regRow .ld 0x2000 13 0x20 1 0x0 0xfffc003f 0x0 0xc0 0x0 0
  /- LD_PORT_DELAY R459 -/ | .ldPortDelay => regRow .ld 0x2004 13 0x20 1 0x0 0xff000000 0x0 0x0 0x0 0
  /- LD_PORT_PEER R459 -/ | .ldPortPeer => regRow .ld 0x2008 13 0x20 1 0x0 0x7fc08000 0x0 0x0 0x0 0
  /- CD_PARTITION R41 -/ | .cdPartition => regRow .cd 0x40 1 0x0 1 0x0 0xffffffcf 0x0 0x20 0x8 0
  /- TU_IMPOSE R44 -/ | .tuImpose => regRow .cd 0x8000 4 0x100 64 0x4 0xffffff80 0x7f 0x0 0x0 1
  /- TU_REGION_STAT R45 -/ | .tuRegionStat => regRow .cd 0x8400 4 0x4 1 0x0 0xfffff000 0x0 0xe00 0x2 0
  /- TU_REGION_LAG R111 -/ | .tuRegionLag => regRow .cd 0x8410 4 0x4 1 0x0 0xffff0000 0x0 0xffff 0x0 0
  /- TU_REGION_RPL R508 -/ | .tuRegionRpl => regRow .cd 0x8420 4 0x4 1 0x0 0xffffc0fc 0x0 0x0 0x0 0
  /- CD_PROOF_STAT R220 -/ | .cdProofStat => regRow .cd 0x9000 4 0x20 8 0x4 0xfffffe06 0x0 0x100 0x0 0
  /- CD_DRILL_STAT R396 -/ | .cdDrillStat => regRow .cd 0x9400 4 0x20 8 0x4 0xfffffe00 0x0 0xff 0x0 0
  /- CD_RAKE_STAT R396 -/ | .cdRakeStat => regRow .cd 0x9500 4 0x20 8 0x4 0xfffffec1 0x0 0x3e 0x0 0
  /- CD_CHK_CFG R508 -/ | .cdChkCfg => regRow .cd 0x9800 1 0x0 1 0x0 0xfffffe0c 0x0 0x0 0x41 0
  /- CD_FAULT R509 -/ | .cdFault => regRow .cd 0x9804 1 0x0 1 0x0 0xfffffe10 0x0 0x1c0 0x0 0
  /- CD_ISO R636 -/ | .cdIso => regRow .cd 0x9808 1 0x0 1 0x0 0xfffffff0 0x0 0x7 0x0 0
  /- CD_UPD_STAT R322 -/ | .cdUpdStat => regRow .cd 0xa000 1 0x0 1 0x0 0xfffffe00 0x0 0xff 0x0 0
  /- CD_STEP R321 -/ | .cdStep => regRow .cd 0xa008 1 0x0 1 0x0 0x0 0x0 0x0 0x0 0
  /- CD_PAGE R323 -/ | .cdPage => regRow .cd 0xa00c 1 0x0 1 0x0 0xfffffff2 0x0 0x0 0x0 0
  /- CD_PAGE_A_LO R321 -/ | .cdPageALo => regRow .cd 0xa010 1 0x0 1 0x0 0x0 0x0 0x0 0x0 0
  /- CD_PAGE_A_HI R321 -/ | .cdPageAHi => regRow .cd 0xa014 1 0x0 1 0x0 0x0 0x0 0x0 0x0 0
  /- CD_PAGE_B_LO R321 -/ | .cdPageBLo => regRow .cd 0xa018 1 0x0 1 0x0 0x0 0x0 0x0 0x0 0
  /- CD_PAGE_B_HI R321 -/ | .cdPageBHi => regRow .cd 0xa01c 1 0x0 1 0x0 0x0 0x0 0x0 0x0 0
  /- CD_PAGE_LEN_LO R321 -/ | .cdPageLenLo => regRow .cd 0xa020 1 0x0 1 0x0 0x0 0x0 0x0 0x0 0
  /- CD_PAGE_LEN_HI R321 -/ | .cdPageLenHi => regRow .cd 0xa024 1 0x0 1 0x0 0x0 0x0 0x0 0x0 0
  /- CD_INPUT R321 -/ | .cdInput => regRow .cd 0xa028 1 0x0 1 0x0 0xffffff00 0x0 0x0 0x0 0
  /- UPD_MON R321 -/ | .updMon => regRow .cd 0xa400 16 0x40 16 0x4 0x0 0x0 0x0 0x0 0
  /- UPD_MON_PREV R321 -/ | .updMonPrev => regRow .cd 0xa800 16 0x40 16 0x4 0x0 0x0 0x0 0x0 0
  /- CD_RED_STAT R368 -/ | .cdRedStat => regRow .cd 0xb000 1 0x0 1 0x0 0xffff8000 0x0 0x7ffe 0x0 0
  /- CD_RED_CFG R369 -/ | .cdRedCfg => regRow .cd 0xb004 1 0x0 1 0x0 0xffc00000 0x0 0x0 0x80020 0
  /- CD_RED_FALLOW R370 -/ | .cdRedFallow => regRow .cd 0xb008 1 0x0 1 0x0 0x0 0x0 0x0 0x0 0
  /- CD_HIST R370 -/ | .cdHist => regRow .cd 0xb00c 1 0x0 1 0x0 0xfffffffe 0x0 0x0 0x0 0
  /- CD_HIST_A_LO R366 -/ | .cdHistALo => regRow .cd 0xb010 1 0x0 1 0x0 0x0 0x0 0x0 0x0 0
  /- CD_HIST_A_HI R366 -/ | .cdHistAHi => regRow .cd 0xb014 1 0x0 1 0x0 0x0 0x0 0x0 0x0 0
  /- CD_HIST_B_LO R366 -/ | .cdHistBLo => regRow .cd 0xb018 1 0x0 1 0x0 0x0 0x0 0x0 0x0 0
  /- CD_HIST_B_HI R366 -/ | .cdHistBHi => regRow .cd 0xb01c 1 0x0 1 0x0 0x0 0x0 0x0 0x0 0
  /- CD_HIST_LEN_LO R366 -/ | .cdHistLenLo => regRow .cd 0xb020 1 0x0 1 0x0 0x0 0x0 0x0 0x0 0
  /- CD_HIST_LEN_HI R366 -/ | .cdHistLenHi => regRow .cd 0xb024 1 0x0 1 0x0 0x0 0x0 0x0 0x0 0
  /- CD_RED_EXH_CNT R367 -/ | .cdRedExhCnt => regRow .cd 0xb030 1 0x0 1 0x0 0x0 0x0 0x0 0x0 0
  /- CD_RED_GLEAN_CNT R367 -/ | .cdRedGleanCnt => regRow .cd 0xb034 1 0x0 1 0x0 0x0 0x0 0x0 0x0 0
  /- CD_RED_MISM_CNT R367 -/ | .cdRedMismCnt => regRow .cd 0xb038 1 0x0 1 0x0 0x0 0x0 0x0 0x0 0
  /- CD_RED_NAN_CNT R367 -/ | .cdRedNanCnt => regRow .cd 0xb03c 1 0x0 1 0x0 0x0 0x0 0x0 0x0 0
  /- CD_RED_UNF_CNT R367 -/ | .cdRedUnfCnt => regRow .cd 0xb040 1 0x0 1 0x0 0x0 0x0 0x0 0x0 0
  /- HBM_STAT R424 -/ | .hbmStat => regRow .cd 0xc000 1 0x0 1 0x0 0xfffff000 0x0 0xffc 0x0 0
  /- HBM_TEMP R425 -/ | .hbmTemp => regRow .cd 0xc004 1 0x0 1 0x0 0xfffe0000 0x0 0xff00 0x0 0
  /- HBM_CFG R425 -/ | .hbmCfg => regRow .cd 0xc008 1 0x0 1 0x0 0xffffffff 0x0 0x0 0x6 0
  /- HBM_CE_CNT R423 -/ | .hbmCeCnt => regRow .cd 0xc00c 1 0x0 1 0x0 0x0 0x0 0x0 0x0 0
  /- HBM_UE_CNT R423 -/ | .hbmUeCnt => regRow .cd 0xc010 1 0x0 1 0x0 0x0 0x0 0x0 0x0 0
  /- HBM_REFUSE_CNT R423 -/ | .hbmRefuseCnt => regRow .cd 0xc014 1 0x0 1 0x0 0x0 0x0 0x0 0x0 0
  /- HBM_UE_ADDR_LO R425 -/ | .hbmUeAddrLo => regRow .cd 0xc018 1 0x0 1 0x0 0x3f 0x0 0x0 0x0 0
  /- HBM_UE_ADDR_HI R425 -/ | .hbmUeAddrHi => regRow .cd 0xc01c 1 0x0 1 0x0 0x7ffff8f0 0x0 0x80000000 0x0 0
  /- HBM_SCRUB_PTR R422 -/ | .hbmScrubPtr => regRow .cd 0xc020 1 0x0 1 0x0 0xc0000000 0x0 0x0 0x0 0
  /- HBM_SCRUB_PASS R422 -/ | .hbmScrubPass => regRow .cd 0xc024 1 0x0 1 0x0 0x0 0x0 0x0 0x0 0
  /- HBM_RETIRE R422 -/ | .hbmRetire => regRow .cd 0xc028 1 0x0 1 0x0 0xffffc000 0x0 0x0 0x0 0
  /- HBM_TIMING R422 -/ | .hbmTiming => regRow .cd 0xc100 64 0x4 1 0x0 0x0 0xffffffff 0x0 0x0 4
  /- SC_STAT R427 -/ | .scStat => regRow .cd 0xc800 1 0x0 1 0x0 0xfffffff8 0x0 0x7 0x0 0
  /- SC_CE_CNT R423 -/ | .scCeCnt => regRow .cd 0xc804 1 0x0 1 0x0 0x0 0x0 0x0 0x0 0
  /- SC_UE_ADDR R422 -/ | .scUeAddr => regRow .cd 0xc808 1 0x0 1 0x0 0x7000007f 0x0 0x80000000 0x0 0
  /- TG_CTL R426 -/ | .tgCtl => regRow .cd 0xd000 32 0x20 1 0x0 0xfffff8ff 0x0 0x500 0x0 0
  /- TG_BASE R426 -/ | .tgBase => regRow .cd 0xd004 32 0x20 1 0x0 0xffffffff 0x0 0x0 0x0 0
  /- TG_LEN R426 -/ | .tgLen => regRow .cd 0xd008 32 0x20 1 0x0 0xffffffff 0x0 0x0 0x0 0
  /- TG_SEED R426 -/ | .tgSeed => regRow .cd 0xd00c 32 0x20 1 0x0 0xffffffff 0x0 0x0 0x0 0
  /- TG_ERR R426 -/ | .tgErr => regRow .cd 0xd010 32 0x20 1 0x0 0x0 0x0 0x0 0x0 0
  /- TG_FIRST R426 -/ | .tgFirst => regRow .cd 0xd014 32 0x20 1 0x0 0x7e000000 0x0 0x0 0x0 0
  /- TG_PASS R426 -/ | .tgPass => regRow .cd 0xd018 32 0x20 1 0x0 0x0 0x0 0x0 0x0 0
  /- CD_REACT R494 -/ | .cdReact => regRow .cd 0xe000 32 0x4 1 0x0 0xffffffff 0x0 0x0 0x0 0
  /- PWR_VTAB R544 -/ | .pwrVtab => regRow .cd 0xf000 4 0x20 3 0x4 0xff000000 0xffffff 0x0 0x0 0
  /- PWR_REGION_STAT R545 -/ | .pwrRegionStat => regRow .cd 0xf00c 4 0x20 1 0x0 0x8000ffc3 0x0 0xc 0x0 0
  /- PWR_DROOP_CYC R543 -/ | .pwrDroopCyc => regRow .cd 0xf010 4 0x20 1 0x0 0x0 0x0 0x0 0x0 0
  /- PWR_CAP_CYC R543 -/ | .pwrCapCyc => regRow .cd 0xf014 4 0x20 1 0x0 0x0 0x0 0x0 0x0 0
  /- PWR_DROOP_EV R543 -/ | .pwrDroopEv => regRow .cd 0xf018 4 0x20 1 0x0 0x0 0x0 0x0 0x0 0
  /- PWR_TJ R546 -/ | .pwrTj => regRow .cd 0xf100 1 0x0 1 0x0 0xf2000000 0x0 0xff00 0x0 0
  /- PWR_DIE_STAT R546 -/ | .pwrDieStat => regRow .cd 0xf104 1 0x0 1 0x0 0xfffffff0 0x0 0xf 0x0 0
  /- DRILL_DROP R389 -/ | .drillDrop => regRow .cd 0x40000 64 0x1000 1024 0x4 0x0 0x0 0x0 0x0 0
  /- UNIT_MON R181 -/ | .unitMon => regRow .cd 0x100000 256 0x800 512 0x4 0x0 0x0 0x0 0x0 0
  /- TU_ACC_STAT R206 -/ | .tuAccStat => regRow .cd 0x180000 4 0x1000 64 0x40 0xffc00000 0x0 0x3ff000 0x0 0
  /- TU_STAT R277 -/ | .tuStat => regRow .cd 0x180004 4 0x1000 64 0x40 0xfffe0000 0x0 0x13fff 0x0 0
  /- TU_GALLEY_LO R278 -/ | .tuGalleyLo => regRow .cd 0x180008 4 0x1000 64 0x40 0xc0c0c0c0 0x0 0x0 0x0 0
  /- TU_GALLEY_HI R278 -/ | .tuGalleyHi => regRow .cd 0x18000c 4 0x1000 64 0x40 0xc0c0c0c0 0x0 0x0 0x0 0
  /- TU_IBANK R279 -/ | .tuIbank => regRow .cd 0x180010 4 0x1000 64 0x40 0xffc00000 0x0 0x0 0x0 0
  /- TU_AUDIT R280 -/ | .tuAudit => regRow .cd 0x180014 4 0x1000 64 0x40 0xfc0e 0x0 0x0 0x0 0
  /- TU_CHK R507 -/ | .tuChk => regRow .cd 0x180018 4 0x1000 64 0x40 0x3 0x0 0xf8 0x3fff00 0
  /- TU_WDIGEST_LO R507 -/ | .tuWdigestLo => regRow .cd 0x180020 4 0x1000 64 0x40 0x0 0x0 0x0 0x0 0
  /- TU_WDIGEST_HI R507 -/ | .tuWdigestHi => regRow .cd 0x180024 4 0x1000 64 0x40 0x0 0x0 0x0 0x0 0
  /- AUDIT_REC R275 -/ | .auditRec => regRow .cd 0x1c0000 256 0x400 256 0x4 0x0 0x0 0x0 0x0 0

/-- A register: its family, the die or link die of its window (0 in the control die's), and its two indices. -/
structure Reg where
  name : RegName
  unit : Nat
  i : Nat
  j : Nat
  deriving DecidableEq, Repr

/-- Every family. -/
def allRegNames : List RegName :=
  List.flatten [
    [RegName.secId, RegName.secQuoin, RegName.secAccess, RegName.secAccessAddr, RegName.clkStat, RegName.clkRegionLockLo, RegName.clkRegionLockHi, RegName.secState, RegName.secDebugCtl, RegName.secChal],
    [RegName.secFuseCtl, RegName.secFuseData, RegName.secFuseRead, RegName.htNodeId, RegName.htConfig, RegName.htNowLo, RegName.htNowHi, RegName.htStatus, RegName.htOffset, RegName.htDelay],
    [RegName.htSetLo, RegName.htSetHi, RegName.htSlipCnt, RegName.htGear, RegName.htVlocal, RegName.htVhall, RegName.htVstep, RegName.htVflags, RegName.twCfg, RegName.twStatus],
    [RegName.twPeer, RegName.twDigestOwnLo, RegName.twDigestOwnHi, RegName.twDigestTwinLo, RegName.twDigestTwinHi, RegName.cmdStat, RegName.cmdPendLo, RegName.cmdPendHi, RegName.cmdCollectLo, RegName.cmdCollectHi],
    [RegName.cmdCount, RegName.rstLatch, RegName.rstReplace, RegName.rstFaultCnt, RegName.rstFaultNext, RegName.rstCause, RegName.rstStrap, RegName.rstBoots, RegName.rstWdogCnt, RegName.rstFw],
    [RegName.rstBlock, RegName.rstFwVer, RegName.rstBackup, RegName.pwrCap, RegName.pwrStatus, RegName.pwrVin, RegName.pwrPin, RegName.pwrEDomLo, RegName.pwrEDomHi, RegName.pwrEPartLo],
    [RegName.pwrEPartHi, RegName.pwrEInLo, RegName.pwrEInHi, RegName.pwrEUnassignedLo, RegName.pwrEUnassignedHi, RegName.pwrJobBaseLo, RegName.pwrJobBaseHi, RegName.faultRec, RegName.retained, RegName.ldSpareLo],
    [RegName.ldSpareHi, RegName.ldReact, RegName.ldLaneStat, RegName.ldLaneCw, RegName.ldLaneUcw, RegName.ldLaneBlank, RegName.ldPortStat, RegName.ldPortDelay, RegName.ldPortPeer, RegName.cdPartition],
    [RegName.tuImpose, RegName.tuRegionStat, RegName.tuRegionLag, RegName.tuRegionRpl, RegName.cdProofStat, RegName.cdDrillStat, RegName.cdRakeStat, RegName.cdChkCfg, RegName.cdFault, RegName.cdIso],
    [RegName.cdUpdStat, RegName.cdStep, RegName.cdPage, RegName.cdPageALo, RegName.cdPageAHi, RegName.cdPageBLo, RegName.cdPageBHi, RegName.cdPageLenLo, RegName.cdPageLenHi, RegName.cdInput],
    [RegName.updMon, RegName.updMonPrev, RegName.cdRedStat, RegName.cdRedCfg, RegName.cdRedFallow, RegName.cdHist, RegName.cdHistALo, RegName.cdHistAHi, RegName.cdHistBLo, RegName.cdHistBHi],
    [RegName.cdHistLenLo, RegName.cdHistLenHi, RegName.cdRedExhCnt, RegName.cdRedGleanCnt, RegName.cdRedMismCnt, RegName.cdRedNanCnt, RegName.cdRedUnfCnt, RegName.hbmStat, RegName.hbmTemp, RegName.hbmCfg],
    [RegName.hbmCeCnt, RegName.hbmUeCnt, RegName.hbmRefuseCnt, RegName.hbmUeAddrLo, RegName.hbmUeAddrHi, RegName.hbmScrubPtr, RegName.hbmScrubPass, RegName.hbmRetire, RegName.hbmTiming, RegName.scStat],
    [RegName.scCeCnt, RegName.scUeAddr, RegName.tgCtl, RegName.tgBase, RegName.tgLen, RegName.tgSeed, RegName.tgErr, RegName.tgFirst, RegName.tgPass, RegName.cdReact],
    [RegName.pwrVtab, RegName.pwrRegionStat, RegName.pwrDroopCyc, RegName.pwrCapCyc, RegName.pwrDroopEv, RegName.pwrTj, RegName.pwrDieStat, RegName.drillDrop, RegName.unitMon, RegName.tuAccStat],
    [RegName.tuStat, RegName.tuGalleyLo, RegName.tuGalleyHi, RegName.tuIbank, RegName.tuAudit, RegName.tuChk, RegName.tuWdigestLo, RegName.tuWdigestHi, RegName.auditRec]]

/-- The registers whose reads are formed from other state (each place its state stands once). -/
def RegName.isView : RegName → Bool
  | .secFuseRead | .htNowLo | .htNowHi | .pwrEDomLo | .pwrEDomHi | .pwrEPartLo | .pwrEPartHi | .pwrEInLo | .pwrEInHi | .pwrEUnassignedLo | .pwrEUnassignedHi | .pwrJobBaseLo | .pwrJobBaseHi | .faultRec | .retained | .updMon | .updMonPrev | .drillDrop | .unitMon | .tuGalleyLo | .tuGalleyHi | .tuIbank | .tuWdigestLo | .tuWdigestHi | .auditRec => true
  | _ => false

end Sys2Proof.Machine
end

