-- ==== Sys2Proof/Machine/PackTypes.lean ====
section
/-!
DEFINITION. The data of the package's partitions, faults and fences, Hall Time and power (01_package_and_levels.md,
02_hall_time.md, 12_silent_errors_and_faults.md, 13_power_and_thermal.md).
-/
namespace Sys2Proof.Machine

/-! ### Requests -/

/-- Where a command packet came from (R553, R572). -/
inductive Src where
  | host (slot : Fin 64)
  | sideband (slot : Fin 8)
  | monitor
  deriving DecidableEq, Repr

/-- The header of a command packet (R552) with the CRC of the request and its AT bytes, valid or not, which a reply echoes
(R557). -/
structure Req where
  src : Src
  op : Half
  tag : Half
  at_ : Option Nat
  irq : Bool
  vec : Fin 64
  part : Part
  crc : Word
  raw : DWord
  deriving DecidableEq, Repr

/-! ### Faults and verdicts -/

/-- A suspect event on its way to XD (R476): the partition, the ordinal of the step it is charged to, the die it was
raised on and the tick. -/
structure SuspEv where
  part : Part
  ord : Nat
  die : Die
  at_ : Nat
  deriving DecidableEq, Repr

/-- A provisional event (R475): the unit, the bundle and bank of the GRP_CLOSE, whether a replay of it failed. -/
structure ProvEv where
  unit : LU
  bundle : Nat
  verso : Bool
  failed : Bool
  deriving DecidableEq, Repr

/-- A replay on a spare (R480): the spare, the entry, the unit it replays for (for a guest's request, the unit of that
index in the spare's own region), the cycle it starts at and whether it has started; whether its comparison failed
(R482); and for a guest the region that asked. -/
structure ReplayRun where
  spare : PU
  entry : ReplayEntry
  unit : LU
  due : Nat
  running : Bool
  failed : Bool
  guest : Bool
  deriving DecidableEq, Repr

/-- A fence waiting for a step boundary (R49): the physical unit and the tick it was recorded. -/
structure PendFence where
  unit : PU
  at_ : Nat
  deriving DecidableEq, Repr

/-- What is fallow (R31, R48, R51), and the fences waiting. -/
structure FenceS where
  units : List PU
  regions : List RegionId
  dies : List Die
  lds : List LinkDie
  pend : List PendFence
  pendRegions : List RegionId
  deriving DecidableEq, Repr

def FenceS.reset : FenceS := ⟨[], [], [], [], [], []⟩

/-! ### Partitions -/

/-- An accepted SNAPSHOT (R317, R319) and its command; `deferred` once its boundary came and R311 put it off, `runs`
while the step that runs is its form. -/
structure SnapReq where
  req : Req
  step : Word
  variant : Nat
  ship : Bool
  stream : Half
  ports : Nat
  accepted : Nat
  deferred : Bool
  runs : Bool
  deriving DecidableEq, Repr

/-- The step report (R320). -/
structure StepReport where
  job : Word
  step : Word
  variant : Nat
  committed : Bool
  incomplete : Bool
  stale : Bool
  promoted : Bool
  loc : Word
  hall : Word
  energy : Nat
  tensors : List (Nat × List Word)
  deriving DecidableEq, Repr

/-- The drop report (R390): lines with their drops. -/
structure DropReport where
  job : Word
  step : Word
  incomplete : Bool
  badKey : Word
  lines : List (Nat × Word)
  deriving DecidableEq, Repr

/-- The records that travel the verdict tree for a step (R91, R309, and the cold-start count of
08_gradient_reduction.md R357): the sums of the children's up records and the down record. -/
structure TreeRec where
  sum : Word
  counts : List Half
  cold : Half
  deriving DecidableEq, Repr

/-- What a missing record adds, and what the records of an abandoned step carry (R92, R309, R357, R604). -/
def TreeRec.missing : TreeRec := ⟨0xFFFFFFFF, List.replicate 12 0xFFFF, 0xFFFF⟩

/-- A partition (R38). `stepStart` is the tick of the current step's boundary, `ord` the ordinal of the step since
RUN_AT, `curStep` its step number, CD_STEP at that boundary (R313); `vcount` and `vnext` count the suspect events of the
current and of the coming step (R34, R476). `hallCounts` and `hallCold` are the hall's counts with the tick they were held
at, until a boundary takes them (R311, R358). `gearDown` says that the last gear change went down and its voltages have
not fallen (R101). `lastBefore` is `lastCommit` as it was before the commit tick of the step (R504). `filled` lists the fabric slots that a transfer waits in, with the tick of their opening (R16). `reportDue` is the
report of the last step while the firmware has not read the banks it is formed from (R320). -/
structure PartS where
  forme : Option Forme
  armed : Bool
  running : Bool
  stepStart : Nat
  ord : Nat
  curStep : Word
  variant : Nat
  banksOf : Nat
  promos : List Nat
  hallCounts : List (Nat × List Half)
  promoteMissing : Bool
  coldArm : Bool
  coldNext : Bool
  loadUntil : Nat
  vcount : Word
  vnext : Word
  vdone : Bool
  commitDone : Bool
  own : Option TreeRec
  coldReq : Bool
  hallCold : List (Nat × Half)
  up : Option TreeRec
  childUp : List (Port × TreeRec)
  down : Option TreeRec
  held : Bool
  diverged : Bool
  committedLast : Bool
  haltOnBoundary : Bool
  proofUntil : Option Nat
  snaps : List SnapReq
  firstStep : Word
  lastStep : Word
  lastCommit : Word
  lastBefore : Word
  stale : Bool
  energyAt : Nat
  gearAt : Nat
  gearDown : Bool
  filled : List (FabricSlot × Nat)
  report : Option StepReport
  reportDue : Option StepReport
  slips : Nat
  dropReport : Option DropReport
  deriving DecidableEq, Repr

def PartS.reset : PartS where
  forme := none
  armed := false
  running := false
  stepStart := 0
  ord := 0
  curStep := 0
  variant := 0
  banksOf := 0
  promos := []
  hallCounts := []
  promoteMissing := false
  coldArm := false
  coldNext := false
  loadUntil := 0
  vcount := 0
  vnext := 0
  vdone := false
  commitDone := false
  own := none
  coldReq := false
  hallCold := []
  up := none
  childUp := []
  down := none
  held := false
  diverged := false
  committedLast := false
  haltOnBoundary := false
  proofUntil := none
  snaps := []
  firstStep := 0
  lastStep := 0
  lastCommit := 0
  lastBefore := 0
  stale := false
  energyAt := 0
  gearAt := 0
  gearDown := false
  filled := []
  report := none
  reportDue := none
  slips := 0
  dropReport := none

/-! ### Hall Time -/

/-- What the Hall Time base keeps besides HT_STATUS (R60, R67, R68): whether the count runs, whether the tick clock is
locked to the reference, bits 63:20 of the last good frame and the load that waits for the next marker, the runs of
records inside and outside the window, of missing records, of the source's return in HOLDOVER, the ticks at which
HOLDOVER and LOST were entered, the load of HT_SET that waits for the next tick, FREE as the last port-0 record carried
it, the furrow in which a record last counted, whether the formes halt at the next boundary because of LOST (R72), how
far steps and slews have moved the tick edges, in 1/64 tick, the tick from which an edge node has still to check
HALL_EPOCH (R61), and the ticks that have passed, whatever the count was set to. -/
structure HtS where
  now : DWord
  phase : Int
  seen : Nat
  lastFurrow : Option Nat
  haltPending : Bool
  running : Bool
  frame : Option (BitVec 44)
  marker : Option DWord
  lockRun : Nat
  offRun : Nat
  missRun : Nat
  returnRun : Nat
  since : Nat
  set : Option DWord
  upstreamFree : Bool
  returning : Bool
  ticks : Nat
  deriving DecidableEq, Repr

def HtS.reset : HtS := ⟨0, 0, 0, none, false, false, none, none, 0, 0, 0, 0, 0, none, false, false, 0⟩

/-! ### Power -/

/-- The power state's own facts (R517): the supply, Boot under way, Latched. The other states follow. -/
inductive PowerMode where
  | off | standby | on | latched
  deriving DecidableEq, Repr

/-- The stages of the boot sequence (R608); `perst` waits for the release of PERST# (R606). -/
inductive BootStage where
  | perst | rom | selftest | firmware | domains | hbm | quoins | done | failed | loader
  deriving DecidableEq, Repr

/-- Energy accounts in 1/1,024 microjoule (R536 to R539). -/
structure Accounts where
  dom : List Nat
  part : List Nat
  input : Nat
  unassigned : Nat
  deriving DecidableEq, Repr

def Accounts.zero : Accounts := ⟨List.replicate 96 0, List.replicate 8 0, 0, 0⟩

/-- A job-end record (R538, R567). -/
structure JobEnd where
  job : Word
  first : Word
  last : Word
  energy : Nat
  deriving DecidableEq, Repr

/-- Power. `vin` is the voltage at the input, in 10 mV (R513, R540). `clkLost` lists the clock domains out of lock, `clkWait` those whose lock has returned and that wait for the
next furrow boundary (R601). -/
structure PowerS where
  mode : PowerMode
  stage : BootStage
  acc : Accounts
  atFurrow : Accounts
  jobBase : List Nat
  jobEnd : List JobEnd
  qTemp : List Nat
  qElec : List Nat
  vin : Nat
  latchOff : Option Nat
  brownOut : Bool
  clkLost : List ClkDom
  clkWait : List ClkDom
  deriving DecidableEq, Repr

def PowerS.reset : PowerS where
  mode := .standby
  stage := .rom
  acc := .zero
  atFurrow := .zero
  jobBase := List.replicate 8 0
  jobEnd := List.replicate 8 ⟨0, 0, 0, 0⟩
  qTemp := List.replicate 16 0
  qElec := List.replicate 4 0
  vin := 7200
  latchOff := none
  brownOut := false
  clkLost := []
  clkWait := []

end Sys2Proof.Machine
end

