-- ==== Sys2Proof/Machine/HostTypes.lean ====
section
/-!
DEFINITION. The data of the host interface, the sideband, the monitor, the firmware and the security enclave
(14_host_and_management.md, 16_reset_boot_firmware.md, 17_security_states.md).
-/
namespace Sys2Proof.Machine

/-! ### Commands -/

/-- What a read of host memory gives a command: an error response, bytes, or a forme image as its checks find it. -/
inductive HostRead where
  | fault
  | bytes (b : List Byte)
  | forme (r : FormeRead)
  deriving DecidableEq, Repr

/-- PROOF_RUN's parameters (R565). -/
structure ProofParams where
  die : Nat
  region : Nat
  cluster : Nat
  unit : Nat
  fmtA : Byte
  fmtB : Byte
  ta : Bool
  tb : Bool
  load : Bool
  k : Nat
  outA : Bool
  outB : Bool
  host : Nat
  deriving DecidableEq, Repr

/-- A DMA's parameters (R560, R567). -/
structure DmaParams where
  die : Nat
  space : Nat
  offset : Nat
  length : Nat
  host : Nat
  deriving DecidableEq, Repr

/-- STREAM_OPEN's parameters (R560, R569). -/
structure StreamParams where
  id : Half
  dir : Nat
  die : Nat
  target : Nat
  addr : Nat
  length : Nat
  ports : Nat
  first : Nat
  deriving DecidableEq, Repr

/-- TRAFFIC_GEN's parameters (R560). -/
structure TgParams where
  die : Nat
  channels : Word
  mode : Byte
  stop : Bool
  base : Word
  length : Word
  seed : Word
  deriving DecidableEq, Repr

/-- What the image checks of R628 find: the DETAIL of the first that fails, or the decrypted image that passes. -/
inductive ImageCheck where
  | fails (detail : Nat)
  | passes (image : List Byte)
  deriving DecidableEq, Repr

/-- The commands of R560 with their parameters; a field wider than its range is judged when the command is handled. -/
inductive Cmd where
  | formeLoad (r : FormeRead)
  | formeArm (start : Word) (cold : Bool)
  | formeDisarm
  | runAt
  | haltAt
  | gearAt (gear : Nat)
  | cancel (slot : Nat) (tag : Half)
  | snapshot (step : Word) (variant : Nat) (ship : Bool) (stream : Half) (ports : Nat)
  | pageRetire (die : Nat) (page : Nat)
  | dmaRead (p : DmaParams)
  | dmaWrite (p : DmaParams)
  | streamOpen (p : StreamParams)
  | streamClose (id : Half)
  | fieldProof (mask : Half)
  | proofRun (p : ProofParams) (data : HostRead)
  | fence (level die region pos : Nat)
  | capSet (watts : Nat)
  | energyRead
  | twinMode (mode : Nat)
  | twinDetach
  | fwStage (source : Nat) (last : Bool) (offset : Nat) (data : HostRead)
  | fwActivate
  | settingsGet (key : Half)
  | settingsSet (key : Half) (value : Word)
  | warmReset
  | blockReset (level target : Nat)
  | attest (nonce : List Byte) (mask : Word)
  | secTransition (target : Nat) (key : List Byte) (sig : List Byte)
  | trafficGen (p : TgParams)
  | telemetryRead (selector index count host : Nat)
  | bad (status : Half)
  deriving DecidableEq, Repr

/-! ### Jobs and streams -/

/-- Why a command's reply is still to come; a `void` one is cancelled and is answered when a warm reset ends (R611). -/
inductive JobKind where
  | runAt (t : Nat)
  | haltAt (t : Nat)
  | gearAt (t : Nat) (g : Gear)
  | held (c : Cmd) (due : Nat)
  | snapshot
  | arm (until_ : Nat)
  | dmaRead (p : DmaParams) (data : Option (List Byte)) (detail : Option Nat)
  | dmaWrite (p : DmaParams)
  | hostWrite (status detail : Half) (host : Nat) (data : List Byte)
  | proof (c : ClusterId) (status : Half) (host : Nat) (data : List Byte)
  | fieldProof (mask : Half) (until_ : Nat) (spares : List PU)
  | pageRetire (die : Die)
  | cap (watts : Nat)
  | fwCheck
  | fwActivate
  | warm
  | block
  | traffic (die : Die) (channels : Word)
  | void
  | detach
  deriving DecidableEq, Repr

/-- A job: a command whose reply is still to come, with the boundary at which it was handled. -/
structure Job where
  req : Req
  kind : JobKind
  at_ : Nat
  deriving DecidableEq, Repr

/-- An open stream (R569). A send stream over the snapshot buffers of a partition goes through the stacks of its dies, `die` and then
`more`, an equal share in each (DEDUCED, log 30). `ahead` holds what has been read for a send stream in host slots and waits for its
tramline, `inward` what a receive stream has that waits for a host slot of its die (R18). -/
structure BulkStream where
  id : Half
  send : Bool
  die : Die
  target : Nat
  addr : Nat
  length : Nat
  ports : List Port
  first : Nat
  moved : Nat
  highest : Nat
  turn : Nat
  more : List Die
  ahead : List (Nat × List Byte)
  inward : List (Nat × List Byte)
  deriving DecidableEq, Repr

/-- The dies whose stacks a stream's bytes lie in, and the bytes that each holds. -/
def BulkStream.dies (t : BulkStream) : List Die := t.die :: t.more
def BulkStream.share (t : BulkStream) : Nat := t.length / (t.more.length + 1)

/-- Where byte `o` of a stream lies. -/
def BulkStream.place (t : BulkStream) (o : Nat) : Die × Nat :=
  let k := o / max t.share 1
  (((t.dies)[k]?).getD t.die, t.addr + (o - k * t.share))

/-- The bytes of a send stream that have been read from the stacks. -/
def BulkStream.got (t : BulkStream) : Nat := t.moved + (t.ahead.map (·.2.length)).sum

/-- The requesters of register accesses (R582, R600). -/
inductive Requester where
  | firmware | host | sideband | monitor | jtag
  deriving DecidableEq, Repr

/-- The host interface: the 1 MiB window of BAR2 (R548), the jobs, the vectors raised (R550), the streams and the
shadows of register pairs (R589), by requester and by the _HI register's address; of each command slot, and 64 on of each
RSTATE, the tick since reset of the last host write to it (R554); the MSI-X table and which of its entries are not masked, the
vectors that have left and those pending (R548); and whether the function is in D3hot (R547), which no row of the table enters
(log 24). -/
structure HostS where
  window : Memory
  wroteAt : AMap Nat Nat
  jobs : List Job
  vectors : BitVec 256
  msix : Memory
  unmasked : BitVec 256
  sent : BitVec 256
  pba : BitVec 256
  d3hot : Bool
  streams : List BulkStream
  shadows : List (Requester × Nat × Word)
  hostMem : List (Nat × List Byte)
  deriving DecidableEq, Repr

def HostS.reset : HostS := ⟨.empty, .empty, [], 0, .empty, 0, 0, 0, false, [], [], []⟩

/-! ### Sideband (R571 to R573) and monitor (R574) -/

/-- A type-0x7F message in a sideband slot. -/
structure SbMsg where
  eid : Byte
  bytes : List Byte
  taken : Bool
  deriving DecidableEq, Repr

/-- What leaves on the sideband, and what the DOE mailbox answers: replies, SPDM and MCTP control answers, words of
private reads, discovered DOE protocols. -/
inductive SbOut where
  | reply (eid : Byte) (bytes : List Byte)
  | spdm (doe : Bool) (code : Byte) (body : List Byte)
  | control (code : Byte) (body : List Byte)
  | doe (vendor : Half) (kind next : Byte)
  | word (v : Word)
  deriving DecidableEq, Repr

/-- The sideband: its slots, what has left, its dynamic address and endpoint id, the BAR0 offset last named, how far
SPDM has got on the sideband and on DOE: 1 version, 2 capabilities, 3 algorithms; and the transmission unit, which the spec's bus
controller negotiates and no row of the table changes (R571, log 24). -/
structure SidebandS where
  slots : List (Option SbMsg)
  out : List SbOut
  addr : Option (BitVec 7)
  eid : Byte
  offset : Nat
  phase : Nat
  doePhase : Nat
  unit : Nat
  deriving DecidableEq, Repr

def SidebandS.reset : SidebandS := ⟨List.replicate 8 none, [], none, 0, 0, 0, 0, 64⟩

/-- A message in MCTP packets of the transmission unit: version, destination, source, flags with first, last and a sequence
number of two bits, then the fragment (PRESUMED, log 15). -/
def mctpPackets (unit : Nat) (to_ from_ : Byte) (m : List Byte) : List (List Byte) :=
  let n := max 1 ((m.length + unit - 1) / max unit 1)
  (List.range n).map fun k =>
    [1, to_, from_, BitVec.ofNat 8 ((if k = 0 then 128 else 0) + (if k + 1 = n then 64 else 0) + k % 4 * 16)]
      ++ (m.drop (unit * k)).take unit

/-- A reply of the sideband as it leaves: type 0x7F, Swiaz's enterprise number as the colophon has it, the packet (R571). -/
def SidebandS.replyPackets (x : SidebandS) (eid : Byte) (b : List Byte) : List (List Byte) :=
  mctpPackets x.unit eid x.eid (0x7F :: (natLe 4 Config.enterprise.toNat).reverse ++ b)

/-- What the monitor prints (R574, R575): values, bytes, words; "ok", or "err" and a word. -/
inductive MonOut where
  | reg (addr : Nat) (v : Word)
  | bits (name : RegName) (die : Nat) (v : Word)
  | bytes (b : List Byte)
  | num (v : Nat)
  | word (w : String)
  | ok
  | err (w : String)
  | prompt
  | echo (b : List Byte)
  deriving DecidableEq, Repr

/-- The monitor: what it has printed, whether a command of its own still runs, and MON_BAUD and MON_ECHO in force (R570, R574). -/
structure MonitorS where
  out : List MonOut
  waiting : Bool
  baud : Word
  echo : Bool
  deriving DecidableEq, Repr

def MonitorS.reset : MonitorS := ⟨[], false, 921600, true⟩

/-! ### Firmware (16_reset_boot_firmware.md) -/

/-- An entry of a retired-page list (R624). -/
structure RetEntry where
  page : Nat
  spare : Nat
  badSpare : Bool
  deriving DecidableEq, Repr

/-- A warm reset under way (R611): the boundary it was handled at, whether the blocks are reset and whether the active image
has been verified again. -/
structure WarmRun where
  start : Nat
  reset : Bool
  verified : Bool
  deriving DecidableEq, Repr

/-- A block reset under way (R620). -/
structure BlockRun where
  level : Nat
  target : Nat
  start : Nat
  deriving DecidableEq, Repr

/-- The firmware and its flash (R623): the slot state, the version of each slot, empty where the slot holds none, the image of
each slot as it decrypts (R626), whether its container does and the IV it was written under (R628); the image the ROM loader holds (R609); the boots counted; the settings with their FORMAT; the fallow list; the
retired-page lists; and what runs: the image's SVN, the staging area, the activation pause from the tick it began or, once
TRIAL is clear, from the tick it is to end after, and the tick from which a trial counts (R630 to R632); `shown`: the slot
state as last read from flash (R622); `comesDue`: an FW_ACTIVATE of the batch in hand comes due at its boundary (R633). -/
structure FwS where
  active : Bool
  trial : Bool
  versions : List (List Byte)
  images : List (List Byte)
  sound : List Bool
  ivs : List (List Byte)
  boots : Word
  svn : Word
  staging : Memory
  extents : List (Nat × Nat)
  loaded : List Byte
  settings : List (Half × Word)
  format : Nat
  ownFormat : Nat
  fallow : FenceS
  retired : List (Die × RetEntry)
  bootlog : List (List Byte)
  warmCount : Nat
  pause : Option Nat
  trialFrom : Option Nat
  warm : Option WarmRun
  block : Option BlockRun
  loaderImage : Bool
  shown : List Byte
  comesDue : Bool
  deriving DecidableEq, Repr

/-! ### Security (17_security_states.md) -/

/-- The enclave: the fused security state and the fuse words burnt over the fuses' own values, the Owner-Debug bit of
domain 89, what Vendor-Return did, and the draws of its generator; whether the TAP was forced to Test-Logic-Reset, and
what JTAG last shifted out besides a word. -/
structure SecS where
  fused : BitVec 2
  burnt : List (Nat × Word)
  owner : Bool
  idkGone : Bool
  revoked : Bool
  tampered : Bool
  draws : Nat
  progDue : Option (Nat × Word)
  tapReset : Bool
  tapOut : List Byte
  deriving DecidableEq, Repr

end Sys2Proof.Machine
end

