-- ==== Sys2Proof/Machine/LinkTypes.lean ====
section
/-!
DEFINITION. The data of the link dies and the twin port (11_links_and_twin.md).
-/
namespace Sys2Proof.Machine

/-- Kinds of a slipping block in their order (R444). -/
inductive SlipKind where
  | region | update | adders | hbm
  deriving DecidableEq, Repr

/-- A block that slipped at a boundary. -/
structure SlipBlock where
  part : Part
  kind : SlipKind
  die : Die
  region : Option (Fin 4)
  deriving DecidableEq, Repr

/-- What a SLIP says of one partition (R88, R444): the kind, the die and the region (0xFF where there is none) of its
first slipping block, and its slips at that boundary. -/
structure SlipEntry where
  part : Part
  kind : Nat
  die : Nat
  region : Nat
  slips : Nat
  deriving DecidableEq, Repr

/-- The bodies of management messages (R444). -/
inductive MsgBody where
  | slip (furrow count : Nat) (parts : List SlipEntry)
  | laneDown (port : Port) (lane : Nat) (t : Nat)
  | replace (twin : Bool) (node : Nat)
  | heartbeat (mirror : Bool) (state : Nat) (boots : Word) (steps : List Word)
  | digest (job step : Word) (d : DWord)
  | detach (byCommand : Bool)
  deriving DecidableEq, Repr

/-- The messages that the firmware raises, which wait in an activation pause (R630); slips, lane switches, heartbeats and
digests are the link logic's (log 30). -/
def MsgBody.byFirmware : MsgBody → Bool
  | .replace _ _ | .detach _ => true
  | _ => false

/-- A management message: its partition, its sender's node id and the Hall Time it was raised at. -/
structure Msg where
  body : MsgBody
  part : Part
  node : Nat
  raised : Nat
  deriving DecidableEq, Repr

/-- A message waiting on a port: its sequence number and the sends made (R445). -/
structure Waiting where
  port : Port
  msg : Msg
  seq : Half
  sends : Nat
  notBefore : Nat
  deriving DecidableEq, Repr

/-- A slot as a lane sends it (R435, R436): the tick it starts at, its header's fields, its payload of 2,560 bytes. -/
structure SentSlot where
  tick : Nat
  kind : Nat
  lane : Nat
  seq : Nat
  node : Nat
  port : Nat
  part : Nat
  job : Word
  payload : List Byte
  deriving DecidableEq, Repr

/-- A time-exchange record (R64); times are in 1/64 tick. -/
structure TimeRecord where
  sendT : Nat
  hop : Nat
  locked : Bool
  free : Bool
  edge : Bool
  echoValid : Bool
  node : Nat
  echoSendT : Nat
  echoRecvT : Nat
  deriving DecidableEq, Repr

/-- A lane beside its registers: consecutive uncorrectable codewords, HCRC failures and good headers, the training
attempts that failed in succession, the ticks it entered TRAIN and FAILED, the last scheduled slot it sent (R447, R436), of
the last record received on it since it entered ALIGN the SEND_T and the arrival, in 1/64 tick (R65), and the last 31 bits
of its PRBS31 sequence (R436). -/
structure LaneS where
  badCw : Nat
  badHdr : Nat
  goodHdr : Nat
  fails : Nat
  trainAt : Nat
  failedAt : Nat
  sent : Option SentSlot
  echo : Option (Nat × Nat)
  prbs : BitVec 31
  deriving DecidableEq, Repr

/-- A lane at reset; where its PRBS31 sequence begins is the model's (DESIGN CHOICE, log 4). -/
def LaneS.reset : LaneS := ⟨0, 0, 0, 0, 0, 0, none, none, BitVec.allOnes 31⟩

/-- A record of the verdict tree as a tramline carries it (R90, R309, R357). -/
structure VerdictRec where
  part : Part
  job : Word
  step : Word
  down : Bool
  tree : TreeRec
  deriving DecidableEq, Repr

/-- A piece of bulk data: stream, offset, data (R446). -/
structure BulkPiece where
  id : Half
  offset : Nat
  data : List Byte
  deriving DecidableEq, Repr

/-- A tramline as a port sends it (R443): the time-exchange record of each lane, which differs in SEND_T and the echo
alone, and the lane whose record counts (R63); the verdict, promotion and cold-start records, the messages and the
acknowledgements of every lane; the bulk data by lane; the PRBS31 bytes that fill each lane's bulk field (R446); what its
headers hold beside the lane (R435). -/
structure SentTram where
  tick : Nat
  node : Nat
  port : Nat
  lane : Nat
  times : List TimeRecord
  records : List VerdictRec
  msgs : List (Half × Msg)
  acks : List Half
  bulk : List (Nat × BulkPiece)
  fill : List (List Byte)
  deriving DecidableEq, Repr

/-- A port: the delays that its last tramline records gave, newest first, at most 16, whether its peer reports LOCKED or FREE,
the switches that wait (lane, tick), the last tramline sent (R448, R450), the lanes lost, whose slots are blanks (R450); the
tick of the tramline slot whose records it last took, so that one lane alone delivers them (R443). -/
structure PortS where
  delays : List Nat
  peerTimed : Bool
  switches : List (Nat × Nat)
  sent : Option SentTram
  lost : List Nat
  taken : Option Nat
  deriving DecidableEq, Repr

def PortS.reset : PortS := ⟨[], false, [], none, [], none⟩

/-- A send or receive buffer of a port lane (R265, R266, R439): its data, and the tag it carries, furrow number × 128 +
slot, with the tick it was set at. -/
structure LinkBuf where
  data : List Byte
  tag : Option (Nat × Nat)
  was : List (Nat × Nat × Nat)
  deriving DecidableEq, Repr

def LinkBuf.reset : LinkBuf := ⟨[], none, []⟩

/-- The tag takes a value, or none, at tick `t`; the one it replaces is remembered while a slot may still be sampled for
it. -/
def LinkBuf.setTag (b : LinkBuf) (v : Option Nat) (t : Nat) : LinkBuf :=
  { b with
    tag := v.map fun v => (v, t)
    was := (b.tag.map fun e => (e.1, e.2, t)).toList ++ b.was.filter fun e => decide (t ≤ e.2.2 + 32) }

/-- The tag that a slot starting at tick `t` is sampled with (R265): the one that stood 32 ticks before, a tag set in that
tick counting as unset. -/
def LinkBuf.sampled (b : LinkBuf) (t : Nat) : Option Nat :=
  let old := (b.was.find? fun e => decide (e.2.1 + 32 < t ∧ t < e.2.2 + 32)).map (·.1)
  match b.tag with
  | some (v, at_) => if at_ + 32 < t then some v else if at_ + 32 = t then none else old
  | none => old

/-- The tag after the sample: cleared, unless it was set since. -/
def LinkBuf.afterSample (b : LinkBuf) (t : Nat) : LinkBuf :=
  { b with tag := b.tag.filter (fun e => decide (t < e.2 + 32)), was := [] }

/-- The buffer with its tag cleared (R265, R269). -/
def LinkBuf.untag (b : LinkBuf) : LinkBuf := { b with tag := none, was := [] }

/-- A buffer's place: port, lane of the port, buffer. -/
structure BufId where
  port : Port
  lane : Fin 8
  buf : Fin 8
  deriving DecidableEq, Repr

/-- The twin port (R453 to R457): the heartbeats missing in a row, whether the mode conflicted, the twin's digests that
arrived, the digests sent in this step, whether a twin is attached, from the first heartbeat received until the twin is lost
(R7), and whether this package has detached itself (R458). -/
structure TwinS where
  missing : Nat
  attached : Bool
  detached : Bool
  conflict : Bool
  twinDigests : List (Part × Word × Word × DWord)
  sentDigest : List Part
  deriving DecidableEq, Repr

def TwinS.reset : TwinS := ⟨0, false, false, false, [], []⟩

/-- The link dies. `silenced`: no scheduled slot is filled (R72, R604); `framingOnly`: nothing but framing (R503);
`slips`: the blocks that slipped at the boundary under way (R88); `slipLog`: the slip notices received, by port (R88);
`spareDue`: lanes that LD_SPARE takes out at a step boundary (R452); `spareHeld`: the word last written to each die's
LD_SPARE_HI, held for the write of LD_SPARE_LO that takes both (R590); `deal`: the bulk pieces of the tramline of tick `dealt`, by
port and lane (R569). -/
structure LinkS where
  queue : List Waiting
  nextSeq : AMap Port Half
  accepted : AMap Port (List Half)
  acks : AMap Port (List Half)
  lanes : AMap Lane LaneS
  ports : AMap Port PortS
  send : AMap BufId LinkBuf
  recv : AMap BufId LinkBuf
  twin : TwinS
  silenced : Bool
  framingOnly : Bool
  slips : List SlipBlock
  slipLog : List (Port × Msg)
  spareDue : List Lane
  spareHeld : Vector Word 4
  dealt : Option Nat
  deal : List (Port × Nat × BulkPiece)
  deriving DecidableEq, Repr

def LinkS.reset : LinkS where
  queue := []
  nextSeq := .empty
  accepted := .empty
  acks := .empty
  lanes := .empty
  ports := .empty
  send := .empty
  recv := .empty
  twin := .reset
  silenced := false
  framingOnly := false
  slips := []
  slipLog := []
  spareDue := []
  spareHeld := Vector.replicate 4 0
  dealt := none
  deal := []

end Sys2Proof.Machine
end

