-- ==== Sys2Proof/Machine/EventTypes.lean ====
section
/-!
DEFINITION. The operands of the commands that stand for events from outside or of time.
-/
namespace Sys2Proof.Machine

/-- Straps as sampled (R606, R57). -/
structure Straps where
  clkMode : BitVec 2
  bootSrc : BitVec 2
  deriving DecidableEq, Repr

/-- MCTP control requests on the sideband (R571). -/
inductive MctpReq where
  | setEid (e : Byte)
  | getEid
  | other (code : Byte)
  deriving DecidableEq, Repr

/-- A contribution as it reaches its owner (R330, R331, R336): the source port it comes by, 0 to 31 a cluster port and
those above link-die ports, window and element index, format code, extents, and its bytes with the place of its scales. -/
structure Contribution where
  die : Die
  port : Fin 64
  window : Nat
  index : Nat
  fmt : Nat
  rows : Nat
  cols : Nat
  bytes : List Byte
  scales : Nat
  deriving DecidableEq, Repr

/-- What a line brings: whole, corrected, or uncorrectable (R410, R418). -/
inductive LineEcc where
  | clean | corrected | bad
  deriving DecidableEq, Repr

/-- The symbol of a pulse of HALL_EPOCH (R58), or a pulse that is none of them. -/
inductive EpochSym where
  | zero | one | marker | bad
  deriving DecidableEq, Repr

/-- A pulse of HALL_EPOCH (R58): the tick of the package's own count at whose reference edge it rose, and its width in
ticks. -/
structure EpochPulse where
  rise : Nat
  width : Nat
  deriving DecidableEq, Repr

/-- How a reference is lost (R68). -/
inductive RefLoss where
  | edges | epoch | records
  deriving DecidableEq, Repr

/-- A part of a field proof that fails (R490, R620). -/
inductive ProofFail where
  | unit (u : PU)
  | adders (d : Die)
  | lane (l : Lane)
  deriving DecidableEq, Repr

/-- A scheduled slot as it is received (R79, R437): the start tick of its slot position (R78), whether the FEC could
correct every codeword of it (R434), the time its first header symbol arrived at, in 1/64 tick, its 32-byte header
(R435) and its payload. -/
structure RxSlot where
  tick : Nat
  fec : Bool
  arrive : Nat
  head : List Byte
  payload : List Byte
  deriving DecidableEq, Repr

/-- A tramline slot as it is received on a lane (R443): whether the FEC could correct it, the fraction of the tick, in
sixty-fourths, at which its first header symbol arrived (R64), its header (R435) and its payload. -/
structure RxTram where
  fec : Bool
  frac : Fin 64
  head : List Byte
  payload : List Byte
  deriving DecidableEq, Repr

/-- What the FEC finds in a codeword (R434). -/
inductive Codeword where
  | clean | corrected | uncorrectable
  deriving DecidableEq, Repr

end Sys2Proof.Machine
end

