-- ==== Sys2Proof/Syntax.lean ====
section
/-!
DEFINITION. The commands of the package: one constructor per row of the opcode table.
-/
namespace Sys2Proof

open Sys2Proof.Machine

/-- The commands. -/
inductive Instr where
  /-- Host command that reads a forme image, checks it in a fixed order and loads it into a partition (R687). -/
  | formeLoad (q : Req) (r : FormeRead)
  /-- Command that arms a loaded partition, sets CD_STEP, latches the job energy base and loads the unit banks and the replay image (R562). -/
  | formeArm (q : Req) (start : Word) (cold : Bool)
  /-- Command that disarms an armed partition that is not running and cancels its pending RUN_AT (R562). -/
  | formeDisarm (q : Req)
  /-- Time command that schedules the start of a partition's forme at a furrow boundary (R95). -/
  | runAt (q : Req)
  /-- Time command that halts a partition's forme at a named furrow boundary (R98). -/
  | haltAt (q : Req)
  /-- Time command that schedules a gear change of a partition at a tick T (R100). -/
  | gearAt (q : Req) (gear : Nat)
  /-- Command that removes a pending command named by slot and TAG (R563). -/
  | cancel (q : Req) (slot : Nat) (tag : Half)
  /-- Command that runs the snapshot form of a variant at a named step (R317). -/
  | snapshot (q : Req) (step : Word) (variant : Nat) (ship : Bool) (stream : Half) (ports : Nat)
  /-- Command that starts copying an HBM page to a spare page and remapping it (R413). -/
  | pageRetire (q : Req) (die : Nat) (page : Nat)
  /-- Command that moves shared-cache or HBM data to host memory over the management port (R567). -/
  | dmaRead (q : Req) (p : DmaParams)
  /-- Command that moves host memory data into the shared cache or HBM (R567). -/
  | dmaWrite (q : Req) (p : DmaParams)
  /-- Command that opens a bulk send or receive stream (R569). -/
  | streamOpen (q : Req) (p : StreamParams)
  /-- Command that closes a bulk stream and reports the bytes moved (R569). -/
  | streamClose (q : Req) (id : Half)
  /-- Command that runs the known-answer set on the free spares of the named dies while jobs continue (R491). -/
  | fieldProof (q : Req) (mask : Half)
  /-- Command that proves one M.MMA through a proof engine on a die with no forme armed (R565). -/
  | proofRun (q : Req) (p : ProofParams) (data : HostRead)
  /-- Command that fences a physical unit, region, compute die or link die (R566). -/
  | fence (q : Req) (level : Nat) (die : Nat) (region : Nat) (pos : Nat)
  /-- Command that sets a partition's host power cap, which comes into force at a later boundary (R530). -/
  | capSet (q : Req) (watts : Nat)
  /-- Command that returns the energy counters and the job-end records (R567). -/
  | energyRead (q : Req)
  /-- Command that sets the twin port to split or mirror mode (R453). -/
  | twinMode (q : Req) (mode : Nat)
  /-- Command that detaches the package from its twin by sending DETACH (R458). -/
  | twinDetach (q : Req)
  /-- Command that writes firmware image data into the staging area and, with LAST, starts the image checks (R629). -/
  | fwStage (q : Req) (source : Nat) (last : Bool) (offset : Nat) (data : HostRead)
  /-- Command that starts the activation pause and restarts the firmware into the staged slot (R630). -/
  | fwActivate (q : Req)
  /-- Command that returns a stored setting and its default (R570). -/
  | settingsGet (q : Req) (key : Half)
  /-- Command that stores a setting in flash (R570). -/
  | settingsSet (q : Req) (key : Half) (value : Word)
  /-- Command that halts every forme and resets execution state while keeping HBM, the pages and the counters (R611). -/
  | warmReset (q : Req)
  /-- Command that resets a region, compute die or link die and releases it from fallow after a proof (R619). -/
  | blockReset (q : Req) (level : Nat) (target : Nat)
  /-- Command that returns the colophon, the measurements and an IDK signature (R654). -/
  | attest (q : Req) (nonce : List Byte) (mask : Word)
  /-- Command that moves the package between security states under a key-checked authorisation (R640). -/
  | secTransition (q : Req) (target : Nat) (key : List Byte) (sig : List Byte)
  /-- Command that runs the HBM traffic generators on the named channels and returns their results (R560). -/
  | trafficGen (q : Req) (p : TgParams)
  /-- Command that returns a step report, drop report, fault records or status by selector (R568). -/
  | telemetryRead (q : Req) (selector : Nat) (index : Nat) (count : Nat) (host : Nat)
  /-- Host write into a command slot, dropped with SLOT_BUSY while the slot is TAKEN (R553). -/
  | hostSlotWrite (addr : Nat) (bytes : List Byte)
  /-- At each furrow boundary the firmware collects READY slots whose reply slot is EMPTY and handles them in order (R554). -/
  | commandCollection (data : List (Fin 64 × HostRead))
  /-- A command held for its AT comes due at a furrow boundary and is handled (R556). -/
  | pendingCommandDue (src : Src)
  /-- A complete MCTP type-0x7F message takes the lowest free sideband slot, or is discarded with SB_FULL (R572). -/
  | sidebandMessage (eid : Byte) (bytes : List Byte)
  /-- In Standby and Latched the management controller collects sideband slots every 16,384 of its own cycles (R572). -/
  | sidebandFreeCollection
  /-- An MCTP control message received on the sideband is handled (R571). -/
  | mctpControl (m : MctpReq)
  /-- SPDM request that returns the supported SPDM version (R655). -/
  | getVersion (doe : Bool)
  /-- SPDM request that returns the responder's capabilities (R655). -/
  | getCapabilities (doe : Bool)
  /-- SPDM request that negotiates P-521 and SHA-512 (R655). -/
  | negotiateAlgorithms (doe : Bool) (p521 : Bool) (sha512 : Bool)
  /-- SPDM request that returns the digest of certificate slot 0 (R655). -/
  | getDigests (doe : Bool)
  /-- SPDM request that returns the certificate chain of slot 0 (R655). -/
  | getCertificate (doe : Bool) (slot : Nat) (offset : Nat) (length : Nat)
  /-- SPDM request answered with an IDK signature, or an error in Vendor-Return (R655). -/
  | challenge (doe : Bool) (slot : Nat) (nonce : List Byte)
  /-- SPDM request that returns the measurement blocks (R655). -/
  | getMeasurements (doe : Bool) (index : Nat) (signed : Bool) (nonce : List Byte)
  /-- I3C private write that names a BAR0 offset and, with 8 B, writes a word under the sideband grade (R647). -/
  | sidebandPrivateWrite (offset : Nat) (data : Option Word)
  /-- I3C private read that returns the word at the offset last named, under the sideband grade (R647). -/
  | sidebandPrivateRead
  /-- A line received on the monitor UART is parsed, or discarded with err long when it is too long (R574). -/
  | monitorLine (line : List Byte)
  /-- Monitor command that lists the commands the security state allows (R575). -/
  | help
  /-- Monitor command that reads registers as an ordinary read (R575). -/
  | peek (addr : Nat) (n : Nat)
  /-- Monitor command that writes a register under the register rules (R575). -/
  | poke (addr : Nat) (v : Word)
  /-- Monitor command that prints the set RC bits through the debug path without clearing them (R575). -/
  | sticky (die : Option Nat)
  /-- Monitor command that prints fault records (R575). -/
  | faults (range : Option (Nat × Nat))
  /-- Monitor command that prints Hall Time and its state (R575). -/
  | time
  /-- Monitor command that runs a traffic generator on one channel (R575). -/
  | tg (die : Nat) (ch : Nat) (mode : Nat) (pat : Nat) (base : Word) (len : Word) (seed : Word)
  /-- Monitor command that prints a unit's audit records and TOTAL (R575). -/
  | audit (die : Nat) (region : Nat) (unit : Nat)
  /-- Monitor command that prints the colophon (R575). -/
  | colophon
  /-- Monitor command that prints the boot log (R575). -/
  | bootlog
  /-- JTAG instruction that returns SEC_ID and the colophon (R647). -/
  | jtagIdcode
  /-- JTAG debug-path read or register write at the grade the state allows (R647). -/
  | jtagAccess (addr : Nat) (data : Option Word)
  /-- JTAG instruction that enters scan in Idle, stops all but the always-on clocks and sets SCAN (R651). -/
  | jtagScan
  /-- A write to a register that has no behaviour of its own, judged by the access rules and quoins (R583). -/
  | registerWrite (who : Requester) (addr : Nat) (whole : Bool) (v : Word)
  /-- A read of a register with RC fields clears the RC bits it returns as 1 (R586). -/
  | registerReadClear (who : Requester) (addr : Nat)
  /-- A read of a 64-bit pair's _LO copies _HI into the requester's shadow (R589). -/
  | shadowLoRead (who : Requester) (addr : Nat)
  /-- A read of a pair's _HI returns the shadow if valid and invalidates it, clearing any RC bits returned (R589). -/
  | hiRead (who : Requester) (addr : Nat)
  /-- A read through the debug path that has no side effect (R588). -/
  | debugRead (who : Requester) (addr : Nat)
  /-- A write to HT_SET_LO that loads the held pair into Hall Time in FREE, or is dropped with SET_DROPPED (R108). -/
  | htSetLoWrite (who : Requester) (v : Word)
  /-- A write to HT_CONFIG, dropped whole while a forme is armed or when TRAM_COUNT is 0b11 (R104). -/
  | htConfigWrite (who : Requester) (v : Word)
  /-- A write to HT_NODE_ID, dropped while any forme is armed (R43). -/
  | htNodeIdWrite (who : Requester) (v : Word)
  /-- A write to PART_ID or PART_EN, dropped with PART_BUSY while ARMED (R42). -/
  | cdPartitionWrite (who : Requester) (die : Die) (v : Word)
  /-- A software write to an imposition entry, dropped by the quoin, by an armed forme or by a bad value (R46). -/
  | tuImposeWrite (who : Requester) (lu : LU) (v : Word)
  /-- A write that replaces a voltage-table entry from the next furrow boundary, or is dropped with VT_BAD (R521). -/
  | pwrVtabWrite (who : Requester) (rid : RegionId) (gear : Fin 3) (v : Word)
  /-- A write that sets quoin bits, which complete on every die before the next access (R591). -/
  | secQuoinWrite (who : Requester) (v : Word)
  /-- A write that narrows debug grades while the DEBUG_CTL quoin is clear (R650). -/
  | secDebugCtlWrite (who : Requester) (v : Word)
  /-- A write that spares lanes out at the next step boundary of the claiming partition, or at once (R452). -/
  | ldSpareWrite (who : Requester) (k : LinkDie) (high : Bool) (v : Word)
  /-- A write of SCRUB_DIV, dropped when it is 0 (R425). -/
  | hbmCfgWrite (who : Requester) (die : Die) (v : Word)
  /-- A read of HBM_UE_ADDR_HI that clears VALID and re-arms the UE address latch (R425). -/
  | hbmUeAddrHiRead (who : Requester) (die : Die)
  /-- A read that returns VALID as 1, clears it and re-arms the refused-access address latch (R600). -/
  | secAccessAddrRead (who : Requester)
  /-- Writing START runs a traffic generator, or is refused with TG_REFUSED (R420). -/
  | tgStart (who : Requester) (die : Die) (ch : Fin 32) (v : Word)
  /-- Writing STOP ends a traffic-generator run after the current access (R426). -/
  | tgStop (who : Requester) (die : Die) (ch : Fin 32) (v : Word) (n : Nat)
  /-- A traffic-generator run completes its passes, sets DONE and records ERR and FIRST (R426). -/
  | tgRunDone (die : Die) (ch : Fin 32)
  /-- Writing PROG burns the set bits of SEC_FUSE_DATA into a fuse word, only in Manufacturing (R658). -/
  | fuseProg (who : Requester) (v : Word)
  /-- Fuse programming completes and sets FAIL if it did not verify (R658). -/
  | fuseProgDone (verified : Bool)
  /-- M-slot operation that accumulates op(A) times op(B) into an accumulation group (R187). -/
  | mMma (u : LU) (o : MmaOp)
  /-- M-slot operation that opens a group in ZERO or LOAD mode, binding the proof engine if PROOF is set (R200). -/
  | grpOpen (u : LU) (o : OpenOp)
  /-- M-slot operation that shuts a group and starts its checksum comparison or proof rounding (R202). -/
  | grpClose (u : LU) (g : Fin 4)
  /-- A run sum of an M.MMA lands and is promoted into the group's compensated pair (R197). -/
  | runPromotion (u : LU) (upsets : List (Nat × Word))
  /-- 24 cycles after GRP_CLOSE the comparison of a group completes and may mismatch (R467). -/
  | checksumComparison (u : LU)
  /-- 24 cycles after GRP_CLOSE the proof engine writes the rounded exact sums and is freed (R218). -/
  | proofResult (u : LU)
  /-- W-slot operation that quantises a source through the writer stages into a destination (R239). -/
  | wWrite (u : LU) (o : WriteOp)
  /-- A W.WRITE completes: its counts add to the monitor set and a guarded one evaluates its trip limits (R178). -/
  | wWriteComplete (u : LU)
  /-- V-slot addition (R241). -/
  | vAdd (u : LU) (vd va vb : Fin 16)
  /-- V-slot subtraction (R241). -/
  | vSub (u : LU) (vd va vb : Fin 16)
  /-- V-slot multiplication (R241). -/
  | vMul (u : LU) (vd va vb : Fin 16)
  /-- V-slot fused multiply-add (R241). -/
  | vFma (u : LU) (vd va vb vc : Fin 16)
  /-- V-slot reciprocal (R241). -/
  | vRcp (u : LU) (vd va : Fin 16)
  /-- V-slot reciprocal square root (R241). -/
  | vRsq (u : LU) (vd va : Fin 16)
  /-- V-slot exponential (R241). -/
  | vExp (u : LU) (vd va : Fin 16)
  /-- V-slot pairwise tree sum across 64 lanes (R241). -/
  | vSum (u : LU) (vd va : Fin 16)
  /-- V-slot load of 64 elements converted to FP32 (R241). -/
  | vLd (u : LU) (vd : Fin 16) (desc : Fin 64) (reg : Fin 16)
  /-- V-slot store of 64 lanes in BF16 or FP32 (R241). -/
  | vSt (u : LU) (va : Fin 16) (desc : Fin 64) (reg : Fin 16)
  /-- V-slot load of one row of an accumulation group (R241). -/
  | vLdg (u : LU) (vd : Fin 16) (g : Fin 4) (imm : Fin 64) (reg : Fin 16)
  /-- V-slot broadcast of an immediate (R241). -/
  | vSplat (u : LU) (vd : Fin 16) (imm : Half)
  /-- X-slot move from the shared cache or HBM into scratchpad (R243). -/
  | xLd (u : LU) (o : MoveOp)
  /-- X-slot move from scratchpad to the shared cache or HBM (R243). -/
  | xSt (u : LU) (o : MoveOp)
  /-- X-slot move into a link send buffer that sets its tag for a slot (R265). -/
  | xSend (u : LU) (o : MoveOp)
  /-- X-slot move from a receive buffer that checks the buffer's tag (R266). -/
  | xRecv (u : LU) (o : MoveOp)
  /-- X-slot push of a tile to a galley (R264). -/
  | xPush (u : LU) (o : MoveOp)
  /-- X-slot pop of a tile from a galley (R263). -/
  | xPop (u : LU) (o : MoveOp)
  /-- X-slot move that sends contributions to a reduction window (R330). -/
  | xRacc (u : LU) (o : MoveOp)
  /-- X-slot load of 32 KiB into the inactive instruction bank (R267). -/
  | xIload (u : LU) (o : MoveOp)
  /-- X-slot load of the writer table (R154). -/
  | xWtbl (u : LU) (o : MoveOp)
  /-- X-slot load of the descriptor table (R227). -/
  | xDtbl (u : LU) (o : MoveOp)
  /-- X-slot hand-off of a command block to the cluster's drill or rake (R372). -/
  | xEng (u : LU) (o : MoveOp)
  /-- X-slot copy of both monitor banks into scratchpad (R243). -/
  | xMon (u : LU) (o : MoveOp)
  /-- An inbound line of a far move or pop lands in scratchpad, or an outbound line reaches its far target (R235). -/
  | moveLineLand (u : LU) (id : Nat) (e : LineEcc)
  /-- A pushed tile's last line lands and the galley count rises (R262). -/
  | galleyPushLand (u : LU) (id : Nat)
  /-- A-slot register addition (R246). -/
  | aAdd (u : LU) (d a b : Fin 16)
  /-- A-slot register subtraction (R246). -/
  | aSub (u : LU) (d a b : Fin 16)
  /-- A-slot register and (R246). -/
  | aAnd (u : LU) (d a b : Fin 16)
  /-- A-slot register shift left (R246). -/
  | aShl (u : LU) (d a b : Fin 16)
  /-- A-slot register logical shift right (R246). -/
  | aShr (u : LU) (d a b : Fin 16)
  /-- A-slot add of a sign-extended immediate (R246). -/
  | aAddi (u : LU) (d a : Fin 16) (imm : Half)
  /-- A-slot and with a zero-extended immediate (R246). -/
  | aAndi (u : LU) (d a : Fin 16) (imm : Half)
  /-- A-slot shift left by an immediate (R246). -/
  | aShli (u : LU) (d a : Fin 16) (imm : Half)
  /-- A-slot logical shift right by an immediate (R246). -/
  | aShri (u : LU) (d a : Fin 16) (imm : Half)
  /-- L-slot operation that starts a counted loop (R249). -/
  | lLoop (u : LU) (creg : Fin 16) (len : Fin 1024)
  /-- L-slot operation that holds issue until a tick in the furrow plus lag (R251). -/
  | lWait (u : LU) (t : Fin 16384)
  /-- The tick of an L.WAIT arrives and issue resumes (R251). -/
  | lWaitExpiry (u : LU)
  /-- L-slot operation that holds issue for a count of core cycles (R248). -/
  | lIdle (u : LU) (n : Fin 16384)
  /-- The count of an L.IDLE runs out and issue resumes (R248). -/
  | lIdleExpiry (u : LU)
  /-- L-slot operation that arms a bank switch for the next furrow boundary (R267). -/
  | lArm (u : LU)
  /-- L-slot operation that sets the segment entry address for the next furrow boundary (R253). -/
  | lEntry (u : LU) (addr : Fin 1024)
  /-- L-slot operation that holds issue until the next furrow boundary (R248). -/
  | lHalt (u : LU)
  /-- L-slot operation that skips bundles on a flag, honoured only after SEG_END (R252). -/
  | lSkip (u : LU) (flag : Fin 16) (sense : Bool) (n : Fin 1024)
  /-- A command block reaches a drill or rake and is dropped with ENG_COLLIDE if the engine is busy (R375). -/
  | engineBlockArrive (u : LU) (id : Nat)
  /-- Drill command that applies item rows to a sown window as contributions (R379). -/
  | sow (c : ClusterId)
  /-- Drill command that bins items into capacity buffers and window routes and pushes overflow tiles (R384). -/
  | pack (c : ClusterId)
  /-- Drill command that appends overflow items to headland positions (R387). -/
  | drain (c : ClusterId)
  /-- Rake command that lands table rows named by index (R392). -/
  | gather (c : ClusterId)
  /-- Rake command that lands reply rows named by placement words (R394). -/
  | pick (c : ClusterId)
  /-- An engine command ends after its fixed occupancy and the engine becomes free (R376). -/
  | engineCommandDone (c : ClusterId) (rake : Bool)
  /-- An update-engine invocation starts at its START tick or when its predecessor ends (R292). -/
  | updateInvocationStart (die : Die)
  /-- An update-engine invocation finishes its bands and the next may start (R301). -/
  | updateInvocationEnd (die : Die)
  /-- Update-engine addition (R296). -/
  | uAdd (die : Die) (d : Fin 16) (a b : Fin 32)
  /-- Update-engine subtraction (R296). -/
  | uSub (die : Die) (d : Fin 16) (a b : Fin 32)
  /-- Update-engine multiplication (R296). -/
  | uMul (die : Die) (d : Fin 16) (a b : Fin 32)
  /-- Update-engine fused multiply-add (R296). -/
  | uFma (die : Die) (d : Fin 16) (a b c : Fin 32)
  /-- Update-engine division (R296). -/
  | uDiv (die : Die) (d : Fin 16) (a b : Fin 32)
  /-- Update-engine square root (R296). -/
  | uSqrt (die : Die) (d : Fin 16) (a : Fin 32)
  /-- Update-engine reciprocal square root (R296). -/
  | uRsq (die : Die) (d : Fin 16) (a : Fin 32)
  /-- Update-engine sign (R296). -/
  | uSign (die : Die) (d : Fin 16) (a : Fin 32)
  /-- Update-engine absolute value (R296). -/
  | uAbs (die : Die) (d : Fin 16) (a : Fin 32)
  /-- Update-engine clamp (R296). -/
  | uClamp (die : Die) (d : Fin 16) (a b c : Fin 32)
  /-- Update-engine load of an element from an input stream (R296). -/
  | uLd (die : Die) (d : Fin 16) (st : Fin 8)
  /-- Update-engine store of an element to an output stream (R296). -/
  | uSt (die : Die) (a : Fin 32) (st : Fin 8)
  /-- Update-engine store of an SP32 weight with RNE or stochastic rounding (R303). -/
  | uStw (die : Die) (a : Fin 32) (st : Fin 8) (sr : Bool)
  /-- Update-engine end of program (R295). -/
  | uEnd (die : Die)
  /-- A contribution reaches the owner die's adders and is applied to its window's blocks (R333). -/
  | accumulateArrive (x : Contribution)
  /-- At a window's OPEN tick its tags clear, scales load from the history and sown lines zero (R328). -/
  | windowOpen (d : Die) (w : Fin 256)
  /-- At a window's SEAL tick blocks are tested against EXPECT and the verso history may be written (R335). -/
  | windowSeal (d : Die) (w : Fin 256)
  /-- A START ring entry reads local values and forms the outgoing CF8 or CF16 blocks (R344). -/
  | ringStart (d : Die) (e : Nat)
  /-- A received ring slot is processed by its entry as HOP, HOME, PASS or END (R341). -/
  | ringBlockReceive (d : Die) (e : Nat)
  /-- The checker compares gleaned blocks and sets GLEAN_MISMATCH on failure (R362). -/
  | gleanCompare (d : Die) (owner : Die) (w : Fin 256) (k : Nat)
  /-- A scheduled access reaches the stack controller and is served, corrected or refused (R406). -/
  | hbmAccess (die : Die) (iss : Issuer) (off : Nat) (data : Option (List Byte)) (upset : Nat)
  /-- An access reaches a shared-cache bank and is served or dropped on a collision (R418). -/
  | sharedCacheAccess (die : Die) (iss : Issuer) (off : Nat) (data : Option (List Byte)) (upset : Nat)
  /-- Every 64 ticks each pseudo-channel begins refreshing the next bank of the rotation (R400). -/
  | refreshStep
  /-- The stack temperature read in tramline slot 0 takes effect at tick 128 and sets the band (R404). -/
  | hbmTempReading (die : Die) (reading : Option Nat)
  /-- One scrub access per stack in slot 0 of every SCRUB_DIV-th furrow (R403). -/
  | patrolScrub (die : Die) (upset : Nat)
  /-- Periodic recalibration of one channel in every other tramline interval (R403). -/
  | phyCalibration (die : Die) (fails : Bool)
  /-- One 64 B copy access of a page being retired in a free tramline interval (R413). -/
  | retirementCopy (die : Die) (upset : Nat)
  /-- The retirement copy completes and the remap switches at the next step boundary, or at once (R413). -/
  | retireCopyDone (die : Die)
  /-- At tick 12,288 of each furrow the die sensors are read and q_temp for the coming furrow is formed (R532). -/
  | dieTempReading (die : Die) (readings : List (Option Nat))
  /-- A droop detector trips and suppresses issue in all units of the region (R523). -/
  | droopTrip (rid : RegionId) (after : Fin 3)
  /-- After 8 consecutive cycles above the release threshold, droop suppression ends (R524). -/
  | droopRelease (rid : RegionId)
  /-- Every 64 ticks domain and input energies are reported and assigned to the accounts (R537). -/
  | energyPeriod (dom : List Nat) (input : Nat)
  /-- At each furrow boundary regions start their next segment and unfinished work is cut or slipped (R86). -/
  | furrowBoundary
  /-- At each step boundary unit state resets, monitors bank, substitutions apply and the next variant is chosen (R269). -/
  | stepBoundary (p : Part)
  /-- During the two furrows before a boundary a chosen spare loads both instruction banks from the forme image (R49). -/
  | spareBankLoad (lu : LU)
  /-- At the verdict tick provisional events become suspect and the package verdict enters the tramline sum (R475). -/
  | verdictTick (p : Part)
  /-- At the commit tick a zero hall verdict toggles SEL and advances CD_STEP, otherwise the unclean policy applies (R313). -/
  | commitTick (p : Part)
  /-- A suspect event reaches the partition's verdict counter on XD, late ones going to the next step (R476). -/
  | suspectEventArrive (n : Nat)
  /-- At a slot's start the link samples the send buffer's tag and sends data, blank or idle (R436). -/
  | slotSend (port : Port) (lane : Fin 8)
  /-- A scheduled slot arrives and lands, or is taken as a blank (R437). -/
  | slotReceive (port : Port) (lane : Fin 8) (x : RxSlot)
  /-- A received ACCUM slot is handed to its window's die as a contribution (R331). -/
  | accumSlotReceive (port : Port) (lane : Fin 8) (x : RxSlot)
  /-- A received CAPACITY slot is sown into a window or landed for X.RECV or PICK (R391). -/
  | capacitySlotReceive (port : Port) (lane : Fin 8) (x : RxSlot)
  /-- A fabric slot opens and delivers its transfer, or a blank if its source has not filled it (R16). -/
  | fabricSlot (slot : FabricSlot) (line : Option (List Byte))
  /-- An FEC codeword is received and corrected or counted uncorrectable (R434). -/
  | codewordReceive (lane : Lane) (c : Codeword)
  /-- In each tramline slot the package sends its time, verdict, promotion, cold-start records, messages, acks and bulk (R443). -/
  | tramlineSend (port : Port)
  /-- A received tramline slot delivers the time record, verdict records, messages, acknowledgements and bulk data (R443). -/
  | tramlineReceive (port : Port) (lane : Fin 8) (x : RxTram)
  /-- The fourth consecutive missing heartbeat marks the twin lost (R454). -/
  | heartbeatMissing
  /-- A lane leaves UP; the end that sees it blanks its slots and sends LANE_DOWN with a switch tick (R450). -/
  | laneFailure (lane : Lane)
  /-- Equalisation converges and the lane enters ALIGN (R447). -/
  | laneTrained (lane : Lane) (delay : Nat)
  /-- Equalisation does not converge within 40 ms and the lane returns to DOWN or FAILED (R447). -/
  | trainTimeout (lane : Lane)
  /-- After 2^27 ticks in FAILED the lane returns to TRAIN (R447). -/
  | failedRetry (lane : Lane)
  /-- Loss of signal on a lane sends it to DOWN (R447). -/
  | lossOfSignal (lane : Lane)
  /-- A 64-furrow HALL_EPOCH frame is read and, after two good frames, Hall Time is loaded and LOCKED entered (R60). -/
  | epochFrame (pulses : List EpochPulse)
  /-- No reference edge for 64 ticks sends the package to HOLDOVER (R68). -/
  | referenceLoss (l : RefLoss)
  /-- 64 furrows in HOLDOVER without the source returning sends the package to LOST (R68). -/
  | holdoverTimeout
  /-- One furrow after entering LOST the package enters ACQUIRE (R68). -/
  | lostToAcquire
  /-- At an accepted RUN_AT tick the partition's first step begins (R97). -/
  | runStart (p : Part)
  /-- At a HALT_AT boundary the forme stops issuing and an unfinished step is abandoned (R98). -/
  | formeHalt (p : Part)
  /-- One furrow before an upward gear change the region voltages rise to the target entries (R101). -/
  | gearVoltageRise (p : Part)
  /-- At T the core clocks switch, droop thresholds reload and the gear variant's first step begins (R101). -/
  | gearSwitch (p : Part)
  /-- One furrow after a downward gear change the region voltages fall to the target entries (R101). -/
  | gearVoltageFall (p : Part)
  /-- A switched-on region domain reaches its voltage-table entry and ON reads 1 (R518). -/
  | regionPowerOn (rid : RegionId)
  /-- A mailbox line lands and, if it covers a standing provisional event, marks the result lines blank (R480). -/
  | replayMailbox (rid : RegionId)
  /-- Four cycles after an accepted mailbox line a free spare starts the replay program (R480). -/
  | replayStart (rid : RegionId) (second : Bool)
  /-- A replay request landing from the twin starts a free guest spare (R486). -/
  | twinReplayRequest (rid : RegionId) (line : List Byte)
  /-- After 192 furrows the automatic field proof ends, fencing failed blocks and possibly cancelling the arm (R490). -/
  | automaticFieldProofEnd (p : Part) (fails : List ProofFail)
  /-- After 64 furrows the spare known-answer runs end, failing spares are fenced and the reply posted (R491). -/
  | fieldProofEnd (fails : List PU)
  /-- The proof of a block reset ends and passing parts leave the fallow state (R620). -/
  | blockProofEnd (fails : List ProofFail)
  /-- A clock domain leaves lock and its block does no scheduled work until lock returns (R601). -/
  | clockLockLoss (c : ClkDom)
  /-- A clock domain regains lock and its block resumes at the next furrow boundary (R601). -/
  | clockLockReturn (c : ClkDom)
  /-- 72 V rising through 68.4 V runs the cold power-up sequence (R608). -/
  | coldReset (st : Straps)
  /-- A boot step that does not complete in its time stops the sequence with BOOT_FAIL (R608). -/
  | bootStageTimeout
  /-- PERST# asserted resets the package except the always-on domains (R602). -/
  | fundamentalReset
  /-- A firmware processor's watchdog expires and all four processors restart (R615). -/
  | watchdogExpiry (digestOk refreshed : Bool)
  /-- Input below 64.0 V for 1 ms removes power from all but the always-on domains (R513). -/
  | brownOut
  /-- Input below 40.0 V for 10 ms ends every latch and clears retained memory (R671). -/
  | supplyRemoval
  /-- The input moves into the low or high operating band and IN_LOW or IN_HIGH is set (R513). -/
  | inputLevelChange (volts : Nat)
  /-- Input at or above 80.0 V latches the package (R502). -/
  | overvolt
  /-- A power-conversion die fault latches the package (R502). -/
  | pcFault (k : Fin 4)
  /-- A fuse integrity failure latches the package (R502). -/
  | fuseIntegrityFail
  /-- A security enclave tamper latches the package and applies the Vendor-Return entry effects (R644). -/
  | tamper
  /-- One furrow after a fuse or tamper latch, power is removed from the compute and link dies (R502). -/
  | latchPowerOff
  /-- The background image checks of a LAST FW_STAGE end and the reply posts OK or FW_BAD (R628). -/
  | fwStageCheckDone (iv : List Byte)
  /-- The new firmware checks the settings format, clears TRIAL and posts the FW_ACTIVATE reply (R631). -/
  | fwTrialConfirm (format : Nat)
  /-- TRIAL not cleared within 200 ms rolls the slot state back to the previous firmware (R632). -/
  | fwTrialTimeout
  /-- The ROM loader answers FW_STAGE and FW_ACTIVATE packets within 1 ms and starts a checked image (R609). -/
  | romLoader (q : Req) (c : Cmd) (format : Nat)
  /-- Release of PERST# samples the straps and runs the fundamental-reset boot sequence (R606). -/
  | perstRelease (st : Straps)
  /-- Reference edges return on HALL_REF_P/N while the package is in HOLDOVER, starting the test that leads back to LOCKED or to LOST (R68). -/
  | hallRefReturn (within_ : Bool)
  /-- A link die reaching 100 °C is fenced at once, with its ports blank at both ends (R535). -/
  | linkDieOvertemp (k : LinkDie)
  /-- The control die reaching 105 °C latches the package as for TAMPER (R535). -/
  | controlDieOvertemp
  /-- A host-memory transfer of a command ends after its bytes have crossed the link, or ends with DMA_FAULT, and the command's reply follows (R549). -/
  | dmaTransferDone (src : Src) (r : HostRead)
  /-- The I3C bus controller gives the sideband target its dynamic address, after which I3C_SDA is driven and the sideband answers (R571). -/
  | dynamicAddressAssigned (a : BitVec 7)
  /-- A DOE Discovery request on the PCIe endpoint is answered (R547). -/
  | doeDiscovery (index : Byte)
  /-- A bundle slot with an undefined opcode or nonzero unused bits issues as NOP and sets OP_BAD (R224). -/
  | undefinedOpcode (u : LU) (sl : Slot)
  deriving DecidableEq, Repr

end Sys2Proof
end

