-- ==== Sys2Proof/Decode.lean ====
section
/-!
DEFINITION. The command a word spells. The opcode table gives none of its rows bits: a packet of the host is read by
COMMAND_COLLECTION, and no other command has an encoding (notes/assumptions 6).
-/
namespace Sys2Proof

/-- The command of a table word: no row has bits. -/
def decodeTableWord (_nbits _w : Nat) : Option Instr := none

end Sys2Proof
end

