-- ==== Sys2Proof/Machine/Tram.lean ====
section
/-!
DEFINITION. What lies on a lane byte for byte: the slot header (11_links_and_twin.md R435), the time-exchange record
(02_hall_time.md R64), the verdict, promotion and cold-start records (R90, 07_training_step.md R309,
08_gradient_reduction.md R357), management messages, acknowledgements and bulk data (R443 to R446), as they are laid out
and as they are read.
-/
namespace Sys2Proof.Machine

def zeros (n : Nat) : List Byte := List.replicate n 0

def bitAt (b : List Byte) (at_ i : Nat) : Bool := ((b[at_]?).getD 0).getLsbD i

/-! ### PRBS31 (R436) -/

/-- The next bit of the PRBS31 sequence of ITU-T O.150, and the last 31 bits of it: x^31 + x^28 + 1 (PRESUMED, log 15: the
polynomial, the inversion of the bits sent, and that a byte's bit 0 goes first are O.150's and the common practice). -/
def prbsStep (r : BitVec 31) : Bool × BitVec 31 :=
  let b := r.getLsbD 30 != r.getLsbD 27
  (!b, (r <<< 1) ||| (BitVec.ofBool b).setWidth 31)

/-- The next byte of the sequence. -/
def prbsByte (r : BitVec 31) : Byte × BitVec 31 :=
  (List.range 8).foldl (fun (a : Byte × BitVec 31) i =>
    let (b, r) := prbsStep a.2
    (a.1 ||| ((BitVec.ofBool b).setWidth 8 <<< i), r)) (0, r)

/-- The next `n` bytes of the sequence. -/
def prbsBytes : Nat → BitVec 31 → List Byte × BitVec 31
  | 0, r => ([], r)
  | n + 1, r =>
    let x := prbsByte r
    let y := prbsBytes n x.2
    (x.1 :: y.1, y.2)

/-! ### The slot header (R435) -/

/-- A slot header's fields. -/
structure SlotHead where
  kind : Nat
  lane : Nat
  seq : Nat
  node : Nat
  port : Nat
  part : Nat
  job : Word
  deriving DecidableEq, Repr

/-- Header bytes 0 to 23. -/
def SlotHead.fields (h : SlotHead) : List Byte :=
  natLe 1 (h.kind % 8) ++ natLe 1 (h.lane % 8) ++ natLe 2 h.seq ++ natLe 2 (h.node % 32768) ++ natLe 1 h.port
    ++ natLe 1 (h.part % 8) ++ natLe 4 h.job.toNat ++ zeros 12

/-- The header over a payload, with PCRC and HCRC. -/
def SlotHead.bytes (h : SlotHead) (payload : List Byte) : List Byte :=
  let b := h.fields ++ natLe 4 (crc32 payload).toNat
  b ++ natLe 4 (crc32 b).toNat

/-- The fields of 32 header bytes; reserved bits are not looked at. -/
def SlotHead.read (b : List Byte) : SlotHead where
  kind := blockField b 0 1 % 8
  lane := blockField b 1 1 % 8
  seq := blockField b 2 2
  node := blockField b 4 2 % 32768
  port := blockField b 6 1
  part := blockField b 7 1 % 8
  job := BitVec.ofNat 32 (blockField b 8 4)

/-- HCRC holds (R435). -/
def hcrcOk (head : List Byte) : Bool := (crc32 (head.take 28)).toNat == blockField head 28 4

/-- PCRC holds (R435). -/
def pcrcOk (head payload : List Byte) : Bool := (crc32 payload).toNat == blockField head 24 4

/-- The slot as a lane sends it: header and payload. -/
def SentSlot.head (x : SentSlot) : List Byte :=
  (SlotHead.mk x.kind x.lane x.seq x.node x.port x.part x.job).bytes x.payload

/-! ### The time-exchange record (R64) -/

/-- A time in 1/64 tick: the tick count, then the fraction. -/
def timeBytes (t : Nat) : List Byte := natLe 8 (t / 64) ++ natLe 1 (t % 64)

def timeAt (b : List Byte) (at_ : Nat) : Nat := blockField b at_ 8 * 64 + blockField b (at_ + 8) 1 % 64

def TimeRecord.bytes (r : TimeRecord) : List Byte :=
  timeBytes r.sendT ++ natLe 1 (r.hop % 16)
    ++ natLe 1 (r.locked.toNat + 2 * r.free.toNat + 4 * r.edge.toNat + 8 * r.echoValid.toNat) ++ zeros 1
    ++ natLe 2 (r.node % 32768) ++ zeros 2 ++ timeBytes r.echoSendT ++ zeros 7 ++ timeBytes r.echoRecvT ++ zeros 23

def TimeRecord.read (b : List Byte) : TimeRecord where
  sendT := timeAt b 0
  hop := blockField b 9 1 % 16
  locked := bitAt b 10 0
  free := bitAt b 10 1
  edge := bitAt b 10 2
  echoValid := bitAt b 10 3
  node := blockField b 12 2 % 32768
  echoSendT := timeAt b 16
  echoRecvT := timeAt b 32

/-! ### Verdict, promotion and cold-start records (R90, R309, R357) -/

/-- The 32 bytes of a verdict record, VALID set. -/
def VerdictRec.bytes (r : VerdictRec) : List Byte :=
  natLe 4 r.job.toNat ++ natLe 4 r.step.toNat ++ natLe 4 r.tree.sum.toNat ++ natLe 1 r.down.toNat ++ natLe 1 1 ++ zeros 18

/-- The 32 bytes of the promotion record beside it. -/
def VerdictRec.promoBytes (r : VerdictRec) : List Byte :=
  natLe 4 r.job.toNat ++ natLe 4 r.step.toNat ++ (List.range 12).flatMap fun i => natLe 2 ((r.tree.counts[i]?).getD 0).toNat

/-- The 8 bytes of the cold-start record beside it. -/
def VerdictRec.coldBytes (r : VerdictRec) : List Byte := natLe 4 r.job.toNat ++ natLe 2 r.tree.cold.toNat ++ zeros 2

/-- Bytes 64 to 639 of a tramline payload: the records by partition; a partition without one has zeros, so VALID is 0. -/
def treeBytes (rs : List VerdictRec) : List Byte :=
  let at_ := fun (f : VerdictRec → List Byte) n => allParts.flatMap fun p => match rs.find? (·.part = p) with
    | some r => f r
    | none => zeros n
  at_ VerdictRec.bytes 32 ++ at_ VerdictRec.promoBytes 32 ++ at_ VerdictRec.coldBytes 8

/-- The records that a payload carries: those with VALID. A promotion or cold-start record of another job or step than
its verdict record's is missing, and adds its top (R309, R357). -/
def readTree (b : List Byte) : List VerdictRec :=
  allParts.filterMap fun p =>
    let v := 64 + 32 * p.val
    let m := 320 + 32 * p.val
    let c := 576 + 8 * p.val
    if !bitAt b (v + 13) 0 then none else
    let job := blockField b v 4
    let step := blockField b (v + 4) 4
    let promo : Bool := blockField b m 4 == job && blockField b (m + 4) 4 == step
    some ⟨p, BitVec.ofNat 32 job, BitVec.ofNat 32 step, bitAt b (v + 12) 0,
      ⟨BitVec.ofNat 32 (blockField b (v + 8) 4),
        (List.range 12).map fun i => if promo then BitVec.ofNat 16 (blockField b (m + 8 + 2 * i) 2) else 0xFFFF,
        if blockField b c 4 = job then BitVec.ofNat 16 (blockField b (c + 4) 2) else 0xFFFF⟩⟩

/-! ### Management messages (R444) -/

def MsgBody.type : MsgBody → Nat
  | .slip .. => 1
  | .laneDown .. => 2
  | .replace .. => 3
  | .heartbeat .. => 4
  | .digest .. => 5
  | .detach .. => 6

/-- Bytes 16 to 63. -/
def MsgBody.bytes : MsgBody → List Byte
  | .slip furrow count parts =>
    natLe 4 furrow ++ natLe 1 (parts.foldl (fun a e => a + 2 ^ e.part.val) 0) ++ zeros 1 ++ natLe 2 count
      ++ allParts.flatMap fun p => match parts.find? (·.part = p) with
        | some e => natLe 1 e.kind ++ natLe 1 e.die ++ natLe 1 e.region ++ natLe 1 (min e.slips 255)
        | none => zeros 4
  | .laneDown port lane t => natLe 1 port.val ++ natLe 1 lane ++ zeros 6 ++ natLe 8 t
  | .replace twin node => natLe 1 twin.toNat ++ zeros 3 ++ natLe 2 node
  | .heartbeat mirror state boots steps =>
    natLe 1 mirror.toNat ++ natLe 1 state ++ zeros 2 ++ natLe 4 boots.toNat
      ++ (List.range 8).flatMap fun i => natLe 4 ((steps[i]?).getD 0).toNat
  | .digest job step d => natLe 4 job.toNat ++ natLe 4 step.toNat ++ natLe 8 d.toNat
  | .detach byCommand => natLe 1 byCommand.toNat

/-- The 64 bytes of a message under its MSG_SEQ. -/
def Msg.bytes (m : Msg) (seq : Half) : List Byte :=
  padTo 64 (natLe 1 m.body.type ++ natLe 1 m.part.val ++ natLe 2 seq.toNat ++ natLe 2 m.node ++ zeros 2
    ++ natLe 8 m.raised ++ m.body.bytes)

/-- The body of a message of a TYPE, `none` where the TYPE is undefined. -/
def MsgBody.read (type : Nat) (b : List Byte) : Option MsgBody :=
  match type with
  | 1 => some (.slip (blockField b 16 4) (blockField b 22 2)
      (allParts.filterMap fun p =>
        let a := 24 + 4 * p.val
        if bitAt b 20 p.val then
          some ⟨p, blockField b a 1, blockField b (a + 1) 1, blockField b (a + 2) 1, blockField b (a + 3) 1⟩
        else none))
  | 2 => if h : blockField b 16 1 < 49 then some (.laneDown ⟨blockField b 16 1, h⟩ (blockField b 17 1) (blockField b 24 8))
    else none
  | 3 => some (.replace (blockField b 16 1 == 1) (blockField b 20 2))
  | 4 => some (.heartbeat (blockField b 16 1 == 1) (blockField b 17 1) (BitVec.ofNat 32 (blockField b 20 4))
      ((List.range 8).map fun i => BitVec.ofNat 32 (blockField b (24 + 4 * i) 4)))
  | 5 => some (.digest (BitVec.ofNat 32 (blockField b 16 4)) (BitVec.ofNat 32 (blockField b 20 4))
      (BitVec.ofNat 64 (blockField b 24 8)))
  | 6 => some (.detach (blockField b 16 1 == 1))
  | _ => none

/-- The message of a 64-byte slot with its MSG_SEQ; an empty slot or one of an undefined TYPE has none. -/
def Msg.read (b : List Byte) : Option (Half × Msg) :=
  (MsgBody.read (blockField b 0 1) b).map fun body =>
    (BitVec.ofNat 16 (blockField b 2 2),
      ⟨body, ⟨blockField b 1 1 % 8, by omega⟩, blockField b 4 2 % 32768, blockField b 8 8⟩)

/-! ### Acknowledgements and bulk data (R443, R446) -/

def ackBytes (acks : List Half) : List Byte := padTo 64 (natLe 2 acks.length ++ acks.flatMap fun a => natLe 2 a.toNat)

def readAcks (b : List Byte) : List Half :=
  (List.range (min (blockField b 960 2) 31)).map fun i => BitVec.ofNat 16 (blockField b (962 + 2 * i) 2)

def BulkPiece.bytes (x : BulkPiece) : List Byte :=
  natLe 2 x.id.toNat ++ zeros 2 ++ natLe 8 x.offset ++ natLe 2 x.data.length ++ zeros 2 ++ x.data

/-- The bulk data of a payload; a length of 0 is none. -/
def readBulk (b : List Byte) : Option BulkPiece :=
  let n := min (blockField b 1036 2) 1520
  if n = 0 then none else
  some ⟨BitVec.ofNat 16 (blockField b 1024 2), blockField b 1028 8, (b.drop 1040).take n⟩

/-! ### A tramline payload (R443) -/

/-- The payload that a lane sends: its own time record and bulk data with the PRBS31 that fills it (R446), the rest as on
every lane. -/
def SentTram.payload (x : SentTram) (lane : Nat) : List Byte :=
  (match x.times[lane]? with
    | some r => r.bytes
    | none => zeros 64)
    ++ treeBytes x.records ++ padTo 320 (x.msgs.flatMap fun m => m.2.bytes m.1) ++ ackBytes x.acks
    ++ (match x.bulk.find? (·.1 = lane) with
      | some e => e.2.bytes
      | none => zeros 16) ++ (x.fill[lane]?).getD []

/-- The header of a lane's tramline slot (R435): KIND 3, PART and JOB 0, SEQ of its slot. -/
def SentTram.head (x : SentTram) (lane : Nat) : List Byte :=
  (SlotHead.mk 3 lane (x.tick / 128 % 65536) x.node x.port 0 0).bytes (x.payload lane)

/-- The messages of a payload, by position. -/
def readMsgs (b : List Byte) : List (Half × Msg) :=
  (List.range 5).filterMap fun i => Msg.read ((b.drop (640 + 64 * i)).take 64)

end Sys2Proof.Machine
end

