-- ==== Sys2Proof/Machine/State.lean ====
section
/-!
DEFINITION. The state of the package, its faults and refusals, and the state after reset.
-/
namespace Sys2Proof.Machine

/-- The package. `pending` is the queue of commands; `free` counts the free values used (log 1). Units are keyed by
physical position, what belongs to a logical unit by its logical index; a key that a table does not list has the reset
value of its kind. `busOut` is the word the last register access returned. -/
structure State where
  pending : List Instr
  free : Nat
  ht : HtS
  units : AMap PU UnitS
  lus : AMap LU LuS
  regions : AMap RegionId RegionS
  clusters : AMap ClusterId ClusterS
  dies : AMap Die DieS
  links : LinkS
  parts : AMap Part PartS
  regs : AMap Reg Word
  retained : Memory
  fen : FenceS
  susp : List SuspEv
  prov : List ProvEv
  replays : List ReplayRun
  power : PowerS
  host : HostS
  sb : SidebandS
  mon : MonitorS
  fw : FwS
  sec : SecS
  straps : Straps
  faultPin : Bool
  replacePin : Bool
  busOut : Word
  deriving DecidableEq, Repr

/-- Why the machine stops. -/
inductive Fault where
  /-- Raised by nothing: the spec gives every access outside an address space an effect of its own (R245, R284, R406,
  R416, R581), so no command of this package stops with a fault. Safe. -/
  | unused
  deriving DecidableEq, Repr

/-- Why a command has no meaning. -/
inductive Refusal where
  /-- Raised by the dispatch alone, for a command whose meaning is not written. Safe. -/
  | notModelled (mnemonic : String)
  deriving DecidableEq, Repr

def FwS.reset : FwS where
  active := Config.flashActive
  trial := Config.flashTrial
  versions := [Config.flashVersion 0, Config.flashVersion 1]
  images := [Config.flashImage 0, Config.flashImage 1]
  sound := [Config.flashSound 0, Config.flashSound 1]
  ivs := [Config.flashIv 0, Config.flashIv 1]
  boots := Config.flashBoots
  svn := Config.flashSvn
  staging := .empty
  extents := []
  loaded := []
  settings := Config.flashSettings
  format := Config.flashFormat
  ownFormat := Config.flashFormat
  fallow := .reset
  retired := []
  bootlog := []
  warmCount := 0
  pause := none
  trialFrom := none
  warm := none
  block := none
  loaderImage := false
  shown := []
  comesDue := false

def SecS.reset : SecS where
  fused := Config.fusedState
  burnt := []
  owner := false
  idkGone := false
  revoked := false
  tampered := Config.fusedTampered
  draws := 0
  progDue := none
  tapReset := false
  tapOut := []

/-- The package just after a cold reset has begun: 72 V present, Standby, the first boot stage to come (R602, R608);
registers at their Reset values, everything else as logs 3, 4 and 12 say. -/
def State.reset : State where
  pending := []
  free := 0
  ht := .reset
  units := .empty
  lus := .empty
  regions := .empty
  clusters := .empty
  dies := .empty
  links := .reset
  parts := .empty
  regs := .empty
  retained := .empty
  fen := .reset
  susp := []
  prov := []
  replays := []
  power := .reset
  host := .reset
  sb := .reset
  mon := .reset
  fw := .reset
  sec := .reset
  straps := ⟨0, 0⟩
  faultPin := false
  replacePin := false
  busOut := 0

end Sys2Proof.Machine
end

