-- ==== Sys2Proof/Machine/Ops.lean ====
section
/-!
DEFINITION. The named operations over the state: the tables of parts, the register store, partitions and steps,
suspect events (12_silent_errors_and_faults.md R474 to R477), fault sources with their records, vectors and reactions
(R492 to R497), fences and substitution (R47 to R52, R498 to R501), REPLACE_N (R505) and the power state (R517).
-/
namespace Sys2Proof.Machine

open Sys2Proof

/-! ### Tables of parts -/

def State.now (s : State) : Nat := s.ht.now.toNat

/-- The ticks that have passed since the last cold or fundamental reset: what a time span is measured by, where the count
itself may be set (R57, R108). -/
def State.elapsed (s : State) : Nat := s.ht.ticks

/-- Tick in furrow (R54). -/
def State.tickIn (s : State) : Nat := s.now % 16384

def State.unit (s : State) (p : PU) : UnitS := s.units.getD p .reset
def State.setUnit (s : State) (p : PU) (u : UnitS) : State := { s with units := s.units.set p u }
def State.modUnit (s : State) (p : PU) (f : UnitS → UnitS) : State := s.setUnit p (f (s.unit p))
def State.lu (s : State) (l : LU) : LuS := s.lus.getD l .reset
def State.modLu (s : State) (l : LU) (f : LuS → LuS) : State := { s with lus := s.lus.set l (f (s.lu l)) }
def State.region (s : State) (r : RegionId) : RegionS := s.regions.getD r .reset
def State.modRegion (s : State) (r : RegionId) (f : RegionS → RegionS) : State :=
  { s with regions := s.regions.set r (f (s.region r)) }
def State.die (s : State) (d : Die) : DieS := s.dies.getD d .reset
def State.modDie (s : State) (d : Die) (f : DieS → DieS) : State := { s with dies := s.dies.set d (f (s.die d)) }
def State.part (s : State) (p : Part) : PartS := s.parts.getD p .reset
def State.modPart (s : State) (p : Part) (f : PartS → PartS) : State := { s with parts := s.parts.set p (f (s.part p)) }

/-! ### The register store -/

/-- The value of a register that nothing has written: its Reset value, its own index in TU_IMPOSE, the fuses' value
where R580 says fuse (log 12). -/
def Reg.default (r : Reg) : Word :=
  match r.name with
  | .secId => setFld r.name.info.reset 23 16 Config.revision.toNat
  | .secState =>
    setBit (setFld 0 1 0 Config.fusedState.toNat) 3 Config.fusedTampered
  | .hbmTiming => Config.hbmTiming r.unit r.i
  | .pwrVtab => Config.vtab (4 * r.unit + r.i) r.j &&& 0xFFFFFF
  | .tuImpose => BitVec.ofNat 32 r.j
  | n => n.info.reset

/-- The stored value of a register. -/
def State.rd (s : State) (r : Reg) : Word := s.regs.getD r r.default
def State.wr (s : State) (r : Reg) (v : Word) : State := { s with regs := s.regs.set r v }
def State.modReg (s : State) (r : Reg) (f : Word → Word) : State := s.wr r (f (s.rd r))
def State.rdFld (s : State) (r : Reg) (hi lo : Nat) : Nat := fld (s.rd r) hi lo
def State.wrFld (s : State) (r : Reg) (hi lo v : Nat) : State := s.modReg r (setFld · hi lo v)
def State.rdBit (s : State) (r : Reg) (i : Nat) : Bool := bit (s.rd r) i
def State.wrBit (s : State) (r : Reg) (i : Nat) (b : Bool) : State := s.modReg r (setBit · i b)
/-- A counter register raised by `n`; it holds at its top (R109, R460). -/
def State.count (s : State) (r : Reg) (n : Nat) : State := s.modReg r (satAdd32 · n)

def xreg (n : RegName) : Reg := ⟨n, 0, 0, 0⟩
def dreg (n : RegName) (d : Die) : Reg := ⟨n, d.val, 0, 0⟩
def preg (n : RegName) (p : Part) : Reg := ⟨n, 0, p.val, 0⟩
def rreg (n : RegName) (r : RegionId) : Reg := ⟨n, r.d.val, r.r.val, 0⟩
def creg (n : RegName) (c : ClusterId) : Reg := ⟨n, c.d.val, c.r.val, c.c.val⟩
def ureg (n : RegName) (u : LU) : Reg := ⟨n, u.d.val, u.r.val, u.n.val⟩
def lreg (n : RegName) (l : Lane) : Reg := ⟨n, l.ld.val, l.n.val, 0⟩

/-- The register of a port: local port 0 to 11 of its link die; a twin lane's die has local port 12 (R459). -/
def portReg (n : RegName) (p : Port) (lane : Nat) : Reg :=
  ⟨n, (portLinkDie p lane).val, if p.val = 48 then 12 else p.val % 12, 0⟩

/-! ### Partitions -/

/-- The partition of a die, if it is enabled in one (R41). -/
def State.partOf (s : State) (d : Die) : Option Part :=
  let w := s.rd (dreg .cdPartition d)
  if bit w 3 then some ⟨fld w 2 0 % 8, by omega⟩ else none

def State.partDies (s : State) (p : Part) : List Die := allDies.filter fun d => s.partOf d = some p

/-- The lowest-numbered die of a partition, to which events outside the compute dies belong (R476). -/
def State.firstDie (s : State) (p : Part) : Die := ((s.partDies p).head?).getD 0

def State.partRegions (s : State) (p : Part) : List RegionId := (s.partDies p).flatMap dieRegions

/-- Whether a forme is armed or running on the die (R41). -/
def State.dieArmed (s : State) (d : Die) : Bool := s.rdBit (dreg .cdPartition d) 4

/-- Whether any forme is armed or running on the package. -/
def State.anyArmed (s : State) : Bool := allDies.any s.dieArmed

/-- The forme of a die's partition. -/
def State.formeOn (s : State) (d : Die) : Option Forme := (s.partOf d).bind fun p => (s.part p).forme

/-- The partition of a die whose forme is running. -/
def State.running (s : State) (d : Die) : Option Part :=
  match s.partOf d with
  | some p => if (s.part p).running then some p else none
  | none => none

/-- CD_STEP of a partition (R313). -/
def State.step (s : State) (p : Part) : Word := s.rd (dreg .cdStep (s.firstDie p))

/-- The number of the step that runs, CD_STEP as it was at the step boundary (R313); between steps CD_STEP itself. -/
def State.stepNo (s : State) (p : Part) : Word := if (s.part p).running then (s.part p).curStep else s.step p

/-- The gear in force for a partition (R110). -/
def Gear.ofCode (n : Nat) : Gear := if n = 1 then .threeQuarter else if n = 2 then .half else .full
def Gear.code (g : Gear) : Nat := match g with
  | .full => 0
  | .threeQuarter => 1
  | .half => 2
def State.gearOf (s : State) (p : Part) : Gear := Gear.ofCode (s.rdFld (preg .htGear p) 1 0)

/-- The physical position that carries a logical unit (R44); the spare that replays for it. -/
def State.carrier (s : State) (l : LU) : Option PU :=
  match l.alt with
  | some k =>
    let p : PU := ⟨l.d, l.r, ⟨64 + k.val, by omega⟩⟩
    if s.replays.any fun e => e.spare = p && e.unit = { l with alt := none } && e.running then some p else none
  | none =>
    let n := s.rdFld (ureg .tuImpose l) 6 0
    if h : n < 66 then some ⟨l.d, l.r, ⟨n, h⟩⟩ else none

/-- The logical unit that a position carries. -/
def State.carried (s : State) (p : PU) : Option LU := (regionLus p.region).find? fun l => s.carrier l = some p

/-- Ports that a loaded forme claims (R40). -/
def State.claimedPorts (s : State) : List Port :=
  (allParts.flatMap fun p => match (s.part p).forme with
    | some f => f.ports
    | none => []).eraseDups

def State.claimant (s : State) (port : Port) : Option Part :=
  allParts.find? fun p => match (s.part p).forme with
    | some f => f.claimsPort port
    | none => false

/-- The partitions that claim a hall port or twin slot of a link die (R34). -/
def State.claimantsOf (s : State) (k : LinkDie) : List Part :=
  allParts.filter fun p => match (s.part p).forme with
    | some f => f.twinSlots.any (fun e => portLinkDie 48 e.1.val = k)
        || f.ports.any fun p => p.val ≠ 48 && portLinkDie p 0 = k
    | none => false

/-! ### Messages (R444, R445) -/

/-- A message is queued for each of the ports, with the port's next sequence number. -/
def State.sendMsg (s : State) (ports : List Port) (part : Part) (notBefore : Nat) (b : MsgBody) : State :=
  ports.foldl (fun s p =>
    let q := s.links.nextSeq.getD p 0
    { s with links := { s.links with
        queue := s.links.queue ++ [⟨p, ⟨b, part, s.rdFld (xreg .htNodeId) 14 0, s.now⟩, q, 0, notBefore⟩]
        nextSeq := s.links.nextSeq.set p (q + 1) } }) s

/-! ### Suspect events (R34, R474, R476) -/

/-- One suspect event of partition `p`, raised on die `d` now, charged to the step of ordinal `ord`; it is in flight until it
arrives. -/
def State.suspectOrd (s : State) (p : Part) (ord : Nat) (d : Die) : State :=
  { s with susp := s.susp ++ [⟨p, ord, d, s.now⟩] }

/-- One suspect event charged to the current step, or with `ahead` to the step after it. -/
def State.suspect (s : State) (p : Part) (d : Die) (ahead : Bool := false) : State :=
  s.suspectOrd p ((s.part p).ord + (if ahead then 1 else 0)) d

/-- One suspect event of the partition a die belongs to. -/
def State.suspectDie (s : State) (d : Die) (ahead : Bool := false) : State :=
  match s.partOf d with
  | some p => s.suspect p d ahead
  | none => s

/-! ### Fault sources (R492 to R497) -/

/-- The register index of a fault record (R494, R496, R497); `none` where the register is no fault source. -/
def RegName.source : RegName → Option Nat
  | .tuAccStat => some 0 | .tuStat => some 1 | .tuChk => some 2 | .tuRegionStat => some 3 | .tuRegionLag => some 4
  | .cdProofStat => some 5 | .cdDrillStat => some 6 | .cdRakeStat => some 7 | .cdUpdStat => some 8
  | .cdRedStat => some 9 | .hbmStat => some 10 | .scStat => some 11 | .cdPartition => some 12 | .tgCtl => some 13
  | .cdFault => some 14 | .ldLaneStat => some 0 | .ldPortStat => some 1 | .htStatus => some 0x20
  | .twStatus => some 0x21 | .rstLatch => some 0x22 | .pwrRegionStat => some 0x24 | .pwrDieStat => some 0x25
  | .pwrStatus => some 0x26 | .cdIso => some 0x27 | .rstStrap => some 0x28 | .rstFw => some 0x29
  | .cmdStat => some 0x2A
  | _ => none

/-- The MSI-X vector of a source (R550). -/
def Reg.vector (r : Reg) : Nat :=
  match r.name with
  | .tuAccStat | .tuStat | .tuChk | .tuRegionStat | .tuRegionLag | .pwrRegionStat => 4 * r.unit + r.i
  | .cdProofStat | .cdDrillStat | .cdRakeStat => 64 + r.unit
  | .cdUpdStat => 80 + r.unit
  | .cdRedStat => 96 + r.unit
  | .hbmStat | .scStat | .tgCtl => 112 + r.unit
  | .cdFault | .cdPartition | .pwrDieStat | .cdIso => 128 + r.unit
  | .ldLaneStat | .ldPortStat => 144 + r.unit
  | .htStatus => 148
  | .twStatus => 149
  | _ => 150

/-- The level of a source: 1 unit, 2 region or cluster, 3 die (R495). -/
def RegName.level : RegName → Nat
  | .tuAccStat | .tuStat | .tuChk => 1
  | .tuRegionStat | .tuRegionLag | .cdProofStat | .cdDrillStat | .cdRakeStat => 2
  | _ => 3

/-- The DIE byte of a fault record. -/
def Reg.dieByte (r : Reg) : Nat :=
  match r.name.info.window with
  | .xd => 20
  | .ld => 16 + r.unit % 4
  | .cd => r.unit

/-- The DIE byte of a source's record: a power-conversion die for PC_FAULT (R497, R502). -/
def Reg.dieOf (r : Reg) (b : Nat) : Nat :=
  if r.name = .rstLatch ∧ 3 ≤ b ∧ b ≤ 6 then 21 + (b - 3) else r.dieByte

/-- The REGION and INDEX bytes of a fault record. -/
def Reg.place (r : Reg) : Nat × Nat :=
  match r.name with
  | .tuAccStat | .tuStat | .tuChk | .cdProofStat | .cdDrillStat | .cdRakeStat => (r.i, r.j)
  | .tuRegionStat | .tuRegionLag | .pwrRegionStat => (r.i, 0xFF)
  | .ldLaneStat | .ldPortStat | .tgCtl => (0xFF, r.i)
  | _ => (0xFF, 0xFF)

/-- The reaction that the tables set for a source (R494, R496); registers without a table report. -/
def State.reaction (s : State) (r : Reg) (b : Nat) : Nat :=
  match r.name.source with
  | none => 0
  | some i =>
    if 15 ≤ i then 0 else
    match r.name.info.window with
    | .cd => fld (s.rd ⟨.cdReact, r.unit, 2 * i + b / 16, 0⟩) (2 * (b % 16) + 1) (2 * (b % 16))
    | .ld => if fld (s.rd ⟨.ldReact, r.unit, 2 * i + b / 16, 0⟩) (2 * (b % 16) + 1) (2 * (b % 16)) = 3 then 3 else 0
    | .xd => 0

/-- A fault record's fields (R497). -/
structure FaultRec where
  die : Nat
  reg : Nat
  bit : Nat
  react : Nat
  region : Nat
  index : Nat
  part : Option Part
  suspect : Bool
  late : Bool
  detail : Nat
  deriving DecidableEq, Repr

/-- A fault record is written to the ring, over the oldest; RST_FAULT_CNT and RST_FAULT_NEXT advance (R497, R511). -/
def State.record (s : State) (f : FaultRec) : State :=
  let n := s.rdFld (xreg .rstFaultNext) 7 0
  let job := match f.part with
    | some p => match (s.part p).forme with
      | some g => g.job.toNat
      | none => 0
    | none => 0
  let bytes := natLe 8 s.now ++ natLe 8 (f.die + 256 * f.reg + 65536 * f.bit + 16777216 * f.react
      + 2 ^ 32 * f.region + 2 ^ 40 * f.index + 2 ^ 48 * (match f.part with
        | some p => p.val
        | none => 0xFF) + 2 ^ 56 * ((if f.suspect then 1 else 0) + (if f.late then 2 else 0)))
    ++ natLe 4 (match f.part with
      | some p => (s.step p).toNat
      | none => 0) ++ natLe 4 job ++ natLe 8 f.detail
  let s := { s with retained := s.retained.write (n * 32) bytes }
  (s.wrFld (xreg .rstFaultNext) 7 0 (n + 1)).count (xreg .rstFaultCnt) 1

/-- A vector is raised (R550): its MSI-X message leaves, or is pending while its entry is masked or D3hot stops it (R547, R548;
PRESUMED, log 24). -/
def State.vector (s : State) (v : Nat) : State :=
  let bit := BitVec.ofNat 256 (1 <<< v)
  let goes : Bool := s.host.unmasked.getLsbD v && !s.host.d3hot
  { s with host := { s.host with
      vectors := s.host.vectors ||| bit
      sent := if goes then s.host.sent ||| bit else s.host.sent
      pba := if goes then s.host.pba else s.host.pba ||| bit } }

/-- The partition a source belongs to: that of its die, or the one that claims its port (R497). -/
def State.sourcePart (s : State) (r : Reg) : Option Part :=
  match r.name.info.window with
  | .cd => s.partOf ⟨r.unit % 16, by omega⟩
  | .ld =>
    let q := if r.name = .ldLaneStat then r.i / 4 else r.i
    s.claimant (if 12 ≤ q then 48 else ⟨(12 * r.unit + q) % 49, by omega⟩)
  | .xd => none

/-- The DETAIL of a source's record: of TU_CHK the row and, in the next byte, the column it holds (R497; DESIGN CHOICE, log
30). -/
def State.detailOf (s : State) (r : Reg) (detail : Nat) : Nat :=
  if r.name = .tuChk then s.rdFld r 14 8 + 256 * s.rdFld r 21 15 else detail

/-! ### Fences (R498 to R501) -/

def State.regionFallow (s : State) (r : RegionId) : Bool := s.fen.regions.contains r || s.fen.dies.contains r.d

def State.unitFallow (s : State) (p : PU) : Bool := s.fen.units.contains p || s.regionFallow p.region

/-- The free spares of a region, lowest first: not fallow and carrying no logical unit (R45, R479). -/
def State.freeSpares (s : State) (r : RegionId) : List PU :=
  ([⟨r.d, r.r, 64⟩, ⟨r.d, r.r, 65⟩] : List PU).filter fun p => !s.unitFallow p && (s.carried p).isNone

/-- Whether any imposition entry is 127. -/
def State.anyUnmapped (s : State) : Bool :=
  s.regs.entries.any fun e => e.1.name == .tuImpose && fld e.2 6 0 == 127

/-- The cause bits of RST_REPLACE that follow from the fallow state (R505, R511). -/
def State.replaceCauses (s : State) : Nat :=
  (if s.anyUnmapped then 1 else 0) + (if s.fen.regions.isEmpty then 0 else 2) + (if s.fen.dies.isEmpty then 0 else 4)
    + (if s.fen.lds.isEmpty then 0 else 8)

/-- RST_REPLACE takes new causes: each that rises sends REPLACE unless the package is latched; REPLACE_N follows
(R505). -/
def State.setReplace (s : State) (causes : Nat) : State :=
  let old := (s.rd (xreg .rstReplace)).toNat
  let s := s.wr (xreg .rstReplace) (BitVec.ofNat 32 causes)
  let s := { s with replacePin := causes != 0 }
  let new := (List.range 6).filter fun i => causes.testBit i && !old.testBit i
  if s.power.mode = .latched then s else
  new.foldl (fun s _ => s.sendMsg (s.claimedPorts ++ [48]).eraseDups 0 0
    (.replace false (s.rdFld (xreg .twPeer) 14 0))) s

/-- The registers that show the fallow state are brought up to date (R45, R505, R509), and the flash's copy (R621). -/
def State.syncFence (s : State) : State :=
  let s := allRegions.foldl (fun s r =>
    if s.fen.units.any (·.region = r) || s.regionFallow r
        || (s.rd (rreg .tuRegionStat r)) != (rreg .tuRegionStat r).default
        || s.regs.entries.any (fun e => e.1.name == .tuImpose && e.1.unit == r.d.val && e.1.i == r.r.val) then
      let n := if s.regionFallow r then 66 else (s.fen.units.filter (·.region = r)).length
      (s.wrFld (rreg .tuRegionStat r) 8 2 n).wrFld (rreg .tuRegionStat r) 1 0 (s.freeSpares r).length
    else s) s
  let s := allDies.foldl (fun s d =>
    let fall := s.fen.dies.contains d
    let rs := (dieRegions d).foldl (fun a r => a + if s.regionFallow r then 2 ^ r.r.val else 0) 0
    if fall || rs != 0 || s.rdFld (dreg .cdFault d) 5 0 != 0 then
      (s.wrBit (dreg .cdFault d) 5 fall).wrFld (dreg .cdFault d) 3 0 rs
    else s) s
  let s := { s with fw := { s.fw with fallow := s.fen } }
  s.setReplace (s.replaceCauses + ((s.rd (xreg .rstReplace)).toNat &&& 0x30))

/-- A physical unit loses everything it holds (R618). -/
def State.resetUnit (s : State) (p : PU) : State := { s with units := s.units.erase p }

/-- The unit's program, in the variant in force, is put into a spare's banks (R49, R51). -/
def State.loadBanks (s : State) (l : LU) (p : PU) : State :=
  match s.partOf l.d with
  | none => s
  | some q =>
    let ps := s.part q
    match ps.forme.bind fun f => f.variants[ps.variant]? with
    | none => s
    | some v => match v.images.find? (·.unit = l) with
      | none => s
      | some im => s.modUnit p fun u => { u with
          recto := Memory.empty.write 0 im.recto, verso := Memory.empty.write 0 im.verso }

/-- A source to raise. `fixed` is a REACT value that the rules fix (R490, R503, R532). -/
structure Raise where
  reg : Reg
  bit : Nat
  suspect : Bool
  late : Bool
  detail : Nat
  fixed : Option Nat
  deriving DecidableEq, Repr

def Raise.of (r : Reg) (b : Nat) : Raise := ⟨r, b, false, false, 0, none⟩

/-- FENCE_DONE of a die (R509), and whether the fence added a suspect event (R499). -/
def fenceDone (d : Die) (suspect : Bool) : Raise := { Raise.of ⟨.cdFault, d.val, 0, 0⟩ 6 with suspect := suspect }

/-- A fallow position's logical unit goes to the lowest free spare, or its entry becomes 127 (R49, R50); what is raised
with it. The spare's banks are loaded where a forme is armed on the die, else by the next FORME_ARM (R51). -/
def State.substitute (s : State) (l : LU) : State × List Raise :=
  match s.freeSpares l.region with
  | p :: _ =>
    let s := s.wr (ureg .tuImpose l) (BitVec.ofNat 32 p.p.val)
    (if s.dieArmed l.d then s.loadBanks l p else s, [])
  | [] => (s.wr (ureg .tuImpose l) 127, [Raise.of (rreg .tuRegionStat l.region) 11])

/-- The pending fences of a region that were recorded by tick `t` are applied, in the order of the logical units; a
region or die fence unmaps every unit of the region (R49, R50, R51). -/
def State.applyFences (s : State) (r : RegionId) (t : Nat) : State × List Raise :=
  if s.fen.pendRegions.contains r then
    let s := (regionLus r).foldl (fun s l => s.wr (ureg .tuImpose l) 127) s
    ({ s with fen := { s.fen with
        pendRegions := s.fen.pendRegions.filter (· ≠ r)
        pend := s.fen.pend.filter (·.unit.region ≠ r) } }, [])
  else
    let ready := s.fen.pend.filter fun f => f.unit.region = r && f.at_ ≤ t
    if ready.isEmpty then (s, []) else
    let (s, rs) := (regionLus r).foldl (fun (acc : State × List Raise) l =>
      match acc.1.carrier l with
      | some p =>
        if ready.any (·.unit = p) then
          let (s, more) := acc.1.substitute l
          (s, acc.2 ++ more)
        else acc
      | none => acc) (s, [])
    ({ s with fen := { s.fen with pend := s.fen.pend.filter fun f => !ready.contains f } }, rs)

/-- Whether a block's fence finds no forme running on its die, so that changes are made at once (R51). -/
def State.fenceNow (s : State) (d : Die) : Bool := (s.running d).isNone

/-- One suspect event to every partition whose running step has a mapped unit in the block (R499). -/
def State.fenceSuspect (s : State) (d : Die) (inBlock : PU → Bool) : State :=
  match s.running d with
  | none => s
  | some p =>
    if (dieRegions d).any fun r => (regionLus r).any fun l => match s.carrier l with
      | some q => inBlock q
      | none => false
    then s.suspect p d else s

/-- A physical unit is fenced (R48, R498): fallow, reset, its replay stopped (R501). Nothing changes where it is fallow
already (R500). -/
def State.fenceUnit (s : State) (p : PU) : State × List Raise :=
  if s.unitFallow p then (s, []) else
  let n := s.susp.length
  let s := s.fenceSuspect p.d (· = p)
  let charged := decide (n < s.susp.length)
  let s := { s with
    fen := { s.fen with units := p :: s.fen.units, pend := s.fen.pend ++ [PendFence.mk p s.now] }
    replays := s.replays.filter (·.spare ≠ p) }
  let s := s.resetUnit p
  let (s, rs) := if s.fenceNow p.d then s.applyFences p.region s.now else (s, [])
  (s, fenceDone p.d charged :: rs)

/-- A region is fenced (R498). Its domain goes off (R518). -/
def State.fenceRegion (s : State) (r : RegionId) : State × List Raise :=
  if s.regionFallow r then (s, []) else
  let n := s.susp.length
  let s := s.fenceSuspect r.d (·.region = r)
  let charged := decide (n < s.susp.length)
  let s := { s with
    fen := { s.fen with
      regions := r :: s.fen.regions
      pendRegions := r :: s.fen.pendRegions
      pend := s.fen.pend.filter (·.unit.region ≠ r) }
    replays := s.replays.filter (·.spare.region ≠ r) }
  let s := s.wrBit (rreg .pwrRegionStat r) 4 false
  let (s, rs) := if s.fenceNow r.d then s.applyFences r s.now else (s, [])
  (s, fenceDone r.d charged :: rs)

/-- A compute die is fenced (R31, R498). -/
def State.fenceDie (s : State) (d : Die) : State × List Raise :=
  if s.fen.dies.contains d then (s, []) else
  let n := s.susp.length
  let s := s.fenceSuspect d (fun _ => true)
  let charged := decide (n < s.susp.length)
  let rs := dieRegions d
  let s := { s with
    fen := { s.fen with
      dies := d :: s.fen.dies
      pendRegions := (rs ++ s.fen.pendRegions).eraseDups
      pend := s.fen.pend.filter (·.unit.d ≠ d) }
    replays := s.replays.filter (·.spare.d ≠ d) }
  let s := rs.foldl (fun s r => s.wrBit (rreg .pwrRegionStat r) 4 false) s
  let (s, more) := if s.fenceNow d then
      rs.foldl (fun (acc : State × List Raise) r =>
        let (s, m) := acc.1.applyFences r acc.1.now
        (s, acc.2 ++ m)) (s, [])
    else (s, [])
  (s, fenceDone d charged :: more)

/-- A link die is fenced (R498): its lanes stop; every partition that claims one of its ports is charged (R34, R499). The
event of an armed partition whose first step has not begun is held for it on arrival, that of one not armed enters no
verdict. -/
def State.fenceLd (s : State) (k : LinkDie) : State :=
  if s.fen.lds.contains k then s else
  let s := { s with fen := { s.fen with lds := k :: s.fen.lds } }
  (s.claimantsOf k).foldl (fun s p => s.suspect p (s.firstDie p)) s

/-- The reaction that a source takes: one at a level below the source's own acts as a report (R495). -/
def State.reacts (s : State) (r : Reg) (b : Nat) : Nat :=
  let code := s.reaction r b
  if r.name.info.window = .cd ∧ code < r.name.level then 0 else code

/-- The fence a reaction makes (R495): the block at its level that contains the source. -/
def State.react (s : State) (r : Reg) (code : Nat) : State × List Raise :=
  if code = 0 then (s, []) else
  match r.name.info.window with
  | .xd => (s, [])
  | .ld => (if code = 3 then s.fenceLd ⟨r.unit % 4, by omega⟩ else s, [])
  | .cd =>
    let d : Die := ⟨r.unit % 16, by omega⟩
    let q : RegionId := ⟨d, ⟨r.i % 4, by omega⟩⟩
    match code with
    | 1 => match s.carrier ⟨d, q.r, ⟨r.j % 64, by omega⟩, none⟩ with
      | some p => s.fenceUnit p
      | none => (s, [])
    | 2 => s.fenceRegion q
    | _ => s.fenceDie d

/-- Sources are raised one after another: each sets its bit, and where the bit changes from 0 to 1 writes its record,
raises its vector and takes its reaction, which may raise more (R492, R495). -/
def State.raiseAll : Nat → List Raise → State → State
  | 0, _, s => s
  | _, [], s => s
  | n + 1, r :: rest, s =>
    if s.rdBit r.reg r.bit then raiseAll n rest s else
    let s := s.wrBit r.reg r.bit true
    let code := match r.fixed with
      | some c => c
      | none => s.reacts r.reg r.bit
    let s := match r.reg.name.source with
      | some i => s.record ⟨r.reg.dieOf r.bit, i, r.bit, code, r.reg.place.1, r.reg.place.2, s.sourcePart r.reg, r.suspect,
          r.late, s.detailOf r.reg r.detail⟩
      | none => s
    let s := s.vector r.reg.vector
    let (s', more) := if r.fixed.isSome then (s, []) else s.react r.reg code
    let s := if s'.fen = s.fen then s' else s'.syncFence
    raiseAll n (more ++ rest) s

/-- One source is raised. -/
def State.raiseBit (s : State) (r : Reg) (b : Nat) (suspect : Bool := false) (detail : Nat := 0) : State :=
  s.raiseAll 16 [⟨r, b, suspect, false, detail, none⟩]

/-- One source is raised and its suspect event is added. -/
def State.raiseSuspect (s : State) (r : Reg) (b : Nat) (detail : Nat := 0) : State :=
  (s.raiseBit r b true detail).suspectDie ⟨r.unit % 16, by omega⟩

/-- A fence and what it raises (R498): 1 a physical unit, 2 a region, 3 a compute die. -/
def State.fence (s : State) (f : State → State × List Raise) : State :=
  let (s, rs) := f s
  if rs.isEmpty then s else (s.syncFence).raiseAll 16 rs

/-- The pending fences of a region recorded by tick `t` are made, with what they raise and the registers that show the
fallow state (R45, R49 to R51). -/
def State.settleRegion (s : State) (r : RegionId) (t : Nat) : State :=
  let (s', rs) := s.applyFences r t
  if s'.fen = s.fen then s' else (s'.syncFence).raiseAll 16 rs

/-- The pending fences of a partition's regions. -/
def State.settleFences (s : State) (p : Part) (t : Nat) : State :=
  (s.partRegions p).foldl (fun s r => s.settleRegion r t) s

/-! ### Provisional events and replays (R475, R479, R481) -/

/-- The provisional event of a unit's GRP_CLOSE is withdrawn, the oldest if there are several; RPL_PEND follows. -/
def State.withdraw (s : State) (u : LU) (bundle : Nat) (verso : Bool) : State :=
  let s := { s with prov := s.prov.eraseP fun e => decide (e.unit = u) && e.bundle == bundle && e.verso == verso }
  if s.prov.any (·.unit = u) then s else s.wrBit (ureg .tuChk u) 2 false

/-- Whether an operation belongs to a guest replay, whose events enter no verdict (R488). -/
def State.isGuest (s : State) (u : LU) : Bool :=
  match u.alt with
  | some k => s.replays.any fun e => e.guest && e.running && e.spare = ⟨u.d, u.r, ⟨64 + k.val, by omega⟩⟩
  | none => false

/-- Whether a spare is replaying: its program has not halted, or its moves are still in flight. -/
def State.replaying (s : State) (p : PU) : Bool :=
  s.replays.any fun e => decide (e.spare = p)
    && !(e.running && (s.unit p).ctl.hold == .halted && (s.unit p).flights.isEmpty)

/-! ### Power state (R517) -/

/-- PWR_STATUS.STATE, as R517 orders the states. -/
def State.powerState (s : State) : Nat :=
  match s.power.mode with
  | .latched => 4
  | .off | .standby => 0
  | .on =>
    if s.replacePin then 3
    else if s.anyArmed then 2
    else 1

/-- Whether power state is Standby or Latched. -/
def State.lowPower (s : State) : Bool := s.powerState == 0 || s.powerState == 4

/-- Whether a clock domain is out of lock, or waits for the boundary after its lock returned (R601). -/
def State.clockOut (s : State) (c : ClkDom) : Bool := s.power.clkLost.contains c || s.power.clkWait.contains c

/-- Whether the compute and link dies have power and clocks: a JTAG scan stops theirs (R651). -/
def State.powered (s : State) : Bool := s.power.mode == .on && !s.rdBit (xreg .secState) 4

end Sys2Proof.Machine
end

