-- ==== Sys2Proof/Machine/Replies.lean ====
section
/-!
DEFINITION. Replies of commands (14_host_and_management.md R552, R557, R558, R559) and the jobs whose replies are still
to come (R556, R558).
-/
namespace Sys2Proof.Machine

open Sys2Proof

/-! ### Status codes (R559) -/

def stOk : Nat := 0x0000
def stBadOpcode : Nat := 0x0010
def stBadLength : Nat := 0x0011
def stBadParam : Nat := 0x0012
def stBadPart : Nat := 0x0013
def stTimeNotBoundary : Nat := 0x0020
def stTimeTooSoon : Nat := 0x0021
def stTimeState : Nat := 0x0022
def stCancelledLost : Nat := 0x0023
def stTimeConflict : Nat := 0x0024
def stFormeBad : Nat := 0x0030
def stFormeArmed : Nat := 0x0031
def stNotArmed : Nat := 0x0032
def stNoVariant : Nat := 0x0033
def stNoFit : Nat := 0x0034
def stDeniedSecurity : Nat := 0x0040
def stDeniedSideband : Nat := 0x0041
def stQuoin : Nat := 0x0042
def stBusy : Nat := 0x0050
def stNotPending : Nat := 0x0051
def stDmaFault : Nat := 0x0052
def stRefused : Nat := 0x0053
def stFwBad : Nat := 0x0060
def stCancelled : Nat := 0x0070
def stUnproved : Nat := 0x0071

def Src.isSideband : Src → Bool
  | .sideband _ => true
  | _ => false

/-! ### The windows of BAR2 (R548, R551) -/

def cmdSlot (i : Nat) : Nat := i * 0x2000
def replySlot (i : Nat) : Nat := 0x80000 + i * 0x2000

/-- STATE of a command slot: 1 READY, 2 TAKEN, every other value FREE (R552). -/
def State.slotState (s : State) (i : Nat) : Nat :=
  let w := (s.host.window.word (cmdSlot i + 60)).toNat
  if w = 1 ∨ w = 2 then w else 0

/-- Whether a reply slot is EMPTY (R557). -/
def State.replyEmpty (s : State) (i : Nat) : Bool := s.host.window.word (replySlot i + 60) == 0

def State.winWrite (s : State) (a : Nat) (b : List Byte) : State :=
  { s with host := { s.host with window := s.host.window.write a b } }

/-- The reply header (R557) but for its last four bytes. -/
def replyHead (q : Req) (rlen status detail handledAt doneAt src : Nat) : List Byte :=
  natLe 2 q.op.toNat ++ natLe 2 q.tag.toNat ++ natLe 4 rlen ++ natLe 8 q.raw.toNat ++ natLe 4 q.crc.toNat
    ++ natLe 2 status ++ natLe 2 detail ++ natLe 8 handledAt ++ natLe 8 doneAt ++ natLe 1 src
    ++ List.replicate 19 0

/-- A reply is posted: results and header, RSTATE POSTED, the command slot FREE, and the vector if IRQ is 1 (R558); on
the sideband the reply leaves as a message and the slot is free (R571, R572). -/
def State.replyAt (s : State) (q : Req) (handledAt status detail : Nat) (results : List Byte) : State :=
  match q.src with
  | .host i =>
    let h := replyHead q results.length status detail handledAt s.now i.val
    let s := s.winWrite (replySlot i.val + 64) results
    let s := s.winWrite (replySlot i.val) (h ++ natLe 4 1)
    let s := s.winWrite (cmdSlot i.val + 60) (natLe 4 0)
    if q.irq then s.vector (192 + q.vec.val) else s
  | .sideband j =>
    let h := replyHead q results.length status detail handledAt s.now j.val
    let eid := match s.sb.slots[j.val]? with
      | some (some m) => m.eid
      | _ => 0
    { s with sb := { s.sb with
        slots := s.sb.slots.set j.val none
        out := s.sb.out ++ [.reply eid (h ++ natLe 4 1 ++ results)] } }
  | .monitor =>
    { s with mon := { s.mon with
        out := s.mon.out ++ (if status = 0 then [.bytes results, .ok] else [.err "status", .num status]) ++ [.prompt]
        waiting := false } }

def State.reply (s : State) (q : Req) (status : Nat) (detail : Nat := 0) (results : List Byte := []) : State :=
  s.replyAt q s.now status detail results

/-! ### Jobs -/

def State.addJob (s : State) (q : Req) (k : JobKind) : State :=
  { s with host := { s.host with jobs := s.host.jobs ++ [⟨q, k, s.now⟩] } }

/-- The jobs that satisfy `p` end with a status: each is removed and answered. -/
def State.endJobs (s : State) (p : Job → Bool) (status : Nat) (detail : Nat := 0) (results : List Byte := []) : State :=
  let ends := s.host.jobs.filter p
  let s := { s with host := { s.host with jobs := s.host.jobs.filter fun j => !p j } }
  ends.foldl (fun s j => s.replyAt j.req j.at_ status detail results) s

/-- Whether a job is a pending command (R556, R563). -/
def Job.pending (j : Job) : Bool :=
  match j.kind with
  | .runAt _ | .haltAt _ | .gearAt _ _ | .held _ _ => true
  | _ => false

/-- The RUN_AT that a partition holds (R95). -/
def State.runAt? (s : State) (p : Part) : Option Nat :=
  s.host.jobs.findSome? fun j => match j.kind with
    | .runAt t => if j.req.part = p then some t else none
    | _ => none

/-- The pending GEAR_ATs of a partition. -/
def State.gearAts (s : State) (p : Part) : List (Nat × Gear) :=
  s.host.jobs.filterMap fun j => match j.kind with
    | .gearAt t g => if j.req.part = p then some (t, g) else none
    | _ => none

/-- HT_GEAR shows the earliest pending GEAR_AT of the partition (R110). -/
def State.syncGear (s : State) (p : Part) : State :=
  match (s.gearAts p).foldl (fun (a : Option (Nat × Gear)) x => match a with
      | none => some x
      | some y => if x.1 < y.1 then some x else some y) none with
  | some (_, g) => (s.wrBit (preg .htGear p) 7 true).wrFld (preg .htGear p) 5 4 g.code
  | none => (s.wrBit (preg .htGear p) 7 false).wrFld (preg .htGear p) 5 4 0

/-- With no command pending the registers that show one say so (R110, R541). -/
def State.clearPending (s : State) : State :=
  allParts.foldl (fun s p =>
    let s := if s.rdBit (preg .pwrCap p) 31 then (s.wrBit (preg .pwrCap p) 31 false).wrFld (preg .pwrCap p) 28 16 0 else s
    s.syncGear p) s

end Sys2Proof.Machine
end

