-- ==== Sys2Proof/Machine/Parts.lean ====
section
/-!
DEFINITION. Arming, disarming and halting a partition (07_training_step.md R313, 14_host_and_management.md R562,
02_hall_time.md R72, R98; 13_power_and_thermal.md R538).
-/
namespace Sys2Proof.Machine

open Sys2Proof

/-! ### Voltages of the regions (13_power_and_thermal.md R519 to R522) -/

/-- The PWR_VTAB entry of a region for a gear (R543). -/
def vtabReg (r : RegionId) (g : Gear) : Reg := ⟨.pwrVtab, r.d.val, r.r.val, g.code⟩

/-- The gear that HT_GEAR gives a region: that of its die's partition (R110, R516). -/
def State.gearFor (s : State) (r : RegionId) : Gear :=
  match s.partOf r.d with
  | some p => s.gearOf p
  | none => (s.region r).gear

/-- A region stands at its entry for a gear (R522). -/
def State.setRail (s : State) (r : RegionId) (g : Gear) : State :=
  s.modRegion r fun x => { x with rail := s.rd (vtabReg r g), railGear := g }

/-! ### Voltages of a field proof (R520) -/

/-- The voltage-table entry one step below another: VNOM less one code, VDROOP and HYST as they are (R520). -/
def vnomBelow (v : Word) : Word := setFld v 7 0 (fld v 7 0 - 1)

/-- A region runs a proof: at full gear, at one step below its gear-1 entry (R489, R520, 16_reset_boot_firmware.md R620). -/
def State.proofOn (s : State) (r : RegionId) : State :=
  s.modRegion r fun x => { x with gear := .full, rail := vnomBelow (s.rd (vtabReg r .full)), railGear := .full, proving := true }

/-- The proof is over: the region returns to the gear in force and its entry. -/
def State.proofOff (s : State) (r : RegionId) : State :=
  if (s.region r).proving then
    let g := s.gearFor r
    (s.modRegion r fun x => { x with gear := g, proving := false }).setRail r g
  else s

/-- Every region of a partition that proves itself leaves the proof. -/
def State.endProof (s : State) (p : Part) : State := (s.partRegions p).foldl (fun s r => s.proofOff r) s

/-! ### Arming and halting -/

/-- ARMED of every die of a partition (R41). -/
def State.setArmed (s : State) (p : Part) (b : Bool) : State :=
  let s := (s.partDies p).foldl (fun s d => s.wrBit (dreg .cdPartition d) 4 b) s
  s.modPart p fun ps => { ps with armed := b }

/-- The whole microjoules of an account of 1/1,024 microjoule (R536). -/
def microjoules (n : Nat) : Nat := n / 1024 % 2 ^ 64

/-- The job-end record of a forme that halts (R538). -/
def State.endJob (s : State) (p : Part) : State :=
  let ps := s.part p
  let e := (s.power.acc.part[p.val]?).getD 0
  let b := (s.power.jobBase[p.val]?).getD 0
  let job := match ps.forme with
    | some f => f.job
    | none => 0
  { s with power := { s.power with
      jobEnd := s.power.jobEnd.set p.val ⟨job, ps.firstStep, ps.lastStep, microjoules e - microjoules b⟩ } }

/-- The table entry takes effect (R413): the old spare of a page retired again is bad (R414); the flash entry is written
(R624); the command is answered. -/
def State.switchPage (s : State) (d : Die) : State :=
  match (s.die d).copy with
  | none => s
  | some c =>
    let old := (s.die d).remap.filter (·.1 = c.page)
    let s := s.modDie d fun x => { x with
      remap := (c.page, c.spare) :: x.remap.filter (·.1 ≠ c.page)
      badSpares := old.map (·.2) ++ x.badSpares
      copy := none }
    let s := { s with fw := { s.fw with
      retired := s.fw.retired.filter (fun (e : Die × RetEntry) =>
          !(decide (e.1 = d) && e.2.page == c.page && !e.2.badSpare))
        ++ old.map (fun (e : Nat × Nat) => (d, RetEntry.mk 0 e.2 true)) ++ [(d, RetEntry.mk c.page c.spare false)] } }
    let s := (s.wrBit (dreg .hbmRetire d) 13 false).wrFld (dreg .hbmRetire d) 12 0 (s.die d).remap.length
    let s := s.raiseBit (dreg .hbmStat d) 8
    s.endJobs (fun j => j.kind == .pageRetire d) stOk

/-- The retirement copies of a partition's dies that are complete and wait take effect (R413). -/
def State.switchWaiting (s : State) (p : Part) : State :=
  (s.partDies p).foldl (fun s d => match (s.die d).copy with
    | some c => if c.waits then s.switchPage d else s
    | none => s) s

/-- The provisional events of a partition are dropped with the step they would be charged to (R475, R503). -/
def State.dropProv (s : State) (p : Part) : State :=
  let mine : ProvEv → Bool := fun e => decide (s.partOf e.unit.d = some p)
  let s' := (s.prov.filter mine).foldl (fun s e => s.wrBit (ureg .tuChk e.unit) 2 false) s
  { s' with prov := s.prov.filter fun e => !mine e }

/-- A commit tick of this very tick has not acted, as a latch has come (R503, R504). -/
def State.unCommit (s : State) (p : Part) : State :=
  let ps := s.part p
  match ps.forme with
  | none => s
  | some f =>
    if !ps.commitDone || ps.stepStart + f.commitAt != s.now then s else
    let s := (s.partDies p).foldl (fun s d =>
      let s := s.wr (dreg .cdStep d) ps.curStep
      if ps.committedLast then
        (s.modReg (dreg .cdPage d) fun w => setBit (setBit w 0 (!bit w 0)) 2 false).modReg (dreg .cdHist d) fun w => setBit w 0 (!bit w 0)
      else s) s
    s.modPart p fun ps => { ps with commitDone := false, committedLast := false, lastCommit := ps.lastBefore }

/-- A forme halts without commit (R98, R503, R604): it stops, its partition is left loaded and not armed (R562), the
events and a cold-start request held for a step to come are discarded (R34, R357), the record of the abandoned step
carries SUM 0xFFFF_FFFF both ways, snapshots that wait are cancelled, and the HALT_ATs of the partition are answered with the last
step committed. Fences that wait for a step boundary are made at once, as none is to come (R51), and so are page switches (R413). -/
def State.haltPart (s : State) (p : Part) : State :=
  let ps := s.part p
  let s := if ps.running then s.endJob p else s
  let s := ((s.setArmed p false).endProof p).dropProv p
  let s := s.modPart p fun ps => { ps with
    running := false, vnext := 0, vdone := true, haltOnBoundary := false, snaps := [], proofUntil := none
    coldReq := false, filled := []
    up := if ps.running then some TreeRec.missing else ps.up
    down := if ps.running then some TreeRec.missing else ps.down }
  let s := s.endJobs (fun j => decide (j.req.part = p) && j.kind == .snapshot) stCancelled
  let s := s.endJobs (fun j => decide (j.req.part = p) && (match j.kind with
    | .haltAt t => decide (t ≤ s.now)
    | _ => false)) stOk 0 (natLe 4 (s.part p).lastCommit.toNat)
  (s.settleFences p s.now).switchWaiting p

/-- A partition that is armed and not running is disarmed: its RUN_AT is answered with `status`, its held events and
cold-start request are discarded (R34, R72, R357, R562). A FORME_ARM whose field proof is still under way is answered with that
status too (DESIGN CHOICE, log 22: R72 names no reply of it). -/
def State.disarm (s : State) (p : Part) (status : Nat) : State :=
  let s := ((s.setArmed p false).endProof p).dropProv p
  let s := s.modPart p fun ps => { ps with vnext := 0, coldReq := false, proofUntil := none }
  let s := s.endJobs (fun j => decide (j.req.part = p) && (match j.kind with
    | .runAt _ | .arm _ => true
    | _ => false)) status
  s.switchWaiting p

end Sys2Proof.Machine
end

