-- ==== Sys2Proof/Machine/HallTime.lean ====
section
/-!
DEFINITION. The Hall Time base (02_hall_time.md R54 to R72, R100 to R110): the epoch code, recovery from port 0, the
states, the registers with rules of their own.
-/
namespace Sys2Proof.Machine

open Sys2Proof

/-! ### HT_STATUS (R106) -/

def htFree : Nat := 0
def htAcquire : Nat := 1
def htLocked : Nat := 2
def htHoldover : Nat := 3
def htLost : Nat := 4

def State.htState (s : State) : Nat := s.rdFld (xreg .htStatus) 2 0
def State.setHtState (s : State) (v : Nat) : State := s.wrFld (xreg .htStatus) 2 0 v
def State.clkMode (s : State) : Nat := s.rdFld (xreg .htStatus) 6 5

/-- An edge node takes the hall reference (R57). -/
def State.edgeNode (s : State) : Bool := s.clkMode == 0

def State.modHt (s : State) (f : HtS → HtS) : State := { s with ht := f s.ht }

/-- The first furrow boundary at or after a tick. -/
def boundaryAt (t : Nat) : Nat := (t + 16383) / 16384 * 16384

/-- LOCKED is entered with a hop count (R60, R67); HALL_EPOCH is checked from the next boundary on (R61). -/
def State.enterLocked (s : State) (hop : Nat) : State :=
  ((s.setHtState htLocked).wrFld (xreg .htStatus) 10 7 hop).modHt fun h => { h with
    lockRun := 0, offRun := 0, missRun := 0, returnRun := 0, returning := false, lastFurrow := none
    seen := boundaryAt h.now.toNat }

/-- HOLDOVER is entered on a loss of source (R68). -/
def State.enterHoldover (s : State) : State :=
  let s := s.setHtState htHoldover
  let s := s.modHt fun h => { h with
    since := h.now.toNat, returnRun := 0, offRun := 0, missRun := 0, returning := false, lastFurrow := none }
  s.raiseBit (xreg .htStatus) 12

/-- LOST is entered (R72): FAULT_N, LOCK_LOST with its record; RUN_AT and GEAR_AT are cancelled; partitions armed and
not running are disarmed; running formes halt, and the links fall silent, at the next furrow boundary. -/
def State.enterLost (s : State) : State :=
  let s := s.setHtState htLost
  let s := s.modHt fun h => { h with since := h.now.toNat, haltPending := true, returning := false, upstreamFree := false }
  let s := { s with faultPin := true }
  let s := s.raiseBit (xreg .htStatus) 13
  let s := s.endJobs (fun j => match j.kind with
    | .runAt _ | .gearAt _ _ => true
    | _ => false) stCancelledLost
  allParts.foldl (fun s p =>
    let s := s.syncGear p
    if (s.part p).armed && !(s.part p).running then s.disarm p stCancelledLost else s) s

/-! ### The epoch code (R58 to R61) -/

/-- One step of the CRC-8 of R59, polynomial 0x07. -/
def crc8Step (c : Nat) (b : Bool) : Nat :=
  let top := (128 ≤ c) != b
  let c := c * 2 % 256
  if top then c ^^^ 7 else c

def crc8 (bits : List Bool) : Nat := bits.foldl crc8Step 0

/-- A number from bits, most significant first. -/
def msbNat (bits : List Bool) : Nat := bits.foldl (fun a b => 2 * a + b.toNat) 0

/-- Hall Time bits 63:20 of a well-formed frame (R59, R60); `none` where the frame is ill formed. -/
def frameOf (f : List EpochSym) : Option Nat :=
  match f with
  | .marker :: rest =>
    let data := rest.take 52
    let tail := rest.drop 52
    if rest.length = 63 ∧ data.all (fun x => x = .zero ∨ x = .one) ∧ tail.all (· = .zero) then
      let bits : List Bool := data.map fun x => x == .one
      if crc8 (bits.take 44) = msbNat (bits.drop 44) then some (msbNat (bits.take 44)) else none
    else none
  | _ => none

/-- The frame that a count implies for the 64 furrows from a tick (R61), most significant bit first. -/
def frameFor (t : Nat) : List EpochSym :=
  let bits := (List.range 44).map fun i => ((t / 2 ^ 20) % 2 ^ 44).testBit (43 - i)
  let c := crc8 bits
  let sym := fun b => if b then EpochSym.one else EpochSym.zero
  [.marker] ++ bits.map sym ++ (List.range 8).map (fun i => sym (c.testBit (7 - i))) ++ List.replicate 11 .zero

/-- The symbol that a pulse's width carries (R58). -/
def EpochPulse.sym (x : EpochPulse) : EpochSym :=
  if x.width = 64 then .zero else if x.width = 128 then .one else if x.width = 256 then .marker else .bad

/-- The symbols of pulses that rise furrow by furrow from the first one's boundary on (R58); a pulse that rises elsewhere is
none of them. -/
def epochSyms (f : List EpochPulse) : List EpochSym :=
  f.zipIdx.map fun (x, i) => if x.rise = (f.headD x).rise + 16384 * i then x.sym else .bad

/-- The symbol that a count implies for the furrow that begins at tick `b` (R59, R61). -/
def epochSymAt (b : Nat) : EpochSym := ((frameFor b)[b / 16384 % 64]?).getD .bad

/-- The furrow boundaries from tick `a` up to, not including, tick `t`. -/
def boundariesIn (a t : Nat) : List Nat :=
  (List.range (boundaryAt t / 16384 - boundaryAt a / 16384)).map fun i => boundaryAt a + 16384 * i

/-- Whether the pulses that rose from tick `a` up to tick `t` are those of a count (R61): one at every boundary and no
other, each with its symbol. -/
def epochHolds (a t : Nat) (f : List EpochPulse) : Bool :=
  f.map (·.rise) == boundariesIn a t && f.all fun x => x.sym == epochSymAt x.rise

/-- Pulses of HALL_EPOCH have been read: in ACQUIRE a frame up to the marker that follows it (R60); in LOCKED those that
rose since the last were read (R61). DESIGN CHOICE (log 30): an epoch fault in LOCKED leaves FRAME_BAD alone. -/
def State.epochFrame (s : State) (f : List EpochPulse) : State :=
  if !s.edgeNode then s else
  if s.htState = htAcquire then
    match frameOf (epochSyms f) with
    | none => (s.modHt fun h => { h with frame := none }).raiseBit (xreg .htStatus) 14
    | some v =>
      match s.ht.frame with
      | none => s.modHt fun h => { h with frame := some (BitVec.ofNat 44 v) }
      | some p =>
        if v = p.toNat + 1 then
          (s.modHt fun h => { h with
            frame := some (BitVec.ofNat 44 v), now := BitVec.ofNat 64 ((v + 1) * 2 ^ 20), running := true }).enterLocked 0
        else (s.modHt fun h => { h with frame := some (BitVec.ofNat 44 v) }).raiseBit (xreg .htStatus) 14
  else if s.htState = htLocked then
    if epochHolds s.ht.seen s.now f then s.modHt fun h => { h with
      seen := h.now.toNat, frame := some (BitVec.ofNat 44 (h.now.toNat / 2 ^ 20)) }
    else s.enterHoldover
  else s

/-- A reference is lost: no edge for 64 ticks or an epoch fault at an edge node; two tramline slots without a valid
record on port 0 (R61, R68). -/
def State.referenceLoss (s : State) (l : RefLoss) : State :=
  let ours := if l = .records then s.clkMode == 1 else s.edgeNode
  if !ours then s
  else if s.htState = htLocked then s.enterHoldover
  else if s.htState = htAcquire then s.modHt fun h => { h with frame := none, lockRun := 0 }
  else if s.htState = htHoldover then s.modHt fun h => { h with returnRun := 0, returning := false }
  else s

/-- The furrow of the present tick. -/
def State.furrow (s : State) : Nat := s.now / 16384

/-- A run of furrows with the present one added: one more where the furrow before it counted last, else 1. -/
def State.furrowRun (s : State) (run : Nat) : Nat :=
  if s.ht.lastFurrow.map (· + 1) = some s.furrow then run + 1 else 1

/-- The source's return in HOLDOVER (R68): an offset inside 0.5 ns in four consecutive furrows locks again, one outside
loses the count. Each furrow counts once. -/
def State.sourceReturn (s : State) (inside : Bool) : State :=
  if s.htState ≠ htHoldover then s
  else if !inside then s.enterLost
  else if s.ht.lastFurrow = some s.furrow then s
  else
    let run := s.furrowRun s.ht.returnRun
    if 4 ≤ run then s.enterLocked (s.rdFld (xreg .htStatus) 10 7)
    else s.modHt fun h => { h with returnRun := run, returning := true, lastFurrow := some s.furrow }

def State.hallRefReturn (s : State) (inside : Bool) : State := if s.edgeNode then s.sourceReturn inside else s

/-- 64 furrows in HOLDOVER (R68). -/
def State.holdoverTimeout (s : State) : State :=
  if s.htState = htHoldover ∧ s.ht.since + 64 * 16384 ≤ s.now then s.enterLost else s

/-- One furrow after LOST (R68). -/
def State.lostToAcquire (s : State) : State :=
  if s.htState = htLost ∧ s.ht.since + 16384 ≤ s.now then
    (s.setHtState htAcquire).modHt fun h => { h with
      frame := none, lockRun := 0, missRun := 0, offRun := 0, lastFurrow := none, upstreamFree := false }
  else s

/-! ### Recovery from port 0 (R63 to R67) -/

/-- R66's halving, ties to even. -/
def rneHalf (x : Int) : Int :=
  let q := x / 2
  if x % 2 = 0 then q else if q % 2 = 0 then q else q + 1

/-- Offset and one-way delay of a record that arrived at `t2` (R66). -/
def TimeRecord.offsetDelay (r : TimeRecord) (t2 : Nat) : Int × Int :=
  let fwd : Int := (t2 : Int) - r.sendT
  let back : Int := (r.echoRecvT : Int) - r.echoSendT
  (rneHalf (fwd - back), rneHalf (fwd + back))

/-- The count stepped by `d` sixty-fourths of a tick (R67): whole ticks into the count, the rest into the place of the
tick edges. -/
def HtS.move (h : HtS) (d : Int) : HtS :=
  { h with now := BitVec.ofInt 64 (h.now.toNat + d / 64), phase := h.phase + d % 64 }

/-- The count slewed by `d` sixty-fourths of a tick (R67): the tick edges move, the count goes on by one every tick
(R54). -/
def HtS.slew (h : HtS) (d : Int) : HtS := { h with phase := h.phase + d }

/-- A quantity held in a signed 16-bit field; out of its range the field reads 0x7FFF or 0x8000 by the sign
(18_long_runs.md R666). -/
def clampS16 (x : Int) : Nat := (BitVec.ofInt 16 (max (-32768) (min 32767 x))).toNat

/-- One missing or unusable record on port 0: two in a row are a loss of source (R68). DESIGN CHOICE (log 30): in ACQUIRE
it breaks the run of 16 records. -/
def State.recordMissing (s : State) : State :=
  if s.clkMode ≠ 1 then s else
  if s.htState = htLocked then
    if 1 ≤ s.ht.missRun then s.enterHoldover else s.modHt fun h => { h with missRun := h.missRun + 1 }
  else if s.htState = htAcquire then s.modHt fun h => { h with lockRun := 0 }
  else s

/-- A record with ECHO_VALID and LOCKED or FREE, its offset outside or inside 0.5 ns (R67). DESIGN CHOICE (log 30): of the
records of one furrow any inside one clears the run of furrows outside, and the first outside one adds the furrow. -/
def State.lockedRecord (s : State) (off : Int) : State :=
  let fresh : Bool := s.ht.lastFurrow != some s.furrow
  let note := fun (h : HtS) => { h with lastFurrow := some s.furrow }
  if off.natAbs ≤ 40 then
    s.modHt fun h => { note (if fresh then h.slew (max (-2) (min 2 (-off))) else h) with offRun := 0 }
  else if !fresh then s
  else
    let run := s.furrowRun s.ht.offRun
    if 4 ≤ run then s.enterLost else s.modHt fun h => { note h with offRun := run }

/-- A record received on hall port 0 by a package in CLK_MODE 0b01 (R63 to R68), its first header symbol at the fraction `f`
of the current tick. Its hop count and flags hold whatever its ECHO_VALID (R65). DESIGN CHOICE (log 30): the package's hop
count holds at 15 in its 4-bit field and a record of HOP 12 or more in LOCKED is taken as any other; HT_DELAY keeps the
low 24 bits. -/
def State.port0Record (s : State) (r : TimeRecord) (f : Nat) : State :=
  if s.clkMode ≠ 1 then s else
  let s := if 12 ≤ r.hop then s.raiseBit (xreg .htStatus) 15 else s
  let s := (s.wrFld (xreg .htStatus) 10 7 (min (r.hop + 1) 15)).modHt fun h => { h with upstreamFree := r.free }
  if !r.echoValid then s.recordMissing else
  let (off, del) := r.offsetDelay (s.now * 64 + f)
  let s := (s.wrFld (xreg .htOffset) 15 0 (clampS16 off)).wrFld (xreg .htDelay) 23 0 (BitVec.ofInt 24 del).toNat
  if !(r.locked || r.free) then s.recordMissing
  else if s.htState = htAcquire then
    if 12 ≤ r.hop then s.recordMissing
    else
      let run := if off.natAbs ≤ 8 then s.ht.lockRun + 1 else 0
      let s := s.modHt fun h => { (h.move (-off)) with lockRun := run, running := true }
      if 16 ≤ run then s.enterLocked (r.hop + 1) else s
  else if s.htState = htLocked then (s.modHt fun h => { h with missRun := 0 }).lockedRecord off
  else s.sourceReturn (decide (off.natAbs ≤ 40))

/-! ### Registers of the base (R43, R104, R108) -/

/-- Bits of a register that a write replaces, and the others kept (R579). -/
def State.storeReg (s : State) (r : Reg) (v : Word) : State :=
  let i := r.name.info
  let m := i.rw ||| i.wq
  s.modReg r fun w => (v &&& m) ||| (w &&& ~~~m)

/-- Whether a load of HT_SET is dropped (R108). -/
def State.setRefused (s : State) : Bool := s.htState != htFree || s.anyArmed

def State.setLoWrite (s : State) (v : Word) : State :=
  let s := s.storeReg (xreg .htSetLo) v
  if s.setRefused then s.raiseBit (xreg .htStatus) 11
  else s.modHt fun h => { h with
    set := some (BitVec.ofNat 64 (v.toNat + 2 ^ 32 * (s.rd (xreg .htSetHi)).toNat)) }

def State.htConfigWrite (s : State) (v : Word) : State :=
  if s.anyArmed ∨ fld v 1 0 = 3 then s.raiseBit (xreg .htStatus) 11 else s.storeReg (xreg .htConfig) v

def State.nodeIdWrite (s : State) (v : Word) : State := if s.anyArmed then s else s.storeReg (xreg .htNodeId) v

/-- The number of tramlines in a furrow (R104). -/
def State.tramlines (s : State) : Nat :=
  match s.rdFld (xreg .htConfig) 1 0 with
  | 0 => 2
  | 1 => 4
  | _ => 8

/-- The tramline interval in ticks. -/
def State.tramInterval (s : State) : Nat := 16384 / s.tramlines

/-- Whether tick `t` of the furrow lies in a tramline slot (R73, R76). -/
def State.inTramline (s : State) (t : Nat) : Bool := t % s.tramInterval < 128

/-- The first tramline slot that starts at or after tick `t` of the full count. -/
def State.tramlineAt (s : State) (t : Nat) : Nat := (t + s.tramInterval - 1) / s.tramInterval * s.tramInterval

/-- A tick of the base: the load of HT_SET takes effect where it may, else the count advances (R54, R108). -/
def State.tickHall (s : State) : State :=
  let s := s.modHt fun h => { h with ticks := h.ticks + 1 }
  if !s.ht.running then s else
  let next := fun (s : State) (v : DWord) => s.modHt fun h => { h with now := v, set := none }
  match s.ht.set with
  | some v => if s.setRefused then (next s (s.ht.now + 1)).raiseBit (xreg .htStatus) 11 else next s v
  | none => next s (s.ht.now + 1)

/-- The base as a cold or fundamental reset leaves it under CLK_MODE (R57). -/
def State.startHall (s : State) : State :=
  let m := s.straps.clkMode.toNat
  let s := { s with ht := { HtS.reset with running := true } }
  let s := s.wrFld (xreg .htStatus) 6 5 m
  let s := s.setHtState (if m < 2 then htAcquire else htFree)
  if m = 3 then s.raiseBit (xreg .htStatus) 16 else s

end Sys2Proof.Machine
end

