-- ==== Sys2Proof/Machine/Power.lean ====
section
/-!
DEFINITION. Power, droop, caps and energy (13_power_and_thermal.md R512 to R546).
-/
namespace Sys2Proof.Machine

open Sys2Proof

/-! ### Domains and voltages (R518 to R522) -/

/-- Whether a region domain is to be on (R518). -/
def State.domainWanted (s : State) (r : RegionId) : Bool :=
  s.rdBit (dreg .cdPartition r.d) 3 && !s.regionFallow r

/-- Domains go off at once where they are not wanted, and are switched on where they are (R518). -/
def State.syncDomains (s : State) (d : Die) : State :=
  (dieRegions d).foldl (fun s r =>
    let on := s.rdBit (rreg .pwrRegionStat r) 4
    if !s.domainWanted r then
      (s.wrBit (rreg .pwrRegionStat r) 4 false).modRegion r fun x => { x with onDue := none }
    else if !on && (s.region r).onDue.isNone then s.modRegion r fun x => { x with onDue := some (s.now + 65536) }
    else s) s

/-- The core clocks of a die's regions follow HT_GEAR of its partition, and their voltages with them (R110, R516). -/
def State.syncRegionGear (s : State) (d : Die) : State :=
  (dieRegions d).foldl (fun s r =>
    let g := s.gearFor r
    if (s.region r).gear = g then s else (s.modRegion r fun x => { x with gear := g }).setRail r g) s

/-- A region domain that is switched on reaches its voltage-table entry (R518). -/
def State.regionOn (s : State) (r : RegionId) : State :=
  if s.domainWanted r ∧ s.powered ∧ (s.region r).onDue.isSome then
    let g := s.gearFor r
    ((s.wrBit (rreg .pwrRegionStat r) 4 true).modRegion r fun x => { x with onDue := none, gear := g }).setRail r g
  else s

/-- A region domain is at its entry within 4 furrows (R518). -/
def State.domainsDue (s : State) : State :=
  s.regions.entries.foldl (fun s e => match e.2.onDue with
    | some t => if t ≤ s.now then s.regionOn e.1 else s
    | none => s) s

/-- A write to PWR_VTAB (R521): dropped with VT_BAD where VDROOP would not lie below VNOM, else taken at the next furrow
boundary. -/
def State.vtabWrite (s : State) (r : RegionId) (g : Gear) (v : Word) : State :=
  if fld v 7 0 ≤ fld v 15 8 then s.raiseBit (rreg .pwrRegionStat r) 3
  else s.modRegion r fun x => { x with vtab := x.vtab ++ [(g.code, v)] }

/-- The table writes that waited for the boundary (R521): the region stands at the new entry of the gear whose voltages it
holds, one step below it during a proof (R520). -/
def State.vtabBoundary (s : State) (r : RegionId) : State :=
  let w := (s.region r).vtab
  if w.isEmpty then s else
  let s := w.foldl (fun s e => s.storeReg ⟨.pwrVtab, r.d.val, r.r.val, e.1⟩ e.2) s
  s.modRegion r fun x =>
    let v := s.rd (vtabReg r x.railGear)
    { x with vtab := [], rail := if x.proving then vnomBelow v else v }

/-! ### Gear changes (R101, R526) -/

/-- The pending gear change of a partition that comes next. -/
def State.nextGear (s : State) (p : Part) : Option (Nat × Gear) :=
  (s.gearAts p).foldl (fun (a : Option (Nat × Gear)) x => match a with
    | none => some x
    | some y => if x.1 < y.1 then some x else some y) none

/-- A partition's regions stand at their entries for a gear; one that proves itself keeps the proof's (R520). -/
def State.setRails (s : State) (p : Part) (g : Gear) : State :=
  (s.partRegions p).foldl (fun s r => if (s.region r).proving then s else s.setRail r g) s

/-- One furrow before an upward change the voltages rise (R101). DESIGN CHOICE (log 27): where the change is cancelled after
that they stay risen until the next change. -/
def State.voltageRise (s : State) (p : Part) : State :=
  match s.nextGear p with
  | some (t, g) => if t ≤ s.now + 16384 ∧ g.code < (s.gearOf p).code then
      (s.setRails p g).modPart p fun ps => { ps with gearDown := false }
    else s
  | none => s

/-- The variant of a forme at a gear and promotion state: the gear's base variant followed through promotions in their
order (07_training_step.md R311). -/
def Forme.promote (f : Forme) (v op : Nat) : Option Nat :=
  (f.variants[v]?).bind fun x => (x.promotes.find? (·.1 = op)).map (·.2)

def Forme.follow (f : Forme) (g : Gear) (ops : List Nat) : Option Nat :=
  ops.foldl (fun v op => v.bind fun v => f.promote v op)
    ((f.bases.find? (·.1 = g)).map (·.2))

/-- Whether a gear change of a partition has its variant at the promotion state; with no forme running it needs none (R100,
07_training_step.md R311). -/
def State.gearHasVariant (s : State) (p : Part) (g : Gear) : Bool :=
  let ps := s.part p
  !ps.running || (match ps.forme with
    | some f => (f.follow g ps.promos).isSome
    | none => true)

/-- A gear change whose tick has come is put off to the next step boundary (07_training_step.md R311). -/
def State.deferGear (s : State) (p : Part) (t : Nat) (g : Gear) : State :=
  let len := match (s.part p).forme with
    | some f => f.length * 16384
    | none => 16384
  { s with host := { s.host with jobs := s.host.jobs.map fun j =>
    if j.req.part = p ∧ j.kind = .gearAt t g then { j with kind := .gearAt (t + len) g } else j } }

/-- At T the core clocks switch (R101, R102) and the GEAR_AT is answered; a change without a variant waits for the next step
boundary (07_training_step.md R311). -/
def State.gearSwitch (s : State) (p : Part) : State :=
  match s.nextGear p with
  | some (t, g) =>
    if s.now < t then s
    else if !s.gearHasVariant p g then s.deferGear p t g
    else
      let up : Bool := decide (g.code < (s.gearOf p).code)
      let s := if up then s.setRails p g else s
      let s := s.wrFld (preg .htGear p) 1 0 g.code
      let s := (s.partRegions p).foldl (fun s r => s.modRegion r fun x => { x with gear := if x.proving then x.gear else g }) s
      let s := s.modPart p fun ps => { ps with gearAt := s.now, gearDown := !up }
      let s := s.endJobs (fun j => decide (j.req.part = p) && j.kind == .gearAt t g) stOk
      s.syncGear p
  | none => s

/-- One furrow after a downward change the voltages fall (R101). -/
def State.voltageFall (s : State) (p : Part) : State :=
  if (s.part p).gearDown ∧ (s.part p).gearAt + 16384 ≤ s.now then
    (s.setRails p (s.gearOf p)).modPart p fun ps => { ps with gearDown := false }
  else s

/-! ### Droop (R523 to R525) -/

/-- Whether a cap count `q` suppresses core cycle `j` (R527). -/
def capCycle (q cm j : Nat) : Bool := decide (j * q / cm < (j + 1) * q / cm)

/-- Whether a region's core clock has an edge at this tick (R99, log 2). -/
def State.edgeNow (s : State) (r : RegionId) : Bool := (s.region r).gear.edge s.tickIn

/-- A droop starts: it suppresses from the next core cycle on (R524, R525). -/
def State.droopStart (s : State) (r : RegionId) : State :=
  ((s.count (rreg .pwrDroopEv r) 1).raiseBit (rreg .pwrRegionStat r) 2).modRegion r fun x =>
    { x with droop := some 0, suppressed := true }

/-- A detector trips: suppression starts on the first, second or third core cycle after the crossing (R524), and a core
cycle that begins at this tick has begun before it; a trip during suppression starts the count of good cycles again. -/
def State.droopTrip (s : State) (r : RegionId) (after : Fin 3) : State :=
  let edge := s.edgeNow r
  let x := s.region r
  if x.droop.isSome then s.modRegion r fun x => { x with droop := some 0, droopBad := edge }
  else if x.droopIn.isSome then s
  else if edge then s.modRegion r fun x => { x with droopIn := some (after.val + 1) }
  else if after.val = 0 then s.droopStart r
  else s.modRegion r fun x => { x with droopIn := some after.val }

/-- Suppression ends after 8 good cycles, which count from the first suppressed one (R524). -/
def State.droopRelease (s : State) (r : RegionId) : State :=
  s.modRegion r fun x => match x.droop with
    | some n => if 8 ≤ n then { x with droop := none, suppressed := capCycle x.q x.cm x.cyc } else x
    | none => x

/-! ### Caps (R527 to R534) -/

/-- The headland of the forme armed or running on a die, else 512 ticks (R527). -/
def State.headland (s : State) (d : Die) : Nat :=
  if s.dieArmed d then
    match s.formeOn d with
    | some f => f.headland
    | none => 512
  else 512

/-- Core cycles in a number of ticks from the boundary. -/
def Gear.cycles (g : Gear) (t : Nat) : Nat :=
  match g with
  | .full => t
  | .threeQuarter => 3 * t / 4
  | .half => t / 2

/-- The gear of a region in the coming furrow: that of a change of its partition whose tick has come, though the boundary's
work may be done before the clocks switch (R101, R527). -/
def State.gearComing (s : State) (r : RegionId) : Gear :=
  let g := (s.region r).gear
  if (s.region r).proving then g else
  match s.partOf r.d with
  | none => g
  | some p => match s.nextGear p with
    | some (t, h) => if t ≤ s.now ∧ s.gearHasVariant p h = true then h else g
    | none => g

/-- C_m of a region for the coming furrow (R527). -/
def State.cm (s : State) (r : RegionId) : Nat := (s.gearComing r).cycles (16384 - s.headland r.d)

/-- The energy of a partition, and of its region domains, in the furrow just ended (R531). -/
def State.furrowEnergy (s : State) (p : Part) : Nat × Nat :=
  let part := fun (a : Accounts) => (a.part[p.val]?).getD 0
  let dom := fun (a : Accounts) => (s.partRegions p).foldl (fun n r => n + (a.dom[4 * r.d.val + r.r.val]?).getD 0) 0
  (part s.power.acc - part s.power.atFurrow, dom s.power.acc - dom s.power.atFurrow)

/-- The mean issue fraction of the furrow just ended as a fraction (R531). -/
def State.issueFraction (s : State) (p : Part) : Nat × Nat :=
  let rs := (s.partRegions p).filter fun r => s.rdBit (rreg .pwrRegionStat r) 4
  let sum := rs.foldl (fun (a : Nat × Nat) r =>
    let x := s.region r
    let d := max x.cmPrev 1
    (a.1 * d + (d - min x.qPrev d) * a.2, a.2 * d)) (0, 1)
  (sum.1, sum.2 * max rs.length 1)

/-- q_host of a partition for the coming furrow, for a region whose C_m is `cm` (R531). -/
def State.qHost (s : State) (p : Part) (cm : Nat) : Nat :=
  let cap := s.rdFld (preg .pwrCap p) 12 0
  if cap = 0 then 0 else
  let (ep, er) := s.furrowEnergy p
  if er = 0 then 0 else
  let (fn, fd) := s.issueFraction p
  let num : Int := (fn : Int) * ((er : Int) - ((ep : Int) - ((cap * 13421 : Nat) : Int)))
  let den : Nat := fd * er
  if num ≤ 0 then cm else if (den : Int) ≤ num then 0 else
  (cm * (den - num.toNat) + den - 1) / den

/-- The output of PC k in the furrow just ended, in 1/1,024 microjoule: the domains of row k, LD k and a quarter of
XD (R512). -/
def State.pcEnergy (s : State) (k : Nat) : Nat :=
  let d := fun i => (s.power.acc.dom[i]?).getD 0 - (s.power.atFurrow.dom[i]?).getD 0
  let sum := fun (l : List Nat) => l.foldl (fun a i => a + d i) 0
  sum ((List.range 16).map (· + 16 * k)) + sum ((List.range 4).map (64 + 4 * k + ·)) + d (80 + 2 * k) + d (81 + 2 * k)
    + sum ((List.range 8).map (88 + ·)) / 4

/-- Watts of an energy of one furrow in 1/1,024 microjoule: a furrow is 13.1072 microseconds. -/
def furrowWatts (e : Nat) : Nat := e * 10000 / 134217728

/-- q_elec of the rows for the coming furrow (R533). -/
def State.elecCaps (s : State) : State :=
  let pin := s.power.acc.input - s.power.atFurrow.input
  let s := (s.wrFld (xreg .pwrPin) 12 0 (furrowWatts pin)).wrFld (xreg .pwrVin) 12 0 s.power.vin
  let ovf : Nat → Bool := fun k => decide (4000 * 134217728 < pin * 10000)
    || decide (1100 * 134217728 < s.pcEnergy k * 10000)
  let under : Nat → Bool := fun k => decide (pin * 10000 ≤ 3800 * 134217728)
    && decide (s.pcEnergy k * 10000 ≤ 1045 * 134217728)
  let s := (List.range 4).foldl (fun s k =>
    let q := (s.power.qElec[k]?).getD 0
    let top := (allRegions.filter fun r => r.d.val / 4 = k).foldl (fun m r => max m (s.cm r)) 0
    let q' := if ovf k then min (q + 512) top else if under k then q - 64 else q
    let s := if ovf k && q == 0 then s.raiseBit (xreg .pwrStatus) 7 else s
    { s with power := { s.power with qElec := s.power.qElec.set k q' } }) s
  s.wrBit (xreg .pwrStatus) 10 (s.power.qElec.any (fun q => decide (0 < q)))

/-- q of a region for the coming furrow (R528), with CAP_SHORT where q_host alone does not fit the headland (R534). -/
def State.capRegion (s : State) (r : RegionId) : State :=
  let cm := s.cm r
  let qh := match s.partOf r.d with
    | some p => s.qHost p cm
    | none => 0
  let q := min cm (max qh (max ((s.power.qTemp[r.d.val]?).getD 0) ((s.power.qElec[r.d.val / 4]?).getD 0)))
  let room := (s.gearComing r).cycles 16384 - cm
  let s := if room < qh then s.raiseBit (xreg .pwrStatus) 6 else s
  let s := s.wrFld (rreg .pwrRegionStat r) 30 16 q
  s.modRegion r fun x => { x with q := q, cm := cm }

/-- CAP_SETs that come into force at a boundary: for partition `p`, at least `lead` ticks after collection (R530). -/
def State.capInForce (s : State) (p : Part) (lead : Nat) : State :=
  let due : Job → Bool := fun j => decide (j.req.part = p) && (match j.kind with
    | .cap _ => decide (j.at_ + lead ≤ s.now)
    | _ => false)
  match s.host.jobs.find? due with
  | none => s
  | some j => match j.kind with
    | .cap w =>
      let s := (s.wrFld (preg .pwrCap p) 12 0 w).wrBit (preg .pwrCap p) 31 false
      let s := s.wrFld (preg .pwrCap p) 28 16 0
      s.endJobs due stOk
    | _ => s

/-- The caps of the coming furrow are formed (R528 to R533), and the energies of the furrow are closed. -/
def State.capBoundary (s : State) : State :=
  let s := s.elecCaps
  let s := allRegions.foldl (fun s r => s.modRegion r fun x => { x with qPrev := x.q, cmPrev := x.cm }) s
  let s := allRegions.foldl (fun s r => s.capRegion r) s
  { s with power := { s.power with atFurrow := s.power.acc } }

/-! ### Temperature (R532, R535) -/

/-- A die's sensors are read at tick 12,288 of a furrow (R532): `none` is a sensor without a reading. -/
def State.dieTemp (s : State) (d : Die) (readings : List (Option Nat)) : State :=
  if s.tickIn ≠ 12288 then s else
  let t := readings.foldl (fun m x => max m (x.getD 100)) 0
  let s := if readings.any Option.isNone then s.raiseBit (dreg .pwrDieStat d) 3 else s
  let q := (s.power.qTemp[d.val]?).getD 0
  let cm := s.cm ⟨d, 0⟩
  let band := s.rdFld (dreg .pwrTj d) 27 26
  let (q', band') := if t ≤ 90 then (q - 32, if 0 < q - 32 then 1 else 0)
    else if t = 91 then (q, band)
    else if t ≤ 94 then (min (q + 128) cm, 1)
    else if t ≤ 99 then (cm, 2)
    else (q, 3)
  let s := { s with power := { s.power with qTemp := s.power.qTemp.set d.val q' } }
  let m := s.rdFld (dreg .pwrTj d) 15 8
  let s := (((s.wrFld (dreg .pwrTj d) 7 0 t).wrFld (dreg .pwrTj d) 15 8 (max m t)).wrFld (dreg .pwrTj d) 24 16
    (q' / 32)).wrFld (dreg .pwrTj d) 27 26 band'
  if 99 < t then
    (s.raiseAll 16 [⟨dreg .pwrDieStat d, 2, false, false, 0, some 5⟩]).fence (·.fenceDie d)
  else if 94 < t then s.raiseBit (dreg .pwrDieStat d) 1
  else if 91 < t ∧ band ≠ 1 then s.raiseBit (dreg .pwrDieStat d) 0
  else s

/-- A link die at 100 degrees is fenced at once (R535). -/
def State.linkOvertemp (s : State) (k : LinkDie) : State := (s.fenceLd k).syncFence

/-! ### Energy (R536, R537) -/

/-- An account raised by a signed energy; 64 bits of microjoules and 10 of fraction (R536, R539). -/
def account (a : Nat) (e : Int) : Nat := (((a : Int) + e) % (2 ^ 74 : Int)).toNat

/-- The energies of a 64-tick period are assigned at its end (R536, R537). -/
def State.energyPeriod (s : State) (dom : List Nat) (input : Nat) : State :=
  if s.now % 64 ≠ 0 then s else
  let e := fun i => (dom[i]?).getD 0
  let shared : Int := (input : Int) - ((List.range 80).foldl (fun a i => a + e i) 0 : Nat)
  let a := s.power.acc
  let parts := allParts.map fun p =>
    let ds := s.partDies p
    let own := ds.foldl (fun n d => n + e (4 * d.val) + e (4 * d.val + 1) + e (4 * d.val + 2) + e (4 * d.val + 3)
      + e (64 + d.val)) 0
    (own : Int) + (ds.length : Int) * shared / 16
  let rest : Int := (input : Int) - parts.foldl (· + ·) 0
  { s with power := { s.power with acc := {
      dom := (List.range 96).map fun i => account ((a.dom[i]?).getD 0) (e i)
      part := (List.range 8).map fun i => account ((a.part[i]?).getD 0) ((parts[i]?).getD 0)
      input := account a.input input
      unassigned := account a.unassigned rest } } }

/-! ### Latches and the loss of power (R502, R503, R513) -/

/-- The compute dies after a loss of what their stacks and caches hold (R419, R603): the `g`-th and the next. -/
def lostDies (g : Nat) : AMap Die DieS := ⟨allDies.map fun d =>
  (d, { DieS.reset with hbm := DieS.reset.hbm.lost (16 * g + d.val), cache := DieS.reset.cache.lost (16 * (g + 1) + d.val) })⟩

/-- The compute and link dies lose power: what they hold is lost (R503, R513, R603). -/
def State.powerOff (s : State) : State :=
  let g := s.free
  { s with
    free := g + 2
    units := .empty
    lus := .empty
    regions := .empty
    clusters := .empty
    dies := lostDies g
    links := { LinkS.reset with framingOnly := true }
    prov := []
    replays := []
    susp := []
    ht := { s.ht with running := false }
    power := { s.power with latchOff := none } }

/-- The firmware loses power: commands of the sideband are answered CANCELLED, those of the host are lost with the host
interface; a warm reset under way is abandoned and posts no reply (R503, R559, R613). -/
def State.dropJobs (s : State) : State :=
  let s := { s with host := { s.host with jobs := s.host.jobs.filter fun (j : Job) => j.kind != JobKind.warm } }
  let s := s.endJobs (fun j => j.req.src.isSideband) stCancelled
  State.clearPending { s with
    host := { HostS.reset with hostMem := s.host.hostMem }
    sb := { s.sb with slots := s.sb.slots.map fun (m : Option SbMsg) => m.bind fun (x : SbMsg) => if x.taken then none else some x }
    mon := { s.mon with waiting := false }
    fw := { s.fw with warm := none, pause := none, block := none, trialFrom := none } }

/-- A latching source (R502, R503); a commit tick of the same tick has not acted (R504). -/
def State.latch (s : State) (b : Nat) (atOnce : Bool) : State :=
  let s := s.raiseAll 16 [⟨xreg .rstLatch, b, false, false, 0, some 4⟩]
  let s := s.wrBit (xreg .rstLatch) 7 true
  if s.power.mode = .latched then (if atOnce && s.power.latchOff.isSome then s.powerOff else s) else
  let s := allParts.foldl (fun s p => if (s.part p).armed || (s.part p).running then (s.unCommit p).haltPart p else s) s
  let s := if atOnce then s else s.sendMsg [48] 0 0 (.detach false)
  let s := { s with
    faultPin := true
    links := { s.links with framingOnly := true }
    power := { s.power with mode := .latched, latchOff := some (s.now + 16384) } }
  let s := s.dropJobs.setReplace ((s.rd (xreg .rstReplace)).toNat ||| 32)
  if atOnce then s.powerOff else s

/-- One furrow after a fuse or tamper latch power is removed (R502). -/
def State.latchPowerOff (s : State) : State :=
  match s.power.latchOff with
  | some t => if t ≤ s.now then s.powerOff else s
  | none => s

/-- Input below 64.0 V for 1 ms (R513): every forme halts, all but the always-on domains lose power, Standby. -/
def State.brownOut (s : State) : State :=
  if s.power.mode = .off ∨ s.power.mode = .latched then s else
  let s := allParts.foldl (fun s p => if (s.part p).armed || (s.part p).running then s.haltPart p else s) s
  let s := s.dropJobs.powerOff
  { s with power := { s.power with mode := .standby, stage := .failed, brownOut := true } }

/-- The band of the 72 V input (R513): IN_LOW from 64.0 V to below 68.4 V, IN_HIGH above 75.6 V and below the overvoltage
threshold of 80.0 V (19_electrical_mechanical.md R670), above which OVERVOLT comes. -/
def State.inputBand (s : State) : State :=
  let v := s.power.vin
  if 6400 ≤ v ∧ v < 6840 then s.raiseBit (xreg .pwrStatus) 8
  else if 7560 < v ∧ v < 8000 then s.raiseBit (xreg .pwrStatus) 9
  else s

/-- The 72 V input comes to a voltage, in 10 mV (R513), while the package has it. -/
def State.inputLevel (s : State) (v : Nat) : State :=
  let s := { s with power := { s.power with vin := v } }
  if s.power.mode = .off then s else s.inputBand

end Sys2Proof.Machine
end

