-- ==== Sys2Proof/Machine/Memories.lean ====
section
/-!
DEFINITION. The HBM stacks and the shared cache (10_memory_system.md R397 to R427), the paged addresses of the state
pair and the input ring (07_training_step.md R283 to R286, R315) and the mirror digest (11_links_and_twin.md R455).
-/
namespace Sys2Proof.Machine

open Sys2Proof

/-! ### The mixing function (R304) -/

def mix (z : DWord) : DWord :=
  let z := (z ^^^ (z >>> 30)) * 0xBF58476D1CE4E5B9#64
  let z := (z ^^^ (z >>> 27)) * 0x94D049BB133111EB#64
  z ^^^ (z >>> 31)

/-- The `k`-th u64 word of bytes. -/
def wordAt (b : List Byte) (k : Nat) : DWord := BitVec.ofNat 64 (leNat ((b.drop (8 * k)).take 8))

/-! ### Blocks that answer with errors (R31, R616) -/

/-- The block reset under way, if its wrapper closes around a die. -/
def State.inBlockReset (s : State) (d : Die) : Bool :=
  match s.fw.block with
  | some b => b.level == 1 && b.target == d.val
  | none => false

def State.dieClosed (s : State) (d : Die) : Bool := s.fen.dies.contains d || s.inBlockReset d

/-- One suspect event of an access's step; none for a host transfer (R284, R406). -/
def State.chargeAccess (s : State) (i : Issuer) (ahead : Bool := false) : State :=
  match i with
  | .step d => s.suspectDie d ahead
  | .host => s

/-! ### Addresses (R283, R284, R398, R412) -/

/-- The retirement spare begins here (R398). -/
def spareBase : Nat := 0xFF0000000

def State.pair64 (s : State) (lo hi : RegName) (d : Die) : Nat :=
  (s.rd (dreg lo d)).toNat + 2 ^ 32 * (s.rd (dreg hi d)).toNat

/-- The stack address of a far offset (R283), and whether it names the state pair; `none` breaks R283, or lies in the retirement
spare or past the stack (R398). -/
def State.resolve (s : State) (d : Die) (off : Nat) : Option (Nat × Bool) :=
  let o := off % 2 ^ 36
  let inStack := fun (a : Nat) (pair : Bool) => if a < spareBase then some (a, pair) else none
  if !off.testBit 39 then
    if off / 2 ^ 36 % 8 = 0 then inStack o false else none
  else if off.testBit 36 then none
  else if !off.testBit 38 then
    if o < s.pair64 .cdPageLenLo .cdPageLenHi d then
      let half := s.rdBit (dreg .cdPage d) 0 != off.testBit 37
      inStack ((if half then s.pair64 .cdPageBLo .cdPageBHi d else s.pair64 .cdPageALo .cdPageAHi d) + o) true
    else none
  else if off.testBit 37 then none
  else
    match s.formeOn d, s.partOf d with
    | some f, some p =>
      if o < f.inLen ∧ f.inCount ≠ 0 then
        inStack (f.inBase + (s.stepNo p).toNat % f.inCount * f.inLen + o) false
      else none
    | _, _ => none

/-- The intervals of a furrow that the forme armed on a die reserves for host traffic; `none` with no forme armed (R18). -/
def State.hostSlots (s : State) (d : Die) : Option (List (Nat × Nat)) :=
  if !s.dieArmed d then none else
  match s.partOf d, s.formeOn d with
  | some p, some f => some (match f.onDie d (s.part p).variant with
    | some e => e.hostSlots
    | none => [])
  | _, _ => none

/-- A forme that is armed on the die and reserves no host slots (R18, 14_host_and_management.md R567, R569). -/
def State.noHostSlots (s : State) (d : Die) : Bool := match s.hostSlots d with
  | some l => l.isEmpty
  | none => false

/-- Whether host and bulk data may enter or leave a die's memories now: with a forme armed only in the slots it reserves (R18). -/
def State.hostOpen (s : State) (d : Die) : Bool := match s.hostSlots d with
  | some l => l.any fun e => decide (e.1 ≤ s.tickIn ∧ s.tickIn < e.1 + e.2)
  | none => true

/-- Whether an address lies in the state pair or the history pair of a die (R455, 08_gradient_reduction.md R353). -/
def State.inPairs (s : State) (d : Die) (a : Nat) : Bool :=
  let inside := fun (base len : Nat) => decide (base ≤ a ∧ a < base + len)
  let n := s.pair64 .cdPageLenLo .cdPageLenHi d
  let h := s.pair64 .cdHistLenLo .cdHistLenHi d
  inside (s.pair64 .cdPageALo .cdPageAHi d) n || inside (s.pair64 .cdPageBLo .cdPageBHi d) n
    || inside (s.pair64 .cdHistALo .cdHistAHi d) h || inside (s.pair64 .cdHistBLo .cdHistBHi d) h

/-- Bank of a stack address (R399). -/
def bankOf (a : Nat) : Nat := a / 2 ^ 17 % 32

/-- The spare pages of a bank, lowest first, by their number in the spare area (R412). -/
def sparesOfBank (b : Nat) : List Nat := (List.range 128).map fun k => 64 * (k / 2) + 2 * b + k % 2

/-- Where an address lies after the remap table (R412). -/
def DieS.physical (x : DieS) (a : Nat) : Nat :=
  match x.remap.find? (·.1 = a / 65536) with
  | some e => spareBase + e.2 * 65536 + a % 65536
  | none => a

def DieS.symsAt (x : DieS) (a : Nat) : Nat := ((x.syms.find? (·.1 = a / 64)).map (·.2)).getD 0

def DieS.setSyms (x : DieS) (a n : Nat) : DieS :=
  let rest := x.syms.filter (·.1 ≠ a / 64)
  { x with syms := if n = 0 then rest else (a / 64, n) :: rest }

/-! ### The stack controller (R400 to R410) -/

def State.band (s : State) (d : Die) : Nat := s.rdFld (dreg .hbmStat d) 1 0

/-- Whether bank `b` is in its base window, or in HOT its added window, at refresh step `r` (R400, R405). -/
def inWindow (r b : Nat) : Bool := decide ((r + 32 - b) % 32 ≤ 4)
def inAdded (r b : Nat) : Bool := decide ((r + 48 - b) % 32 ≤ 4)

/-- Whether the controller refuses an access to an address now (R402, R405, R407). `own` marks the reads and writes to which the
spec gives no slot of the forme, the step table's row, the input ring's head and the histories: the die makes them clear of refresh
windows, and FENCED alone refuses them (DESIGN CHOICE, log 31). -/
def State.refuses (s : State) (d : Die) (a : Nat) (own : Bool := false) : Bool :=
  let r := s.now / 64 % 32
  s.band d == 2 || (!own && (inWindow r (bankOf a) || (s.band d == 1 && inAdded r (bankOf a))))

/-- A refused access (R406). -/
def State.refuse (s : State) (d : Die) (a : Nat) (i : Issuer) : State :=
  let s := (s.count (dreg .hbmRefuseCnt d) 1).raiseBit (dreg .hbmStat d) 4 (i != .host) a
  match i with
  | .step _ => (s.chargeAccess i).modDie d fun x => { x with hbmRefused := true }
  | .host => s

/-- An uncorrectable read: counted, recorded with the address, the address latched (R410, R425). -/
def State.uncorrectable (s : State) (d : Die) (a source : Nat) (b : Nat) (suspect : Bool) : State :=
  let remapped := ((s.die d).remap.any (·.1 = a / 65536))
  let s := s.count (dreg .hbmUeCnt d) 1
  let s := if s.rdBit (dreg .hbmUeAddrHi d) 31 then s else
    ((s.wrFld (dreg .hbmUeAddrLo d) 31 6 (a / 64)).modReg (dreg .hbmUeAddrHi d) fun w =>
      setFld (setBit (setFld (setBit w 31 true) 10 9 source) 8 remapped) 3 0 (a / 2 ^ 32))
  s.raiseBit (dreg .hbmStat d) b suspect a

/-- The 256 ticks around a commit tick (R315), the last of a forme that has halted since among them: whether an access there is
charged to the step after the one that runs, or to that one. -/
def State.pageRace (s : State) (d : Die) : Option Bool :=
  match s.partOf d with
  | none => none
  | some p =>
    let ps := s.part p
    match ps.forme with
    | none => none
    | some f =>
      if !ps.running && !ps.commitDone then none else
      let near := fun (c : Nat) => decide (c ≤ s.now + 256 ∧ s.now ≤ c + 256)
      if near (ps.stepStart + f.commitAt) then some true
      else if ps.ord ≠ 0 && near (ps.stepStart + f.commitAt - f.length * 16384) then some false
      else none

/-- An access to the state pair near a commit tick (R315), whoever makes it: the event is the step's that follows, and
R567's exception does not reach it. -/
def State.notePair (s : State) (d : Die) (pair : Bool) : State :=
  if !pair then s else
  match s.pageRace d with
  | some ahead => (s.raiseBit (dreg .cdUpdStat d) 4 true).suspectDie d ahead
  | none => s

/-- An address that breaks R283 (R284). -/
def State.pageRange (s : State) (d : Die) (i : Issuer) : State :=
  (s.raiseBit (dreg .cdUpdStat d) 3 (i != .host)).chargeAccess i

/-- A foreground read of 64 B at a far offset (R406, R409, R410). `upset` more symbols of the access have gone bad. -/
def State.hbmRead (s : State) (d : Die) (off : Nat) (i : Issuer) (upset : Nat := 0) (own : Bool := false) : State × Delivery :=
  if s.dieClosed d then (s, .error) else
  if s.clockOut (.hbm d) then (s.modDie d fun x => { x with hbmRefused := true }, .blank) else
  match s.resolve d (off / 64 * 64) with
  | none => (s.pageRange d i, .data (List.replicate 64 0))
  | some (a, pair) =>
    let s := s.notePair d pair
    if s.refuses d a own then (s.refuse d a i, .blank) else
    let x := s.die d
    let q := x.physical a
    let n := x.symsAt q + upset
    let s := s.modDie d fun x => x.setSyms q n
    if n = 0 then (s, .data (x.hbm.bytes q 64))
    else if n = 1 then ((s.count (dreg .hbmCeCnt d) 1).raiseBit (dreg .hbmStat d) 5 false a, .data (x.hbm.bytes q 64))
    else ((s.uncorrectable d a 0 6 (i != .host)).chargeAccess i, .blank)

/-- The digest of a 64 B write to the state pair or history pair (R455). -/
def writeDigest (d : Die) (a : Nat) (b : List Byte) : DWord :=
  (List.range 8).foldl (fun c k => mix (c ^^^ wordAt b k)) (mix (BitVec.ofNat 64 (a ^^^ (d.val * 2 ^ 36))))

/-- A write of 64 B into the stack at an address, after every test: through the remap table, to both pages during a
copy (R412, R413). -/
def State.hbmStore (s : State) (d : Die) (a : Nat) (b : List Byte) : State :=
  s.modDie d fun x =>
    let q := x.physical a
    let x := { x with hbm := x.hbm.write q b }.setSyms q 0
    match x.copy with
    | some c => if c.page = a / 65536 then
        let q := spareBase + c.spare * 65536 + a % 65536
        { x with hbm := x.hbm.write q b }.setSyms q 0
      else x
    | none => x

/-- A foreground write of 64 B at a far offset (R406); a write to the state pair or the history pair joins the die's digest, by
whatever address it came (R455). -/
def State.hbmWrite (s : State) (d : Die) (off : Nat) (i : Issuer) (b : List Byte) (own : Bool := false) : State × Delivery :=
  if s.dieClosed d then (s, .error) else
  if s.clockOut (.hbm d) then (s.modDie d fun x => { x with hbmRefused := true }, .blank) else
  match s.resolve d (off / 64 * 64) with
  | none => (s.pageRange d i, .blank)
  | some (a, pair) =>
    let s := s.notePair d pair
    if s.refuses d a own then (s.refuse d a i, .blank) else
    let s := s.hbmStore d a b
    let s := if s.inPairs d a then s.modDie d fun x => { x with digest := x.digest + writeDigest d a b } else s
    (s, .data b)

/-! ### The shared cache (R416 to R419) -/

def cacheSize : Nat := 0x10000000

/-- Bad bits of the 8 B word `w` of the cache (R419). -/
def DieS.wordBad (x : DieS) (w : Nat) : Nat := ((x.cacheBad.find? (·.1 = w)).map (·.2)).getD 0

def DieS.setWordBad (x : DieS) (w n : Nat) : DieS :=
  let rest := x.cacheBad.filter (·.1 ≠ w)
  { x with cacheBad := if n = 0 then rest else (w, n) :: rest }

/-- The words of a line that have bad bits, with how many. -/
def DieS.lineBad (x : DieS) (l : Nat) : List (Nat × Nat) := x.cacheBad.filter (·.1 / 16 = l)

/-- The ranks of R418's sources. -/
inductive Source where
  | cluster | mesh | linkDie | hbm | update | adders | gleaning
  deriving DecidableEq, Repr

def Source.rank (s : Source) : Nat := match s with
  | .cluster => 1
  | .mesh => 2
  | .linkDie => 3
  | .hbm => 4
  | .update => 5
  | .adders => 6
  | .gleaning => 7

/-- The source that a unit's, a host's or another die's access to a cache comes from. -/
def Issuer.source (i : Issuer) (d : Die) : Source := match i with
  | .step e => if e = d then .cluster else .mesh
  | .host => .linkDie

/-- The sources whose accesses one command of the table gives together, though they are spread over ticks: a band, a contribution, a
host transfer, a gleaned block. Their lines do not collide among themselves (DESIGN CHOICE, log 31). -/
def Source.spread (s : Source) : Bool := decide (3 ≤ s.rank)

/-- An access claims its line's bank for this tick; the accesses of a tick come in the order of R418's ranks, and the
second to a bank is dropped. -/
def State.claimBank (s : State) (d : Die) (l : Nat) (c : Source) : State × Bool :=
  let b := l % 64
  if (s.die d).banks.any fun e => e.1 == b && !(c.spread && e.2 == c.rank) then ((s.raiseSuspect (dreg .scStat d) 1 (l * 128)), false)
  else (s.modDie d fun x => { x with banks := (b, c.rank) :: x.banks }, true)

/-- A read of line `l` gets its bank and passes its ECC, or delivers a blank (R418, R419). `upset % 4` more bits of the line's word
`upset / 4 % 16` have gone bad. A read with single bad bits in several words counts once in SC_CE_CNT (DEDUCED, log 31). -/
def State.cacheServe (s : State) (d : Die) (l : Nat) (c : Source) (upset : Nat) : State × Bool :=
  let (s, served) := s.claimBank d l c
  if !served then (s, false) else
  let w := l * 16 + upset / 4 % 16
  let s := s.modDie d fun x => x.setWordBad w (x.wordBad w + upset % 4)
  let bad := (s.die d).lineBad l
  if bad.any (2 ≤ ·.2) then
    let s := if s.rdBit (dreg .scUeAddr d) 31 then s else
      (s.wrFld (dreg .scUeAddr d) 27 7 l).wrBit (dreg .scUeAddr d) 31 true
    ((s.raiseBit (dreg .scStat d) 2 true (l * 128)).suspectDie d, false)
  else (if bad.isEmpty then s else s.count (dreg .scCeCnt d) 1, true)

/-- A read of the 128 B line at an offset (R416, R419, R480). -/
def State.cacheLine (s : State) (d : Die) (off : Nat) (i : Issuer) (c : Source) (upset : Nat := 0) : State × Delivery :=
  if s.dieClosed d then (s, .error) else
  if cacheSize ≤ off then
    ((s.raiseBit (dreg .scStat d) 0 (i != .host) off).chargeAccess i, .data (List.replicate 128 0)) else
  if s.clockOut (.uncore d) then (s, .blank) else
  let l := off / 128
  let (s, served) := s.cacheServe d l c upset
  if !served || (s.die d).blanks.contains l then (s, .blank) else (s, .data ((s.die d).cache.bytes (l * 128) 128))

def State.cacheRead (s : State) (d : Die) (off : Nat) (i : Issuer) (upset : Nat := 0) : State × Delivery :=
  s.cacheLine d off i (i.source d) upset

/-- Bytes put into the cache: the lines are no longer blank (R480), and a word written whole is good again. -/
def DieS.putBytes (x : DieS) (a : Nat) (b : List Byte) : DieS :=
  { x with
    cache := x.cache.write a b
    blanks := x.blanks.filter fun l => !decide (a < l * 128 + 128 ∧ l * 128 < a + b.length)
    cacheBad := x.cacheBad.filter fun e => !decide (a ≤ e.1 * 8 ∧ e.1 * 8 + 8 ≤ a + b.length) }

/-- The bytes of a line put into the cache. -/
def DieS.putLine (x : DieS) (l : Nat) (b : List Byte) : DieS := x.putBytes (l * 128) b

/-- A write into one line, at an offset, of at most the rest of the line (R416, R418). -/
def State.cachePut (s : State) (d : Die) (off : Nat) (i : Issuer) (c : Source) (b : List Byte) : State × Delivery :=
  if s.dieClosed d then (s, .error) else
  if cacheSize ≤ off then ((s.raiseBit (dreg .scStat d) 0 (i != .host) off).chargeAccess i, .blank) else
  if s.clockOut (.uncore d) then (s, .blank) else
  let (s, served) := s.claimBank d (off / 128) c
  if !served then (s, .blank) else (s.modDie d fun x => x.putBytes off b, .data b)

/-- A write of the 128 B line at an offset (R416, R418). -/
def State.cacheWrite (s : State) (d : Die) (off : Nat) (i : Issuer) (b : List Byte) : State × Delivery :=
  s.cachePut d (off / 128 * 128) i (i.source d) b

/-! ### Accesses of the die's own engines and of host transfers (R301, R392, R567): runs of bytes, each made of accesses that go by
the rules above -/

/-- The bytes of an access; a blank or an error answer is zeros. -/
def Delivery.bytesOr (x : Delivery) (n : Nat) : List Byte := match x with
  | .data b => b
  | _ => List.replicate n 0

/-- A run of `n` bytes from offset `off`, cut where a block of `size` ends: the first byte of each piece and its length. -/
def pieces (size off n : Nat) : List (Nat × Nat) :=
  (List.range ((off + n + size - 1) / size - off / size)).map fun k =>
    let a := max off ((off / size + k) * size)
    (a, min (off + n) ((off / size + k + 1) * size) - a)

/-- Bytes read from the shared cache or the stack; what cannot be read is zero. -/
def State.engineRead (s : State) (d : Die) (hbm : Bool) (off n : Nat) (i : Issuer) (c : Source) (own : Bool := false) :
    State × List Byte :=
  let size := if hbm then 64 else 128
  (pieces size off n).foldl (fun (acc : State × List Byte) x =>
    let (s, y) := if hbm then acc.1.hbmRead d (x.1 / 64 * 64) i 0 own else acc.1.cacheLine d (x.1 / 128 * 128) i c
    (s, acc.2 ++ ((y.bytesOr size).drop (x.1 % size)).take x.2)) (s, [])

/-- Bytes written by an engine. The controller of a stack never reads, modifies and writes within an access (R399): the engine
itself reads a block of which it writes a part, and writes it back whole, two accesses; a block that it cannot read it does not
write (DESIGN CHOICE, log 31). -/
def State.engineWrite (s : State) (d : Die) (hbm : Bool) (off : Nat) (i : Issuer) (c : Source) (b : List Byte) (own : Bool := false) :
    State :=
  let size := if hbm then 64 else 128
  (pieces size off b.length).foldl (fun s x =>
    let part := (b.drop (x.1 - off)).take x.2
    if !hbm then (s.cachePut d x.1 i c part).1
    else if x.2 = 64 then (s.hbmWrite d x.1 i part own).1
    else
      let at_ := x.1 / 64 * 64
      match s.hbmRead d at_ i 0 own with
      | (s, .data keep) => (s.hbmWrite d at_ i (keep.take (x.1 - at_) ++ part ++ keep.drop (x.1 - at_ + x.2)) own).1
      | (s, _) => s) s

/-! ### Temperature of the stack (R404) -/

def State.setBand (s : State) (d : Die) (b : Nat) : State :=
  let old := s.band d
  let s := s.wrFld (dreg .hbmStat d) 1 0 b
  if b = old then s else if b = 1 then s.raiseBit (dreg .hbmStat d) 2
  else if b = 2 then s.raiseBit (dreg .hbmStat d) 3 else s

/-- A reading takes effect at tick 128, one a furrow (R397, R404); `none` is a reading that the stack failed to return. -/
def State.hbmTemp (s : State) (d : Die) (reading : Option Nat) : State :=
  if !s.powered || s.tickIn ≠ 128 || (s.die d).tempAt == some s.elapsed then s else
  let s := s.modDie d fun x => { x with tempAt := some s.elapsed }
  let t := reading.getD 106
  let m := s.rdFld (dreg .hbmTemp d) 15 8
  let s := (s.wrFld (dreg .hbmTemp d) 7 0 t).wrFld (dreg .hbmTemp d) 15 8 (max m t)
  let s := if reading.isSome then s.wrBit (dreg .hbmTemp d) 16 true else s
  match s.band d with
  | 0 => if 106 ≤ t then s.setBand d 2 else if 96 ≤ t then s.setBand d 1 else s
  | 1 => if 106 ≤ t then s.setBand d 2 else if t ≤ 93 then s.setBand d 0 else s
  | _ => s.modDie d fun x => { x with exitArmed := decide (t ≤ 100) }

/-- The exit from FENCED at a boundary, where the last reading armed it (R404). -/
def State.bandExit (s : State) (d : Die) : State :=
  if s.band d = 2 ∧ (s.die d).exitArmed then
    let s := s.modDie d fun x => { x with exitArmed := false }
    s.setBand d (if s.rdFld (dreg .hbmTemp d) 7 0 ≤ 93 then 0 else 1)
  else s

/-! ### Background work (R403) -/

/-- Whether the present tick lies in a scrub's window: slot 0 of every SCRUB_DIV-th furrow (R403). -/
def State.scrubWindow (s : State) (d : Die) : Bool :=
  s.now / 16384 % max (s.rdFld (dreg .hbmCfg d) 7 0) 1 == 0 && decide (s.tickIn < 128)

/-- The number of the tramline interval that the present tick lies in (R73, R76). -/
def State.interval (s : State) : Option Nat :=
  if s.inTramline s.tickIn then some (s.now / s.tramInterval) else none

/-- Whether the stacks are in self-refresh in a warm reset (R611). -/
def State.selfRefresh (s : State) : Bool :=
  match s.fw.warm with
  | some w => w.reset && decide (s.elapsed < w.start + 125000000)
  | none => false

/-- Whether a die's stack does background work in the present interval (R403): one piece of a task to a window. -/
def State.background (s : State) (d : Die) (last : DieS → Option Nat) : Bool :=
  s.powered && !s.selfRefresh && !s.dieClosed d && s.interval.isSome && last (s.die d) != s.interval

/-- A patrol scrub access (R403, R409, R410): read at the next index through the remap table, written back where it was
corrected. -/
def State.patrolScrub (s : State) (d : Die) (upset : Nat) : State :=
  if !s.scrubWindow d || !s.background d (·.scrubAt) then s else
  let s := s.modDie d fun x => { x with scrubAt := s.interval }
  let i := s.rdFld (dreg .hbmScrubPtr d) 29 0
  let a := i * 64
  let x := s.die d
  let q := if a < spareBase then x.physical a else a
  let n := x.symsAt q + upset
  let s := if n = 0 then s
    else if n = 1 then
      ((s.count (dreg .hbmCeCnt d) 1).raiseBit (dreg .hbmStat d) 5 false a).modDie d fun x => x.setSyms q 0
    else (s.modDie d fun x => x.setSyms q n).uncorrectable d a 1 7 false
  let s := s.wrFld (dreg .hbmScrubPtr d) 29 0 (i + 1)
  if i + 1 = 2 ^ 30 then s.count (dreg .hbmScrubPass d) 1 else s

/-- A recalibration in every other tramline interval, of channel `calCount mod 32`, where `calCount` counts those intervals (R403):
the intervals of even number (DESIGN CHOICE, log 31). -/
def State.calibrate (s : State) (d : Die) (fails : Bool) : State :=
  let n := s.interval.getD 0
  if !s.background d (·.calAt) || n % 2 ≠ 0 then s else
  let s := s.modDie d fun x => { x with calAt := s.interval, calCount := n / 2 }
  if fails then s.raiseBit (dreg .hbmStat d) 10 else s

/-- The refresh of bank r mod 32 begins in every stack (R400), and in HOT and FENCED that of bank (r - 16) mod 32 (R405, R407); the
stack of a fallow die is in self-refresh (R31). -/
def State.refreshStep (s : State) : State :=
  if !s.powered || s.selfRefresh || s.now % 64 ≠ 0 then s else
  let r := s.now / 64 % 32
  allDies.foldl (fun s d => if s.dieClosed d then s else
    let hot := s.band d != 0
    s.modDie d fun x => { x with refreshed := some r, added := if hot then some ((r + 16) % 32) else x.added }) s

/-! ### Retirement (R412 to R415) -/

/-- The spare a page would move to: the lowest of its bank that is neither used nor bad (R412, R414). -/
def DieS.freeSpare (x : DieS) (page : Nat) : Option Nat :=
  (sparesOfBank (page / 2 % 32)).find? fun k => !x.badSpares.contains k && !x.remap.any (·.2 = k)

/-- PAGE_RETIRE's tests (R414). -/
def DieS.retireRefused (x : DieS) (page : Nat) : Bool :=
  x.copy.isSome || (x.freeSpare page).isNone || (decide (4096 ≤ x.remap.length) && !x.remap.any (·.1 = page))

def State.startCopy (s : State) (d : Die) (page : Nat) : State :=
  match (s.die d).freeSpare page with
  | some k =>
    (s.modDie d fun x => { x with copy := some ⟨page, k, 0, false⟩ }).wrBit (dreg .hbmRetire d) 13 true
  | none => s

/-- One copy access (R413), in a tramline interval that scrub does not use: corrected where it can be, the correction written back too
(R409); an uncorrectable one stays uncorrectable in the spare. -/
def State.copyAccess (s : State) (d : Die) (upset : Nat) : State :=
  let x := s.die d
  match x.copy with
  | none => s
  | some c =>
    if 1024 ≤ c.done || s.scrubWindow d || !s.background d (·.copyAt) then s else
    let s := s.modDie d fun x => { x with copyAt := s.interval }
    let a := c.page * 65536 + c.done * 64
    let q := x.physical a
    let t := spareBase + c.spare * 65536 + c.done * 64
    let n := x.symsAt q + upset
    let s := s.modDie d fun x =>
      let keeps := if 2 ≤ n then n else 0
      ({ x with hbm := x.hbm.write t (x.hbm.bytes q 64), copy := some { c with done := c.done + 1 } }.setSyms q keeps).setSyms t keeps
    if n = 0 then s
    else if n = 1 then (s.count (dreg .hbmCeCnt d) 1).raiseBit (dreg .hbmStat d) 5 false a
    else s.uncorrectable d a 2 7 false

/-- The copy completes: the switch follows at once with no forme armed on the die, else at the step boundary (R413). -/
def State.copyDone (s : State) (d : Die) : State :=
  match (s.die d).copy with
  | none => s
  | some c =>
    if c.done < 1024 then s
    else if s.dieArmed d then s.modDie d fun x => { x with copy := some { c with waits := true } }
    else s.switchPage d

/-! ### Traffic generators (R420, R421, R426) -/

def tgReg (n : RegName) (d : Die) (c : Fin 32) : Reg := ⟨n, d.val, c.val, 0⟩

/-- Word `w` of the access at address `a` (R421). -/
def tgWord (pattern : Nat) (seed : Word) (a w : Nat) : DWord :=
  match pattern with
  | 0 => mix (BitVec.ofNat 64 (seed.toNat * 2 ^ 32) ^^^ BitVec.ofNat 64 (a + w))
  | 1 => 0
  | 2 => BitVec.ofNat 64 (2 ^ 64 - 1)
  | 3 => BitVec.ofNat 64 (a + 8 * w)
  | _ => BitVec.ofNat 64 (2 ^ ((a / 64 + w) % 64))

def tgBytes (pattern : Nat) (seed : Word) (a : Nat) : List Byte :=
  (List.range 8).flatMap fun w => natLe 8 (tgWord pattern seed a w).toNat

/-- A write of a generator's control register with START (R420, R421, R426, R667). -/
def State.tgStart (s : State) (d : Die) (c : Fin 32) (v : Word) : State :=
  let ctl := tgReg .tgCtl d c
  let s := s.storeReg ctl (v &&& ~~~(0xC0 : Word))
  if s.rdBit ctl 9 || s.dieClosed d then s
  else if s.dieArmed d ∨ 5 ≤ fld v 4 2 ∨ s.rdFld (tgReg .tgLen d c) 25 0 = 0
      ∨ 2 ^ 25 < s.rdFld (tgReg .tgLen d c) 25 0 then s.raiseBit ctl 10
  else (((s.wrBit ctl 9 true).wr (tgReg .tgErr d c) 0).wr (tgReg .tgPass d c) 0).modReg (tgReg .tgFirst d c) fun w =>
    setBit (setFld w 24 0 0) 31 false

/-- One access of a pass, index `k` (R420): written, then checked, as MODE says. -/
def State.tgAccess (s : State) (d : Die) (c : Fin 32) (k : Nat) : State :=
  let ctl := s.rd (tgReg .tgCtl d c)
  let a := k % 2 ^ 25 * 2048 + c.val * 64
  if s.dieClosed d || s.dieArmed d || (decide (spareBase ≤ a) && !bit ctl 5) then s else
  let b := tgBytes (fld ctl 4 2) (s.rd (tgReg .tgSeed d c)) a
  let mode := fld ctl 1 0
  let s := if mode = 1 then s else s.modDie d fun x =>
    let q := if a < spareBase then x.physical a else a
    { x with hbm := x.hbm.write q b }.setSyms q 0
  if mode = 0 then s else
  let x := s.die d
  let q := if a < spareBase then x.physical a else a
  let n := x.symsAt q
  let differs : Bool := (x.hbm.bytes q 64 != b) || decide (2 ≤ n) || (bit ctl 5 && decide (n ≠ 0))
  let s := if n = 1 ∧ !bit ctl 5 then (s.count (dreg .hbmCeCnt d) 1).raiseBit (dreg .hbmStat d) 5 false a
    else if 2 ≤ n ∧ !bit ctl 5 then s.uncorrectable d a 3 6 false else s
  if !differs then s else
  let s := s.count (tgReg .tgErr d c) 1
  if s.rdBit (tgReg .tgFirst d c) 31 then s
  else (s.wrFld (tgReg .tgFirst d c) 24 0 k).wrBit (tgReg .tgFirst d c) 31 true

/-- The first `n` accesses of a pass. -/
def State.tgPass (s : State) (d : Die) (c : Fin 32) (n : Nat) : State :=
  let base := s.rdFld (tgReg .tgBase d c) 24 0
  (List.range n).foldl (fun s i => s.tgAccess d c (base + i)) s

/-- The results TRAFFIC_GEN returns, ERR and FIRST of each channel (R560). -/
def State.tgResults (s : State) (d : Die) : List Byte :=
  (List.finRange 32).flatMap fun c => natLe 4 (s.rd (tgReg .tgErr d c)).toNat ++ natLe 4 (s.rd (tgReg .tgFirst d c)).toNat

/-- A run ends: DONE; a TRAFFIC_GEN all of whose channels are done is answered (R426, R560). -/
def State.tgEnd (s : State) (d : Die) (c : Fin 32) : State :=
  let s := (s.wrBit (tgReg .tgCtl d c) 9 false).raiseBit (tgReg .tgCtl d c) 8
  let r := s.tgResults d
  let busy : Word → Bool := fun m => (List.finRange 32).any fun c => bit m c.val && s.rdBit (tgReg .tgCtl d c) 9
  let ends : Bool → Job → Bool := fun mon j => decide (j.req.src = .monitor) == mon && (match j.kind with
    | .traffic e m => decide (e = d) && !busy m
    | _ => false)
  (s.endJobs (ends false) stOk 0 r).endJobs (ends true) stOk 0 ((r.drop (8 * c.val)).take 8)

/-- The passes of a run complete (R426): in MODE 0b11 one pass, and the run goes on. A generator runs only while no forme is armed on
its die (R420): while one is, its run stands still (DEDUCED, log 31). -/
def State.tgDone (s : State) (d : Die) (c : Fin 32) : State :=
  if !s.rdBit (tgReg .tgCtl d c) 9 || s.dieArmed d then s else
  let s := s.tgPass d c (s.rdFld (tgReg .tgLen d c) 25 0)
  if s.rdFld (tgReg .tgCtl d c) 1 0 = 3 then s.count (tgReg .tgPass d c) 1 else s.tgEnd d c

/-- STOP ends a run after the current access, `n` accesses into its pass (R426). -/
def State.tgStop (s : State) (d : Die) (c : Fin 32) (n : Nat) : State :=
  if !s.rdBit (tgReg .tgCtl d c) 9 then s else
  (s.tgPass d c (min n (s.rdFld (tgReg .tgLen d c) 25 0))).tgEnd d c

/-! ### Accesses as commands -/

def State.deliver (d : Die) (x : State × Delivery) : State := x.1.modDie d fun y => { y with delivered := some x.2 }

/-- A 64 B access of a stack (R405, R406): a write where it brings data. -/
def State.hbmAccess (s : State) (d : Die) (i : Issuer) (off : Nat) (data : Option (List Byte)) (upset : Nat) : State :=
  if !s.powered then s else
  State.deliver d (match data with
    | some b => s.hbmWrite d off i ((List.range 64).map fun k => (b[k]?).getD 0)
    | none => s.hbmRead d off i upset)

/-- A 128 B access of a shared cache (R416). -/
def State.cacheAccess (s : State) (d : Die) (i : Issuer) (off : Nat) (data : Option (List Byte)) (upset : Nat) :
    State :=
  if !s.powered then s else
  State.deliver d (match data with
    | some b => s.cacheWrite d off i ((List.range 128).map fun k => (b[k]?).getD 0)
    | none => s.cacheRead d off i upset)

end Sys2Proof.Machine
end

