-- ==== Sys2Proof/Machine/Verdict.lean ====
section
/-!
DEFINITION. Verdicts and commits: the verdict tick (12_silent_errors_and_faults.md R473, R475, R476; 11_links_and_twin.md
R456; 07_training_step.md R308), the sums of the verdict tree (02_hall_time.md R90 to R94) and the commit tick
(07_training_step.md R313, R314, R318).
-/
namespace Sys2Proof.Machine

open Sys2Proof

/-! ### Arrival at XD (R34, R476) -/

def hold32 (a : Word) (n : Nat) : Word := satAdd32 a n

/-- An event of partition `p` charged to step ordinal `ord` is counted; one that comes after its step's verdict tick
goes to the next step and sets LATE_EVENT on the die that raised it. -/
def State.countEvent (s : State) (e : SuspEv) : State :=
  let ps := s.part e.part
  if !ps.armed then s
  else if !ps.running then s.modPart e.part fun ps => { ps with vnext := hold32 ps.vnext 1 }
  else if ps.ord < e.ord then s.modPart e.part fun ps => { ps with vnext := hold32 ps.vnext 1 }
  else
    let late : Bool := decide (e.ord < ps.ord) || ps.vdone
    let s := if ps.vdone then s.modPart e.part fun ps => { ps with vnext := hold32 ps.vnext 1 }
      else s.modPart e.part fun ps => { ps with vcount := hold32 ps.vcount 1 }
    if late then s.raiseAll 16 [⟨dreg .cdFault e.die, 7, true, true, 0, none⟩] else s

/-- The `n`-th event in flight arrives. -/
def State.arrive (s : State) (n : Nat) : State :=
  match s.susp[n]? with
  | some e => { s with susp := s.susp.eraseIdx n }.countEvent e
  | none => s

/-- The events raised 256 ticks ago have arrived (R476). -/
def State.arriveDue (s : State) : State :=
  if s.susp.all (fun e => decide (s.now < e.at_ + 256)) then s else
  let due := s.susp.filter fun e => decide (e.at_ + 256 ≤ s.now)
  due.foldl (fun s e => s.countEvent e) { s with susp := s.susp.filter fun e => decide (s.now < e.at_ + 256) }

/-- One event added to the current step's count without the way to XD (R473, R475, R456). -/
def State.charge (s : State) (p : Part) (n : Nat) : State :=
  s.modPart p fun ps => { ps with vcount := hold32 ps.vcount n }

/-! ### The verdict tick -/

/-- A provisional event becomes a suspect event (R475). -/
def State.promoteProv (s : State) (p : Part) : State :=
  let mine : ProvEv → Bool := fun e => decide (s.partOf e.unit.d = some p)
  let evs := s.prov.filter mine
  let s := evs.foldl (fun s e => s.wrBit (ureg .tuChk e.unit) 2 false) s
  { s with prov := s.prov.filter fun e => !mine e }.charge p evs.length

/-- The marked units whose digest differs from their in-package shadow's (R473). -/
def State.comparePairs (s : State) (p : Part) (f : Forme) : State :=
  if f.level ≠ 2 ∨ f.twinDup then s else
  f.shadows.foldl (fun s pr =>
    if (s.lu pr.1).wdigest = (s.lu pr.2).wdigest then s
    else (s.raiseBit (ureg .tuChk pr.1) 7 true).charge p 1) s

/-- The package's digest of a partition: of the writes of its state and history pairs, or in a twin pair at level 0b10
of its marked units (R455, R473). -/
def State.ownDigest (s : State) (p : Part) (f : Forme) : DWord :=
  if f.twinDup then f.shadows.foldl (fun a pr => a + (s.lu pr.1).wdigest) 0
  else (s.partDies p).foldl (fun a d => a + (s.die d).digest) 0

/-- Whether the forme's digest is compared with the twin's. -/
def Forme.twinCompared (f : Forme) : Bool := f.mirror || (f.level == 2 && f.twinDup)

def State.unchecked (s : State) : Bool := s.rdBit (xreg .twStatus) 4

/-- The comparison with the twin's digest (R456, R457). -/
def State.compareTwin (s : State) (p : Part) (f : Forme) : State :=
  if !f.twinCompared || s.unchecked || (f.mirror && !s.links.twin.attached) then s else
  let arrived := s.links.twin.twinDigests.find? fun e =>
    decide (e.1 = p) && e.2.1 == f.job && e.2.2.1 == s.stepNo p
  match arrived with
  | some e => if e.2.2.2 = s.ownDigest p f then s else (s.raiseBit (xreg .twStatus) 8 true).charge p 1
  | none => (s.raiseBit (xreg .twStatus) 9 true).charge p 1

/-- The package's contributions to the promotion counts (R308). -/
def State.promotions (s : State) (f : Forme) : List Half :=
  (List.range 12).map fun i => match f.promotable[i]? with
    | some o => if o.sets.any fun e => match (s.lu e.1).live[e.2.val]? with
        | some m => fld m.trip 1 0 != 0
        | none => false
      then 1 else 0
    | none => 0

/-- The verdict tick of a partition's step. -/
def State.verdictTick (s : State) (p : Part) : State :=
  let ps := s.part p
  match ps.forme with
  | none => s
  | some f =>
    if !ps.running || ps.vdone || decide (s.now < ps.stepStart + f.verdictAt) then s else
    let s := s.promoteProv p
    let s := s.comparePairs p f
    let s := s.compareTwin p f
    s.modPart p fun ps => { ps with
      vdone := true
      own := some ⟨ps.vcount, s.promotions f, if ps.coldReq then 1 else 0⟩ }

/-! ### The verdict tree (R91 to R93, R309, R357) -/

def satAdd16 (a : Half) (n : Nat) : Half := BitVec.ofNat 16 (min (a.toNat + n) 0xFFFF)

/-- Two records summed, each sum held at its top. -/
def TreeRec.add (a b : TreeRec) : TreeRec :=
  ⟨satAdd32 a.sum b.sum.toNat,
   (List.range 12).map fun i => satAdd16 ((a.counts[i]?).getD 0) ((b.counts[i]?).getD 0).toNat,
   satAdd16 a.cold b.cold.toNat⟩

/-- The first tramline at or after a partition's verdict tick (R91). -/
def State.verdictTram (s : State) (p : Part) (f : Forme) : Nat := s.tramlineAt ((s.part p).stepStart + f.verdictAt)

/-- The hall's record is held (R91): its sums count from this tick. -/
def State.hold (s : State) (p : Part) (r : TreeRec) (arrived : Bool) : State :=
  s.modPart p fun ps => { ps with
    down := some r
    held := arrived
    hallCounts := if arrived then ps.hallCounts ++ [(s.now, r.counts)] else ps.hallCounts
    hallCold := if arrived then ps.hallCold ++ [(s.now, r.cold)] else ps.hallCold }

/-- What is due in the tree by now: the up record is formed, a missing child adding its top (R91, R92); the root takes
the total; a node whose down record is missing forwards tops and sets its divergence latch (R93). -/
def State.treeAdvance (s : State) (p : Part) : State :=
  let ps := s.part p
  match ps.forme, (if ps.running then ps.own else none) with
  | some f, some own =>
    let v := s.verdictTram p f
    let step := s.tramInterval
    let s := if ps.up.isNone && decide (v + f.tree.height * step ≤ s.now) then
        let sum := f.tree.children.foldl (fun a c =>
          a.add (match ps.childUp.find? (·.1 = c) with
            | some e => e.2
            | none => TreeRec.missing)) own
        s.modPart p fun ps => { ps with up := some sum }
      else s
    let ps := s.part p
    if ps.down.isSome then s else
    match f.tree.parent, ps.up with
    | none, some u => if v + f.tree.treeDepth * step ≤ s.now then s.hold p u true else s
    | some _, _ =>
      if v + (f.tree.treeDepth + f.tree.depth) * step ≤ s.now then
        (s.hold p TreeRec.missing false).modPart p fun ps => { ps with diverged := true }
      else s
    | _, _ => s
  | _, _ => s

/-- A record of the tree received on a port: from a child up, from the parent down (R90, R91). -/
def State.treeReceive (s : State) (port : Port) (r : VerdictRec) : State :=
  let ps := s.part r.part
  match ps.forme with
  | none => s
  | some f =>
    if !ps.running || r.job != f.job || r.step != s.stepNo r.part then s
    else if r.down then
      if f.tree.parent = some port ∧ ps.down.isNone then s.hold r.part r.tree true else s
    else if f.tree.children.contains port && ps.up.isNone then
      s.modPart r.part fun ps => { ps with childUp := (port, r.tree) :: ps.childUp.filter (·.1 ≠ port) }
    else s

/-- The records of the partitions that the tramline slot starting at tick `t` carries on a port: a partition's up record
towards its parent in tramline v + h, its down record towards its children in tramline v + D + d (R91). Those of an
abandoned step carry tops (R72, 16_reset_boot_firmware.md R604). -/
def State.treeRecords (s : State) (port : Port) (t : Nat) : List VerdictRec :=
  allParts.flatMap fun p =>
    let ps := s.part p
    match ps.forme with
    | none => []
    | some f =>
      let at_ := fun (n : Nat) => decide (t = s.verdictTram p f + n * s.tramInterval)
      let rec_ := fun (down : Bool) (r : Option TreeRec) => match r with
        | some u => [VerdictRec.mk p f.job ps.curStep down u]
        | none => []
      if f.tree.parent = some port && at_ f.tree.height then rec_ false ps.up
      else if f.tree.children.contains port && at_ (f.tree.treeDepth + f.tree.depth) then
        rec_ true ps.down
      else []

/-! ### The commit tick (R313 to R318) -/

/-- The header of a snapshot buffer (R318). -/
def snapHeader (job step : Word) (variant : Nat) (fmt : Byte) (valid : Bool) : List Byte :=
  natLe 4 job.toNat ++ natLe 4 step.toNat ++ natLe 1 variant ++ [fmt] ++ natLe 1 (if valid then 1 else 2)
    ++ List.replicate 53 0

/-- The snapshot of the step is marked and shipped (R318, R319, R569); its command is answered with the header. -/
def State.closeSnapshot (s : State) (p : Part) (f : Forme) (q : SnapReq) (valid : Bool) : State :=
  match f.variants[(s.part p).variant]? with
  | none => s
  | some v => match v.kind, v.snap with
    | .snapshot, some b =>
      let h := snapHeader f.job (s.stepNo p) (s.part p).variant b.fmt valid
      let s := (s.partDies p).foldl (fun s d => s.hbmStore d b.base h) s
      let ports := (List.finRange 49).filter fun i => q.ports.testBit i.val
      let s := if q.ship then
          let ds := s.partDies p
          let st : BulkStream := ⟨q.stream, true, s.firstDie p, 1, b.base, b.len * ds.length, ports, 0, 0, 0, 0, ds.drop 1, [], []⟩
          { s with host := { s.host with streams := s.host.streams ++ [st] } }
        else s
      let s := s.modPart p fun ps => { ps with snaps := ps.snaps.filter (· ≠ q) }
      s.endJobs (fun j => decide (j.req = q.req) && j.kind == .snapshot) stOk 0 h
    | _, _ => s

/-- The verdict registers and the retained verdict record of the step (R510, R622). -/
def State.noteVerdict (s : State) (p : Part) (f : Forme) (commits : Bool) : State :=
  let ps := s.part p
  let loc := match ps.own with
    | some o => o.sum
    | none => ps.vcount
  let hall := match ps.down with
    | some d => d.sum
    | none => 0xFFFFFFFF
  let flags := (if ps.held then 1 else 0) + (if commits then 2 else 0) + (if ps.diverged then 4 else 0)
  let st := s.stepNo p
  let s := (((s.wr (preg .htVlocal p) loc).wr (preg .htVhall p) hall).wr (preg .htVstep p) st).wrFld
    (preg .htVflags p) 2 0 flags
  let r :=
    (natLe 4 f.job.toNat ++ natLe 4 st.toNat ++ natLe 4 loc.toNat ++ natLe 4 hall.toNat ++ natLe 1 flags
        ++ List.replicate 15 0)
  { s with retained := s.retained.write (0x2000 + p.val * 0x200 + st.toNat % 16 * 0x20) r }

/-- TW_DIGEST of the step that ends (R463). -/
def State.noteDigests (s : State) (p : Part) (f : Forme) : State :=
  if !f.twinCompared then s else
  let own := s.ownDigest p f
  let twin := match s.links.twin.twinDigests.find? fun e =>
      decide (e.1 = p) && e.2.1 == f.job && e.2.2.1 == s.stepNo p with
    | some e => e.2.2.2
    | none => 0
  let put := fun (s : State) lo hi (v : DWord) =>
    (s.wr (preg lo p) (v.setWidth 32)).wr (preg hi p) ((v >>> 32).setWidth 32)
  put (put s .twDigestOwnLo .twDigestOwnHi own) .twDigestTwinLo .twDigestTwinHi twin

/-- The commit tick of a partition's step (R313). -/
def State.commitTick (s : State) (p : Part) : State :=
  let ps := s.part p
  match ps.forme with
  | none => s
  | some f =>
    if !ps.running || ps.commitDone || decide (s.now < ps.stepStart + f.commitAt) then s else
    let s := (s.verdictTick p).treeAdvance p
    let ps := s.part p
    let clean : Bool := ps.held && (match ps.down with
      | some d => d.sum == 0
      | none => false)
    let commits : Bool := clean && !ps.diverged
    let s := s.noteVerdict p f commits
    let s := s.noteDigests p f
    let s := match ps.snaps.find? (·.runs) with
      | some q => s.closeSnapshot p f q clean
      | none => s
    let st := s.stepNo p
    let s := s.modPart p fun ps => { ps with
      commitDone := true
      committedLast := commits
      lastStep := st
      lastBefore := ps.lastCommit
      lastCommit := if commits then st else ps.lastCommit
      haltOnBoundary := ps.haltOnBoundary || (!commits && f.unclean == .halt) }
    (s.partDies p).foldl (fun s d =>
      if commits then
        let s := s.modReg (dreg .cdPage d) fun w => setBit (setBit w 0 (!bit w 0)) 2 true
        let s := s.modReg (dreg .cdHist d) fun w => setBit w 0 (!bit w 0)
        s.wr (dreg .cdStep d) (st + 1)
      else
        let s := s.wrBit (dreg .cdPage d) 2 false
        if f.unclean == .skip then s.wr (dreg .cdStep d) (st + 1) else s) s

end Sys2Proof.Machine
end

