-- ==== Sys2Proof/Machine/Links.lean ====
section
/-!
DEFINITION. The link dies and the twin port (11_links_and_twin.md R428 to R464): lanes, slots, tramlines, management
messages, lane sparing, the twin.
-/
namespace Sys2Proof.Machine

open Sys2Proof

/-! ### Lanes and ports -/

def State.modLinks (s : State) (f : LinkS → LinkS) : State := { s with links := f s.links }
def State.laneS (s : State) (l : Lane) : LaneS := s.links.lanes.getD l .reset
def State.modLane (s : State) (l : Lane) (f : LaneS → LaneS) : State :=
  s.modLinks fun k => { k with lanes := k.lanes.set l (f (k.lanes.getD l .reset)) }
def State.port (s : State) (p : Port) : PortS := s.links.ports.getD p .reset
def State.modPort (s : State) (p : Port) (f : PortS → PortS) : State :=
  s.modLinks fun k => { k with ports := k.ports.set p (f (k.ports.getD p .reset)) }

/-- The number of lanes of a port. -/
def portLanes (p : Port) : Nat := if p.val = 48 then 8 else 4

/-- The die lane of lane `l` of a port (R428). -/
def laneOf (p : Port) (l : Nat) : Lane :=
  if p.val = 48 then ⟨portLinkDie p l, ⟨48 + l % 2, by omega⟩⟩
  else ⟨portLinkDie p 0, ⟨4 * (p.val % 12) + l % 4, by omega⟩⟩

/-- The port and the lane within it of a die lane (R428). -/
def portOfLane (l : Lane) : Port × Nat :=
  if 48 ≤ l.n.val then (48, 2 * l.ld.val + (l.n.val - 48))
  else (⟨(12 * l.ld.val + l.n.val / 4) % 49, by omega⟩, l.n.val % 4)

/-- Lane states (R447). -/
def lnDown : Nat := 0
def lnTrain : Nat := 1
def lnAlign : Nat := 2
def lnUp : Nat := 3
def lnFailed : Nat := 4

def State.laneState (s : State) (l : Lane) : Nat := s.rdFld (lreg .ldLaneStat l) 2 0
def State.spared (s : State) (l : Lane) : Bool := s.rdBit (lreg .ldLaneStat l) 7

/-- Whether a lane is spared out by LD_SPARE (R452). -/
def State.ldSpared (s : State) (l : Lane) : Bool :=
  if l.n.val < 32 then s.rdBit ⟨.ldSpareLo, l.ld.val, 0, 0⟩ l.n.val else s.rdBit ⟨.ldSpareHi, l.ld.val, 0, 0⟩ (l.n.val - 32)

/-- Whether a port of a link die runs on its degraded table, and for which lane (R450, R462). -/
def State.degraded (s : State) (p : Port) : Option Nat :=
  let r := portReg .ldPortStat p 0
  if s.rdBit r 17 then some (s.rdFld r 15 13) else none

/-- The slot table of a forme that a port runs on: the degraded one for its lost lane, or the whole one (R450). -/
def State.slotTable (s : State) (f : Forme) (p : Port) : List LinkSlot :=
  (match s.degraded p with
    | some l => (f.degraded.filter fun (e : Nat × LinkSlot) => e.1 = l).map fun (e : Nat × LinkSlot) => e.2
    | none => f.linkSlots).filter fun (x : LinkSlot) => x.port = p

/-- Lanes of a port that the slot tables of its claimants use (R448). -/
def State.usedLanes (s : State) (p : Port) : List Nat :=
  (allParts.flatMap fun q => match (s.part q).forme with
    | some f => ((s.slotTable f p).filter (·.entry.used)).map (·.lane.val)
    | none => []).eraseDups

/-- The lanes of a port whose registers stand for it: one on each link die that has lanes of it (R462). -/
def portHeads (p : Port) : List Nat := if p.val = 48 then [0, 2, 4, 6] else [0]

/-- Whether the last 16 records of a port gave delays within 0.1 ns of each other and within R440 (R448). -/
def PortS.steady (x : PortS) : Bool :=
  decide (16 ≤ x.delays.length) && x.delays.all fun a => decide (a ≤ 1536 * 64) && x.delays.all fun b => decide (a ≤ b + 8)

/-- Whether this package reports LOCKED or FREE in its records (R64, R69). -/
def State.timed (s : State) : Bool := s.htState == htFree || s.htState == htLocked || s.htState == htHoldover

/-- LANES_UP of a port's registers follows its lanes (R462); the twin port has one register on each link die. -/
def State.syncPort (s : State) (p : Port) : State :=
  let lanes := List.range (portLanes p)
  (portHeads p).foldl (fun s l =>
    let r := portReg .ldPortStat p l
    let up := (lanes.filter fun k => portLinkDie p k == portLinkDie p l && s.laneState (laneOf p k) == lnUp).length
    s.wrFld r 11 8 up) s

/-- Whether a port is ready (R448): READY of LD_PORT_STAT. -/
def State.ready (s : State) (p : Port) : Bool :=
  (s.usedLanes p).all (fun l => s.laneState (laneOf p l) == lnUp)
    && (s.port p).steady && (s.port p).peerTimed && s.timed

/-- STATE of TW_STATUS before a twin has been heard: TRAINING while a lane of the twin port trains or is up, else ABSENT
(R464). -/
def State.syncTwin (s : State) : State :=
  if s.links.twin.attached || s.rdFld (xreg .twStatus) 2 0 == 3 then s else
  let on := (List.range 8).any fun k => let n := s.laneState (laneOf 48 k); n == lnTrain || n == lnAlign || n == lnUp
  s.wrFld (xreg .twStatus) 2 0 (if on then 1 else 0)

def State.setLane (s : State) (l : Lane) (st : Nat) : State :=
  let p := (portOfLane l).1
  let s := if st = lnTrain then s.modLane l fun x => { x with trainAt := s.elapsed } else s
  let s := (s.wrFld (lreg .ldLaneStat l) 2 0 st).syncPort p
  if p.val = 48 then s.syncTwin else s

/-- The next step boundary of the partition that claims a port lying at least `lead` ticks ahead; the next furrow
boundary where no partition with a running forme claims it (R450). -/
def State.switchTick (s : State) (p : Port) (lead : Nat) : Nat :=
  match s.claimant p with
  | some q =>
    let ps := s.part q
    match ps.running, ps.forme with
    | true, some f =>
      let len := max (f.length * 16384) 1
      ps.stepStart + (s.now + lead - ps.stepStart + len - 1) / len * len
    | _, _ => (s.now / 16384 + 1) * 16384
  | none => (s.now / 16384 + 1) * 16384

/-- A lane of a port is lost: its slots are blanks until the next FORME_LOAD, or a degraded table does without it (R450). -/
def State.loseLane (s : State) (p : Port) (k t : Nat) : State :=
  s.modPort p fun x => { x with switches := x.switches ++ [(k, t)], lost := k :: x.lost.filter (· ≠ k) }

/-- What both ends do when a lane in use leaves UP (R450): LANE_DOWN_SEEN, LANE_DOWN with the switch tick, the
switch. -/
def State.laneLost (s : State) (l : Lane) : State :=
  let (p, k) := portOfLane l
  let t := s.switchTick p 65536
  let s := s.raiseBit (portReg .ldPortStat p k) 6
  let s := s.sendMsg [p] ((s.claimant p).getD 0) 0 (.laneDown p k t)
  s.loseLane p k t

/-- A lane goes DOWN, and at once to TRAIN unless LD_SPARE holds it out (R447); a lane that was UP is dealt with by
R450. A FAILED lane waits for its retry. -/
def State.laneDown (s : State) (l : Lane) : State :=
  if s.laneState l = lnFailed then s else
  let up := s.laneState l == lnUp
  let s := s.modLane l fun x => { x with badCw := 0, badHdr := 0, goodHdr := 0 }
  let s := s.setLane l (if s.ldSpared l && s.spared l then lnDown else lnTrain)
  if up then (s.raiseBit (lreg .ldLaneStat l) 13).laneLost l else s

/-- LANE_FAILURE: a lane leaves UP. -/
def State.laneFailure (s : State) (l : Lane) : State := if s.laneState l = lnUp then s.laneDown l else s

def State.lossOfSignal (s : State) (l : Lane) : State := s.laneDown l

def State.failLane (s : State) (l : Lane) : State :=
  (s.modLane l fun x => { x with failedAt := s.elapsed, fails := 0, goodHdr := 0 }).setLane l lnFailed

/-- The ticks of the 40 ms that a lane has in TRAIN (R447). -/
def trainTicks : Nat := 50000000

/-- Equalisation converges within 40 ms (R447), with the path delay the training measures: the lane enters ALIGN, and leaves
it for FAILED where the delay is over R440's. -/
def State.laneTrained (s : State) (l : Lane) (delay : Nat) : State :=
  if s.laneState l ≠ lnTrain ∨ (s.laneS l).trainAt + trainTicks < s.elapsed then s
  else
    let s := (s.modLane l fun x => { x with fails := 0, goodHdr := 0, echo := none }).setLane l lnAlign
    if 1536 < delay then (s.raiseBit (lreg .ldLaneStat l) 12).failLane l else s

/-- Equalisation has not converged in 40 ms (R447). -/
def State.trainTimeout (s : State) (l : Lane) : State :=
  if s.laneState l ≠ lnTrain ∨ s.elapsed < (s.laneS l).trainAt + trainTicks then s
  else if 2 ≤ (s.laneS l).fails then s.failLane l
  else (s.modLane l fun x => { x with fails := x.fails + 1 }).laneDown l

def State.failedRetry (s : State) (l : Lane) : State :=
  if s.laneState l = lnFailed ∧ (s.laneS l).failedAt + 2 ^ 27 ≤ s.elapsed then s.setLane l lnTrain else s

/-- A codeword (R434); 64 uncorrectable in a row take the lane down (R447). -/
def State.codeword (s : State) (l : Lane) (c : Codeword) : State :=
  match c with
  | .clean => s.modLane l fun x => { x with badCw := 0 }
  | .corrected => (s.count (lreg .ldLaneCw l) 1).modLane l fun x => { x with badCw := 0 }
  | .uncorrectable =>
    let s := (s.count (lreg .ldLaneUcw l) 1).raiseBit (lreg .ldLaneStat l) 8
    let s := s.modLane l fun x => { x with badCw := x.badCw + 1 }
    if 64 ≤ (s.laneS l).badCw then s.laneDown l else s

/-- A received header (R447, R429): 16 in a row that pass with a matching lane number bring a lane from ALIGN to UP; 16
HCRC failures in a row take it down; another lane's number fails alignment. -/
def State.header (s : State) (p : Port) (k : Nat) (hcrc : Bool) (lane : Nat) : State :=
  let l := laneOf p k
  if !hcrc then
    let s := s.modLane l fun x => { x with badHdr := x.badHdr + 1, goodHdr := 0 }
    if 16 ≤ (s.laneS l).badHdr then s.laneDown l else s
  else
    let s := s.modLane l fun x => { x with badHdr := 0 }
    if s.laneState l ≠ lnAlign then s
    else if lane ≠ k then (s.raiseBit (lreg .ldLaneStat l) 15).failLane l
    else
      let s := s.modLane l fun x => { x with goodHdr := x.goodHdr + 1 }
      if 16 ≤ (s.laneS l).goodHdr then s.setLane l lnUp else s

/-! ### Slot tables (R438) -/

/-- The slot value of a tick: furrow number × 128 + slot index (R265). -/
def slotValue (t : Nat) : Nat := t / 128 % 2 ^ 39

/-- The step of a partition that a slot starting at tick `t` belongs to: its ordinal and the tick of its boundary; the
step that runs, or the one before it, whose last slots arrive after the boundary (R79). -/
def PartS.stepAt (ps : PartS) (f : Forme) (t : Nat) : Option (Nat × Nat) :=
  if !ps.running then none
  else if ps.stepStart ≤ t then some (ps.ord, ps.stepStart)
  else if ps.ord ≠ 0 ∧ ps.stepStart ≤ t + f.length * 16384 then some (ps.ord - 1, ps.stepStart - f.length * 16384)
  else none

/-- The ordinal of the step of a partition that a slot belongs to. -/
def State.slotOrd (s : State) (q : Part) (t : Nat) : Nat :=
  let ps := s.part q
  (((ps.forme.bind fun f => ps.stepAt f t)).map (·.1)).getD ps.ord

/-- The slot-table entry that a partition's running forme has for the slot that starts at tick `t` (R438); one that neither
sends nor receives is every partition's. -/
def State.entryOf (s : State) (p : Port) (k : Fin 8) (t : Nat) (q : Part) : Option (Part × Forme × LinkEntry) :=
  let ps := s.part q
  match ps.forme with
  | none => none
  | some f =>
    match ps.stepAt f t with
    | none => none
    | some (_, start) =>
      let furrow := (t - start) / 16384
      let pat := ((f.patterns.find? (·.1 = p)).bind fun e => e.2[furrow]?)
      match pat, (s.slotTable f p).find? (fun (e : LinkSlot) => e.lane = k ∧ some e.pattern = pat ∧ e.slot.val = t / 128 % 128) with
      | some _, some e => if e.entry.part = q ∨ e.entry.used = false then some (q, f, e.entry) else none
      | _, _ => none

/-- The slot-table entry of a running forme for the slot that starts at tick `t` (R438), tramlines left out: one that sends
or receives before one that does neither. -/
def State.slotEntry (s : State) (p : Port) (k : Fin 8) (t : Nat) : Option (Part × Forme × LinkEntry) :=
  if s.inTramline (t % 16384) then none else
  match allParts.findSome? (fun q => (s.entryOf p k t q).filter fun e => e.2.2.used) with
  | some e => some e
  | none => allParts.findSome? (s.entryOf p k t)

def State.sendBuf (s : State) (b : BufId) : LinkBuf := s.links.send.getD b .reset
def State.recvBuf (s : State) (b : BufId) : LinkBuf := s.links.recv.getD b .reset
def State.setSend (s : State) (b : BufId) (x : LinkBuf) : State :=
  s.modLinks fun k => { k with send := k.send.set b x }
def State.setRecv (s : State) (b : BufId) (x : LinkBuf) : State :=
  s.modLinks fun k => { k with recv := k.recv.set b x }

/-- A link die with a clock out of lock does no scheduled work (R601). -/
def State.linkOut (s : State) (k : LinkDie) : Bool := s.clockOut (.linkLogic k) || s.clockOut (.linkSerdes k)

/-- A link die that is fallow or in block reset sends and takes nothing (R498, R617). -/
def State.linkDead (s : State) (k : LinkDie) : Bool :=
  s.fen.lds.contains k || (match s.fw.block with
    | some b => b.level == 2 && b.target == k.val
    | none => false)

/-- A lane sends an idle slot: its payload goes on with the lane's PRBS31 (R436). -/
def State.sendIdle (s : State) (l : Lane) (base : SentSlot) : State :=
  s.modLane l fun x =>
    let y := prbsBytes 2560 x.prbs
    { x with sent := some { base with payload := y.1 }, prbs := y.2 }

/-- Whether a port sends no scheduled slot: silent or carrying framing only (R72, R503), or the twin port of a package that
has detached itself (R458). -/
def State.portSilent (s : State) (p : Port) : Bool :=
  s.links.silenced || s.links.framingOnly || (p.val == 48 && s.links.twin.detached)

/-- The slot that starts now is sent (R265, R435, R436): the buffer's tag is sampled as it stood 32 ticks ago, and is
cleared by the sample. -/
def State.slotSend (s : State) (p : Port) (k : Fin 8) : State :=
  let t := s.now / 128 * 128
  let l := laneOf p k.val
  let base : SentSlot := ⟨t, 0, k.val, slotValue t % 65536, s.rdFld (xreg .htNodeId) 14 0, p.val, 0, 0, []⟩
  if s.inTramline (t % 16384) || s.linkDead l.ld then s else
  if s.portSilent p || s.spared l || s.linkOut l.ld then s.sendIdle l base else
  match s.slotEntry p k t with
  | none => s.sendIdle l base
  | some (q, f, e) =>
    if !e.send then s.sendIdle l base else
    let b : BufId := ⟨p, k, e.tbuf⟩
    let x := s.sendBuf b
    let s := s.setSend b (x.afterSample t)
    let filled := { base with part := q.val, job := f.job }
    if x.sampled t = some (slotValue t) then
      s.modLane l fun y => { y with sent := some { filled with kind := 1, payload := padTo 2560 x.data } }
    else if e.cond then s.sendIdle l base
    else s.modLane l fun y => { y with sent := some { filled with kind := 2, payload := List.replicate 2560 0 } }

/-! ### Receiving scheduled slots (R79, R437, R439) -/

/-- The expected peer of a port (R430). -/
def Forme.peer (f : Forme) (p : Port) : Option PortClaim := f.claims.find? (·.port = p)

/-- Whether a header names another peer than a loaded forme expects at the port (R430). -/
def State.peerBad (s : State) (p : Port) (h : SlotHead) : Bool :=
  allParts.any fun q => match ((s.part q).forme).bind fun f => f.peer p with
    | some c => c.peerNode != h.node || c.peerPort != h.port
    | none => false

/-- A received slot's header and CRCs (R429, R435, R447): whether FEC, HCRC and PCRC all hold, and the header's fields. A
header counts for its lane where the FEC holds; CRC_FAIL is set where a CRC does not, as a suspect event's source where the
forme names the slot. -/
def State.soundSlot (s : State) (p : Port) (k : Fin 8) (fec : Bool) (head payload : List Byte) (named : Bool) :
    State × Bool × SlotHead :=
  let h := SlotHead.read head
  if !fec then (s, false, h) else
  let hc := hcrcOk head
  let s := s.header p k.val hc h.lane
  if hc && pcrcOk head payload then (s, true, h)
  else (s.raiseBit (lreg .ldLaneStat (laneOf p k.val)) 9 named, false, h)

/-- Whether a slot's first header symbol came in its window (R79): from its expected arrival, its start tick plus the
port's delay, to 8 ticks after that. -/
def State.timely (s : State) (p : Port) (k : Fin 8) (x : RxSlot) : Bool :=
  let e := x.tick * 64 + s.rdFld (portReg .ldPortDelay p k.val) 23 0
  decide (e ≤ x.arrive ∧ x.arrive < e + 512)

/-- What a received slot amounts to: its payload, or a blank, for the entry that names it. -/
def State.judgeSlot (s : State) (p : Port) (k : Fin 8) (x : RxSlot) :
    State × Option (Part × Forme × LinkEntry × Option (List Byte)) :=
  let l := laneOf p k.val
  let entry := s.slotEntry p k x.tick
  let taken : Bool := match entry with
    | some (_, _, e) => e.rkind != .none
    | none => false
  let (s, sound, h) := s.soundSlot p k x.fec x.head x.payload taken
  let peerBad : Bool := sound && s.peerBad p h
  let s := if peerBad then s.raiseBit (lreg .ldLaneStat l) 14 taken else s
  match entry with
  | none => (s, none)
  | some (q, f, e) =>
    let good : Bool := sound && !peerBad && (f.peer p).isSome && s.laneState l == lnUp && s.ready p && !s.spared l
      && !(s.port p).lost.contains k.val && !s.linkDead l.ld && !s.links.silenced && !s.links.framingOnly && !s.linkOut l.ld && s.timely p k x
      && h.seq == slotValue x.tick % 65536 && h.kind == 1 && h.job == f.job && h.part == e.part.val
    (s, some (q, f, e, if good then some x.payload else none))

/-- A blank in the scheduled slot that starts at tick `t`: counted, and a suspect event of its step (R79, R437). -/
def State.blankSlot (s : State) (p : Port) (k : Fin 8) (q : Part) (t : Nat) : State :=
  (s.count (lreg .ldLaneBlank (laneOf p k.val)) 1).suspectOrd q (s.slotOrd q t) (s.firstDie q)

/-- The result of a twin's replay lands in the receive buffer, in the slot, that RAREA names (R486): the buffer record holds
PORT in bits 5:0, LANE in bits 8:6, BUF in bits 11:9 and SLOT in bits 18:12 (09_irregular_work.md R381). -/
def State.twinResult (s : State) (q : Part) (b : BufId) (slot : Nat) : State :=
  match (s.part q).forme with
  | none => s
  | some f => f.replay.foldl (fun s e =>
      if e.twin && e.area % 64 == b.port.val && e.area / 64 % 8 == b.lane.val && e.area / 512 % 8 == b.buf.val
          && e.area / 4096 % 128 == slot then
        s.withdraw e.unit e.bundle e.verso
      else s) s

/-- Whether a received slot is a data slot: sound, of KIND 1 (R435, R437). -/
def RxSlot.isData (x : RxSlot) : Bool :=
  x.fec && hcrcOk x.head && pcrcOk x.head x.payload && (SlotHead.read x.head).kind == 1

/-- A slot with RKIND LAND, or none (R437, R439); the other kinds are rows of their own. -/
def State.slotReceive (s : State) (p : Port) (k : Fin 8) (x : RxSlot) : State :=
  match s.judgeSlot p k x with
  | (s', none) => s'
  | (s', some (q, _, e, pay)) =>
    match e.rkind with
    | .none => if x.isData then s'.raiseBit (lreg .ldLaneStat (laneOf p k.val)) 10 else s'
    | .land =>
      match pay with
      | some b => (s'.setRecv ⟨p, k, e.rbuf⟩ ⟨b, some (slotValue x.tick, s'.now), []⟩).twinResult q ⟨p, k, e.rbuf⟩ (x.tick / 128 % 128)
      | none => (s'.blankSlot p k q x.tick).setRecv ⟨p, k, e.rbuf⟩ ⟨List.replicate 2560 0, none, []⟩
    | .accum | .capacity => s

/-! ### Fabric slots (R16) -/

/-- The compute die at an end of the fabric; a link die has none. -/
def FabricEnd.die? : FabricEnd → Option Die
  | .die d => some d
  | .stack n => some n
  | .link _ => none

def FabricEnd.isLink (e : FabricEnd) : Bool := match e with
  | .link _ => true
  | _ => false

/-- What a fabric slot delivers at its destination die. -/
def State.fabricOut (s : State) (x : FabricSlot) (r : Delivery) : State :=
  match x.dst.die? with
  | some d => s.modDie d fun y => { y with delivered := some r }
  | none => s

/-- The running partition whose forme has a fabric slot. -/
def State.fabricOwner (s : State) (x : FabricSlot) : Option Part :=
  allParts.find? fun p => (s.part p).running && (match (s.part p).forme with
    | some f => f.fabric.contains x
    | none => false)

/-- A fabric slot opens at its tick (R16): a unit's move that filled it goes on its way, the line that another source put
into it is delivered, or else it is a blank with its suspect event. A slot whose source is a receive buffer is never without its
source: a read that lag keeps from it is harmless (R84). -/
def State.fabricSlot (s : State) (x : FabricSlot) (line : Option (List Byte)) : State :=
  if s.tickIn ≠ x.tick then s else
  match s.fabricOwner x with
  | none => s
  | some p =>
    if (s.part p).filled.contains (x, s.now) then
      s.modPart p fun ps => { ps with filled := ps.filled.filter fun e => decide (s.now < e.2) } else
    match line with
    | some b => s.fabricOut x (.data b)
    | none => if x.src.isLink then s else (s.fabricOut x .blank).suspect p ((x.dst.die?).getD ((x.src.die?).getD (s.firstDie p)))

/-- The ends of the path from a die to a far target; a die reaches its own cache without the fabric (R15, R29, R230). -/
def Far.ends (f : Far) (d : Die) : Option (FabricEnd × FabricEnd) :=
  match f.space with
  | .cache | .red => if f.die = d then none else some (.die d, .die f.die)
  | .hbm => some (.die d, .stack f.die)
  | .send | .recv =>
    some (.die d, .link (if h : f.port.val < 49 then portLinkDie ⟨f.port.val, h⟩ f.lane.val else 0))

/-- A transfer of a partition from one end of the fabric to another fills a slot of the forme between the two that is about to open
and is not filled, as R16 asks; whether there is one (log 30). What comes from a receive buffer is there whenever it is read: a read
later than planned takes the slot that has passed (R84). -/
def State.fabricWay (s : State) (p : Part) (a b : FabricEnd) : State × Bool :=
  let open_ := fun (x : FabricSlot) => s.now - s.tickIn + x.tick
  let slots := match (s.part p).forme with
    | some m => m.fabric
    | none => []
  let between := slots.filter fun x => x.src = a ∧ x.dst = b
  match between.find? fun x => decide (s.tickIn ≤ x.tick ∧ x.tick ≤ s.tickIn + x.lead) && !(s.part p).filled.contains (x, open_ x) with
  | some x => (s.modPart p fun ps => { ps with filled := (x, open_ x) :: ps.filled }, true)
  | none => (s, a.isLink && !between.isEmpty)

/-- A transfer between a die and a far target. -/
def State.fabricTake (s : State) (d : Die) (f : Far) (inbound : Bool) : State × Bool :=
  match f.ends d, s.partOf d with
  | none, _ => (s, true)
  | some _, none => (s, false)
  | some (a, b), some p => if inbound then s.fabricWay p b a else s.fabricWay p a b

/-- A transfer between two dies, or a die and its stack, of the partition that holds the first (R16). -/
def State.dieWay (s : State) (d : Die) (a b : FabricEnd) : State × Bool :=
  if a = b then (s, true) else
  match s.partOf d with
  | some p => s.fabricWay p a b
  | none => (s, false)

/-! ### Lane sparing (R450 to R452) -/

/-- A switch whose tick has come: the degraded table where the forme has one and this is the port's first lost lane
(R450). -/
def State.switchLane (s : State) (p : Port) (k : Nat) : State :=
  let r := portReg .ldPortStat p 0
  if s.rdBit r 16 && !s.rdBit r 17 then
    let s := (portHeads p).foldl (fun s i => (s.wrBit (portReg .ldPortStat p i) 17 true).wrFld (portReg .ldPortStat p i) 15 13 k) s
    let s := s.wrBit (lreg .ldLaneStat (laneOf p k)) 7 true
    (if p.val = 48 then s.wrBit (xreg .twStatus) 3 true else s).syncPort p
  else s

/-- The switches due at a boundary: of the ports a partition claims, or of unclaimed ports (R450). -/
def State.laneSwitches (s : State) (who : Option Part) : State :=
  (List.finRange 49).foldl (fun s p =>
    if s.claimant p ≠ who then s else
    let due := (s.port p).switches.filter (·.2 ≤ s.now)
    if due.isEmpty then s else
    let s := s.modPort p fun x => { x with switches := x.switches.filter fun e => !decide (e.2 ≤ s.now) }
    due.foldl (fun s e => s.switchLane p e.1) s) s

/-- A lane is spared out by LD_SPARE (R452); one that was UP has left it (R461). -/
def State.spareOut (s : State) (l : Lane) : State :=
  let s := if s.laneState l = lnUp then s.raiseBit (lreg .ldLaneStat l) 13 else s
  let s := s.wrBit (lreg .ldLaneStat l) 7 true
  let s := s.modLinks fun k => { k with spareDue := k.spareDue.filter (· ≠ l) }
  let s := s.setLane l lnDown
  s.laneLost l

/-- A word of LD_SPARE takes effect (R452): a new bit takes its lane out at the next step boundary of the partition that
claims the port, or at once; a lane whose bit goes trains again (R447). -/
def State.ldSpareSet (s : State) (k : LinkDie) (high : Bool) (v : Word) : State :=
  let r : Reg := ⟨if high then .ldSpareHi else .ldSpareLo, k.val, 0, 0⟩
  let old := s.rd r
  let s := s.storeReg r v
  let new := s.rd r
  (List.finRange 50).foldl (fun s n =>
    let i := if high then n.val - 32 else n.val
    if (high != decide (32 ≤ n.val)) || bit new i == bit old i then s else
    let l : Lane := ⟨k, n⟩
    if bit old i then
      let s := s.modLinks fun x => { x with spareDue := x.spareDue.filter (· ≠ l) }
      if s.laneState l = lnDown then s.setLane l lnTrain else s
    else
    match s.claimant (portOfLane l).1 with
    | some _ => s.modLinks fun x => { x with spareDue := x.spareDue ++ [l] }
    | none => s.spareOut l) s

/-- A write to a word of the pair LD_SPARE (R590): _HI is held, _LO writes both. -/
def State.ldSpareWrite (s : State) (k : LinkDie) (high : Bool) (v : Word) : State :=
  if high then s.modLinks fun x => { x with spareHeld := x.spareHeld.set k v }
  else (s.ldSpareSet k false v).ldSpareSet k true (s.links.spareHeld.get k)

/-- The lanes LD_SPARE takes out: of the ports a partition claims, at its step boundary; of ports that no partition claims
any more, at once (R452). -/
def State.sparesDue (s : State) (who : Option Part) : State :=
  (s.links.spareDue.filter fun l => s.claimant (portOfLane l).1 = who).foldl (fun s l => s.spareOut l) s

/-! ### The twin (R453 to R458) -/

/-- TW_CFG.MODE: 1 is mirror (R463). -/
def State.twinModeBit (s : State) : Bool := s.rdBit (xreg .twCfg) 0

/-- Whether the package runs in mirror mode (R453): TW_CFG.MODE with a twin attached; with none it runs in split mode
(00_scope.md R7). -/
def State.mirrorMode (s : State) : Bool := s.twinModeBit && s.links.twin.attached

def State.modTwin (s : State) (f : TwinS → TwinS) : State := s.modLinks fun k => { k with twin := f k.twin }

/-- The twin is lost (R454, R457); from here on none is attached. With no twin attached the missing heartbeats are reported
all the same (00_scope.md R7). -/
def State.twinLost (s : State) (b : Nat) : State :=
  let mirror := s.mirrorMode
  let s := if s.links.twin.attached then s.wrFld (xreg .twStatus) 2 0 3 else s
  let s := (s.modTwin fun t => { t with attached := false }).raiseBit (xreg .twStatus) b
  if mirror then
    let s := s.wrBit (xreg .twStatus) 4 true
    let s := s.sendMsg (s.claimedPorts.filter (·.val ≠ 48)) 0 0 (.replace true (s.rdFld (xreg .twPeer) 14 0))
    s.raiseBit (xreg .twStatus) 5
  else s

/-- One expected heartbeat is missing; the fourth in a row loses the twin (R454). None is expected of a twin that is lost. -/
def State.heartbeatMissing (s : State) : State :=
  if s.rdFld (xreg .twStatus) 2 0 = 3 then s else
  let s := s.modTwin fun t => { t with missing := t.missing + 1 }
  if s.links.twin.missing = 4 then s.twinLost 6 else s

/-- This package's heartbeat (R444, R454). -/
def State.heartbeat (s : State) : Msg :=
  ⟨.heartbeat (s.rdBit (xreg .twCfg) 0) (s.rdFld (xreg .twStatus) 2 0) (s.rd (xreg .rstBoots)) (allParts.map s.step), 0,
    s.rdFld (xreg .htNodeId) 14 0, s.now⟩

/-! ### Tramlines (R443 to R446) -/

/-- Whether a lane carries tramlines: from ALIGN onwards, and not spared out (R448, R450). -/
def State.carriesTram (s : State) (l : Lane) : Bool :=
  !s.spared l && (s.laneState l == lnUp || s.laneState l == lnAlign)

/-- The lane that carries a port's time record: lane 0, or the lowest working lane where lane 0 is spared out (R63). -/
def State.tramLane (s : State) (p : Port) : Nat :=
  if !s.spared (laneOf p 0) then 0 else
  ((List.range (portLanes p)).find? fun k => s.carriesTram (laneOf p k)).getD 0

def Msg.isSlip (m : Msg) : Bool := match m.body with
  | .slip .. => true
  | _ => false

/-! ### Bulk streams (R18, R446, R569) -/

/-- A plain HBM address of a host transfer or a bulk stream; one past 36 bits breaks R283. -/
def plainOff (a : Nat) : Nat := if a < 2 ^ 36 then a else 2 ^ 36

def State.modStream (s : State) (id : Half) (f : BulkStream → BulkStream) : State :=
  { s with host := { s.host with streams := s.host.streams.map fun u => if u.id = id then f u else u } }

/-- The next piece of a send stream is read from its stack: at most 1,520 B, of one die (R569). A refused access gives zeros. -/
def State.bulkRead (s : State) (t : BulkStream) : State :=
  let o := t.got
  let n := min 1520 (min (t.length - o) (max t.share 1 - o % max t.share 1))
  let (d, a) := t.place o
  let (s, b) := s.engineRead d true (plainOff a) n .host .linkDie
  s.modStream t.id fun u => { u with ahead := u.ahead ++ [(o, b)] }

/-- Whether the next piece of a send stream may be read now. -/
def State.bulkMay (s : State) (t : BulkStream) : Bool := t.send && decide (t.got < t.length) && s.hostOpen (t.place t.got).1

/-- A send stream's pieces for a tramline: one to each of its ports in turn, then to their next lanes (R569), in the lanes that an
earlier stream has left. -/
def State.dealStream (s : State) (id : Half) (deal : List (Port × Nat × BulkPiece)) : State × List (Port × Nat × BulkPiece) :=
  let ports := match s.host.streams.find? (·.id = id) with
    | some t => t.ports
    | none => []
  let slots := (List.range 4).flatMap fun k => (ports.filter fun p =>
    decide (k < portLanes p) && s.carriesTram (laneOf p k) && !deal.any fun e => decide (e.1 = p ∧ e.2.1 = k)).map fun p => (p, k)
  slots.foldl (fun (acc : State × List (Port × Nat × BulkPiece)) x =>
    let s := match acc.1.host.streams.find? (·.id = id) with
      | some t => if t.ahead.isEmpty && acc.1.bulkMay t then acc.1.bulkRead t else acc.1
      | none => acc.1
    match s.host.streams.find? (·.id = id) with
    | some t => match t.ahead with
      | (o, b) :: rest =>
        (s.modStream id fun u => { u with
          ahead := rest, moved := u.moved + b.length, highest := u.first + o + b.length, turn := u.turn + 1 },
          acc.2 ++ [(x.1, x.2, ⟨id, t.first + o, b⟩)])
      | [] => (s, acc.2)
    | none => (s, acc.2)) (s, deal)

/-- The bulk pieces of a port's lanes in the tramline that starts at tick `t` (R446); the pieces of all ports are dealt when the first
of them sends. -/
def State.bulkFor (s : State) (p : Port) (t : Nat) : State × List (Nat × BulkPiece) :=
  let s := if s.links.dealt = some t then s else
    let (s, deal) := (s.host.streams.filter (·.send)).foldl (fun (acc : State × List (Port × Nat × BulkPiece)) u =>
      acc.1.dealStream u.id acc.2) (s, [])
    s.modLinks fun k => { k with dealt := some t, deal := deal }
  (s, (s.links.deal.filter (·.1 = p)).map (·.2))

/-- Bulk data of a receive stream enters its stack, at an address (R569). -/
def State.bulkLand (s : State) (t : BulkStream) (a : Nat) (b : List Byte) : State :=
  (s.engineWrite t.die true (plainOff a) .host .linkDie b).modStream t.id fun u => { u with
    moved := u.moved + b.length, highest := max u.highest (u.first + (a - u.addr) + b.length) }

/-- What the bulk streams of armed dies do in the host slots of a tick (R18, R569): what has come in enters the stack, and a send
stream reads ahead, as far as one tramline of its ports carries (DESIGN CHOICE, log 30). -/
def State.streamTick (s : State) : State :=
  s.host.streams.foldl (fun s t =>
    if !t.inward.isEmpty && s.hostOpen t.die then
      t.inward.foldl (fun s e => s.bulkLand t e.1 e.2) (s.modStream t.id fun u => { u with inward := [] })
    else if (s.hostSlots (t.place t.got).1).isSome && s.bulkMay t && decide (t.ahead.length < (t.ports.map portLanes).sum) then
      s.bulkRead t
    else s) s

/-- The time-exchange record that a lane of a port carries in the tramline slot starting at tick `t` (R64, R65): SEND_T at
its first header symbol (R433). A package that holds no time sends neither LOCKED nor FREE (R72); FREE is its own in FREE,
else its upstream's (R67). DEDUCED (log 30): it copies FREE only while it is LOCKED or in HOLDOVER, and its own LOCKED is
0 in FREE. -/
def State.timeRecord (s : State) (p : Port) (k t : Nat) : TimeRecord :=
  let l := laneOf p k
  let st := s.htState
  let echo := (s.laneS l).echo
  { sendT := (t + 4) * 64 + Config.slotPlacement (50 * l.ld.val + l.n.val) t % 108
    hop := s.rdFld (xreg .htStatus) 10 7
    locked := st == htLocked || st == htHoldover
    free := st == htFree || (s.timed && s.ht.upstreamFree)
    edge := s.edgeNode
    echoValid := echo.isSome
    node := s.rdFld (xreg .htNodeId) 14 0
    echoSendT := (echo.map (·.1)).getD 0
    echoRecvT := (echo.map (·.2)).getD 0 }

/-- Whether a port sends a tramline though its package carries framing only: the twin port while a DETACH of a latch waits
(R458, R503). -/
def State.lastTram (s : State) (p : Port) : Bool :=
  p.val == 48 && s.links.queue.any fun w => decide (w.port = p) && w.msg.body == .detach false

/-- The PRBS31 bytes that fill each lane's bulk field (R446), which the lane's sequence goes on with. -/
def State.bulkFill (s : State) (p : Port) (bulk : List (Nat × BulkPiece)) : State × List (List Byte) :=
  (List.range (portLanes p)).foldl (fun (acc : State × List (List Byte)) k =>
    let n := ((bulk.find? (·.1 = k)).map (·.2.data.length)).getD 0
    let y := prbsBytes (1520 - n) (acc.1.laneS (laneOf p k)).prbs
    (acc.1.modLane (laneOf p k) fun x => { x with prbs := y.2 }, acc.2 ++ [y.1])) (s, [])

/-- The tramline slot that starts now is sent on a port (R443, R445): heartbeat first on the twin port, then SLIPs,
then the rest, oldest first, five in all; a message that has been sent eight times without its acknowledgement is
dropped with MGMT_LOST. -/
def State.tramlineSend (s : State) (p : Port) : State :=
  if (s.links.framingOnly && !s.lastTram p) || (p.val == 48 && s.links.twin.detached) || !s.inTramline s.tickIn
      || (List.range (portLanes p)).all (fun k => s.linkDead (portLinkDie p k)) then s else
  let t := s.now / 128 * 128
  let s := allParts.foldl (fun s q => s.treeAdvance q) s
  let mine := s.links.queue.filter (·.port = p)
  let dead := mine.filter (8 ≤ ·.sends)
  let s := if dead.isEmpty then s else
    (s.modLinks fun k => { k with queue := k.queue.filter fun w => !dead.contains w }).raiseBit
      (lreg .ldLaneStat (laneOf p (s.tramLane p))) 11
  let live := mine.filter fun w => w.sends < 8 ∧ w.notBefore ≤ t ∧ !(s.fw.pause.isSome && w.msg.body.byFirmware)
  let room := if p.val = 48 then 4 else 5
  let go := (live.filter (·.msg.isSlip) ++ live.filter (fun w => !w.msg.isSlip)).take room
  let acks := s.links.acks.getD p []
  let seq := s.links.nextSeq.getD p 0
  let msgs := (if p.val = 48 then [(seq, s.heartbeat)] else []) ++ go.map fun w => (w.seq, w.msg)
  let (s, bulk) := s.bulkFor p t
  let (s, fill) := s.bulkFill p bulk
  let out : SentTram := ⟨t, s.rdFld (xreg .htNodeId) 14 0, p.val, s.tramLane p, (List.range (portLanes p)).map fun k => s.timeRecord p k t,
    s.treeRecords p t, msgs, acks.take 31, bulk, fill⟩
  let s := s.modLinks fun k => { k with
    queue := k.queue.map fun w => if go.contains w then { w with sends := w.sends + 1 } else w
    acks := k.acks.set p (acks.drop 31)
    nextSeq := if p.val = 48 then k.nextSeq.set p (seq + 1) else k.nextSeq }
  s.modPort p fun x => { x with sent := some out }

/-- A DETACH has left in a tramline of the twin port, the last before the package stops there (R458): it is not repeated, and
a TWIN_DETACH is answered (R560). -/
def State.detachSent (s : State) (p : Port) : State :=
  let gone := fun (b : MsgBody) => match b with
    | .detach _ => true
    | _ => false
  match (s.port p).sent with
  | some o => if p.val = 48 && o.msgs.any (fun m => gone m.2.body) then
      let s := s.modLinks fun k => { k with
        queue := k.queue.filter fun w => !gone w.msg.body, twin := { k.twin with detached := true } }
      s.endJobs (fun j => j.kind == .detach) stOk
    else s
  | none => s

/-- A message's MSG_SEQ is noted among the last 64 accepted on its port (R445). -/
def State.accept (s : State) (p : Port) (seq : Half) : State :=
  s.modLinks fun k => { k with accepted := k.accepted.set p ((seq :: k.accepted.getD p []).take 64) }

/-- A management message received on a port (R445): a repeat is acknowledged and discarded. -/
def State.message (s : State) (p : Port) (seq : Half) (m : Msg) : State :=
  match m.body with
  | .heartbeat mirror _ _ _ =>
    if p.val ≠ 48 || (s.links.accepted.getD p []).contains seq then s else
    let s := (s.accept p seq).modTwin fun t => { t with missing := 0, attached := true }
    let s := s.wrFld (xreg .twStatus) 2 0 2
    if mirror = s.twinModeBit then s
    else (s.modTwin fun t => { t with conflict := true }).raiseBit (xreg .twStatus) 10
  | b =>
    let old := s.links.accepted.getD p []
    let s := s.modLinks fun k => { k with acks := k.acks.set p (k.acks.getD p [] ++ [seq]) }
    if old.contains seq then s else
    let s := s.accept p seq
    match b with
    | .laneDown _ lane t =>
      if (s.port p).switches.any (·.1 = lane) ∨ s.degraded p = some lane then s else
      let late : Bool := decide (t ≤ s.now)
      let s := if late then s.raiseBit (portReg .ldPortStat p lane) 7 else s
      let t' := if late then s.switchTick p 1 else t
      s.loseLane p lane t'
    | .digest job step d =>
      if p.val ≠ 48 || (s.links.twin.conflict && s.twinModeBit) then s else
      s.modTwin fun t => { t with
        twinDigests := (m.part, job, step, d) :: t.twinDigests.filter fun e => e.1 ≠ m.part }
    | .detach _ => if p.val = 48 then s.twinLost 7 else s
    | .slip .. => s.modLinks fun k => { k with slipLog := k.slipLog ++ [(p, m)] }
    | _ => s

/-- Bulk data received (R446, R569): delivered to the stream the host opened for it, what lies outside its length discarded, all of it
where there is none. Where a forme is armed on the die it waits for a slot that the forme reserves, and with none reserved until the
die is free (R18; DESIGN CHOICE, log 30). -/
def State.bulkIn (s : State) (b : BulkPiece) : State :=
  match s.host.streams.find? fun t => t.id = b.id ∧ !t.send with
  | none => s
  | some t =>
    let rel := b.offset - t.first
    let data := (b.data.drop (t.first - b.offset)).take (t.length - rel)
    if data.isEmpty then s
    else if t.target = 0 then
      ({ s with host := { s.host with hostMem := s.host.hostMem ++ [(t.addr + rel, data)] } }).modStream t.id fun u => { u with
        moved := u.moved + data.length, highest := max u.highest (u.first + rel + data.length) }
    else if s.hostOpen t.die then s.bulkLand t (t.addr + rel) data
    else s.modStream t.id fun u => { u with inward := u.inward ++ [(t.addr + rel, data)] }

/-- The delay of a port as its tramline lane's record gives it (R448, R449): LD_PORT_DELAY, and the delays of the last 16
records. A record without ECHO_VALID gives none, so the 16 begin again (DEDUCED, log 30). -/
def State.portDelay (s : State) (p : Port) (r : TimeRecord) (t2 : Nat) : State :=
  if !r.echoValid then s.modPort p fun y => { y with delays := [] } else
  let d := (r.offsetDelay t2).2.toNat
  let s := (portHeads p).foldl (fun s i => s.wrFld (portReg .ldPortDelay p i) 23 0 d) s
  s.modPort p fun y => { y with delays := (d :: y.delays).take 16 }

/-- The lane that a port's records are taken from (R443, R461). -/
def State.recordLane (s : State) (p : Port) (k : Nat) : State :=
  (List.range (portLanes p)).foldl (fun s i => s.wrBit (lreg .ldLaneStat (laneOf p i)) 3 (i == k)) s

/-- Bytes 64 to 1,023 of a sound tramline payload (R443): the records, acknowledgements and messages. -/
def State.tramRecords (s : State) (p : Port) (b : List Byte) : State :=
  let s := (readTree b).foldl (fun s r => s.treeReceive p r) s
  let acks := readAcks b
  let s := s.modLinks fun q => { q with
    queue := q.queue.filter fun w => !(decide (w.port = p) && acks.contains w.seq && decide (0 < w.sends)) }
  (readMsgs b).foldl (fun s m => s.message p m.1 m.2) s

/-- The peer that a sound header names (R430, R459). -/
def State.notePeer (s : State) (p : Port) (k : Fin 8) (h : SlotHead) : State :=
  let r := portReg .ldPortPeer p k.val
  let s := ((s.wrFld r 14 0 h.node).wrFld r 21 16 h.port).wrBit r 31 true
  if p.val = 48 then (s.wrFld (xreg .twPeer) 14 0 h.node).wrBit (xreg .twPeer) 31 true else s

/-- What a tramline slot that arrived sound brings (R443): the lane's echo; of the lane that R63 names the time; the records and
messages, which every lane carries alike, once, from the lowest lane that delivers the slot without a fault; its bulk data. -/
def State.tramlineTake (s : State) (p : Port) (k : Fin 8) (timeLane : Bool) (h : SlotHead) (x : RxTram) : State :=
  let l := laneOf p k.val
  let r := TimeRecord.read x.payload
  let t2 := s.now * 64 + x.frac.val
  let s := s.notePeer p k h
  let s := if timeLane then s.portDelay p r t2 else s
  let s := s.modLane l fun y => { y with echo := some (r.sendT, t2) }
  let s := s.modPort p fun y => { y with peerTimed := r.locked || r.free }
  let s := if p.val = 0 && timeLane then s.port0Record r x.frac.val else s
  let s := if (s.port p).taken = some h.seq then
      (if (List.range k.val).any fun i => s.rdBit (lreg .ldLaneStat (laneOf p i)) 3 then s else s.recordLane p k.val)
    else ((s.recordLane p k.val).modPort p fun y => { y with taken := some h.seq }).tramRecords p x.payload
  let s := match readBulk x.payload with
    | some b => s.bulkIn b
    | none => s
  s.syncPort p

/-- A tramline slot received on a lane (R443). A slot that the FEC, a CRC, its peer or its KIND makes a blank loses all of it (R82),
and so does one of a fallow link die (R501). -/
def State.tramlineReceive (s : State) (p : Port) (k : Fin 8) (x : RxTram) : State :=
  if s.links.framingOnly then s else
  let l := laneOf p k.val
  let timeLane : Bool := k.val == s.tramLane p
  let (s, sound, h) := s.soundSlot p k (x.fec && !s.linkDead l.ld) x.head x.payload false
  let peerBad : Bool := sound && s.peerBad p h
  let s := if peerBad then s.raiseBit (lreg .ldLaneStat l) 14 else s
  if !sound || peerBad || h.kind != 3 || !s.carriesTram l || s.linkDead l.ld then
    if p.val = 0 && timeLane then s.recordMissing else s
  else s.tramlineTake p k timeLane h x

end Sys2Proof.Machine
end

