-- ==== Sys2Proof/Machine/Operands.lean ====
section
/-!
DEFINITION. The tensor unit's operand forms: descriptors (06_unit_programming.md R227 to R232), the formats each slot
accepts (R257), operands as presented to the array (05_matrix_arithmetic.md R187 to R192), galley records (R261) and
far targets with their paths (R230, R244, R245, R259).
-/
namespace Sys2Proof.Machine

open Sys2Proof

/-! ### Registers and descriptors -/

/-- An address register; a0 reads 0 (R246). -/
def UnitS.areg (u : UnitS) (n : Fin 16) : Word := if n = 0 then 0 else (u.aregs[n.val]?).getD 0

/-- A vector register: 64 FP32 lanes (R241). -/
def UnitS.vreg (u : UnitS) (n : Fin 16) : List Word := (u.vregs[n.val]?).getD []

def UnitS.group (u : UnitS) (g : Fin 4) : Group := (u.groups[g.val]?).getD .reset
def UnitS.setGroup (u : UnitS) (g : Fin 4) (x : Group) : UnitS := { u with groups := u.groups.set g.val x }
def UnitS.galley (u : UnitS) (g : Fin 8) : Galley := (u.galleys[g.val]?).getD .reset
def UnitS.setGalley (u : UnitS) (g : Fin 8) (x : Galley) : UnitS := { u with galleys := u.galleys.set g.val x }

/-- Whether a descriptor is far (R228 KIND). -/
def UnitS.isFar (u : UnitS) (d : Fin 64) : Bool := (u.dtab.byte (32 * d.val + 19)).getLsbD 1

/-- A local descriptor with the offset of an address register (R228, R229). -/
def UnitS.opnd (u : UnitS) (d : Fin 64) (off : Word) : Opnd :=
  let b := 32 * d.val
  let m := u.dtab
  let f := (m.byte (b + 19)).toNat
  { fmt := Fmt.ofCode (m.byte (b + 18)).toNat
    tr := f % 2 == 1
    rows := leNat (m.bytes (b + 8) 2)
    cols := leNat (m.bytes (b + 10) 2)
    eb := (leNat (m.bytes b 4) + off.toNat) % 2 ^ 20
    sb := (leNat (m.bytes (b + 4) 4) + off.toNat >>> ((m.byte (b + 20)).toNat % 32)) % 2 ^ 20
    estride := leNat (m.bytes (b + 12) 4) % 2 ^ 20
    sstride := leNat (m.bytes (b + 16) 2)
    gal := if f / 4 % 2 = 1 then some ⟨f / 8 % 8, by omega⟩ else none }

/-- The operand of a descriptor as its lines are laid out: a format code that only its AXIS bit makes invalid has the size it
has without it, and a code that names no format has one byte an element (R136, log 31). -/
def UnitS.sized (u : UnitS) (d : Fin 64) (off : Word) : Opnd :=
  let o := u.opnd d off
  let c := (u.dtab.byte (32 * d.val + 18)).toNat
  if o.fmt.isSome then o else { o with fmt := Fmt.ofCode (c - (if c / 16 % 2 = 1 then 16 else 0)) }

/-- The element array of an M-slot or W-slot operand starts on a line (R229). -/
def Opnd.aligned (o : Opnd) : Opnd := { o with eb := o.eb / 128 * 128 }

/-- The space a code names (R230). -/
def Space.ofCode : Nat → Option Space
  | 0 => some .cache
  | 1 => some .hbm
  | 2 => some .send
  | 3 => some .recv
  | 4 => some .red
  | _ => none

/-- A far descriptor with the offset of an address register (R230); `none` where it is local or names no space. -/
def UnitS.far (u : UnitS) (d : Fin 64) (off : Word) : Option Far :=
  if !u.isFar d then none else
  let b := 32 * d.val
  let m := u.dtab
  let p := leNat (m.bytes (b + 10) 2)
  (Space.ofCode ((m.byte (b + 9)).toNat % 8)).map fun sp =>
    { space := sp
      die := ⟨(m.byte (b + 8)).toNat % 16, by omega⟩
      addr := (leNat (m.bytes b 8) % 2 ^ 40 + off.toNat) % 2 ^ 40
      port := ⟨p % 64, by omega⟩
      lane := ⟨p / 64 % 8, by omega⟩
      buf := ⟨p / 512 % 8, by omega⟩ }

/-! ### Galley records (R260, R261) -/

/-- The first line of a galley. -/
def galleyLine (g : Fin 8) : Nat := (0xC0000 + g.val * 0x8000) / 128

/-- The 64 x 64 records of an operand that comes from a galley, and the tiles it takes. -/
def Opnd.records (o : Opnd) : Nat := max 1 (o.rows / 64) * max 1 (o.cols / 64)

def Opnd.tiles (o : Opnd) : Nat :=
  match o.fmt with
  | some f => o.records * recordTiles f
  | none => o.records

/-! ### Reading what an operation caught -/

/-- The line of scratchpad byte `p` in the operand's own order, and the byte in it. -/
def Caught.lineByte (c : Caught) (stream n x : Nat) : Byte :=
  (((c.lines.getD (stream, n) [])[x]?).getD 0)

/-- The reader of a scratchpad operand's virtual bytes through the lines its operation read; a line it has not read
yet reads as the scratchpad stands. -/
def Caught.reader (c : Caught) (sp : Memory) (o : Opnd) (stream : Nat) : Reader := fun v =>
  let p := o.phys v
  let n := o.lines.findIdx (· == p / 128)
  match c.lines.get? (stream, n) with
  | some l => (l[p % 128]?).getD 0
  | none => sp.byte p

/-- The reader of record `k` of an operand popped from a galley (R261). -/
def Caught.record (c : Caught) (f : Fmt) (stream k : Nat) : Reader := fun v =>
  let t := k * recordTiles f + v / 2048
  c.lineByte stream (16 * t + v % 2048 / 128) (v % 128)

/-! ### Matrix operands (R187, R192, R237) -/

/-- The extents an operand presents: rows and columns (R187). -/
def Opnd.presented (o : Opnd) : Nat × Nat := if o.tr then (o.cols, o.rows) else (o.rows, o.cols)

/-- Whether K runs along the stored columns, for operand A or B. -/
def Opnd.kCols (o : Opnd) (sideA : Bool) : Bool := sideA != o.tr

/-- Whether an MX operand is read across its block axis (R138). -/
def Opnd.across (o : Opnd) (sideA : Bool) : Bool :=
  match o.fmt with
  | some (.mx axis _) => axis == o.kCols sideA
  | _ => false

/-- The rate class of a pair of operands; `none` where a format is refused (R133, R136, R138, R188). -/
def pairRate (a b : Opnd) : Option RateClass :=
  match a.fmt.bind Fmt.mtype, b.fmt.bind Fmt.mtype with
  | some x, some y => if a.across true || b.across false then none else classify x y
  | _, _ => none

/-- Whether an M.MMA's extents are as R237 asks. -/
def extentsOk (a b : Opnd) : Bool :=
  a.presented.1 == 64 && b.presented.2 == 64 && a.presented.2 == b.presented.1 && a.presented.2 % 64 == 0

/-- The stored position of free index `i` (row of op(A), column of op(B)) and `k`, in a 64-wide slice or in the whole
operand. -/
def Opnd.stored (o : Opnd) (sideA : Bool) (i k : Nat) : Nat × Nat :=
  if o.kCols sideA then (i, k) else (k, i)

/-- An operand as the array reads it, from what the operation caught on a stream (R187, R191, R192, R237). -/
def Opnd.side (o : Opnd) (sideA : Bool) (c : Caught) (sp : Memory) (stream : Nat) : Side :=
  let f := o.fmt.getD .bf16
  let ty := (f.mtype).getD .bf16
  let depth := f.depth (o.kCols sideA)
  match o.gal with
  | none =>
    let r := c.reader sp o stream
    { ty := ty, depth := depth
      elem := fun i k => let p := o.stored sideA i k; f.rawAt r 0 o.rows o.cols p.1 p.2
      scale := fun i k => let p := o.stored sideA i k; f.scaleAt r scaleOrigin o.rows o.cols p.1 p.2 }
  | some _ =>
    { ty := ty, depth := depth
      elem := fun i k =>
        let p := o.stored sideA i (k % 64)
        f.rawAt (c.record f stream (k / 64)) 0 64 64 p.1 p.2
      scale := fun i k =>
        let p := o.stored sideA i (k % 64)
        f.scaleAt (c.record f stream (k / 64)) (f.arrayBytes 64 64) 64 64 p.1 p.2 }

/-! ### The writer's source and destination (R149, R228, R239, R240) -/

/-- Whether the writer reads a format in scratchpad (R257). -/
def Fmt.writerReads : Fmt → Bool
  | .bf16 | .fp32 | .sph | .mx .. | .ts .. => true
  | _ => false

/-- The grid of a scratchpad or galley source of the writer, as its descriptor presents it (R148, R149). -/
def Opnd.grid (o : Opnd) (c : Caught) (sp : Memory) (stream : Nat) : Grid :=
  let f := o.fmt.getD .bf16
  let (rows, cols) := o.presented
  let at_ := fun (i j : Nat) => if o.tr then (j, i) else (i, j)
  match o.gal with
  | none =>
    let r := c.reader sp o stream
    Grid.of rows cols fun i j => let p := at_ i j; f.readAt r 0 scaleOrigin o.rows o.cols p.1 p.2
  | some _ =>
    Grid.of rows cols fun i j =>
      let p := at_ i j
      let k := p.1 / 64 * max 1 (o.cols / 64) + p.2 / 64
      f.readAt (c.record f stream k) 0 (f.arrayBytes 64 64) 64 64 (p.1 % 64) (p.2 % 64)

/-- The lines of a destination: those of its element array and scale array, or for SP32 output those of the two halves
(R153). -/
def Opnd.outLines (o : Opnd) (f : Fmt) (rows cols : Nat) : List Nat :=
  let o := { o with fmt := some f, rows := rows, cols := cols }
  match f with
  | .sph => (o.lines ++ ({ o with eb := o.sb }).lines).eraseDups
  | _ => o.lines

/-- The byte that an output puts at scratchpad byte `p`, if any. The SPL array of an SPH output is spread by the stride of its
element array, the descriptor's ESTRIDE (DESIGN CHOICE, log 32: the spec gives that array no stride). -/
def Opnd.outByte (o : Opnd) (f : Fmt) (w : WriteOut) (rows cols p : Nat) : Option Byte :=
  let o := { o with fmt := some f, rows := rows, cols := cols }
  match f with
  | .sph =>
    match unstride o.eb o.group.1 o.group.2 o.estride p with
    | some v => w.elems[v]?
    | none => (unstride o.sb o.group.1 o.group.2 o.estride p).bind fun v => w.second[v]?
  | _ => (o.virt p).bind fun v => if v < scaleOrigin then w.elems[v]? else w.scales[v - scaleOrigin]?

/-- The tiles of operand records that an output pushed to a galley makes: each record its element bytes, then its scale
bytes, padded (R240, R261). -/
def recordBytesOf (f : Fmt) (w : WriteOut) (rows cols k : Nat) : List Byte :=
  let per := max 1 (cols / 64)
  let ri := k / per
  let ci := k % per
  let elem : Nat → Nat → Nat := fun i j =>
    let (b, x) := f.locate 64 64 i j
    b * f.blockLen + x
  let whole : Nat → Nat → Nat := fun i j =>
    let (b, x) := f.locate rows cols (64 * ri + i) (64 * ci + j)
    b * f.blockLen + x
  let rd : Reader := fun v => (w.elems[v]?).getD 0
  let w' := f.elemBits
  let slots : List (Nat × Nat) := (List.range 4096).map fun n =>
    let (i, j) := if f.blockScaled then f.position 64 64 (n / f.blockLen) (n % f.blockLen) else (n / 64, n % 64)
    (elem i j, whole i j)
  let codes := slots.map fun e =>
    if w' ≤ 8 then rdElem rd 0 w' e.2 else rdLe rd (e.2 * w' / 8) (w' / 8)
  let els := packCodes w' codes
  let scs := if f.blockScaled then (List.range (f.blocks 64 64)).map fun b =>
      let (i, j) := f.position 64 64 b 0
      (w.scales[(f.locate rows cols (64 * ri + i) (64 * ci + j)).1]?).getD 0
    else []
  let all := els ++ scs
  all ++ List.replicate (2048 * recordTiles f - all.length) 0

/-! ### Far targets (R244, R245, R259) -/

/-- Edges of the core clock from tick 0 up to a tick (log 2). -/
def Gear.edges (g : Gear) (t : Nat) : Nat :=
  match g with
  | .full => t
  | .threeQuarter => 3 * (t / 4) + (match t % 4 with
    | 0 => 0
    | 1 => 1
    | n => n - 1)
  | .half => (t + 1) / 2

/-- The fixed part F of a far move (R259). -/
def farTicks (d : Die) (f : Far) : Nat :=
  match f.space with
  | .cache | .red => 40 + 24 * hops d f.die
  | .hbm => 160 + 24 * hops d f.die
  | .send | .recv =>
    let k := if h : f.port.val < 49 then portLinkDie ⟨f.port.val, h⟩ f.lane.val else 0
    40 + 24 * hopsToLink d k

/-- The check of the cluster port on a far move (R245). -/
def State.farAllowed (s : State) (d : Die) (f : Far) : Bool :=
  match s.partOf d with
  | none => false
  | some p =>
    match f.space with
    | .cache | .hbm | .red => s.partOf f.die == some p
    | .send | .recv =>
      match (s.part p).forme with
      | none => false
      | some m => m.claims.any fun c => c.port.val == f.port.val && c.lanes.contains f.lane

/-- Whether every port cycle of `n` from edge `e` is assigned to a unit or an engine (R23, R244, R377). -/
def State.portOwned (s : State) (c : ClusterId) (user : PortUser) (inbound : Bool) (e n : Nat) : Bool :=
  match s.formeOn c.d with
  | none => false
  | some f =>
    let per := (s.region c.region).gear.edges 16384
    (List.range n).all fun i =>
      let x := (e + i) % per
      f.portCycles.any fun q =>
        q.cluster = c && q.inbound == inbound && q.user = user && decide (q.first ≤ x) && decide (x < q.first + q.len)

end Sys2Proof.Machine
end

