-- ==== Sys2Proof/Machine/Flags.lean ====
section
/-!
DEFINITION. The status bits of a tensor unit: TU_STAT (06_unit_programming.md R277), TU_ACC_STAT
(05_matrix_arithmetic.md R206) and TU_CHK (12_silent_errors_and_faults.md R507), and the flags an L.SKIP tests (R252).
-/
namespace Sys2Proof.Machine

open Sys2Proof

/-! ### TU_STAT bits (R277) -/

def tuAuditHit : Nat := 0
def tuBankCollide : Nat := 1
def tuGalleyUnder : Nat := 2
def tuGalleyOver : Nat := 3
def tuPortCollide : Nat := 4
def tuFmtBad : Nat := 5
def tuIbankActiveWr : Nat := 6
def tuOpBad : Nat := 7
def tuLoopBad : Nat := 8
def tuMOverlap : Nat := 9
def tuWOverlap : Nat := 10
def tuXOverlap : Nat := 11
def tuVregCollide : Nat := 12
def tuRecvBlank : Nat := 13
def tuWtrip : Nat := 14
def tuChkFail : Nat := 15
def tuPartOut : Nat := 16

/-! ### TU_ACC_STAT bits (R206) -/

def accShut : Nat := 12
def accReopen : Nat := 13
def accLate : Nat := 14
def accOpenRd : Nat := 15
def accCut : Nat := 16
def accFlush : Nat := 17
def accInf : Nat := 18
def accNan : Nat := 19
def accProofCollide : Nat := 20
def accOutBad : Nat := 21

/-- A TU_STAT source of a logical unit. -/
def State.tuFlag (s : State) (u : LU) (b : Nat) : State := s.raiseBit (ureg .tuStat u) b

/-- A TU_STAT source that is a suspect event too (R270), but for a guest replay (R488). -/
def State.tuSuspect (s : State) (u : LU) (b : Nat) : State :=
  if s.isGuest u then s.tuFlag u b else s.raiseSuspect (ureg .tuStat u) b

/-- A TU_ACC_STAT source. -/
def State.accFlag (s : State) (u : LU) (b : Nat) : State := s.raiseBit (ureg .tuAccStat u) b

def State.tuFlagIf (s : State) (u : LU) (b : Nat) (c : Bool) : State := if c then s.tuFlag u b else s
def State.accFlagIf (s : State) (u : LU) (b : Nat) (c : Bool) : State := if c then s.accFlag u b else s

/-- What promotions raise (R196, R197). -/
def State.accFlags (s : State) (u : LU) (f : AccFlags) : State :=
  ((s.accFlagIf u accNan f.nan).accFlagIf u accInf f.inf).accFlagIf u accFlush f.flush

/-- The read-only bits of TU_ACC_STAT: CHK_PEND, PROOF and OPEN (R206). -/
def UnitS.accBits (u : UnitS) : Nat :=
  (List.finRange 4).foldl (fun a g =>
    let st := (u.group g).st
    a + (if st == .shut then 0 else 2 ^ g.val) + (if st == .proof then 2 ^ (4 + g.val) else 0)
      + (if u.cmps.any (·.group = g) then 2 ^ (8 + g.val) else 0)) 0

/-! ### The flags of L.SKIP (R252) -/

def State.skipFlag (s : State) (u : LU) (x : UnitS) (flag : Nat) : Bool :=
  if flag = 0 then s.rdBit (ureg .tuStat u) tuWtrip
  else if flag = 1 then s.rdBit (ureg .tuStat u) tuChkFail
  else if h : 8 ≤ flag ∧ flag < 16 then decide (0 < (x.galley ⟨flag - 8, by omega⟩).count)
  else false

/-! ### The galley mask and audit mode of the forme (R260, R271) -/

def State.galleyOn (s : State) (u : LU) (g : Fin 8) : Bool :=
  match s.formeOn u.d with
  | some f => match f.galleys.find? (·.1 = u) with
    | some e => e.2.testBit g.val
    | none => false
  | none => false

def State.auditOn (s : State) (u : LU) : Bool :=
  match s.formeOn u.d with
  | some f => f.audit.contains u
  | none => false

end Sys2Proof.Machine
end

