-- ==== Sys2Proof/Machine/UnitCtl.lean ====
section
/-!
DEFINITION. Issue in a tensor unit (06_unit_programming.md R223 to R226, R253 to R256) and the A and L slots (R246 to
R252).
-/
namespace Sys2Proof.Machine

open Sys2Proof

/-! ### The core clock -/

/-- The region's core cycle without the suppressed ones: the clock of everything inside its units (R256, R272). -/
def State.cycle (s : State) (r : RegionId) : Nat := (s.region r).live

/-- Whether the units of a region issue in this cycle: a forme runs and its banks are loaded, the domain has power, the
clock is in lock and has an edge, and issue is not suppressed (R83, R256, R312, R518, R601). -/
def State.regionIssues (s : State) (r : RegionId) : Bool :=
  match s.running r.d with
  | none => false
  | some p =>
    decide ((s.part p).loadUntil ≤ s.now) && s.rdBit (rreg .pwrRegionStat r) 4 && !s.regionFallow r
      && !s.clockOut (.region r) && !(s.region r).suppressed && s.edgeNow r

/-- The unit that carries a logical unit, where it issues an operation in a slot in this cycle: not held, not fallow,
and the slot has issued nothing in this cycle. -/
def State.issuer (s : State) (u : LU) (sl : Slot) : Option PU :=
  match s.carrier u with
  | none => none
  | some p =>
    let c := (s.unit p).ctl
    if s.regionIssues u.region && !s.unitFallow p && c.hold == .none && !c.issued.contains sl then some p else none

/-- An operation issues in a slot: `f` is its effect, given the position and the unit with the slot marked. -/
def State.issue (s : State) (u : LU) (sl : Slot) (f : State → PU → UnitS → State) : State :=
  match s.issuer u sl with
  | none => s
  | some p =>
    let x := s.unit p
    let x := { x with ctl := { x.ctl with issued := sl :: x.ctl.issued } }
    f (s.setUnit p x) p x

/-- An operation in flight is put in order of issue. -/
def UnitS.launch (x : UnitS) (sl : Slot) (c : Nat) (accs : List LineAcc) (pops : List PopDue) (k : FlightKind) : UnitS :=
  { x with
    flights := x.flights ++ [⟨x.nextId, sl, c, x.ctl.fetch, x.ctl.verso, [], false, accs, pops, .start, k⟩]
    nextId := x.nextId + 1 }

/-- A refused operation reads the lines it would read, which do nothing but take their banks, and pops its tiles: its timing
is unchanged (R136, log 31). -/
def UnitS.readsOnly (x : UnitS) (sl : Slot) (c : Nat) (accs : List LineAcc) (pops : List PopDue) : UnitS :=
  if accs.isEmpty then x else x.launch sl c accs pops .deposit

/-! ### The A slot (R246) -/

/-- An A-slot result is written: visible in the next cycle; a0 discards it. -/
def State.aOp (s : State) (u : LU) (d : Fin 16) (f : UnitS → Word) : State :=
  s.issue u .a fun s p x =>
    s.setUnit p (if d = 0 then x else { x with apend := x.apend ++ [(d, f x)] })

/-- A slot whose opcode or unused bits are not as the tables say issues as NOP and sets OP_BAD (R224). -/
def State.badSlot (s : State) (u : LU) (sl : Slot) : State := s.issue u sl fun s _ _ => s.tuFlag u tuOpBad

def State.a_add (s : State) (u : LU) (d a b : Fin 16) : State := s.aOp u d fun x => x.areg a + x.areg b
def State.a_sub (s : State) (u : LU) (d a b : Fin 16) : State := s.aOp u d fun x => x.areg a - x.areg b
def State.a_and (s : State) (u : LU) (d a b : Fin 16) : State := s.aOp u d fun x => x.areg a &&& x.areg b
def State.a_shl (s : State) (u : LU) (d a b : Fin 16) : State :=
  s.aOp u d fun x => x.areg a <<< ((x.areg b).toNat % 32)
def State.a_shr (s : State) (u : LU) (d a b : Fin 16) : State :=
  s.aOp u d fun x => x.areg a >>> ((x.areg b).toNat % 32)

/-- The 12-bit immediate of the A slot (R246); a shift uses its five low bits, and the others must be 0 (R224). -/
def immA (imm : Half) : Nat := imm.toNat % 4096

def immSigned (imm : Half) : Word := (BitVec.ofNat 12 (immA imm)).signExtend 32

def State.a_addi (s : State) (u : LU) (d a : Fin 16) (imm : Half) : State := s.aOp u d fun x => x.areg a + immSigned imm
def State.a_andi (s : State) (u : LU) (d a : Fin 16) (imm : Half) : State :=
  s.aOp u d fun x => x.areg a &&& BitVec.ofNat 32 (immA imm)
def State.a_shli (s : State) (u : LU) (d a : Fin 16) (imm : Half) : State :=
  if 32 ≤ immA imm then s.badSlot u .a else
  s.aOp u d fun x => x.areg a <<< (immA imm % 32)
def State.a_shri (s : State) (u : LU) (d a : Fin 16) (imm : Half) : State :=
  if 32 ≤ immA imm then s.badSlot u .a else
  s.aOp u d fun x => x.areg a >>> (immA imm % 32)

/-! ### The L slot (R248 to R255) -/

/-- An L-slot operation changes the sequencer. -/
def State.lOp (s : State) (u : LU) (f : Ctl → UnitS → Ctl) : State :=
  s.issue u .l fun s p x => s.setUnit p { x with ctl := f x.ctl x }

/-- The distance from one bundle address to another; addresses wrap from 1,023 to 0 (R226). -/
def bundleDist (a b : Nat) : Nat := (b + 1024 - a) % 1024

/-- Whether an L.LOOP is refused: a fifth active loop, or a body that ends beyond the enclosing one (R250). -/
def Ctl.loopBad (c : Ctl) (body : Nat) : Bool :=
  decide (4 ≤ c.loops.length) ||
  match c.loops with
  | l :: _ => decide (bundleDist c.fetch l.last < body)
  | [] => false

def State.loopOp (s : State) (u : LU) (body : Nat) (creg : Fin 16) : State :=
  s.issue u .l fun s p x =>
    let body := body % 1024
    if body = 0 then s.tuFlag u tuOpBad
    else if x.ctl.loopBad body then s.tuFlag u tuLoopBad
    else s.setUnit p { x with ctl := { x.ctl with newLoop := some (body, (x.areg creg).toNat) } }

/-- The tick in furrow at which an L.WAIT ends: its tick plus the region's lag (R251). -/
def State.waitEnd (s : State) (r : RegionId) (t : Nat) : Nat := t + (s.region r).gear.ticks (s.region r).lag

def State.waitOp (s : State) (u : LU) (t : Nat) : State :=
  let t := t % 16384
  let past : Bool := decide (s.waitEnd u.region t ≤ s.tickIn)
  s.lOp u fun c _ => if past then c else { c with newHold := .untilTick t }

/-- The tick of an L.WAIT has come (R251). -/
def State.waitExpiry (s : State) (u : LU) : State :=
  match s.carrier u with
  | none => s
  | some p =>
    match (s.unit p).ctl.hold with
    | .untilTick t =>
      if s.waitEnd u.region t ≤ s.tickIn && s.regionIssues u.region then
        s.modUnit p fun x => { x with ctl := { x.ctl with hold := .none } }
      else s
    | _ => s

def State.idleOp (s : State) (u : LU) (n : Nat) : State :=
  s.issue u .l fun s p x =>
    let n := n % 16384
    if n = 0 then s.tuFlag u tuOpBad
    else s.setUnit p { x with ctl := { x.ctl with newHold := .untilCycle (s.cycle u.region + 1 + n) } }

/-- The count of an L.IDLE has run out (R248). -/
def State.idleExpiry (s : State) (u : LU) : State :=
  match s.carrier u with
  | none => s
  | some p =>
    match (s.unit p).ctl.hold with
    | .untilCycle c =>
      if c ≤ s.cycle u.region && s.regionIssues u.region then
        s.modUnit p fun x => { x with ctl := { x.ctl with hold := .none } }
      else s
    | _ => s

def State.armOp (s : State) (u : LU) : State := s.lOp u fun c _ => { c with armed := true }

def State.entryOp (s : State) (u : LU) (a : Nat) : State := s.lOp u fun c _ => { c with entry := a % 1024 }

def State.haltOp (s : State) (u : LU) : State := s.lOp u fun c _ => { c with newHold := .halted }

/-- L.SKIP: before SEG_END it is a NOP that sets OP_BAD (R252, R255). -/
def State.skipOp (s : State) (u : LU) (flag : Nat) (sense : Bool) (n : Nat) : State :=
  s.issue u .l fun s p x =>
    if !x.ctl.segEnd then s.tuFlag u tuOpBad
    else if s.skipFlag u x (flag % 16) == sense then s.setUnit p { x with ctl := { x.ctl with skip := n % 1024 } }
    else s

/-! ### The end of a cycle -/

/-- The bundle after the one at `p`: the bodies that end there run again or are left (R249, R226). -/
def nextBundle : List Loop → Nat → Nat × List Loop
  | [], p => ((p + 1) % 1024, [])
  | l :: ls, p =>
    if l.last = p then
      if 1 < l.left then (l.first, { l with left := l.left - 1 } :: ls) else nextBundle ls p
    else ((p + 1) % 1024, l :: ls)

/-- The last bundle that this cycle passes over: its own, the end of an empty loop's body, or the end of a skip, which
stops at the end of the innermost body (R249, R252). -/
def Ctl.passed (c : Ctl) : Nat :=
  match c.newLoop with
  | some (body, 0) => (c.fetch + body) % 1024
  | some _ => c.fetch
  | none =>
    match c.loops with
    | l :: _ => if bundleDist c.fetch l.last ≤ c.skip then l.last else (c.fetch + c.skip) % 1024
    | [] => (c.fetch + c.skip) % 1024

/-- The sequencer after a cycle in which its bundle issued, whose header has SEG_END as given (R249 to R254). -/
def Ctl.advance (c : Ctl) (segEnd : Bool) : Ctl :=
  let c := { c with segEnd := c.segEnd || segEnd }
  let d := { c with issued := [], newHold := .none, newLoop := none, skip := 0, hold := c.newHold }
  match c.newLoop with
  | some (body, n + 1) =>
    { d with fetch := (c.fetch + 1) % 1024, loops := ⟨(c.fetch + 1) % 1024, (c.fetch + body) % 1024, n + 1⟩ :: c.loops }
  | _ =>
    let (f, ls) := nextBundle c.loops c.passed
    { d with fetch := f, loops := ls }

/-- The bytes of the bundle at the fetch address, in the active bank (R223, R226, R267). -/
def UnitS.bundle (x : UnitS) : List Byte := (if x.ctl.verso then x.verso else x.recto).bytes (32 * x.ctl.fetch) 32

def bundleSegEnd (b : List Byte) : Bool := ((b[0]?).getD 0).getLsbD 0

/-- Whether the header or the top bits of a bundle are not as R224 asks. -/
def bundleBad (b : List Byte) : Bool :=
  decide (2 ≤ ((b[0]?).getD 0).toNat) || (b[30]?).getD 0 != 0 || (b[31]?).getD 0 != 0

/-- MAX_LAG takes a region's lag, in ticks, at the end of a main segment (R111). -/
def State.noteLag (s : State) (r : RegionId) : State :=
  let x := s.region r
  s.wrFld (rreg .tuRegionLag r) 13 0 (max (s.rdFld (rreg .tuRegionLag r) 13 0) (min (x.gear.ticks x.lag) 16383))

/-- The bundle of a unit that is not held issues: its header is read, the sequencer goes on (R224, R254). -/
def State.bundleEnd (s : State) (u : LU) (p : PU) : State :=
  let x := s.unit p
  if x.ctl.hold != .none then s else
  let b := x.bundle
  let s := s.setUnit p { x with ctl := x.ctl.advance (bundleSegEnd b) }
  let s := if bundleSegEnd b && !x.ctl.segEnd then s.noteLag u.region else s
  s.tuFlagIf u tuOpBad (bundleBad b)

/-! ### Furrow boundary (R253, R269) -/

/-- The sequencer at a furrow boundary: an armed switch, the entry address, no loops, nothing held. -/
def Ctl.boundary (c : Ctl) : Ctl :=
  { c with
    verso := if c.armed then !c.verso else c.verso
    armed := false
    fetch := c.entry
    loops := []
    hold := .none
    segEnd := false
    issued := []
    newHold := .none
    newLoop := none
    skip := 0 }

end Sys2Proof.Machine
end

