-- ==== Sys2Proof/Machine/Matrix.lean ====
section
/-!
DEFINITION. The M slot: matrix operations, groups, promotions, checksum comparisons and proof rounding
(05_matrix_arithmetic.md R187 to R220, 06_unit_programming.md R236 to R238, 12_silent_errors_and_faults.md R465 to R468).
-/
namespace Sys2Proof.Machine

open Sys2Proof

/-! ### The cluster's proof engine (R215, R216) -/

def State.clusterS (s : State) (c : ClusterId) : ClusterS := s.clusters.getD c .reset
def State.modCluster (s : State) (c : ClusterId) (f : ClusterS → ClusterS) : State :=
  { s with clusters := s.clusters.set c (f (s.clusterS c)) }

/-- Whether the engine is bound to a group of a unit. -/
def ProofS.boundTo (e : ProofS) (u : LU) (g : Fin 4) : Bool :=
  e.owner == u.inCluster && e.group == g && !e.closing && !e.host

/-- The engine is released where it is bound to a group of a unit (R199, R200). -/
def State.releaseProof (s : State) (u : LU) (g : Fin 4) : State :=
  s.modCluster u.cluster fun c => match c.proof with
    | some e => if e.boundTo u g then { c with proof := none } else c
    | none => c

/-! ### Line schedules (R235) -/

/-- The reads of an operand's stream: line `n` of `N` at issue + 1 + n × occ / N. -/
def readAccs (issue occ stream : Nat) (o : Opnd) : List LineAcc :=
  match o.gal with
  | none =>
    let ls := o.lines
    ls.zipIdx.map fun e => ⟨issue + 1 + e.2 * occ / ls.length, e.1, none, stream, e.2, .read⟩
  | some g =>
    let n := 16 * o.tiles
    (List.range n).map fun i => ⟨issue + 1 + i * occ / n, i % 16, some g, stream, i, .read⟩

/-- The pops of an operand that comes from a galley: each tile at its first line. -/
def popsOf (issue occ stream : Nat) (o : Opnd) : List PopDue :=
  match o.gal with
  | none => []
  | some g =>
    let n := 16 * o.tiles
    (List.range o.tiles).map fun t => ⟨issue + 1 + 16 * t * occ / n, g, stream, t⟩

/-- The reads and pops of an outlier galley: K / 64 tiles (R208). -/
def outlierAccs (issue occ stream k : Nat) (g : Option (Fin 8)) : List LineAcc × List PopDue :=
  match g with
  | none => ([], [])
  | some g =>
    let n := 16 * (k / 64)
    ((List.range n).map fun i => ⟨issue + 1 + i * occ / n, i % 16, some g, stream, i, .read⟩,
     (List.range (k / 64)).map fun t => ⟨issue + 1 + 16 * t * occ / n, g, stream, t⟩)

/-! ### M.MMA (R187 to R189, R201, R212, R217, R237) -/

/-- Array occupancy of an operation (R189, R212, R217, R237). -/
def mmaOcc (rate : Option RateClass) (k : Nat) (outliers proof : Bool) : Nat :=
  let base := (rate.getD .c16).cycles k
  let occ := if outliers then max base k else base
  if proof then 16 * occ else occ

def State.mma (s : State) (u : LU) (o : MmaOp) : State :=
  s.issue u .m fun s p x =>
    let c := s.cycle u.region
    if c < x.mBusy then s.tuFlag u tuMOverlap else
    let a := (x.opnd o.adesc (x.areg o.areg)).aligned
    let b := (x.opnd o.bdesc (x.areg o.breg)).aligned
    let far := x.isFar o.adesc || x.isFar o.bdesc
    let rate := if far then none else pairRate a b
    let ok := rate.isSome && extentsOk a b
    let st := (x.group o.group).st
    let k := a.presented.2
    let proof := st == .proof
    let occ := mmaOcc rate k (o.oga.isSome || o.ogb.isSome) proof
    let len := min ((a.fmt.map (Fmt.depth · (a.kCols true))).getD 8) ((b.fmt.map (Fmt.depth · (b.kCols false))).getD 8)
    let (ga, pa) := outlierAccs c occ 2 k o.oga
    let (gb, pb) := outlierAccs c occ 3 k o.ogb
    let f : MmaFlight := ⟨o, a, b, rate, k, len, k / len, 0, occ, proof, !ok || st == .shut, false, none, false⟩
    let la := (x.sized o.adesc (x.areg o.areg)).aligned
    let lb := (x.sized o.bdesc (x.areg o.breg)).aligned
    let x := x.launch .m c (readAccs c occ 0 la ++ readAccs c occ 1 lb ++ ga ++ gb)
      (popsOf c occ 0 la ++ popsOf c occ 1 lb ++ pa ++ pb) (.mma f)
    let s := s.setUnit p { x with mBusy := c + occ }
    (s.tuFlagIf u tuFmtBad (!ok)).accFlagIf u accShut (st == .shut)

/-! ### GRP_OPEN and GRP_CLOSE (R200 to R203, R216) -/

/-- Whether the cluster's engine is free, and the unit's group bound to it (R216). -/
def State.bindProof (s : State) (u : LU) (g : Fin 4) (want : Bool) : State × Bool :=
  if !want then (s, false) else
  match (s.clusterS u.cluster).proof with
  | none =>
    (s.modCluster u.cluster fun c => { c with
      proof := some ⟨u.inCluster, g, List.replicate 4096 .zero, false, false⟩ }, true)
  | some _ => (((s.accFlag u accProofCollide).raiseBit (creg .cdProofStat u.cluster) 8), false)

/-- Whether a GRP_OPEN's source is the 64 x 64 FP32 array that LOAD reads (R200, R257). -/
def Opnd.loadable (o : Opnd) : Bool := o.fmt == some .fp32 && o.rows == 64 && o.cols == 64 && !o.tr && o.gal.isNone

/-- The 128 reads of a GRP_OPEN's source: two lines in a cycle (R235). -/
def loadAccs (c : Nat) (src : Opnd) : List LineAcc :=
  (src.lines.take 128).zipIdx.map fun e => ⟨c + 1 + e.2 / 2, e.1, none, 0, e.2, .read⟩

/-- GRP_OPEN. One with LOAD whose source is refused writes nothing and changes no group (R116, R136); it reads its lines and
holds the load path for its time (log 31). -/
def State.grpOpen (s : State) (u : LU) (o : OpenOp) : State :=
  s.issue u .m fun s p x =>
    let c := s.cycle u.region
    if o.load && c < x.loadBusy then s.tuFlag u tuMOverlap else
    let src := (x.opnd o.desc (x.areg o.areg)).aligned
    if o.load && (!src.loadable || x.isFar o.desc) then
      let accs := if x.isFar o.desc then [] else loadAccs c (x.sized o.desc (x.areg o.areg)).aligned
      (s.setUnit p { x.readsOnly .m c accs [] with loadBusy := c + 64 }).tuFlag u tuFmtBad
    else
    let shut := (x.group o.group).st == .shut
    let s := (s.accFlagIf u accReopen (!shut)).releaseProof u o.group
    let (s, bound) := s.bindProof u o.group o.proof
    let x := { x with mPend := some (.open_ o.group o.load bound) }
    s.setUnit p (if !o.load then x else
      { x.launch .m c (loadAccs c src) [] (.load o.group false) with loadBusy := c + 64 })

def State.grpClose (s : State) (u : LU) (g : Fin 4) : State :=
  s.issue u .m fun s p x =>
    if (x.group g).st == .shut then s
    else s.setUnit p { x with mPend := some (.close g x.ctl.fetch x.ctl.verso) }

/-- The flights of a group that has been opened again: what earlier runs left is gone (R200). -/
def Flight.rebase (g : Fin 4) (f : Flight) : Flight :=
  match f.kind with
  | .mma m => if m.op.group = g then { f with kind := .mma { m with base := none } } else f
  | _ => f

/-- The flights of a group that its closing leaves behind (R202). -/
def Flight.markLate (g : Fin 4) (f : Flight) : Flight :=
  match f.kind with
  | .mma m => if m.op.group = g then { f with kind := .mma { m with late := !m.dead } } else f
  | _ => f

/-- A GRP_OPEN or GRP_CLOSE takes effect at the end of its cycle `c` (R200, R202, R203, R258). -/
def State.groupEnd (s : State) (u : LU) (p : PU) (c : Nat) : State :=
  let x := s.unit p
  match x.mPend with
  | none => s
  | some (.open_ g load proof) =>
    let cells := if load then (x.group g).cells else List.replicate 4096 Pair.zero
    let y := x.setGroup g ⟨if proof then .proof else .open_, cells, List.replicate 4096 .zero⟩
    s.setUnit p { y with mPend := none, flights := y.flights.map (Flight.rebase g) }
  | some (.close g b v) =>
    let st := (x.group g).st
    if st == .shut then s.setUnit p { x with mPend := none } else
    let y := x.setGroup g { x.group g with st := .shut }
    let s := s.setUnit p { y with
      mPend := none
      flights := y.flights.map (Flight.markLate g)
      cmps := y.cmps ++ [⟨c + 24, g, st == .proof, (x.group g).chk, b, v, false⟩]
      badCmp := y.badCmp.filter (· ≠ g) }
    if st == .proof then s.modCluster u.cluster fun k => { k with proof := k.proof.map fun e => { e with closing := true } }
    else s

/-! ### Promotions (R196 to R198, R210, R211, R217, R238) -/

/-- The line that a read still to come would bring now: of a galley, from the tile its pop would take. -/
def UnitS.aheadLine (x : UnitS) (f : Flight) (a : LineAcc) : List Byte :=
  match a.gal with
  | none => x.sp.bytes (128 * a.line) 128
  | some g =>
    let q := x.galley g
    let popped := (f.caught.tiles.entries.filter fun e => e.1.1 = a.stream).length
    let k := a.n / 16 - popped
    let place := match f.caught.tiles.get? (a.stream, a.n / 16) with
      | some t => t
      | none => if k < q.count then some ((q.head.val + k) % 16) else none
    match place with
    | some t => x.sp.bytes (128 * (galleyLine g + 16 * t + a.n % 16)) 128
    | none => List.replicate 128 0

/-- An operation as if its reads still to come had been made (R190): what a run that promotes before them takes. -/
def UnitS.ahead (x : UnitS) (f : Flight) : Flight :=
  { f with caught := { f.caught with
    lines := f.accs.foldl (fun l a => l.set (a.stream, a.n) (x.aheadLine f a)) f.caught.lines } }

/-- The sides of a matrix operation as its lines were read. -/
def Flight.sides (f : Flight) (m : MmaFlight) (sp : Memory) : Side × Side :=
  (m.a.side true f.caught sp 0, m.b.side false f.caught sp 1)

/-- The entries of tile `t` of an outlier stream (R172). -/
def Flight.entries (f : Flight) (stream t : Nat) : List Entry :=
  let r : Reader := fun v => f.caught.lineByte stream (16 * t + v / 128) (v % 128)
  (List.range 256).map fun n => Entry.read r (8 * n)

/-- A valid entry's place in op(A) or op(B): free index and k; `none` is OUT_BAD (R209). -/
def Opnd.entryAt (o : Opnd) (sideA : Bool) (t : Nat) (e : Entry) : Option (Nat × Nat) :=
  (o.fmt.bind fun f => e.position f).map fun (r, c) =>
    if o.kCols sideA then (r, 64 * t + c) else (c, 64 * t + r)

/-- The valid entries of an operand's outlier tiles with their places, in order, and whether one is bad. -/
def Flight.outliers (f : Flight) (m : MmaFlight) (sideA : Bool) : List (Nat × Nat × Val) × Bool :=
  let named := if sideA then m.op.oga.isSome else m.op.ogb.isSome
  if !named then ([], false) else
  let o := if sideA then m.a else m.b
  let es := (List.range (m.k / 64)).flatMap fun t =>
    (f.entries (if sideA then 2 else 3) t).filterMap fun e =>
      if e.valid then some ((o.entryAt sideA t e).map fun q => (q.1, q.2, bf16 e.value)) else none
  (es.filterMap (fun e => e), es.any Option.isNone)

/-- The side products of the valid entries of A and B in their order: cell and exact product (R210, R211). -/
def crossProducts (sa sb : Side) (oa ob : List (Nat × Nat × Val)) : List (Nat × Val) :=
  let bAt := fun (k j : Nat) => match ob.find? fun e => e.1 = j ∧ e.2.1 = k with
    | some e => e.2.2
    | none => sb.value j k
  oa.flatMap (fun e => (List.range 64).map fun j => (64 * e.1 + j, e.2.2.mul (bAt e.2.1 j)))
    ++ ob.flatMap (fun e => (List.range 64).map fun i => (64 * i + e.1, (sa.value i e.2.1).mul e.2.2))

/-- The side products of an operation. -/
def Flight.sideProducts (f : Flight) (m : MmaFlight) (sp : Memory) : List (Nat × Val) :=
  let (sa, sb) := f.sides m sp
  crossProducts sa sb (f.outliers m true).1 (f.outliers m false).1

/-- A value with the bits of its FP32 pattern turned over: a fault in an array cell. -/
def upsetVal (w : Word) (v : Val) : Val := if w = 0 then v else f32 (toF32 v ^^^ w)

/-- One promotion into a cell with its comparator terms (R196, R197, R466). -/
def promoteCell (checked : Bool) (p : Pair) (k : Chk) (got want : Val) (bound : Option (Nat × Int)) (sc : Int) :
    Pair × Chk × AccFlags :=
  let (q, f) := p.add got
  (q, if checked then k.add got want bound sc else k, f)

/-- A run's promotions at every cell of an OPEN group (R194 to R197). -/
def promoteRun (rate : RateClass) (sa sb : Side) (len n : Nat) (ups : List (Nat × Word)) (checked : Bool)
    (g : Group) : Group × AccFlags :=
  let rs := (List.range 4096).map fun i =>
    let r := Side.run rate sa sb len n (i / 64) (i % 64)
    let up := ((ups.find? (·.1 = i)).map (·.2)).getD 0
    promoteCell checked ((g.cells[i]?).getD .zero) ((g.chk[i]?).getD .zero) (upsetVal up (r.sum.scale r.scale))
      (r.exact.scale r.scale) r.bound r.scale
  ({ g with cells := rs.map (·.1), chk := rs.map (·.2.1) }, rs.foldl (fun a r => a.or r.2.2) {})

/-- A side product enters its pair as one promotion, and the checksum cells with it (R211, R465). -/
def promoteSide (checked : Bool) (g : Group × AccFlags) (e : Nat × Val) : Group × AccFlags :=
  let (q, k, f) := promoteCell checked ((g.1.cells[e.1]?).getD .zero) ((g.1.chk[e.1]?).getD .zero) e.2 e.2 none 0
  ({ g.1 with cells := g.1.cells.set e.1 q, chk := g.1.chk.set e.1 k }, g.2.or f)

/-- The products of a run enter the exact accumulators (R217). -/
def exactRun (sa sb : Side) (len n : Nat) (acc : List Exact) : List Exact :=
  acc.zipIdx.map fun (e, i) =>
    (List.range len).foldl (fun (e : Exact) t =>
      e.add ((sa.value (i / 64) (n * len + t)).mul (sb.value (i % 64) (n * len + t)))) e

/-- The accumulators of the engine with side products added (R217). -/
def ProofS.feed (e : ProofS) (acc : List Exact) (sides : List (Nat × Val)) : ProofS :=
  { e with acc := sides.foldl (fun a q => a.set q.1 (((a[q.1]?).getD .zero).add q.2)) acc }

/-- Whether the checksum cells run on a die (R471). -/
def State.checksOn (s : State) (d : Die) : Bool := s.rdFld (dreg .cdChkCfg d) 1 0 != 0

/-- The oldest matrix operation that has a run to promote by cycle `c` (R238). -/
def UnitS.nextRun (x : UnitS) (c : Nat) : Option (Flight × MmaFlight) :=
  x.flights.findSome? fun f => match f.kind with
    | .mma m => if m.next < m.runs ∧ f.issue + (m.next + 1) * m.occ / max m.runs 1 + 8 ≤ c then some (f, m) else none
    | _ => none

/-- The operation goes on to its next run, or is done. -/
def UnitS.ranRun (x : UnitS) (f : Flight) (m : MmaFlight) : UnitS :=
  let m' := { m with next := m.next + 1 }
  { x with flights := if m'.next < m.runs then
      x.flights.map fun e => if e.id = f.id then { e with kind := .mma m' } else e
    else x.flights.filter (·.id ≠ f.id) }

/-- What the next run of an operation adds to, and which runs are added: the run alone; at the last run of one that has
promoted ahead of its reads, all its runs from the base on, now that every line is read (R190). -/
def MmaFlight.plan (m : MmaFlight) (b : MmaBase) (ups : List (Nat × Word)) : Nat × List (List (Nat × Word)) :=
  if m.next + 1 = m.runs then (b.run, b.ups ++ [ups]) else (m.next, [ups])

/-- The runs of a plan promoted one after another at every cell of a group. -/
def promoteRuns (rate : RateClass) (sa sb : Side) (len from_ : Nat) (ups : List (List (Nat × Word))) (checked : Bool)
    (g : Group) : Group × AccFlags :=
  ups.zipIdx.foldl (fun a e =>
    let (h, fl) := promoteRun rate sa sb len (from_ + e.2) e.1 checked a.1
    (h, a.2.or fl)) (g, {})

/-- A free value for every pair of a group (R269, log 1). -/
def freeCells (g : Nat) : List Pair := (List.range 4096).map fun i => ⟨Config.freeWord g (2 * i), Config.freeWord g (2 * i + 1)⟩

/-- The group of an operation that has crossed a step boundary is undefined (R269). -/
def State.crossedRun (s : State) (u : LU) (p : PU) (g : Fin 4) : State :=
  let cells := freeCells s.free
  let s := { s with free := s.free + 1 }
  let feed := fun (e : ProofS) =>
    if e.boundTo u g then { e with acc := cells.map fun c => Exact.add .zero (f32 c.s) } else e
  (s.modUnit p fun y => y.setGroup g { y.group g with cells := cells }).modCluster u.cluster fun c =>
    { c with proof := c.proof.map feed }

/-- A run of an operation that is in force: into the engine for a PROOF group, else into the group (R197, R210, R217). -/
def State.liveRun (s : State) (u : LU) (p : PU) (f : Flight) (m : MmaFlight) (ups : List (Nat × Word)) : State :=
  let x := s.unit p
  let f := x.ahead f
  let (sa, sb) := f.sides m x.sp
  let sides := if m.next + 1 = m.runs then f.sideProducts m x.sp else []
  let gr := x.group m.op.group
  let eng := (s.clusterS u.cluster).proof.filter (·.boundTo u m.op.group)
  let acc := (eng.map (·.acc)).getD []
  let now : MmaBase := ⟨m.next, gr.cells, gr.chk, acc, []⟩
  let b := m.base.getD now
  let (from_, runs) := m.plan b ups
  let start := if from_ = m.next then now else b
  let kept := if f.accs.isEmpty && m.base.isNone then none else some { b with ups := b.ups ++ [ups] }
  let s := s.modUnit p fun y => { y with flights := y.flights.map fun e => match e.kind with
    | .mma m' => if e.id = f.id then { e with kind := .mma { m' with base := kept } } else e
    | _ => e }
  if m.proof then
    let feed := fun (e : ProofS) =>
      if e.boundTo u m.op.group then
        e.feed ((List.range runs.length).foldl (fun a k => exactRun sa sb m.runLen (from_ + k) a) start.acc) sides else e
    s.modCluster u.cluster fun c => { c with proof := c.proof.map feed }
  else
    let chk := s.checksOn u.d
    let (g, fl) := promoteRuns (m.rate.getD .c16) sa sb m.runLen from_ runs chk { gr with cells := start.cells, chk := start.chk }
    let (g, fl') := sides.foldl (promoteSide chk) (g, fl)
    (s.modUnit p fun y => y.setGroup m.op.group g).accFlags u fl'

/-- RUN_PROMOTION: the oldest run that is due lands. A bad outlier entry shows with the last run, whatever the operation's
group has become (R201, R209). -/
def State.runPromotion (s : State) (u : LU) (ups : List (Nat × Word)) : State :=
  match s.carrier u with
  | none => s
  | some p =>
    if (s.region u.region).suppressed then s else
    let x := s.unit p
    match x.nextRun (s.cycle u.region) with
    | none => s
    | some (f, m) =>
      let s := s.setUnit p (x.ranRun f m)
      if m.crossed then s.crossedRun u p m.op.group
      else
        let s := s.accFlagIf u accOutBad (m.rate.isSome && decide (m.next + 1 = m.runs)
          && ((f.outliers m true).2 || (f.outliers m false).2))
        if m.late then s.accFlag u accLate else if m.dead then s else s.liveRun u p f m ups

/-! ### Comparison and proof rounding (R203, R218, R467, R468) -/

/-- The first mismatching index of 64 rows or columns, and whether one was left out (R467). -/
def firstMismatch (mult : Nat) (line : Nat → List Chk) : Option Nat × Bool :=
  let rs := (List.range 64).map fun i => Chk.mismatch mult (line i)
  (rs.findIdx? (fun r => r.1), rs.any (fun r => r.2))

/-- The comparison of a closed group's terms: lowest mismatching row, column, whether any was skipped. -/
def compareGroup (mult : Nat) (cells : List Chk) : Option Nat × Option Nat × Bool :=
  let row := fun i => (cells.drop (64 * i)).take 64
  let col := fun j => (List.range 64).map fun i => (cells[64 * i + j]?).getD .zero
  let (r, a) := firstMismatch mult row
  let (c, b) := firstMismatch mult col
  (r, c, a || b)

/-- Whether the replay table covers a GRP_CLOSE (R475, R478) whose comparison completes before the unit's SEG_END
(R484). -/
def State.covered (s : State) (u : LU) (bundle : Nat) (verso : Bool) : Bool :=
  match s.formeOn u.d, s.carrier u with
  | some f, some p => !(s.unit p).ctl.segEnd
      && f.replay.any fun e => e.unit = u && e.bundle == bundle && e.verso == verso
  | _, _ => false

/-- A mismatch is recorded in TU_CHK, its group for the first of the step, the lowest row and column of all (R507), and counts
as a provisional or a suspect event (R468, R475). -/
def State.mismatch (s : State) (u : LU) (g : Fin 4) (row col : Option Nat) (bundle : Nat) (verso : Bool) : State :=
  let r := ureg .tuChk u
  let n := s.rdFld r 31 24
  let s := s.wrBit (ureg .tuStat u) tuChkFail true
  let s := if n = 0 then s.wrFld r 23 22 g.val else s
  let s := (s.wrFld r 21 15 (min (s.rdFld r 21 15) (col.getD 127))).wrFld r 14 8 (min (s.rdFld r 14 8) (row.getD 127))
  let s := s.wrFld r 31 24 (min (n + 1) 255)
  if s.covered u bundle verso then
    let s := (s.raiseBit r 3 true).wrBit r 2 true
    { s with prov := s.prov ++ [⟨u, bundle, verso, false⟩] }
  else s.raiseSuspect r 3

/-- The first comparison of an OPEN group that is over by cycle `c`. -/
def UnitS.dueCmp (x : UnitS) (proof : Bool) (c : Nat) : Option CmpDue :=
  x.cmps.find? fun d => d.proof == proof && decide (d.due ≤ c)

def UnitS.endCmp (x : UnitS) (d : CmpDue) (bad : Bool) : UnitS :=
  { x with
    cmps := x.cmps.filter (· ≠ d)
    badCmp := if bad then d.group :: x.badCmp else x.badCmp.filter (· ≠ d.group) }

/-- The comparison on a spare that replays (R481, R482, R487): a pass withdraws the event of the entry; a mismatch sets
REPLAY_FAIL with a suspect event, and bars the entry for the step. A guest's comparison only decides whether its result
is sent. -/
def State.replayCompared (s : State) (p : PU) (bad : Bool) : State :=
  match s.replays.find? fun e => e.spare = p && e.running with
  | none => s
  | some e =>
    let own := e.unit
    let mine : ProvEv → Bool := fun v => decide (v.unit = own) && v.bundle == e.entry.bundle && v.verso == e.entry.verso
    let s := if bad then { s with replays := s.replays.map fun r =>
        if r.spare = p && r.running then { r with failed := true } else r } else s
    if e.guest then s
    else if bad then
      let s := { s with prov := s.prov.map fun v => if mine v then { v with failed := true } else v }
      s.raiseSuspect (ureg .tuChk own) 6
    else s.withdraw own e.entry.bundle e.entry.verso

/-- CHECKSUM_COMPARISON: in a suppressed cycle the comparators stand still (R256). -/
def State.checksumComparison (s : State) (u : LU) : State :=
  match s.carrier u with
  | none => s
  | some p =>
    if (s.region u.region).suppressed then s else
    let x := s.unit p
    match x.dueCmp false (s.cycle u.region) with
    | none => s
    | some d =>
      if !s.checksOn u.d then s.setUnit p (x.endCmp d false) else
      let (r, c, skip) := compareGroup (s.rdFld (dreg .cdChkCfg u.d) 7 4) d.cells
      let bad := r.isSome || c.isSome
      let s := s.setUnit p (x.endCmp d (if d.crossed then (Config.freeWord s.free 0).getLsbD 0 else bad))
      let s := if d.crossed then { s with free := s.free + 1 } else s
      let s := if skip then s.raiseBit (ureg .tuChk u) 4 else s
      if u.alt.isSome then s.replayCompared p bad
      else if bad then s.mismatch u d.group r c d.bundle d.verso else s.wrBit (ureg .tuStat u) tuChkFail false

/-- PROOF_RESULT: the group of one that has crossed a step boundary is undefined (R269); in a suppressed cycle nothing lands
(R256). A NaN or infinity so put into a group sets no ACC_NAN and no ACC_INF, which promotions set (DESIGN CHOICE, log 32). -/
def State.proofResult (s : State) (u : LU) : State :=
  match s.carrier u with
  | none => s
  | some p =>
    if (s.region u.region).suppressed then s else
    let x := s.unit p
    match x.dueCmp true (s.cycle u.region), (s.clusterS u.cluster).proof.filter (!·.host) with
    | some d, some e =>
      let cells := if d.crossed then freeCells s.free else e.acc.map fun a => (⟨a.result, 0⟩ : Pair)
      let y := (x.endCmp d false).setGroup d.group { x.group d.group with cells := cells }
      let s := if d.crossed then { s with free := s.free + 1 } else s
      (s.setUnit p y).modCluster u.cluster fun c => { c with proof := none }
    | _, _ => s

end Sys2Proof.Machine
end

