-- ==== Sys2Proof/Machine/Writer.lean ====
section
/-!
DEFINITION. The W slot (04_operand_writer.md R149 to R186, 06_unit_programming.md R239, R240, R235, R258;
12_silent_errors_and_faults.md R469, R472).
-/
namespace Sys2Proof.Machine

open Sys2Proof

/-! ### The writer table (R154) -/

def UnitS.profileWord (x : UnitS) (n : Fin 8) : DWord := BitVec.ofNat 64 (leNat (x.wtab.bytes (8 * n.val) 8))
def UnitS.signMask (x : UnitS) (n : Nat) : Nat := leNat (x.wtab.bytes (0x40 + 16 * n) 16)
def UnitS.tripLimits (x : UnitS) (m : Nat) : Word := x.wtab.word (0xC0 + 4 * m)

/-! ### The output of an operation -/

/-- The input of an operation: a group's exact pairs, two groups side by side under PAIR, or an array (R149, R155,
R168). -/
def WFlight.input (f : WFlight) (p : Profile) (c : Caught) (sp : Memory) : Grid :=
  match f.src with
  | some o => o.grid c sp 0
  | none =>
    Grid.of f.rows f.cols fun i j =>
      let k := if p.rotCol then 4096 * (i / 64) + 64 * (i % 64) + j else 4096 * (j / 64) + 64 * i + j % 64
      ((f.cells[k]?).getD .zero).value

/-- A grid transposed. -/
def Grid.transpose (g : Grid) : Grid := Grid.of g.cols g.rows fun i j => g.get j i

/-- What the operation writes (R150, R160, R240): with a transposed destination the same values at transposed
positions. The forced scales of R160 are taken one after another from the AUX operand's scale base, as scratchpad stands
when a line is formed and once more at completion, and take no bank (DESIGN CHOICE, log 32: R235 lists no access of
AUX). -/
def WFlight.output (f : WFlight) (c : Caught) (sp : Memory) : WriteOut :=
  let p := Profile.ofWord f.profile
  let g := f.input p c sp
  let forced := fun b => (sp.byte ((f.aux.sb + b) % 2 ^ 20)).toNat
  if f.dst.tr then { p with rotCol := !p.rotCol }.write f.fmt g.transpose f.mask forced
  else p.write f.fmt g f.mask forced

/-- Extents of the output. -/
def WFlight.extents (f : WFlight) : Nat × Nat := if f.dst.tr then (f.cols, f.rows) else (f.rows, f.cols)

/-- The tiles of operand records that the destination takes (R240, R261). -/
def WFlight.recordTiles (f : WFlight) : Nat :=
  match f.dst.gal with
  | some _ => ({ f.dst with fmt := some f.fmt, rows := f.extents.1, cols := f.extents.2 }).tiles
  | none => 0

/-- The bytes of tile `n` that the operation pushes, operand records before outlier tiles. -/
def WFlight.tile (f : WFlight) (w : WriteOut) (n : Nat) : List Byte :=
  if n < f.recordTiles then
    let per := Machine.recordTiles f.fmt
    ((recordBytesOf f.fmt w f.extents.1 f.extents.2 (n / max per 1)).drop (2048 * (n % max per 1))).take 2048
  else (w.tiles[n - f.recordTiles]?).getD (List.replicate 2048 0)

/-- The galley of tile `n`. -/
def WFlight.tileGalley (f : WFlight) (n : Nat) : Fin 8 :=
  let out : Fin 8 := ⟨(Profile.ofWord f.profile).outGal % 8, by omega⟩
  match f.dst.gal with
  | some g => if n < f.recordTiles then g else out
  | none => out

/-- The bytes of destination line `l` (R126, R153, R228). -/
def WFlight.line (f : WFlight) (w : WriteOut) (l : Nat) : List (Option Byte) :=
  (List.range 128).map fun x => f.dst.outByte f.fmt w f.extents.1 f.extents.2 (128 * l + x)

/-! ### Issue (R155, R156, R204, R235, R239, R469) -/

/-- W.WRITE. The pairs of a group source are all latched in the issue cycle (DESIGN CHOICE, log 32: R204 says as they stand
in the cycle of the read, and R235 gives a group source no cycles). -/
def State.wWrite (s : State) (u : LU) (o : WriteOp) : State :=
  if o.srcg && decide (4 ≤ o.src.val) then s.badSlot u .w else
  s.issue u .w fun s p x =>
    let c := s.cycle u.region
    if c < x.wBusy then s.tuFlag u tuWOverlap else
    let pw := x.profileWord o.prof
    let pr := Profile.ofWord pw
    let g : Fin 4 := ⟨o.src.val % 4, by omega⟩
    let h : Fin 4 := ⟨(g.val ^^^ 1) % 4, by omega⟩
    let groups := if !o.srcg then [] else if pr.pair then [g, h] else [g]
    let src := (x.opnd o.src (x.areg o.sreg)).aligned
    let (rows, cols) := if o.srcg then (if !pr.pair then (64, 64) else if pr.rotCol then (128, 64) else (64, 128))
      else src.presented
    let aux := x.opnd o.aux (x.areg o.dreg)
    let dst := (x.opnd o.dst (x.areg o.dreg)).aligned
    let srcOk := o.srcg || (!x.isFar o.src && (match src.fmt with
      | some f => f.writerReads
      | none => false))
    let bad := pr.refused o.srcg dst.tr rows cols || !srcOk || x.isFar o.dst
    let fmt := (Fmt.ofCode pr.fmt).getD .bf16
    let dst := { dst with fmt := some fmt, sb := if fmt == .sph then aux.sb else dst.sb }
    let occ := max 1 (rows * cols / 64)
    let rot := if pr.rotEn then 4 else 0
    let f : WFlight := {
      profile := pw, mask := x.signMask pr.rotMask, limits := x.tripLimits pr.mon
      src := if o.srcg then none else some src
      cells := groups.flatMap fun k => (x.group k).cells
      rows := rows, cols := cols, fmt := fmt, dst := dst, aux := aux
      done := c + occ + 12 + rot
      blank := groups.any x.badCmp.contains
      refused := bad
      tiles := 0, pushed := 0
      counted := false, crossed := false }
    let outT := if pr.outEn then (fmt.blocks f.extents.1 f.extents.2 + 255) / 256 else 0
    let f := { f with tiles := if bad then 0 else f.recordTiles + outT }
    let ls := if dst.gal.isSome then [] else dst.outLines fmt f.extents.1 f.extents.2
    let n := ls.length + 16 * f.tiles
    let at_ := fun i => c + 12 + rot + ((i + 1) * occ + n - 1) / n
    let outs : List LineAcc := if bad then [] else
      (ls.zipIdx.map fun e => ⟨at_ e.2, e.1, none, 1, e.2, .out⟩)
      ++ (List.range (16 * f.tiles)).map fun i => ⟨at_ (ls.length + i), i % 16, none, 1, i, .tile false⟩
    let laid := (x.sized o.src (x.areg o.sreg)).aligned
    let reads := if o.srcg then [] else readAccs c occ 0 laid
    let pops := if o.srcg then [] else popsOf c occ 0 laid
    let s := s.setUnit p { x.launch .w c (reads ++ outs) pops (.write f) with wBusy := c + occ }
    let s := s.tuFlagIf u tuFmtBad bad
    s.accFlagIf u accOpenRd (groups.any fun k => (x.group k).st != .shut)

/-! ### Completion (R178, R180, R182 to R186) -/

/-- Counts added to a monitor set, each held at its top, with what they leave in its TRIP word. -/
def MonSet.add (m : MonSet) (c : Counts) (trip : Bool × Bool) : MonSet :=
  let top := 0xFFFFFFFF
  let k := m.c.add c
  let h : Counts := ⟨min k.satElem top, min k.unfElem top, min k.zeroBlk top, min k.nanBlk top, min k.flatBlk top,
    min k.outlier top, min k.satBlk top, min k.unfBlk top, min k.nzIn top⟩
  let held := [h.satElem, h.unfElem, h.zeroBlk, h.nanBlk, h.flatBlk, h.outlier, h.satBlk, h.unfBlk, h.nzIn].any (· == top)
  ⟨h, m.trip ||| BitVec.ofNat 32 ((if trip.1 then 1 else 0) + (if trip.2 then 2 else 0)
    + (if c.nanBlk = 0 then 0 else 4) + (if held then 8 else 0))⟩

def addSet (bank : List MonSet) (m : Nat) (c : Counts) (trip : Bool × Bool) : List MonSet :=
  bank.set m (((bank[m]?).getD .zero).add c trip)

/-- The oldest write that completes by cycle `c`: its counts come in the cycle in which its last line lands (R258). -/
def UnitS.dueWrite (x : UnitS) (c : Nat) : Option (Flight × WFlight) :=
  x.flights.findSome? fun f => match f.kind with
    | .write w => if w.done ≤ c ∧ !w.counted then some (f, w) else none
    | _ => none

/-- W_WRITE_COMPLETE: one that has crossed a step boundary counts in the previous-step bank (R178). A replay on a spare counts in
the sets of the spare's own key, which no register shows (DESIGN CHOICE, log 10: a spare has no logical unit, R481). -/
def State.wWriteComplete (s : State) (u : LU) : State :=
  match s.carrier u with
  | none => s
  | some p =>
    if (s.region u.region).suppressed then s else
    let x := s.unit p
    match x.dueWrite (s.cycle u.region) with
    | none => s
    | some (f, w) =>
      let s := s.setUnit p { x with flights := x.flights.map fun e =>
        if e.id = f.id then { e with kind := .write { w with counted := true } } else e }
      if w.refused || w.blank then s else
      let pr := Profile.ofWord w.profile
      let k := (w.output f.caught x.sp).counts
      let trip := if pr.guard then trips w.limits k else (false, false)
      let s := s.modLu u fun l =>
        if !w.crossed then { l with live := addSet l.live pr.mon k trip }
        else { l with prev := addSet l.prev pr.mon k trip }
      if pr.guard then s.wrBit (ureg .tuStat u) tuWtrip (trip.1 || trip.2) else s

/-! ### The write digest (R471, R472) -/

/-- Whether a unit's writes are digested: marked or a shadow at level 0b10. -/
def State.digested (s : State) (u : LU) : Bool :=
  match s.formeOn u.d with
  | some f => f.level == 2 && f.shadows.any fun e => e.1 = u || e.2 = u
  | none => false

/-- The term of a line in the digest. -/
def lineDigest (line : Nat) (b : List Byte) : DWord :=
  (List.range 16).foldl (fun c k => mix (c ^^^ wordAt b k)) (mix (BitVec.ofNat 64 (128 * line)))

end Sys2Proof.Machine
end

