-- ==== Sys2Proof/Machine/Vector.lean ====
section
/-!
DEFINITION. The V slot (06_unit_programming.md R241, R242, R257, R258; 05_matrix_arithmetic.md R204, R222).
-/
namespace Sys2Proof.Machine

open Sys2Proof

/-! ### Approximated functions (R222, log 5) -/

/-- Whether `|d| ≤ b`. -/
def within (d b : Val) : Bool := d.abs.le b

/-- `floor (log2 (1 / (m * 2^e)))`. -/
def rcpLog (m : Nat) (e : Int) : Int :=
  let l := floorLog2 m e
  if m = 2 ^ Nat.log2 m then -l else -l - 1

/-- Whether `c` lies within 1 ulp of `1 / x`. -/
def rcpNear (m : Nat) (e : Int) (c : Val) : Bool :=
  let x := Val.fin false m e
  within ((c.mul x).sub (.ofInt 1 0)) (x.scale (rcpLog m e - 23))

/-- V.RCP on one lane (R222). -/
def vRcp (w : Word) : Word :=
  match f32 w with
  | .nan => nan32
  | .inf n => toF32 (.zero n)
  | .fin n m e =>
    if m = 0 then toF32 (.inf n) else
    let c := f32 (Config.rcpApprox w)
    if !c.special && c.sign == n && rcpNear m e c.abs then toF32 c
    else toF32 ((Val.ofInt 1 0).div (.fin n m e))

/-- `floor (log2 (x^(-1/2)))` of a magnitude. -/
def rsqLog (m : Nat) (e : Int) : Int :=
  let l := floorLog2 m e
  if m = 2 ^ Nat.log2 m then (-l) / 2 else (-(l + 1)) / 2

/-- Whether `c` lies within `n` ulp of `x^(-1/2)`, an ulp being `2^(L - fb)`. -/
def rsqNear (n : Int) (fb : Int) (m : Nat) (e : Int) (c : Val) : Bool :=
  let x := Val.fin false m e
  let b := Val.ofInt n (rsqLog m e - fb)
  let lo := c.sub b
  let hi := c.add b
  (lo.sign || lo.isZero || ((lo.mul lo).mul x).le (.ofInt 1 0)) && (Val.ofInt 1 0).le ((hi.mul hi).mul x)

/-- V.RSQ on one lane (R222). -/
def vRsq (w : Word) : Word :=
  match f32 w with
  | .nan => nan32
  | .inf n => if n then nan32 else 0
  | .fin n m e =>
    if m = 0 then toF32 (.inf n) else if n then nan32 else
    let c := f32 (Config.rsqApprox w)
    if !c.special && !c.sign && rsqNear 2 23 m e c then toF32 c
    else toF32 ((Val.ofInt 1 0).div (Val.fin false m e).sqrt)

/-- `e^x` of a nonnegative `x` in units of `2^-160`, by its series: `n` terms from `t`, the `k`-th. -/
def expSeries : Nat → Nat → Nat → Nat → Nat → Nat
  | 0, _, _, _, acc => acc
  | n + 1, x, k, t, acc => expSeries n x (k + 1) (t * x / 2 ^ 160 / (k + 1)) (acc + t)

/-- `e^x` of a finite value as a magnitude, to far more than 24 bits. -/
def expVal (n : Bool) (m : Nat) (e : Int) : Val :=
  let x := (truncOn (-160) (.fin false m e)).natAbs
  let y := Val.fin false (expSeries 400 x 0 (2 ^ 160) 0) (-160)
  if n then (Val.ofInt 1 0).div y else y

/-- V.EXP on one lane (R222). -/
def vExp (w : Word) : Word :=
  match f32 w with
  | .nan => nan32
  | .inf n => if n then 0 else toF32 (.inf false)
  | .fin n m e =>
    let x := (Val.fin n m e).mul (.ofInt 100 0)
    if x.lt (.ofInt (-8733) 0) then 0
    else if (Val.ofInt 8872 0).lt x then toF32 (.inf false)
    else
      let y := expVal n m e
      let ulp := match y with
        | .fin _ a b => Val.ofInt 2 (floorLog2 a b - 23)
        | _ => .zero false
      let c := f32 (Config.expApprox w)
      if !c.special && !c.sign && within (c.sub y) ulp then toF32 c else toF32 y

/-! ### Lanes -/

/-- One level of the tree sum: neighbours added (R222). -/
def sumPairs : List Word → List Word
  | a :: b :: rest => fAdd a b :: sumPairs rest
  | l => l

/-- V.SUM: six levels (R222). -/
def treeSum (xs : List Word) : Word := ((List.range 6).foldl (fun l _ => sumPairs l) xs).headD 0

/-- A result on its way to a vector register (R258). -/
def UnitS.vResult (x : UnitS) (due : Nat) (vd : Fin 16) (val : List Word) : UnitS :=
  { x with vpend := x.vpend ++ [⟨due, x.nextId, vd, val⟩], nextId := x.nextId + 1 }

/-- A V-slot operation on registers, its result `lat` cycles after issue (R258). -/
def State.vOp (s : State) (u : LU) (vd : Fin 16) (lat : Nat) (f : UnitS → List Word) : State :=
  s.issue u .v fun s p x => s.setUnit p (x.vResult (s.cycle u.region + lat) vd (f x))

def lanes2 (f : Word → Word → Word) (a b : List Word) : List Word := (a.zip b).map fun e => f e.1 e.2

def lanes3 (f : Word → Word → Word → Word) (a b c : List Word) : List Word :=
  ((a.zip b).zip c).map fun e => f e.1.1 e.1.2 e.2

def State.vAdd (s : State) (u : LU) (vd va vb : Fin 16) : State :=
  s.vOp u vd 4 fun x => lanes2 fAdd (x.vreg va) (x.vreg vb)
def State.vSub (s : State) (u : LU) (vd va vb : Fin 16) : State :=
  s.vOp u vd 4 fun x => lanes2 fSub (x.vreg va) (x.vreg vb)
def State.vMul (s : State) (u : LU) (vd va vb : Fin 16) : State :=
  s.vOp u vd 4 fun x => lanes2 fMul (x.vreg va) (x.vreg vb)
def State.vFma (s : State) (u : LU) (vd va vb vc : Fin 16) : State :=
  s.vOp u vd 4 fun x => lanes3 fFma (x.vreg va) (x.vreg vb) (x.vreg vc)
def State.vRcpOp (s : State) (u : LU) (vd va : Fin 16) : State := s.vOp u vd 8 fun x => (x.vreg va).map vRcp
def State.vRsqOp (s : State) (u : LU) (vd va : Fin 16) : State := s.vOp u vd 8 fun x => (x.vreg va).map vRsq
def State.vExpOp (s : State) (u : LU) (vd va : Fin 16) : State := s.vOp u vd 12 fun x => (x.vreg va).map vExp
def State.vSum (s : State) (u : LU) (vd va : Fin 16) : State :=
  s.vOp u vd 8 fun x => List.replicate 64 (treeSum (x.vreg va))

/-- Every lane the immediate, read as BF16 (R241). -/
def State.vSplat (s : State) (u : LU) (vd : Fin 16) (imm : Half) : State :=
  s.vOp u vd 1 fun _ => List.replicate 64 (toF32 (bf16 imm))

/-- V.LDG: a row of a group, each pair rounded once (R147, R204, R242). -/
def State.vLdg (s : State) (u : LU) (vd : Fin 16) (g : Fin 4) (imm : Fin 64) (reg : Fin 16) : State :=
  s.issue u .v fun s p x =>
    let row := (imm.val + (x.areg reg).toNat) % 64
    let val := (List.range 64).map fun j => toF32 ((((x.group g).cells[64 * row + j]?).getD .zero).value)
    (s.setUnit p (x.vResult (s.cycle u.region + 5) vd val)).accFlagIf u accOpenRd ((x.group g).st != .shut)

/-! ### V.LD and V.ST -/

/-- Whether V.LD reads a format (R257). -/
def Fmt.vectorReads : Fmt → Bool
  | .bf16 | .fp32 | .sph | .mx .. | .ts .. => true
  | _ => false

/-- The lines of 64 consecutive stored elements, and of their scales. -/
def Opnd.vLines (o : Opnd) (f : Fmt) : List Nat :=
  (linesOf o.eb (8 * f.elemBits) ++ (if f.blockScaled then linesOf o.sb ((64 + f.blockLen - 1) / f.blockLen) else [])).eraseDups

/-- 64 consecutive stored elements from the operand's start, as FP32 (R145, R241). -/
def vLoad (f : Fmt) (r : Reader) (o : Opnd) : List Word :=
  (List.range 64).map fun n =>
    match f with
    | .fp32 => canon32 (BitVec.ofNat 32 (rdLe r (o.eb + 4 * n) 4))
    | .mx _ t | .ts _ t =>
      toF32 (decodeScaled t (r (o.sb + n / f.blockLen)).toNat (rdElem r o.eb t.bits n))
    | _ => toF32 (bf16 (BitVec.ofNat 16 (rdLe r (o.eb + 2 * n) 2)))

/-- The reads of a V.LD (R235). -/
def Opnd.vReads (o : Opnd) (c : Nat) : List LineAcc :=
  match o.fmt with
  | some f => (o.vLines f).zipIdx.map fun e => ⟨c + 1, e.1, none, 0, e.2, .read⟩
  | none => []

/-- V.LD. A refused one reads its lines and writes no register (R136, log 31). -/
def State.vLd (s : State) (u : LU) (vd : Fin 16) (desc : Fin 64) (reg : Fin 16) : State :=
  s.issue u .v fun s p x =>
    let c := s.cycle u.region
    let o := x.opnd desc (x.areg reg)
    if x.isFar desc || o.gal.isSome || !(o.fmt.map Fmt.vectorReads).getD false then
      let accs := if x.isFar desc || o.gal.isSome then [] else (x.sized desc (x.areg reg)).vReads c
      (s.setUnit p (x.readsOnly .v c accs [])).tuFlag u tuFmtBad
    else s.setUnit p (x.launch .v c (o.vReads c) [] (.vld vd o))

/-- When the lanes of a V.LD show: in cycle issue + 5, of a scaled format issue + 6 (R258). -/
def Opnd.vLatency (o : Opnd) : Nat := if (o.fmt.map Fmt.blockScaled).getD false then 6 else 5

/-- The lanes that a V.LD has read: its lines are all there. -/
def Flight.vValue (f : Flight) (o : Opnd) : List Word :=
  match o.fmt with
  | some t =>
    let ls := o.vLines t
    vLoad t (fun p => f.caught.lineByte 0 (ls.findIdx (· == p % 2 ^ 20 / 128)) (p % 128)) o
  | none => []

/-- The bytes that V.ST stores (R241). -/
def vStore (f : Fmt) (v : List Word) : List Byte :=
  match f with
  | .fp32 => (v.map fun w => natLe 4 w.toNat).flatten
  | _ => (v.map fun w => natLe 2 (toBf16 (f32 w)).toNat).flatten

/-- The part of bytes laid from address `a` that falls into a line. -/
def lineOf (a : Nat) (b : List Byte) (line : Nat) : List (Option Byte) :=
  (List.range 128).map fun x =>
    let p := (128 * line + x + 2 ^ 20 - a % 2 ^ 20) % 2 ^ 20
    b[p]?

def State.vSt (s : State) (u : LU) (va : Fin 16) (desc : Fin 64) (reg : Fin 16) : State :=
  s.issue u .v fun s p x =>
    let c := s.cycle u.region
    let o := x.opnd desc (x.areg reg)
    let ok := !x.isFar desc && o.gal.isNone && (o.fmt == some .bf16 || o.fmt == some .fp32)
    if !ok then s.tuFlag u tuFmtBad else
    let b := vStore (o.fmt.getD .bf16) (x.vreg va)
    let accs := (linesOf o.eb b.length).zipIdx.map fun e =>
      (⟨c + 3, e.1, none, 1, e.2, .data (lineOf o.eb b e.1) false⟩ : LineAcc)
    s.setUnit p (x.launch .v c accs [] .vst)

end Sys2Proof.Machine
end

