-- ==== Sys2Proof/Machine/Reduction.lean ====
section
/-!
DEFINITION. Gradient reduction (08_gradient_reduction.md R325 to R364): windows, contributions, rings, agreed scales,
cold-start requests, gleaning.
-/
namespace Sys2Proof.Machine

open Sys2Proof

/-! ### The forme's table (R326, R341) -/

/-- What the running forme puts on a die in the variant in force. -/
def State.formeDie (s : State) (d : Die) : Option FormeDie :=
  match s.partOf d with
  | some p => (s.part p).forme.bind fun f => f.onDie d (s.part p).variant
  | none => none

def State.window (s : State) (d : Die) (w : Nat) : Option RedWindow := (s.formeDie d).bind fun f => f.windows[w]?

def State.modRed (s : State) (d : Die) (f : RedS → RedS) : State := s.modDie d fun x => { x with red := f x.red }

/-- The tick in the step of a partition. -/
def State.stepTick (s : State) (p : Part) : Nat := s.now - (s.part p).stepStart

/-- A source of CD_RED_STAT that is a suspect event (R368). -/
def State.redSuspect (s : State) (d : Die) (b : Nat) : State := s.raiseSuspect (dreg .cdRedStat d) b

/-- A cold-start request (R357): while the partition is armed it counts toward the step, or the first step to come. -/
def State.coldRequest (s : State) (d : Die) : State :=
  let s := s.raiseBit (dreg .cdRedStat d) 14
  match s.partOf d with
  | some p => if (s.part p).armed then s.modPart p fun ps => { ps with coldReq := true } else s
  | none => s

/-! ### Blocks in the shared cache (R327, R339) -/

def RedWindow.blockAt (w : RedWindow) (k : Nat) : Nat := w.lines + 256 * k
def RedWindow.tagAt (w : RedWindow) (k : Nat) : Nat := w.lines + 256 * w.blocks + 4 * k

/-- A block as its line bytes and its tag hold it. -/
def RedWindow.read (w : RedWindow) (m : Memory) (k : Nat) : RedBlock :=
  let b := w.blockAt k
  let t := w.tagAt k
  let f := (m.byte (t + 1)).toNat
  { lines := (List.range 64).map fun i =>
      if w.sp32 then
        ((joinSp (BitVec.ofNat 16 (leNat (m.bytes (b + 2 * i) 2)))
          (BitVec.ofNat 16 (leNat (m.bytes (b + 128 + 2 * i) 2)))).toNat : Int)
      else (m.word (b + 4 * i)).toInt
    s := (m.byte t).toNat
    nan := f % 2 == 1
    sat := f / 2 % 2 == 1
    count := leNat (m.bytes (t + 2) 2) }

/-- The line bytes of a block. -/
def RedBlock.bytes (b : RedBlock) (sp32 : Bool) : List Byte :=
  if sp32 then
    (b.lines.map fun l => natLe 2 (l.toNat / 65536)).flatten ++ (b.lines.map fun l => natLe 2 l.toNat).flatten
  else (b.lines.map fun l => natLe 4 (BitVec.ofInt 32 l).toNat).flatten

def RedBlock.tag (b : RedBlock) : List Byte :=
  natLe 1 b.s ++ natLe 1 (b.nan.toNat + 2 * b.sat.toNat) ++ natLe 2 b.count

def RedWindow.write (w : RedWindow) (m : Memory) (k : Nat) (b : RedBlock) : Memory :=
  (m.write (w.blockAt k) (b.bytes w.sp32)).write (w.tagAt k) b.tag

def State.redBlock (s : State) (d : Die) (w : RedWindow) (k : Nat) : RedBlock := w.read (s.die d).cache k

def State.setRedBlock (s : State) (d : Die) (w : RedWindow) (k : Nat) (b : RedBlock) : State :=
  s.modDie d fun x => (x.putBytes (w.blockAt k) (b.bytes w.sp32)).putBytes (w.tagAt k) b.tag

/-- An access of the adders or the update engine to a block of a window: its lines take their banks and are read through their ECC
(R417 to R419). Whether all of them are served and good. -/
def State.blockServe (s : State) (d : Die) (w : RedWindow) (k : Nat) (c : Source) : State × Bool :=
  let lines := [w.blockAt k / 128, w.blockAt k / 128 + 1, w.tagAt k / 128].eraseDups
  lines.foldl (fun (acc : State × Bool) l =>
    let (s, ok) := acc.1.cacheServe d l c 0
    (s, acc.2 && ok)) (s, true)

/-- The value of element `i` of a block (R339). -/
def RedBlock.value (b : RedBlock) (sp32 : Bool) (i : Nat) : Val :=
  if b.nan then .nan
  else if b.count = 0 then .zero false
  else
    let l := (b.lines[i]?).getD 0
    if sp32 then f32 (BitVec.ofInt 32 l) else .ofInt l ((b.s : Int) - 143)

/-! ### Contributions (R330 to R335) -/

/-- A value rounded to an integer, ties to even. -/
def rneInt : Val → Int
  | .fin n m e =>
    let q : Nat := if 0 ≤ e then m <<< e.toNat else rneShr m (-e).toNat
    if n then -(q : Int) else (q : Int)
  | _ => 0

/-- What a contribution element does to a line element (R333, R334): the new element, NaN, clamped, rounded to zero. -/
structure LineOut where
  l : Int
  nan : Bool
  sat : Bool
  unf : Bool
  deriving DecidableEq, Repr

/-- An element into an integer line (R333): `first` where COUNT was 0. -/
def intLine (s : Nat) (first : Bool) (l : Int) (x : Val) (sc : Nat) : LineOut :=
  if sc = 255 ∨ x.special then ⟨l, true, false, false⟩ else
  let q := rneInt (x.scale ((sc : Int) - s + 16))
  let top : Int := 2 ^ 23 - 1
  let c := max (-top) (min top q)
  ⟨if first then c else l + c, false, c != q, q == 0 && !x.isZero⟩

/-- An element into an SP32 line (R334). -/
def sp32Line (first : Bool) (l : Int) (x : Val) (sc : Nat) : LineOut :=
  let f := if sc = 255 then nan32 else toF32 (x.scale ((sc : Int) - 127))
  if (f32 f).special then ⟨l, true, false, false⟩ else
  let r := if first then f else fAdd (BitVec.ofInt 32 l) f
  ⟨r.toNat, (f32 r).special, false, false⟩

/-- The formats a window takes (R332). -/
def RedWindow.takes (w : RedWindow) (sp32 : Bool) (f : Fmt) : Bool :=
  match f with
  | .ts _ t => t != .t2
  | .mx .. => true
  | .bf16 => w.sp32 || sp32
  | _ => false

/-- The rows that a format asks for (R330). -/
def Fmt.rowUnit : Fmt → Nat
  | .ts t _ => t.shape.1
  | .mx true _ => 32
  | _ => 1

/-- One block of a contribution: 64 elements with their scales added to a block whose COUNT is not full. -/
def RedBlock.take (b : RedBlock) (sp32 sown : Bool) (xs : List (Val × Nat)) : RedBlock × Nat × Bool :=
  let first := b.count == 0
  let rs := (b.lines.zip xs).map fun e =>
    if sp32 then sp32Line first e.1 e.2.1 e.2.2 else intLine b.s first e.1 e.2.1 e.2.2
  let clamped := rs.any (·.sat)
  ({ b with
      lines := rs.map (·.l)
      nan := b.nan || rs.any (·.nan)
      sat := b.sat || clamped
      count := if sown then b.count else b.count + 1 },
    (rs.filter (·.unf)).length, clamped)

/-- Whether block `k` is gleaned in step `st` (R359). -/
def gleaned (g k st : Nat) : Bool := g ≤ 16 && (k + st * 0x9E37) % 2 ^ g == 0

def State.gleanLog (s : State) (d : Die) : Nat := s.rdFld (dreg .cdRedCfg d) 20 16

/-- The number of the step that runs on a die, which is CD_STEP at its boundary (R313). -/
def State.dieStep (s : State) (d : Die) : Nat :=
  match s.partOf d with
  | some p => (s.stepNo p).toNat
  | none => (s.rd (dreg .cdStep d)).toNat

/-- Whether a window is a sown window: a SOW of the forme's drills, which lists the windows that its SOWs name (log 20), a window route
or a capacity slot names it (R380). -/
def Forme.sown (f : Forme) (d : Die) (w : Nat) : Bool :=
  f.clusters.any (fun c => c.routes.any (fun r => !r.link && r.windowDie = d && r.window == w)
      || c.sowDie.any fun e => e.2 = d && e.1 == w)
    || f.caps.any (fun c => c.sow && c.die = d && c.window == w)

def State.isSown (s : State) (d : Die) (w : Nat) : Bool :=
  match s.formeOn d with
  | some f => f.sown d w
  | none => false

/-- What a contribution brings for one block, in the order of its lines: the block's COUNT rises by one however many lines it
covers (R335). -/
def RedBlock.takeAll (b : RedBlock) (sp32 sown : Bool) : List (List (Val × Nat)) → RedBlock × Nat × Bool
  | [] => (b, 0, false)
  | xs :: rest =>
    rest.foldl (fun acc ys =>
      let (b, u, c) := acc.1.take sp32 true ys
      (b, acc.2.1 + u, acc.2.2 || c)) (b.take sp32 sown xs)

/-- A gleaned block's part of a contribution is copied to the checker before the owner applies it, in a fabric slot (R16, R360). -/
def State.gleanCopy (s : State) (d : Die) (wi : Nat) (w : RedWindow) (sown : Bool) (k : Nat) (parts : List (List (Val × Nat))) :
    State :=
  if !(w.glean && gleaned (s.gleanLog d) k (s.dieStep d)) then s else
  let b := s.redBlock d w k
  let (s, ok) := s.dieWay d (.die d) (.die w.checker)
  if !ok then s else
  s.modRed w.checker fun r =>
    let c := r.copies.getD (d, wi, k) { b with count := if sown then 1 else 0, nan := false, sat := false }
    { r with copies := r.copies.set (d, wi, k) (c.takeAll w.sp32 sown parts).1 }

/-- One block's part of a contribution applied at the owner, with its copy to the checker before it (R335, R360). A sown window's
blocks are not counted (R380). Where a line of the block is dropped or bad, the part is not applied (R418, R419). -/
def State.takeBlock (s : State) (d : Die) (wi : Nat) (w : RedWindow) (sown : Bool) (k : Nat) (parts : List (List (Val × Nat))) :
    State :=
  let b := s.redBlock d w k
  if !sown && 256 ≤ b.count then s.redSuspect d 3 else
  let (s, served) := (s.gleanCopy d wi w sown k parts).blockServe d w k .adders
  if !served then s else
  let (b, unf, clamped) := b.takeAll w.sp32 sown parts
  let s := (s.setRedBlock d w k b).count (dreg .cdRedUnfCnt d) unf
  if clamped then ((s.count (dreg .cdRedExhCnt d) 1).redSuspect d 5).coldRequest d else s

/-! ### The adders' work (R336, R338) -/

/-- The element of an array that a contribution carries, with its scale code: the element array at `eb`, the scales at
`sb`. -/
def Fmt.element (f : Fmt) (r : Reader) (eb sb rows cols i j : Nat) : Val × Nat :=
  (f.rawAt r eb rows cols i j, f.scaleAt r sb rows cols i j)

/-- The blocks of a contribution in the order of its lines (R330, R336). -/
def contribBlocks (pitch index rows cols : Nat) (el : Nat → Nat → Val × Nat) : List (Nat × List (Val × Nat)) :=
  (List.range (rows * (cols / 64))).map fun n =>
    let i := n / (cols / 64)
    let j := n % (cols / 64) * 64
    ((index + i * 64 * pitch + j) / 64, (List.range 64).map fun x => el i (j + x))

/-- Work is queued in order of arrival, in one tick in ascending order of source port (R336). -/
def AdderWork.queue (w : AdderWork) (ws : List AdderWork) : List AdderWork :=
  let before := ws.takeWhile fun x => decide (x.tick < w.tick ∨ x.port ≤ w.port)
  before ++ w :: ws.drop before.length

/-- Bytes that come in at a die's adders (R338). -/
def State.intake (s : State) (d : Die) (n : Nat) : State := s.modRed d fun r => { r with owed := r.owed + n }

/-- Whether a window takes contributions now: from OPEN until SEAL (R332). -/
def State.windowTakes (s : State) (d : Die) (wi : Nat) (w : RedWindow) : Bool :=
  (s.die d).red.opened.contains wi && (match s.running d with
    | some p => decide (s.stepTick p < w.sealAt)
    | none => false)

/-- A contribution reaches a die by a port (R330 to R332): format, place and time are tested, and it waits for the adders.
`el` gives its elements with their scale codes, `skip` the blocks that a dropped line takes from it (log 31). -/
def State.contribute (s : State) (d : Die) (port wi index : Nat) (f : Fmt) (rows cols : Nat) (el : Nat → Nat → Val × Nat)
    (skip : List Nat := []) : State :=
  match s.window d wi with
  | none => s.redSuspect d 1
  | some w =>
    if !w.takes (s.isSown d wi) f || cols % 64 != 0 || cols == 0 || rows % f.rowUnit != 0 || index % 64 != 0 then
      s.redSuspect d 2
    else if !s.windowTakes d wi w || rows == 0 || w.blocks * 64 < index + (rows - 1) * 64 * w.pitch + cols then
      s.redSuspect d 1
    else
      let bs := ((contribBlocks w.pitch index rows cols el).zipIdx.filter fun e => !skip.contains e.2).map (·.1)
      s.modRed d fun r => { r with work := AdderWork.queue ⟨port, s.now, r.owed, wi, bs⟩ r.work }

/-- A contribution is applied, block by block (R333 to R336). -/
def State.applyWork (s : State) (d : Die) (w : AdderWork) : State :=
  match s.window d w.window with
  | none => s
  | some win => ((w.blocks.map (·.1)).eraseDups).foldl (fun s k =>
    s.takeBlock d w.window win (s.isSown d w.window) k ((w.blocks.filter (·.1 = k)).map (·.2))) s

/-- The adders in one tick (R338): 1,024 B of intake, and the contributions that are in by now, or came 64 ticks ago, are
applied in order. -/
def State.adderTick (s : State) (d : Die) : State :=
  let r := (s.die d).red
  if (r.owed == 0 && r.work.isEmpty) || s.clockOut (.uncore d) || s.dieClosed d then s else
  let ws := r.work.map fun w => { w with behind := w.behind - 1024 }
  let go := ws.takeWhile fun w => w.behind == 0 || decide (w.tick + 64 ≤ s.now)
  go.foldl (fun s w => s.applyWork d w)
    (s.modRed d fun r => { r with owed := r.owed - 1024, work := ws.drop go.length })

/-! ### Histories (R353 to R355) -/

/-- The base of the recto or the verso history region. -/
def State.histBase (s : State) (d : Die) (verso : Bool) : Nat :=
  if s.rdBit (dreg .cdHist d) 0 != verso then s.pair64 .cdHistBLo .cdHistBHi d else s.pair64 .cdHistALo .cdHistAHi d

/-- Bytes of a stack as they stand, through the remap table. -/
def DieS.stackBytes (x : DieS) (a n : Nat) : List Byte := (List.range n).map fun i => x.hbm.byte (x.physical (a + i))

/-- The recto record of a window as it was read at OPEN (R353, R355). -/
def State.histRec (s : State) (d : Die) (wi : Nat) : List Byte := (s.die d).red.recs.getD wi []

def State.formeJob (s : State) (d : Die) : Nat := match s.formeOn d with
  | some f => f.job.toNat
  | none => 0

/-- Whether the recto record of a window passes the check of R355. -/
def State.histGood (s : State) (d : Die) (wi : Nat) : Bool :=
  let b := s.histRec d wi
  decide (16 ≤ b.length) && leNat (b.take 4) == s.formeJob d && ((b[10]?).getD 0).getLsbD 0
    && decide (leNat ((b.drop 4).take 4) ≤ s.dieStep d)

/-- STREAK of the recto or the verso record of a window, if the record is this job's and valid (R353, R364). -/
def State.streakOf (s : State) (d : Die) (w : RedWindow) (verso : Bool) : Option Nat :=
  let b := (s.die d).stackBytes (s.histBase d verso + w.hist) 16
  if leNat (b.take 4) = s.formeJob d ∧ ((b[10]?).getD 0).getLsbD 0 then some (leNat ((b.drop 8).take 2)) else none

/-- The agreed scale of a block (R353, R355, R356): 0x7F where the record does not pass. -/
def State.agreed (s : State) (d : Die) (wi k : Nat) : Nat :=
  if s.histGood d wi then (((s.histRec d wi)[16 + k]?).getD 0).toNat else 0x7F

/-- The accesses of a run of history bytes, each of which must keep clear of commit ticks (R315, R353). -/
def State.noteRun (s : State) (d : Die) (a n : Nat) : State := (pieces 64 a n).foldl (fun s _ => s.notePair d true) s

/-- The recto record of a window is read from the stack at OPEN, by accesses of the die's own (R353, R355, log 31). -/
def State.readHistory (s : State) (d : Die) (wi : Nat) (w : RedWindow) : State :=
  let a := s.histBase d false + w.hist
  let n := 16 + w.blocks
  let (s, b) := (s.noteRun d a n).engineRead d true (plainOff a) n (.step d) .adders true
  s.modRed d fun r => { r with recs := r.recs.set wi b }

/-! ### WINDOW_OPEN and WINDOW_SEAL (R328, R335, R354, R355, R380) -/

/-- A window of a die whose time has come in the step that runs there. -/
def State.windowDue (s : State) (d : Die) (wi : Nat) (at_ : RedWindow → Nat) : Option (Part × RedWindow) :=
  match s.running d, s.window d wi with
  | some p, some w => if at_ w ≤ s.stepTick p ∧ s.clockOut (.uncore d) = false ∧ s.dieClosed d = false then some (p, w) else none
  | _, _ => none

def State.windowOpen (s : State) (d : Die) (wi : Nat) : State :=
  match s.windowDue d wi (·.openAt) with
  | none => s
  | some (_, w) =>
    let r := (s.die d).red
    if r.opened.contains wi || r.sealedW.contains wi then s else
    let sown := s.isSown d wi
    let s := (s.readHistory d wi w).intake d (if sown then 256 * w.blocks else 0)
    let good := s.histGood d wi
    let s := (List.range w.blocks).foldl (fun s k =>
      let b := s.redBlock d w k
      s.setRedBlock d w k { b with
        lines := if sown then List.replicate 64 0 else b.lines
        s := s.agreed d wi k
        nan := false, sat := false
        count := if sown then 1 else 0 }) s
    let s := s.modRed d fun r => { r with opened := wi :: r.opened }
    let s := s.modRed w.checker fun r => { r with copies := r.copies.drop fun e => e.1 = d && e.2.1 == wi }
    if good || w.sp32 then s else (s.redSuspect d 7).coldRequest d

/-- The scale code of the next step from a result (R352): `s` is the agreed scale, `got` the scale that the result carries
(R346), `e` is `floor (log2 amax) + 121`, `none` a NaN or no result, `some none` an all-zero block. -/
def nextScale (s got floor : Nat) (e : Option (Option Int)) : Nat :=
  match e with
  | none => s
  | some none => max (got - 4) floor
  | some (some e) => (max (floor : Int) (min (e + 1) 254)).toNat

/-- The exponent of R352 of a block of values. -/
def resultExp (vs : List Val) : Option (Option Int) :=
  if vs.any Val.special then none else
  some ((vs.filterMap fun v => match v with
    | .fin _ m e => if m = 0 then none else some (floorLog2 m e + 121)
    | _ => none).max?)

/-- The NaN policy of a result block (R363). -/
def State.nanResult (s : State) (d : Die) : State :=
  let counts := !s.rdBit (dreg .cdRedCfg d) 21
  let s := (s.count (dreg .cdRedNanCnt d) 1).raiseBit (dreg .cdRedStat d) 10 counts
  if counts then s.suspectDie d else s

/-- The verso record of a window is written (R352, R354, R364); `res k` are the result's scale, where it carries one, and
its values, if it was stored. -/
def State.writeHistory (s : State) (d : Die) (wi : Nat) (w : RedWindow) (res : Nat → Option (Option Nat × List Val)) : State :=
  let rs := (List.range w.blocks).map res
  let ss := rs.zipIdx.map fun (r, k) =>
    let ag := s.agreed d wi k
    BitVec.ofNat 8 (nextScale ag ((r.bind (·.1)).getD ag) w.floor (r.bind fun x => resultExp x.2))
  let zero : Bool := rs.all fun r => match r with
    | some vs => vs.2.all Val.isZero
    | none => false
  let streak := if s.histGood d wi then leNat (((s.histRec d wi).drop 8).take 2) else 0
  let cold := match s.partOf d with
    | some p => ((s.part p).forme.bind fun f => f.variants[(s.part p).variant]?).any (·.kind == .cold)
    | none => false
  let streak' := if cold || !zero then 0 else min (streak + 1) 65535
  let head := natLe 4 (s.formeJob d) ++ natLe 4 (s.dieStep d + 1) ++ natLe 2 streak' ++ [1, 0, 0, 0, 0, 0]
  let a := s.histBase d true + w.hist
  let b := head ++ ss
  (s.noteRun d a b.length).engineWrite d true (plainOff a) (.step d) .adders (padTo ((b.length + 63) / 64 * 64) b) true

def State.windowSeal (s : State) (d : Die) (wi : Nat) : State :=
  match s.windowDue d wi (·.sealAt) with
  | none => s
  | some (_, w) =>
    if !(s.die d).red.opened.contains wi then s else
    let sown := s.isSown d wi
    let s := s.modRed d fun r => { r with opened := r.opened.filter (· ≠ wi), sealedW := wi :: r.sealedW }
    let s := if sown then s else (List.range w.blocks).foldl (fun s k =>
      if (s.redBlock d w k).count = w.expected then s else s.redSuspect d 4) s
    if w.ring then s else
    let s := (List.range w.blocks).foldl (fun s k => if (s.redBlock d w k).nan then s.nanResult d else s) s
    let x := s
    let s := s.writeHistory d wi w fun k =>
      let b := x.redBlock d w k
      some (none, (List.range 64).map (b.value w.sp32))
    s.modRed d fun r => { r with recorded := wi :: r.recorded }

/-! ### Carried blocks (R141 to R144, R343) -/

def cf16Nan : List Half := List.replicate 64 0x7FC0

/-- A block read from carried bytes. -/
def RingBlock.parse (cf16 : Bool) (b : List Byte) : RingBlock :=
  if cf16 then .cf16 ((List.range 64).map fun i => BitVec.ofNat 16 (leNat ((b.drop (2 * i)).take 2)))
  else
    let h := ((b[1]?).getD 0).toNat
    .cf8 ((b[0]?).getD 0).toNat (h % 4) (h / 4 % 2 == 1)
      ((List.range 64).map fun i => signed 8 ((b[2 + i]?).getD 0).toNat)

def RingBlock.bytes : RingBlock → List Byte
  | .cf8 s h sat e => natLe 1 s ++ natLe 1 (h + 4 * sat.toNat) ++ e.map (BitVec.ofInt 8)
  | .cf16 e => (e.map fun h => natLe 2 h.toNat).flatten

def carriedBytes (cf16 : Bool) : Nat := if cf16 then 128 else 66

def RingBlock.nanBlock (cf16 : Bool) : RingBlock := if cf16 then .cf16 cf16Nan else .cf8 255 0 false (List.replicate 64 0)

def RingBlock.isNan : RingBlock → Bool
  | .cf8 s .. => s == 255
  | .cf16 e => e.any fun h => (bf16 h).special

/-- The scale that a carried block bears. -/
def RingBlock.scale : RingBlock → Option Nat
  | .cf8 s .. => some s
  | .cf16 _ => none

/-- The values a carried block decodes to (R142, R143, R144). -/
def RingBlock.values : RingBlock → List Val
  | .cf8 s h _ e => e.map fun x => if s = 255 then .nan else .ofInt x ((s : Int) - 127 + h)
  | .cf16 e => e.map bf16

/-! ### Forming an outgoing block (R344 to R347, R350) -/

/-- The local value of an element in units of `2^(S - 143)` (R344): the line element itself for an integer block, whose
grid is re-expressed where S differs (R346). -/
def localUnits (b : RedBlock) (sp32 : Bool) (s i : Nat) : Int :=
  let top : Int := 2 ^ 40
  if b.count = 0 then 0
  else
    let l := (b.lines[i]?).getD 0
    let v := if sp32 then f32 (BitVec.ofInt 32 l) else .ofInt l ((b.s : Int) - 143)
    max (-top) (min top (rneInt (v.scale (143 - (s : Int)))))

/-- The least H from `h` at which every element fits, the carried elements, and whether they were clamped (R344). -/
def fitH : Nat → Nat → List Int → Nat × List Int × Bool
  | 0, h, w =>
    let r := w.map fun x => rneDivInt x (2 ^ (16 + h))
    (h, r.map fun x => max (-127) (min 127 x), r.any fun x => 127 < x.natAbs)
  | n + 1, h, w =>
    let r := w.map fun x => rneDivInt x (2 ^ (16 + h))
    if r.all fun x => x.natAbs ≤ 127 then (h, r, false) else fitH n (h + 1) w

/-- An outgoing CF8 block: from a received block or none, and the local block (R344, R347). -/
def formCf8 (agreed : Nat) (got : Option (Nat × Nat × Bool × List Int)) (b : RedBlock) (sp32 : Bool) :
    RingBlock × Bool :=
  let (s, h, sat, e) := got.getD (agreed, 0, false, List.replicate 64 0)
  if b.nan || s == 255 then (.nanBlock false, false) else
  let w := e.zipIdx.map fun (x, i) => x * 2 ^ (16 + h) + localUnits b sp32 s i
  let (h', r, clamped) := fitH (3 - h) h w
  (.cf8 s h' (sat || clamped) r, clamped)

/-- An outgoing CF16 block (R350). -/
def formCf16 (got : Option (List Half)) (b : RedBlock) (sp32 : Bool) : RingBlock :=
  if b.nan then .nanBlock true else
  .cf16 ((List.range 64).map fun i =>
    let l := b.value sp32 i
    match got with
    | some e => toBf16 ((bf16 ((e[i]?).getD 0)).add l)
    | none => toBf16 l)

/-! ### Ring entries (R341, R342, R346 to R349, R361) -/

def State.ringEntry (s : State) (d : Die) (i : Nat) : Option RingEntry := (s.formeDie d).bind fun f => f.rings[i]?

/-- The tick at which a slot of a furrow of the step starts. -/
def State.slotTick (s : State) (p : Part) (furrow slot : Nat) : Nat := (s.part p).stepStart + furrow * 16384 + slot * 128

/-- The buffer that the slot table names for a slot, to receive or to send (R438). -/
def State.slotBuf (s : State) (port : Port) (lane t : Nat) (send : Bool) : Option BufId :=
  let k : Fin 8 := ⟨lane % 8, by omega⟩
  (s.slotEntry port k t).map fun e => ⟨port, k, if send then e.2.2.tbuf else e.2.2.rbuf⟩

/-- The payload that a ring entry receives; `none` is a blank (R348). -/
def State.ringRx (s : State) (p : Part) (e : RingEntry) : Option (List Byte) :=
  let t := s.slotTick p (e.furrow - e.rxBack) e.rxSlot
  match s.slotBuf e.rxPort e.rxLane t false with
  | some b =>
    let x := s.recvBuf b
    if x.tag.map (·.1) = some (slotValue t) then some x.data else none
  | none => none

/-- Whether the receive slot of a ring entry has come: it is in its buffer, or the 128 ticks from its arrival tick are
over (R79, R349). -/
def State.ringDue (s : State) (p : Part) (e : RingEntry) : Bool :=
  let t := s.slotTick p (e.furrow - e.rxBack) e.rxSlot
  (s.ringRx p e).isSome || decide ((t + 136) * 64 + s.rdFld (portReg .ldPortDelay e.rxPort e.rxLane) 23 0 ≤ s.now * 64)

/-- A ring entry's send buffer is filled and tagged for its slot; without a payload it is left as it is (R348). -/
def State.ringTx (s : State) (p : Part) (e : RingEntry) (pay : Option (List Byte)) : State :=
  let t := s.slotTick p e.furrow e.txSlot
  match s.slotBuf e.txPort e.txLane t true, pay with
  | some b, some v =>
    s.setSend b { (s.sendBuf b).setTag (some (slotValue t)) s.now with data := v ++ List.replicate (2560 - v.length) 0 }
  | _, _ => s

/-- A result is stored (R342 RESULT): in the die's shared cache, or at a plain address of its stack, in a fabric slot (R16). -/
def State.ringStore (s : State) (d : Die) (e : RingEntry) (j : Nat) (b : List Byte) : State :=
  let a := e.result + carriedBytes e.cf16 * j
  let (s, ok) := if e.hbm then s.dieWay d (.die d) (.stack d) else (s, true)
  if !ok then s else
  (s.engineWrite d e.hbm (if e.hbm then plainOff a else a % cacheSize) (.step d) .adders b).modRed d fun r =>
    { r with stored := (e.window, e.first + j) :: r.stored }

def State.ringRead (s : State) (d : Die) (e : RingEntry) (j : Nat) : List Byte :=
  let a := e.result + carriedBytes e.cf16 * j
  if e.hbm then (s.die d).stackBytes a (carriedBytes e.cf16) else (s.die d).cache.bytes (a % cacheSize) (carriedBytes e.cf16)

/-- A received finite block whose S differs from the agreed one (R346). -/
def State.disagree (s : State) (d : Die) (agreed : Nat) (b : RingBlock) : State :=
  match b with
  | .cf8 sc .. => if sc = 255 ∨ sc = agreed then s else (s.redSuspect d 6).coldRequest d
  | .cf16 _ => s

/-- The three things copied to the checker for a gleaned block, in a fabric slot (R16, R361). -/
def State.ringCopy (s : State) (d : Die) (i : Nat) (w : RedWindow) (e : RingEntry) (k : Nat)
    (got out stored : Option (List Byte)) : State :=
  if w.glean && gleaned (s.gleanLog d) k (s.dieStep d) then
    let c : RingCopy := ⟨d, i, e.window, k, got, s.redBlock d w k, out, stored⟩
    let (s, ok) := s.dieWay d (.die d) (.die w.checker)
    if !ok then s else
    s.modRed w.checker fun r => { r with ringCopies := r.ringCopies ++ [c] }
  else s

/-- What a HOP or a HOME adds to in CF16: the received elements, or zeros for a blank (R348, R350). -/
def cf16In (start : Bool) (got : Option RingBlock) : Option (List Half) :=
  if start then none else match got with
    | some (.cf16 x) => some x
    | _ => some (List.replicate 64 0)

/-- What it adds to in CF8; a blank is all zeros at the agreed scale (R344, R348). -/
def cf8In (got : Option RingBlock) : Option (Nat × Nat × Bool × List Int) :=
  match got with
  | some (.cf8 sc h st x) => some (sc, h, st, x)
  | _ => none

/-- Block `j` of an adding entry (START, HOP, HOME), with the bytes it received: what it sends (R344 to R348). -/
def State.ringAdd (s : State) (d : Die) (i : Nat) (w : RedWindow) (e : RingEntry) (j : Nat) (raw : Option (List Byte)) :
    State × RingBlock :=
  let k := e.first + j
  let (s, served) := s.blockServe d w k .adders
  let b := s.redBlock d w k
  let b := if served then b else { b with lines := List.replicate 64 0 }
  let ag := s.agreed d e.window k
  let got := raw.map (RingBlock.parse e.cf16)
  let s := match got with
    | some g => s.disagree d ag g
    | none => s
  let (out, clamped) := if e.cf16 then (formCf16 (cf16In (e.action == .start) got) b w.sp32, false)
    else formCf8 ag (cf8In got) b w.sp32
  let s := if clamped then ((s.count (dreg .cdRedExhCnt d) 1).redSuspect d 5).coldRequest d else s
  (s.ringCopy d i w e k raw (some out.bytes) none, out)

/-- Once the last entry that stores a result of a window has run, the verso record is written (R354). -/
def State.ringRecord (s : State) (d : Die) (wi : Nat) (w : RedWindow) : State :=
  let es := ((s.formeDie d).map (·.rings)).getD []
  let stores := es.zipIdx.filter fun (e, _) =>
    e.window == wi && (e.action == .home || e.action == .pass || e.action == .end_)
  let r := (s.die d).red
  if r.recorded.contains wi || !(stores.all fun (_, i) => r.ringDone.contains i) then s else
  let s := s.writeHistory d wi w fun k =>
    if !r.stored.contains (wi, k) then none else
    match stores.find? fun (e, _) => e.first ≤ k && k < e.first + e.count with
    | some (e, _) =>
      let b := RingBlock.parse e.cf16 (s.ringRead d e (k - e.first))
      some (b.scale, b.values)
    | none => none
  s.modRed d fun r => { r with recorded := wi :: r.recorded }

/-- Whether a ring entry adds its own block to what came (R341). -/
def RingEntry.adds (e : RingEntry) : Bool := e.action == .start || e.action == .hop || e.action == .home

/-- The bytes of intake that a block of a ring entry counts as (R338). -/
def RingEntry.intake (e : RingEntry) : Nat :=
  if e.action == .pass || e.action == .end_ then carriedBytes e.cf16 else if e.cf16 then 384 else 322

/-- Block `j` of a ring entry, with the block that came for it: what the entry sends on for it (R341 to R349). -/
def State.ringBlock (s : State) (d : Die) (i : Nat) (w : RedWindow) (e : RingEntry) (j : Nat) (g : Option (List Byte)) :
    State × List Byte :=
  if e.adds then
    let (s, o) := s.ringAdd d i w e j g
    if e.action != .home then (s, o.bytes) else
    let s := s.ringStore d e j o.bytes
    (if o.isNan then s.nanResult d else s, o.bytes)
  else match g with
    | some g =>
      let k := e.first + j
      let s := (s.disagree d (s.agreed d e.window k) (.parse e.cf16 g)).ringStore d e j g
      (s.ringCopy d i w e k (some g) (some g) (some (s.ringRead d e j)), g)
    | none => (s, [])

/-- A ring entry runs: START where `start`, else with the blocks it received, once its receive slot has come (R341 to
R349). What it receives and sends crosses the link-die port in fabric slots: without one it has received a blank, and fills nothing
(R16, log 30). -/
def State.ringRun (s : State) (d : Die) (i : Nat) (start : Bool) : State :=
  match s.running d, s.ringEntry d i with
  | some p, some e =>
    match s.window d e.window with
    | none => s
    | some w =>
      if (s.die d).red.ringDone.contains i || (e.action == .start) != start || s.clockOut (.uncore d) || s.dieClosed d
          || (!start && !s.ringDue p e) then s else
      let s := (s.modRed d fun r => { r with ringDone := i :: r.ringDone }).intake d (e.intake * e.count)
      let s := if e.adds && !(s.die d).red.sealedW.contains e.window then s.redSuspect d 8 else s
      let (s, came) := if e.action == .start then (s, true)
        else s.fabricWay p (.link (portLinkDie e.rxPort e.rxLane)) (.die d)
      let rx := if e.action == .start || !came then none else s.ringRx p e
      let part := fun (j : Nat) => rx.map fun b => (b.drop (carriedBytes e.cf16 * j)).take (carriedBytes e.cf16)
      let (s, out) := (List.range e.count).foldl (fun (acc : State × List Byte) j =>
        let (s, b) := acc.1.ringBlock d i w e j (part j)
        (s, acc.2 ++ b)) (s, [])
      let (s, goes) := if e.action == .end_ then (s, false)
        else s.fabricWay p (.die d) (.link (portLinkDie e.txPort e.txLane))
      let s := if goes then s.ringTx p e (if !e.adds && rx.isNone then none else some out) else s
      s.ringRecord d e.window w
  | _, _ => s

/-- A slot that a ring entry was to fill, and whose tag is unset at its sampling tick (R349). -/
def State.ringLate (s : State) (port : Port) (lane : Fin 8) : State :=
  let t := s.now / 128 * 128
  let set : Bool := match s.slotBuf port lane.val t true with
    | some b => (s.sendBuf b).sampled t == some (slotValue t)
    | none => false
  if set then s else
  allDies.foldl (fun s d =>
    match s.running d, s.formeDie d with
    | some p, some f =>
      f.rings.foldl (fun s e =>
        if e.action != .end_ && e.txPort = port && e.txLane == lane.val && s.slotTick p e.furrow e.txSlot == t then
          s.raiseBit (dreg .cdRedStat d) 13
        else s) s
    | _, _ => s) s

/-! ### Slots that bring contributions (R331) -/

/-- Bytes up to the next line. -/
def lineUp (n : Nat) : Nat := (n + 127) / 128 * 128

/-- The source port of a contribution that a slot brings, after the cluster ports 0 to 31 (R336). -/
def linkPort (p : Port) (k : Fin 8) : Nat := 32 + 8 * p.val + k.val

/-- An ACCUM slot: its payload is a contribution to the window its descriptor names, and goes to the die in a fabric slot (R16,
R331). -/
def State.accumSlot (s : State) (p : Port) (k : Fin 8) (x : RxSlot) : State :=
  match s.judgeSlot p k x with
  | (s, none) => s
  | (s, some (q, f, e, pay)) =>
    if e.rkind != .accum then s else
    match pay, f.accums[e.rarg]? with
    | some b, some a =>
      if s.dieClosed a.die then s.blankSlot p k q x.tick else
      let (s, ok) := s.fabricWay q (.link (portLinkDie p k.val)) (.die a.die)
      if !ok then s.blankSlot p k q x.tick else
      match Fmt.ofCode a.fmt with
      | some m => (s.intake a.die 2560).contribute a.die (linkPort p k) a.window a.elem m a.rows a.cols
          (m.element (fun v => (b[v]?).getD 0) 0 (lineUp (m.arrayBytes a.rows a.cols)) a.rows a.cols)
      | none => s.redSuspect a.die 2
    | none, _ => s.blankSlot p k q x.tick
    | _, none => s

/-! ### Gleaning (R360 to R362) -/

/-- R361's test of a CF8 element: `w` the exact sum in units of `2^(S - 143)`. -/
def gleanElem (h : Nat) (w r : Int) : Bool :=
  if 127 < (rneDivInt w (2 ^ (16 + h))).natAbs then
    decide (255 * 2 ^ 18 < w.natAbs) && (r == if w < 0 then -127 else 127)
  else decide ((r * 2 ^ (16 + h) - w).natAbs ≤ 2 ^ (15 + h))

/-- R361's test of an outgoing CF8 block: the least H that fits, and every element. -/
def gleanCf8 (agreed : Nat) (got : Option (Nat × Nat × Bool × List Int)) (b : RedBlock) (sp32 : Bool) (o : RingBlock) :
    Bool :=
  let (s, h, _, e) := got.getD (agreed, 0, false, List.replicate 64 0)
  match o with
  | .cf16 _ => false
  | .cf8 so ho _ r =>
    if b.nan || s == 255 then o == .nanBlock false else
    let w := e.zipIdx.map fun (x, i) => x * 2 ^ (16 + h) + localUnits b sp32 s i
    so == s && ho == (fitH (3 - h) h w).1 && (w.zip r).all fun (x, y) => gleanElem ho x y

/-- R361's test of a CF16 element: within half an ulp of the exact sum; what rounds to zero, infinity or NaN is that. -/
def gleanHalf (o : Half) (x : Val) : Bool :=
  o == toBf16 x || (match x, bf16 o with
    | .fin n m e, .fin n' m' e' =>
      let low := min e e'
      let top := max (floorLog2 m e) (-126) - 8 - low
      let gap := ((if n then -1 else 1) * (m : Int) * 2 ^ (e - low).toNat
        - (if n' then -1 else 1) * (m' : Int) * 2 ^ (e' - low).toNat).natAbs
      m != 0 && decide (0 ≤ top) && decide (gap ≤ 2 ^ top.toNat)
    | _, _ => false)

/-- R361's test of an outgoing CF16 block. -/
def gleanCf16 (got : Option (List Half)) (b : RedBlock) (sp32 : Bool) (o : RingBlock) : Bool :=
  match o with
  | .cf8 .. => false
  | .cf16 e =>
    if b.nan then o == .nanBlock true else
    e.zipIdx.all fun (h, i) =>
      let l := b.value sp32 i
      gleanHalf h (match got with
        | some x => (bf16 ((x[i]?).getD 0)).add l
        | none => l)

/-- Whether an outgoing block is as R361 asks of an adding entry. -/
def gleanAdd (start cf16 sp32 : Bool) (agreed : Nat) (c : RingCopy) : Bool :=
  match c.out with
  | none => false
  | some o =>
    let got := c.received.map (RingBlock.parse cf16)
    if cf16 then gleanCf16 (cf16In start got) c.loc sp32 (.parse true o)
    else gleanCf8 agreed (cf8In got) c.loc sp32 (.parse false o)

/-- The ring entries of a die that carry a block of a window and have not run. -/
def State.ringAhead (s : State) (d : Die) (wi k : Nat) : Bool :=
  (((s.formeDie d).map (·.rings)).getD []).zipIdx.any fun (e, i) =>
    e.window == wi && decide (e.first ≤ k) && decide (k < e.first + e.count) && !(s.die d).red.ringDone.contains i

/-- The comparison of a gleaned block at the checker, once its window is sealed and its ring entries have run (R360,
R361). -/
def State.gleanCompare (s : State) (d owner : Die) (wi k : Nat) : State :=
  match s.running owner, s.window owner wi with
  | some _, some w =>
    if w.checker ≠ d || s.clockOut (.uncore d) || !w.glean || !gleaned (s.gleanLog owner) k (s.dieStep owner)
        || w.blocks ≤ k || !(s.die owner).red.sealedW.contains wi || s.ringAhead owner wi k || (s.die d).red.compared.contains (owner, wi, k) then s else
    let (s, ok) := s.dieWay owner (.die owner) (.die d)
    if !ok then s else
    let b := s.redBlock owner w k
    let fresh : RedBlock := { b with count := if s.isSown owner wi then 1 else 0, nan := false, sat := false }
    let c := (s.die d).red.copies.getD (owner, wi, k) fresh
    let direct : Bool := (if b.count = 0 then c.count == 0 else c == b)
    let rings := (s.die d).red.ringCopies.filter fun e => e.owner = owner && e.window == wi && e.block == k
    let ringOk := rings.all fun c =>
      match s.ringEntry owner c.entry with
      | some e =>
        if e.action == .pass || e.action == .end_ then c.out == c.received && c.stored == c.received
        else gleanAdd (e.action == .start) e.cf16 w.sp32 (s.agreed owner e.window k) c
      | none => false
    let s := (s.count (dreg .cdRedGleanCnt d) 1).modRed d fun r => { r with compared := (owner, wi, k) :: r.compared }
    if direct && ringOk then s else (s.count (dreg .cdRedMismCnt d) 1).redSuspect d 9
  | _, _ => s

/-- Gleaned blocks whose comparison has not completed by the verdict tick: each event enters this verdict (R362). -/
def State.gleanDue (s : State) (p : Part) : State :=
  (s.partDies p).foldl (fun s d =>
    match s.formeDie d with
    | none => s
    | some f => f.windows.zipIdx.foldl (fun s (w, wi) =>
      if !w.glean then s else
      (List.range w.blocks).foldl (fun s k =>
        if gleaned (s.gleanLog d) k (s.dieStep d)
            && !(s.die w.checker).red.compared.contains (d, wi, k) then
          ((s.count (dreg .cdRedMismCnt w.checker) 1).raiseBit (dreg .cdRedStat w.checker) 9 true).charge p 1
        else s) s) s) s

/-- A contribution whose last line has landed at its owner (R330, R331). -/
def State.accumulate (s : State) (x : Contribution) : State :=
  if s.dieClosed x.die then s else
  match Fmt.ofCode x.fmt with
  | some f => (s.intake x.die x.bytes.length).contribute x.die x.port.val x.window x.index f x.rows x.cols
      (f.element (fun v => (x.bytes[v]?).getD 0) 0 x.scales x.rows x.cols)
  | none => s.redSuspect x.die 2

/-- What the verdict tick finds ungleaned, where it is due (R362, R473). -/
def State.gleanAt (s : State) (p : Part) : State :=
  let ps := s.part p
  match ps.forme with
  | some f => if ps.running && !ps.vdone && decide (ps.stepStart + f.verdictAt ≤ s.now) then s.gleanDue p else s
  | none => s

end Sys2Proof.Machine
end

