-- ==== Sys2Proof/Machine/Update.lean ====
section
/-!
DEFINITION. The update engine (07_training_step.md R292 to R305, R322; 08_gradient_reduction.md R339, R340, R363).
-/
namespace Sys2Proof.Machine

open Sys2Proof

def State.modUpd (s : State) (d : Die) (f : UpdS → UpdS) : State := s.modDie d fun x => { x with upd := f x.upd }

def updReg (d : Die) : Reg := dreg .cdUpdStat d

/-! ### Program words (R295 to R297) -/

/-- A program word of its fields. -/
def uWord (op : Nat) (d : Fin 16) (a b c : Fin 32) (st : Fin 8) (sr : Bool) : Word :=
  BitVec.ofNat 32 (op + 64 * d.val + 1024 * a.val + 32768 * b.val + 1048576 * c.val + 2 ^ 25 * st.val
    + (if sr then 2 ^ 28 else 0))

/-- The words of a program that run: to its first U.END, or all 64 (R295). -/
def progWords (l : List Word) : List Word :=
  let all := (l ++ List.replicate 64 0).take 64
  let n := all.findIdx fun w => fld w 5 0 == 0x3F
  all.take (n + 1)

/-- The fields an operation leaves unused are 0, and bits 31:29 are; `none` is an undefined OP (R296). -/
def wordClean (w : Word) : Bool :=
  let z := fun hi lo => fld w hi lo == 0
  let base := z 31 29
  let noSr := z 28 28
  let noS := z 27 25
  let noC := z 24 20
  let noB := z 19 15
  let noA := z 14 10
  let noD := z 9 6
  match fld w 5 0 with
  | 1 | 2 | 3 | 5 => base && noSr && noS && noC
  | 4 | 10 => base && noSr && noS
  | 6 | 7 | 8 | 9 => base && noSr && noS && noC && noB
  | 11 => base && noSr && noC && noB && noA
  | 12 => base && noSr && noC && noB && noD
  | 13 => base && noC && noB && noD
  | 63 => base && noSr && noS && noC && noB && noA && noD
  | _ => false

/-- Whether a stream is an SP32 pair: SPH with its SPL array at SECOND (R298). -/
def Stream.sp32 (t : Stream) : Bool := t.fmt == 10 && t.second != 0

def Stream.fmt? (t : Stream) : Option Fmt := Fmt.ofCode t.fmt

/-- Whether the program of an invocation breaks R297. -/
def Invocation.progBad (v : Invocation) (prog : List Word) : Bool :=
  let ws := progWords prog
  let at_ := fun (w : Word) => v.streams[fld w 27 25]?
  let wordOk := fun (w : Word) => wordClean w && (match fld w 5 0, at_ w with
    | 11, t => t.any fun t => t.en && !t.output
    | 12, t => t.any fun t => t.en && t.output && !t.sp32
    | 13, t => t.any fun t => t.en && t.output && t.sp32
    | _, _ => true)
  let stores := ws.filterMap fun w => if fld w 5 0 = 12 ∨ fld w 5 0 = 13 then some (fld w 27 25) else none
  !(ws.all wordOk) || v.streams.zipIdx.any fun (t, i) =>
    t.en && t.output && (stores.filter (· == i)).length != 1

/-- The formats the engine takes (R298). The FMT of an input stream of reduction lines is not looked at (DESIGN CHOICE, log 32:
R298 gives such a stream no format); they are an input alone, and no other SPACE than 0 and 1 holds formats. -/
def Stream.fmtOk (t : Stream) : Bool :=
  !t.en || (!t.output && t.space == 4) || (t.space < 2 &&
  match t.fmt? with
  | some (.ts _ e) => e != .t2 && (!t.output || t.srule < 2)
  | some (.mx axis _) => !axis && (!t.output || t.srule < 2)
  | some .fp32 | some .bf16 | some (.aq ..) => true
  | some .sph => !t.output || t.sp32
  | some .cf8 | some .cf16 => !t.output
  | _ => false)

/-! ### Streams -/

/-- Elements of a band: 8 rows (R293). -/
def Invocation.bandLen (v : Invocation) : Nat := 8 * v.scols

/-- Bytes of a stream's band: its element array, and its scales or SPL array. -/
def Stream.bandBytes (t : Stream) (v : Invocation) : Nat × Nat :=
  match t.fmt? with
  | some .cf8 => (v.bandLen / 64 * 66, 0)
  | some f => (f.arrayBytes 8 v.scols,
      if t.sp32 then 2 * v.bandLen else if f.blockScaled then f.blocks 8 v.scols else 0)
  | none => (0, 0)

/-- Bytes that an invocation moves to and from HBM (R301). -/
def Invocation.hbmBytes (v : Invocation) : Nat :=
  v.streams.foldl (fun a t =>
    let b := t.bandBytes v
    if t.en && t.space == 1 then a + v.rows / 8 * (b.1 + b.2) else a) 0

/-- The ticks an invocation lasts (R301); one that moves HBM bytes and has no HBM slots never ends by itself. -/
def Invocation.ticks (v : Invocation) (q : Nat) : Nat :=
  let e := v.rows * v.scols
  if q = 0 ∧ v.hbmBytes ≠ 0 then 2 ^ 39 else
  max ((e + 255) / 256) ((v.hbmBytes + max q 1 - 1) / max q 1) + 96

/-- A band of reduction lines (R339, R340), zero where a line is dropped or bad (R418, R419); a read before the SEAL tick is
EARLY_READ, once for the stream. -/
def State.bandLines (s : State) (d : Die) (t : Stream) (v : Invocation) (k : Nat) : State × List E40 :=
  let wi := t.offset / 2 ^ 32 % 256
  match s.window d wi with
  | none => (s, List.replicate v.bandLen 0)
  | some w =>
    let early : Bool := !(s.die d).red.sealedW.contains wi && k == 0
    let at_ := fun (n : Nat) => (t.offset % 2 ^ 32 + (8 * k + n / v.scols) * 64 * w.pitch + n % v.scols) / 64
    let blocks := (((List.range (v.bandLen / 64)).map fun n => at_ (64 * n)).eraseDups).filter (· < w.blocks)
    let (s, bad) := blocks.foldl (fun (acc : State × List Nat) b =>
      let (s, ok) := acc.1.blockServe d w b .update
      (s, if ok then acc.2 else b :: acc.2)) (s, [])
    let vals := (List.range v.bandLen).map fun n =>
      let e := t.offset % 2 ^ 32 + (8 * k + n / v.scols) * 64 * w.pitch + n % v.scols
      if e / 64 < w.blocks ∧ !bad.contains (e / 64) then toE40 ((s.redBlock d w (e / 64)).value w.sp32 (e % 64)) else 0
    (if early then s.redSuspect d 8 else s, vals)

/-- A band of carried blocks, whose rows lie a pitch of blocks apart (R340). -/
def State.bandCarried (s : State) (d : Die) (t : Stream) (v : Invocation) (k : Nat) (cf16 : Bool) : State × List E40 :=
  let p := if t.second = 0 then v.scols / 64 else t.second
  let n := carriedBytes cf16
  (List.range 8).foldl (fun (acc : State × List E40) i =>
    let (s, b) := acc.1.engineRead d (t.space == 1) (t.offset + (8 * k + i) * p * n) (v.scols / 64 * n) (.step d) .update
    let vals := (List.range (v.scols / 64)).flatMap fun j => (RingBlock.parse cf16 ((b.drop (j * n)).take n)).values
    (s, acc.2 ++ vals.map toE40)) (s, [])

/-- A band of an input stream, every element decoded into E40 (R293, R294, R298). -/
def State.bandIn (s : State) (d : Die) (t : Stream) (v : Invocation) (k : Nat) : State × List E40 :=
  if t.space = 4 then s.bandLines d t v k else
  match t.fmt? with
  | some .cf8 => s.bandCarried d t v k false
  | some .cf16 => s.bandCarried d t v k true
  | some f =>
    let (n, m) := t.bandBytes v
    let hbm := t.space == 1
    let (s, b) := s.engineRead d hbm (t.offset + k * n) n (.step d) .update
    let (s, sb) := if m = 0 then (s, []) else s.engineRead d hbm (t.offset + t.second + k * m) m (.step d) .update
    let r : Reader := fun a => if a < scaleOrigin then (b[a]?).getD 0 else (sb[a - scaleOrigin]?).getD 0
    (s, (List.range v.bandLen).map fun e =>
      if t.sp32 then toE40 (f32 (joinSp (BitVec.ofNat 16 (rdLe r (2 * e) 2)) (BitVec.ofNat 16 (rdLe r (scaleOrigin + 2 * e) 2))))
      else toE40 (f.readAt r 0 scaleOrigin 8 v.scols (e / v.scols) (e % v.scols)))
  | none => (s, [])

/-- The band's inputs, read whole (R293). -/
def State.loadBand (s : State) (d : Die) (r : InvRun) : State :=
  let (s, ins) := r.inv.streams.zipIdx.foldl (fun (acc : State × AMap Nat (List E40)) (t, i) =>
    if !t.en || t.output then acc else
    let (s, l) := acc.1.bandIn d t r.inv r.band
    (s, acc.2.set i l)) (s, AMap.empty)
  s.modUpd d fun u => { u with run := some { r with
    pc := 0, regs := .empty, ins := ins, outs := .empty, words := .empty } }

/-- A profile that stands for an output stream's rule (R297, R298). -/
def Stream.profile (t : Stream) : Profile :=
  { Profile.ofWord 0 with srule := if t.srule = 0 then .ocp else .fit }

/-- Counts added to a monitor set of the engine (R299). -/
def State.updCounts (s : State) (d : Die) (m : Fin 16) (c : Counts) : State :=
  s.modUpd d fun u => { u with live := addSet u.live m.val c (false, false) }

/-- A band of an output stream, written whole (R293, R298, R303). Its elements are formed from the E40 values themselves, except an
AQ element, which is formed of the FP32 rounding (DESIGN CHOICE, log 32: R146 speaks of FP32 and BF16 inputs). -/
def State.bandOut (s : State) (d : Die) (t : Stream) (i : Nat) (r : InvRun) : State :=
  let v := r.inv
  let (n, m) := t.bandBytes v
  let hbm := t.space == 1
  if t.sp32 then
    let ws := r.words.getD i []
    let runs := (List.range (ws.length / 64)).filter fun k =>
      ((ws.drop (64 * k)).take 64).any fun w => (f32 w).isNan
    let s := s.engineWrite d hbm (t.offset + r.band * n) (.step d) .update (ws.flatMap fun w => natLe 2 (sphOf w).toNat)
    let s := s.engineWrite d hbm (t.offset + t.second + r.band * m) (.step d) .update (ws.flatMap fun w => natLe 2 (splOf w).toNat)
    let s := s.updCounts d t.mon { nanBlk := runs.length }
    if s.rdBit (dreg .cdRedCfg d) 21 then s else runs.foldl (fun s _ => s.suspectDie d) s
  else match t.fmt? with
    | none => s
    | some f =>
      let vals := r.outs.getD i []
      let g := Grid.of 8 v.scols fun a b => e40 ((vals[a * v.scols + b]?).getD 0)
      let w := t.profile.write f g 0 fun _ => 0
      let s := s.engineWrite d hbm (t.offset + r.band * n) (.step d) .update w.elems
      let s := if m = 0 then s else s.engineWrite d hbm (t.offset + t.second + r.band * m) (.step d) .update w.scales
      s.updCounts d t.mon w.counts

/-! ### Invocations (R292, R297, R301) -/

def Invocation.bands (v : Invocation) : Nat := v.rows / 8

/-- The furrow in which an invocation's START lies. -/
def State.invFurrow (s : State) (p : Part) (v : Invocation) : Nat := ((s.part p).stepStart + v.start) / 16384

/-- Bytes per tick of the forme's HBM slots that reach the engine: fewer on a hot stack, by how much the spec does not say
(R301, R405, log 1); at most 2,624 (R301). -/
def State.queueRate (s : State) (d : Die) (q : Nat) : Nat :=
  let q := min q 2624
  if s.rdFld (dreg .hbmStat d) 1 0 = 1 then min q (Config.hotQueue q) else q

/-- UPDATE_INVOCATION_START: the next invocation begins at its START tick, or when its predecessor has ended. -/
def State.invStart (s : State) (d : Die) : State :=
  match s.running d, s.formeDie d with
  | some p, some fd =>
    let u := (s.die d).upd
    match u.run, fd.schedule[u.next]? with
    | none, some v =>
      if s.stepTick p < v.start || s.invFurrow p v != s.now / 16384 || s.dieClosed d || s.clockOut (.uncore d) then s else
      let bad := v.progBad ((fd.programs[v.prog]?).getD [])
      let fmt := !v.streams.all Stream.fmtOk
      let s := if bad then s.raiseSuspect (updReg d) 2 else s
      let s := if !fmt then s else if bad then s.raiseBit (updReg d) 1 true else s.raiseSuspect (updReg d) 1
      let r : InvRun := {
        index := u.next, inv := v, began := s.now, ends := s.now + v.ticks (s.queueRate d fd.queueBytes), furrow := s.now / 16384
        band := 0, pc := 0, regs := .empty, ins := .empty, outs := .empty, words := .empty, bad := bad || fmt }
      let s := s.modUpd d fun u => { u with run := some r, next := u.next + 1 }
      if r.bad || v.bands == 0 || (fd.queueBytes == 0 && v.hbmBytes != 0) then s else s.loadBand d r
    | _, _ => s
  | _, _ => s

/-- UPDATE_INVOCATION_END. -/
def State.invEnd (s : State) (d : Die) : State :=
  match (s.die d).upd.run with
  | none => s
  | some r =>
    if r.ends ≤ s.now ∧ (r.bad ∨ r.inv.bands ≤ r.band) then s.modUpd d fun u => { u with run := none } else s

/-- The band is written, and the next begins (R293). -/
def State.endBand (s : State) (d : Die) (r : InvRun) : State :=
  let s := r.inv.streams.zipIdx.foldl (fun s (t, i) => if t.en && t.output then s.bandOut d t i r else s) s
  let s := s.modUpd d fun u => { u with wrote := s.now }
  let r := { r with band := r.band + 1 }
  if r.band < r.inv.bands then s.loadBand d r else s.modUpd d fun u => { u with run := some r }

/-- The word the engine of a die is at, if an invocation runs there; without HBM slots of the forme no band of one that moves HBM bytes
is read (R16, R301). -/
def State.uAt (s : State) (d : Die) : Option (InvRun × Word) :=
  match (s.die d).upd.run, s.formeDie d with
  | some r, some fd =>
    if r.bad || r.inv.bands ≤ r.band || s.clockOut (.uncore d) || s.dieClosed d || (fd.queueBytes == 0 && r.inv.hbmBytes != 0)
    then none else
    ((progWords ((fd.programs[r.inv.prog]?).getD []))[r.pc]?).map fun w => (r, w)
  | _, _ => none

/-- A program word runs on every element of the band; after word 63 the band is over (R295). -/
def State.uRun (s : State) (d : Die) (w : Word) (f : UpdS → InvRun → InvRun) : State :=
  match s.uAt d with
  | none => s
  | some (r, x) =>
    if x ≠ w then s else
    let r := { f (s.die d).upd r with pc := r.pc + 1 }
    let s := s.modUpd d fun u => { u with run := some r }
    if r.pc = 64 then s.endBand d r else s

/-! ### Operations (R294, R296) -/

/-- An operand on every element of the band: an element register, +0 before it is written, or a step constant. -/
def InvRun.operand (r : InvRun) (row : List Word) (a : Fin 32) : List E40 :=
  if a.val < 16 then r.regs.getD a.val (List.replicate r.inv.bandLen 0)
  else List.replicate r.inv.bandLen (toE40 (f32 ((row[a.val - 16]?).getD 0)))

def InvRun.setReg (r : InvRun) (d : Fin 16) (v : List E40) : InvRun := { r with regs := r.regs.set d.val v }

def eLift1 (f : Val → Val) (a : List E40) : List E40 := a.map fun x => toE40 (f (e40 x))
def eLift2 (f : Val → Val → Val) (a b : List E40) : List E40 := (a.zip b).map fun x => toE40 (f (e40 x.1) (e40 x.2))
def eLift3 (f : Val → Val → Val → Val) (a b c : List E40) : List E40 :=
  ((a.zip b).zip c).map fun x => toE40 (f (e40 x.1.1) (e40 x.1.2) (e40 x.2))

/-- U.SIGN (R296). -/
def uSignVal : Val → Val
  | .nan => .nan
  | .inf n => .ofInt (if n then -1 else 1) 0
  | .fin n m _ => if m = 0 then .zero false else .ofInt (if n then -1 else 1) 0

/-- U.CLAMP: min(max(A, B), C) (R296). -/
def uClampVal (a b c : Val) : Val :=
  if a.isNan || b.isNan || c.isNan then .nan else
  let m := if a.lt b then b else a
  if c.lt m then c else m

/-- U.RSQ on one element: an approximation inside 1 ulp, else the rounded value (R296, R302, log 5). -/
def uRsqE (x : E40) : E40 :=
  match e40 x with
  | .nan => toE40 .nan
  | .inf n => if n then toE40 .nan else 0
  | .fin n m e =>
    if m = 0 then toE40 (.inf n) else if n then toE40 .nan else
    let c := e40 (Config.ursqApprox x)
    if !c.special && !c.sign && rsqNear 1 31 m e c then toE40 c
    else toE40 ((Val.ofInt 1 0).div (Val.fin false m e).sqrt)

def State.u2 (s : State) (die : Die) (op : Nat) (d : Fin 16) (a b : Fin 32) (f : Val → Val → Val) : State :=
  s.uRun die (uWord op d a b 0 0 false) fun u r => r.setReg d (eLift2 f (r.operand u.row a) (r.operand u.row b))

def State.u1 (s : State) (die : Die) (op : Nat) (d : Fin 16) (a : Fin 32) (f : List E40 → List E40) : State :=
  s.uRun die (uWord op d a 0 0 0 false) fun u r => r.setReg d (f (r.operand u.row a))

def State.u3 (s : State) (die : Die) (op : Nat) (d : Fin 16) (a b c : Fin 32) (f : Val → Val → Val → Val) : State :=
  s.uRun die (uWord op d a b c 0 false) fun u r =>
    r.setReg d (eLift3 f (r.operand u.row a) (r.operand u.row b) (r.operand u.row c))

def State.uAdd (s : State) (die : Die) (d : Fin 16) (a b : Fin 32) : State := s.u2 die 1 d a b Val.add
def State.uSub (s : State) (die : Die) (d : Fin 16) (a b : Fin 32) : State := s.u2 die 2 d a b Val.sub
def State.uMul (s : State) (die : Die) (d : Fin 16) (a b : Fin 32) : State := s.u2 die 3 d a b Val.mul
def State.uFma (s : State) (die : Die) (d : Fin 16) (a b c : Fin 32) : State :=
  s.u3 die 4 d a b c fun x y z => (x.mul y).add z
def State.uDiv (s : State) (die : Die) (d : Fin 16) (a b : Fin 32) : State := s.u2 die 5 d a b Val.div
def State.uSqrt (s : State) (die : Die) (d : Fin 16) (a : Fin 32) : State := s.u1 die 6 d a (eLift1 Val.sqrt)
def State.uRsq (s : State) (die : Die) (d : Fin 16) (a : Fin 32) : State := s.u1 die 7 d a (·.map uRsqE)
def State.uSign (s : State) (die : Die) (d : Fin 16) (a : Fin 32) : State := s.u1 die 8 d a (eLift1 uSignVal)
def State.uAbs (s : State) (die : Die) (d : Fin 16) (a : Fin 32) : State := s.u1 die 9 d a (eLift1 Val.abs)
def State.uClamp (s : State) (die : Die) (d : Fin 16) (a b c : Fin 32) : State := s.u3 die 10 d a b c uClampVal

def State.uLd (s : State) (die : Die) (d : Fin 16) (st : Fin 8) : State :=
  s.uRun die (uWord 11 d 0 0 0 st false) fun _ r => r.setReg d (r.ins.getD st.val [])

def State.uSt (s : State) (die : Die) (a : Fin 32) (st : Fin 8) : State :=
  s.uRun die (uWord 12 0 a 0 0 st false) fun u r => { r with outs := r.outs.set st.val (r.operand u.row a) }

/-! ### U.STW (R303, R304) -/

/-- The draw of R304. -/
def draw (seed : DWord) (step : Word) (tid i : Nat) : Nat :=
  let z := mix (seed ^^^ (BitVec.ofNat 64 (step.toNat * 65536) ||| BitVec.ofNat 64 (tid % 65536)))
  let z := mix (z ^^^ BitVec.ofNat 64 (i % 2 ^ 48 / 8))
  (z >>> (8 * (i % 8))).toNat % 256

/-- An E40 value as the FP32 pattern that U.STW stores: `r` is the draw, `none` rounds to nearest even (R303, R117). -/
def stwWord (y : E40) (r : Option Nat) : Word :=
  match e40 y with
  | .fin n m e =>
    if m = 0 then toF32 (.zero n) else
    let l := floorLog2 m e
    let sig := if e < l - 31 then m >>> ((l - 31) - e).toNat else m <<< (e - (l - 31)).toNat
    let t := sig / 256
    let d := sig % 256
    let up : Bool := match r with
      | some k => decide (256 ≤ d + k)
      | none => decide (128 < d) || (d == 128 && t % 2 == 1)
    toF32 (.fin n (if up then t + 1 else t) (l - 23))
  | v => toF32 v

def State.uStw (s : State) (die : Die) (a : Fin 32) (st : Fin 8) (sr : Bool) : State :=
  let seed := match s.formeOn die with
    | some f => f.seed
    | none => 0
  let step := s.dieStep die
  s.uRun die (uWord 13 0 a 0 0 st sr) fun u r =>
    let v := r.inv
    let ws := (r.operand u.row a).zipIdx.map fun (y, n) =>
      let i := (v.row0 + 8 * r.band + n / max v.scols 1) * v.tcols + v.col0 + n % max v.scols 1
      stwWord y (if sr then some (draw seed step v.tensor i) else none)
    { r with words := r.words.set st.val ws }

/-- U.END (R295). -/
def State.uEnd (s : State) (die : Die) : State :=
  match s.uAt die with
  | none => s
  | some (r, x) => if x = uWord 0x3F 0 0 0 0 0 false then s.endBand die r else s

/-! ### The step table (R300) -/

/-- The row of constants of the step that begins; ROW_CLAMP beyond the last. -/
def State.loadStepRow (s : State) (d : Die) : State :=
  match s.formeDie d with
  | none => s
  | some fd =>
    if fd.stepRows = 0 then s else
    let n := (s.rd (dreg .cdStep d)).toNat
    let k := min n (fd.stepRows - 1)
    let (s, b) := s.engineRead d true (plainOff (fd.stepTable + 64 * k)) 64 (.step d) .update true
    let row := (List.range 16).map fun i => BitVec.ofNat 32 (leNat ((b.drop (4 * i)).take 4))
    let s := s.modUpd d fun u => { u with row := row }
    if fd.stepRows ≤ n then s.raiseBit (updReg d) 6 else s

end Sys2Proof.Machine
end

