-- ==== Sys2Proof/Machine/DieCmds.lean ====
section
/-!
DEFINITION. The meanings of the update engine's, the adders' and the memories' commands (07_training_step.md, 08_gradient_reduction.md, 10_memory_system.md).
-/
namespace Sys2Proof.Machine

open Sys2Proof

/-- UPDATE_INVOCATION_START: its effect (R292). -/
def execUpdateInvocationStart (die : Die) (s : State) : Host.Outcome State Fault Refusal := .next (s.invStart die)

/-- UPDATE_INVOCATION_END: its effect (R301). -/
def execUpdateInvocationEnd (die : Die) (s : State) : Host.Outcome State Fault Refusal := .next (s.invEnd die)

/-- U_ADD: its effect (R296). -/
def execUAdd (die : Die) (d : Fin 16) (a b : Fin 32) (s : State) : Host.Outcome State Fault Refusal :=
  .next (s.uAdd die d a b)

/-- U_SUB: its effect (R296). -/
def execUSub (die : Die) (d : Fin 16) (a b : Fin 32) (s : State) : Host.Outcome State Fault Refusal :=
  .next (s.uSub die d a b)

/-- U_MUL: its effect (R296). -/
def execUMul (die : Die) (d : Fin 16) (a b : Fin 32) (s : State) : Host.Outcome State Fault Refusal :=
  .next (s.uMul die d a b)

/-- U_FMA: its effect (R296). -/
def execUFma (die : Die) (d : Fin 16) (a b c : Fin 32) (s : State) : Host.Outcome State Fault Refusal :=
  .next (s.uFma die d a b c)

/-- U_DIV: its effect (R296). -/
def execUDiv (die : Die) (d : Fin 16) (a b : Fin 32) (s : State) : Host.Outcome State Fault Refusal :=
  .next (s.uDiv die d a b)

/-- U_SQRT: its effect (R296). -/
def execUSqrt (die : Die) (d : Fin 16) (a : Fin 32) (s : State) : Host.Outcome State Fault Refusal :=
  .next (s.uSqrt die d a)

/-- U_RSQ: its effect (R296). -/
def execURsq (die : Die) (d : Fin 16) (a : Fin 32) (s : State) : Host.Outcome State Fault Refusal :=
  .next (s.uRsq die d a)

/-- U_SIGN: its effect (R296). -/
def execUSign (die : Die) (d : Fin 16) (a : Fin 32) (s : State) : Host.Outcome State Fault Refusal :=
  .next (s.uSign die d a)

/-- U_ABS: its effect (R296). -/
def execUAbs (die : Die) (d : Fin 16) (a : Fin 32) (s : State) : Host.Outcome State Fault Refusal :=
  .next (s.uAbs die d a)

/-- U_CLAMP: its effect (R296). -/
def execUClamp (die : Die) (d : Fin 16) (a b c : Fin 32) (s : State) : Host.Outcome State Fault Refusal :=
  .next (s.uClamp die d a b c)

/-- U_LD: its effect (R296). -/
def execULd (die : Die) (d : Fin 16) (st : Fin 8) (s : State) : Host.Outcome State Fault Refusal :=
  .next (s.uLd die d st)

/-- U_ST: its effect (R296). -/
def execUSt (die : Die) (a : Fin 32) (st : Fin 8) (s : State) : Host.Outcome State Fault Refusal :=
  .next (s.uSt die a st)

/-- U_STW: its effect (R303). -/
def execUStw (die : Die) (a : Fin 32) (st : Fin 8) (sr : Bool) (s : State) : Host.Outcome State Fault Refusal :=
  .next (s.uStw die a st sr)

/-- U_END: its effect (R295). -/
def execUEnd (die : Die) (s : State) : Host.Outcome State Fault Refusal := .next (s.uEnd die)

/-- ACCUMULATE_ARRIVE: its effect (R333). -/
def execAccumulateArrive (x : Contribution) (s : State) : Host.Outcome State Fault Refusal := .next (s.accumulate x)

/-- WINDOW_OPEN: its effect (R328). -/
def execWindowOpen (d : Die) (w : Fin 256) (s : State) : Host.Outcome State Fault Refusal :=
  .next (s.windowOpen d w.val)

/-- WINDOW_SEAL: its effect (R335). -/
def execWindowSeal (d : Die) (w : Fin 256) (s : State) : Host.Outcome State Fault Refusal :=
  .next (s.windowSeal d w.val)

/-- RING_START: its effect (R344). -/
def execRingStart (d : Die) (e : Nat) (s : State) : Host.Outcome State Fault Refusal := .next (s.ringRun d e true)

/-- RING_BLOCK_RECEIVE: its effect (R341). -/
def execRingBlockReceive (d : Die) (e : Nat) (s : State) : Host.Outcome State Fault Refusal :=
  .next (s.ringRun d e false)

/-- GLEAN_COMPARE: its effect (R362). -/
def execGleanCompare (d : Die) (owner : Die) (w : Fin 256) (k : Nat) (s : State) : Host.Outcome State Fault Refusal :=
  .next (s.gleanCompare d owner w.val k)

/-- HBM_ACCESS: its effect (R406). -/
def execHbmAccess (die : Die) (iss : Issuer) (off : Nat) (data : Option (List Byte)) (upset : Nat)
    (s : State) : Host.Outcome State Fault Refusal := .next (s.hbmAccess die iss off data upset)

/-- SHARED_CACHE_ACCESS: its effect (R418). -/
def execSharedCacheAccess (die : Die) (iss : Issuer) (off : Nat) (data : Option (List Byte)) (upset : Nat)
    (s : State) : Host.Outcome State Fault Refusal := .next (s.cacheAccess die iss off data upset)

/-- REFRESH_STEP: its effect (R400). -/
def execRefreshStep (s : State) : Host.Outcome State Fault Refusal := .next s.refreshStep

/-- HBM_TEMP_READING: its effect (R404). -/
def execHbmTempReading (die : Die) (reading : Option Nat) (s : State) : Host.Outcome State Fault Refusal :=
  .next (s.hbmTemp die reading)

/-- PATROL_SCRUB: its effect (R403). -/
def execPatrolScrub (die : Die) (upset : Nat) (s : State) : Host.Outcome State Fault Refusal :=
  .next (s.patrolScrub die upset)

/-- PHY_CALIBRATION: its effect (R403). -/
def execPhyCalibration (die : Die) (fails : Bool) (s : State) : Host.Outcome State Fault Refusal :=
  .next (s.calibrate die fails)

/-- RETIREMENT_COPY: its effect (R413). -/
def execRetirementCopy (die : Die) (upset : Nat) (s : State) : Host.Outcome State Fault Refusal :=
  .next (s.copyAccess die upset)

/-- RETIRE_COPY_DONE: its effect (R413). -/
def execRetireCopyDone (die : Die) (s : State) : Host.Outcome State Fault Refusal := .next (s.copyDone die)

/-- SUSPECT_EVENT_ARRIVE: its effect (R476). -/
def execSuspectEventArrive (n : Nat) (s : State) : Host.Outcome State Fault Refusal := .next (s.arrive n)

end Sys2Proof.Machine
end

