-- ==== Sys2Proof/Machine/FormeImage.lean ====
section
/-!
DEFINITION. The layouts of a forme's tables, read from the bytes of its image with every field held to its range (R687
check 5): 07_training_step.md R292, R298; 08_gradient_reduction.md R326, R342; 09_irregular_work.md R381, R394;
11_links_and_twin.md R438; 12_silent_errors_and_faults.md R478.
-/
namespace Sys2Proof.Machine

/-- A little-endian field of `n` bytes at byte `o`. -/
def fieldAt (b : List Byte) (o n : Nat) : Nat := leNat ((b.drop o).take n)

/-- Whether bytes are 0. -/
def zerosAt (b : List Byte) (o n : Nat) : Bool := ((b.drop o).take n).all (· == 0)

/-- A value where a condition holds. -/
def whenOk {α : Type} (ok : Bool) (a : α) : Option α := if ok then some a else none

/-- A table of at most `most` entries of `n` bytes. -/
def readTable {α : Type} (n most : Nat) (f : List Byte → Option α) (b : List Byte) : Option (List α) :=
  if b.length % n ≠ 0 ∨ n * most < b.length then none
  else (List.range (b.length / n)).mapM fun i => f ((b.drop (n * i)).take n)

/-- A window (R326). -/
def RedWindow.ofBytes (b : List Byte) : Option RedWindow :=
  let kind := fieldAt b 12 1
  let w : RedWindow := {
    lines := fieldAt b 0 4, blocks := fieldAt b 4 4, pitch := fieldAt b 8 2, tensor := fieldAt b 10 2
    sp32 := kind.testBit 0, ring := kind.testBit 1, glean := kind.testBit 2, checker := Fin.ofNat 16 (fieldAt b 13 1)
    expected := fieldAt b 14 2, openAt := fieldAt b 16 4, sealAt := fieldAt b 20 4, hist := fieldAt b 24 4
    floor := fieldAt b 28 1 }
  whenOk (w.lines % 256 == 0 && decide (1 ≤ w.blocks ∧ w.blocks ≤ 2 ^ 20) && decide (kind < 8)
    && decide (fieldAt b 13 1 < 16) && decide (1 ≤ w.expected ∧ w.expected ≤ 256) && decide (w.openAt < w.sealAt)
    && decide (w.floor ≤ 0xFE) && zerosAt b 29 3) w

/-- The ring action of a code (R341). -/
def RingAction.ofCode : Nat → Option RingAction
  | 0 => some .start
  | 1 => some .hop
  | 2 => some .home
  | 3 => some .pass
  | 4 => some .end_
  | _ => none

/-- Whether a port and a lane of it exist: hall ports 0 to 47 with four lanes, the twin port 48 with eight (R428). -/
def laneExists (port lane : Nat) : Bool := decide (port < 48 ∧ lane < 4) || (port == 48 && decide (lane < 8))

/-- A ring entry (R342): START receives nothing and END sends nothing. -/
def RingEntry.ofBytes (b : List Byte) : Option RingEntry :=
  (RingAction.ofCode (fieldAt b 8 1 % 8)).bind fun act =>
    let e : RingEntry := {
      furrow := fieldAt b 0 2, rxSlot := fieldAt b 2 1, txSlot := fieldAt b 3 1
      rxPort := Fin.ofNat 49 (fieldAt b 4 1), rxLane := fieldAt b 5 1
      txPort := Fin.ofNat 49 (fieldAt b 6 1), txLane := fieldAt b 7 1
      action := act, cf16 := (fieldAt b 8 1).testBit 3, window := fieldAt b 9 1, count := fieldAt b 10 1
      rxBack := fieldAt b 11 1, first := fieldAt b 12 4, result := fieldAt b 16 5, hbm := fieldAt b 21 1 == 1 }
    let rx := if act = .start then e.rxSlot == 0xFF else decide (e.rxSlot < 128) && laneExists (fieldAt b 4 1) e.rxLane
    let tx := if act = .end_ then e.txSlot == 0xFF else decide (e.txSlot < 128) && laneExists (fieldAt b 6 1) e.txLane
    whenOk (rx && tx && decide (fieldAt b 8 1 < 16) && decide (1 ≤ e.count ∧ e.count ≤ if e.cf16 then 20 else 38)
      && decide (e.rxBack ≤ 3) && decide (fieldAt b 21 1 ≤ 1) && zerosAt b 22 10) e

/-- A stream descriptor (R298). -/
def Stream.ofBytes (b : List Byte) : Option Stream :=
  let k := fieldAt b 5 1
  let space := k % 8
  whenOk ((space == 0 || space == 1 || space == 4) && decide (k < 128) && decide (fieldAt b 7 1 < 16) && zerosAt b 12 4) {
    offset := fieldAt b 0 5, space := space, output := k.testBit 3, en := k.testBit 4, srule := k / 32 % 4
    fmt := fieldAt b 6 1, mon := Fin.ofNat 16 (fieldAt b 7 1), second := fieldAt b 8 4 }

/-- An invocation (R292). -/
def Invocation.ofBytes (b : List Byte) : Option Invocation :=
  (readTable 16 8 Stream.ofBytes (b.drop 32)).bind fun streams =>
    let v : Invocation := {
      start := fieldAt b 0 4, prog := fieldAt b 4 1, tensor := fieldAt b 6 2, row0 := fieldAt b 8 4, rows := fieldAt b 12 4
      tcols := fieldAt b 16 4, col0 := fieldAt b 20 4, scols := fieldAt b 24 2, streams := streams }
    whenOk (decide (v.prog < 64) && v.rows % 8 == 0 && v.scols % 128 == 0 && decide (v.scols ≤ 8192) && zerosAt b 5 1
      && zerosAt b 26 6) v

/-- A route entry (R381), whose window lies on die `d`. -/
def Route.ofBytes (d : Die) (b : List Byte) : Option Route :=
  let kind := fieldAt b 0 1
  let r : Route := {
    link := kind == 1, windowDie := d, window := fieldAt b 1 1, cap := fieldAt b 2 2, hcap := fieldAt b 4 2
    buf0 := fieldAt b 6 1, nb := fieldAt b 7 1, nh := fieldAt b 8 1 }
  whenOk (decide (kind ≤ 1) && zerosAt b 9 7 && (kind == 0 || decide (r.buf0 + r.nb + r.nh ≤ 256))) r

/-- A buffer record (R381). -/
def BufRec.ofBytes (b : List Byte) : Option BufRec :=
  let w := fieldAt b 0 4
  whenOk (laneExists (w % 64) (w / 64 % 8) && decide (w < 2 ^ 20)) {
    port := Fin.ofNat 64 w, lane := Fin.ofNat 8 (w / 64), buf := Fin.ofNat 8 (w / 512), slot := Fin.ofNat 128 (w / 4096)
    fsel := w.testBit 19 }

/-- What a link slot table entry receives into (R438). -/
def RKind.ofCode : Nat → RKind
  | 1 => .land
  | 2 => .accum
  | 3 => .capacity
  | _ => .none

/-- A link slot table entry (R438). -/
def LinkEntry.ofBytes (b : List Byte) : Option LinkEntry :=
  let t := fieldAt b 0 1
  let r := fieldAt b 1 1
  whenOk (decide (t % 4 ≤ 1) && decide (t < 64) && decide (r < 32) && decide (fieldAt b 4 1 < 8) && zerosAt b 5 3) {
    send := t % 4 == 1, cond := t.testBit 2, tbuf := Fin.ofNat 8 (t / 8), rkind := .ofCode (r % 4), rbuf := Fin.ofNat 8 (r / 4)
    rarg := fieldAt b 2 2, part := Fin.ofNat 8 (fieldAt b 4 1) }

/-- The entries of a pattern (R438): up to 256 patterns of 128 entries. -/
def PatternImage.slots (x : PatternImage) : Option (List LinkSlot) :=
  if !laneExists x.port.val x.lane.val || decide (256 ≤ x.pattern) || x.entries.length != 1024 then none else
  (readTable 8 128 LinkEntry.ofBytes x.entries).map fun es =>
    es.zipIdx.map fun (e : LinkEntry × Nat) => ⟨x.port, x.lane, x.pattern, Fin.ofNat 128 e.2, e.1⟩

/-- A replay table entry of a region (R478). -/
def ReplayEntry.ofBytes (r : RegionId) (b : List Byte) : Option ReplayEntry :=
  let close := fieldAt b 2 2
  let lines := fieldAt b 6 2
  whenOk (decide (fieldAt b 0 1 < 64) && decide (fieldAt b 1 1 ≤ 1) && decide (close < 2048) && decide (fieldAt b 4 2 < 1024)
    && decide (1 ≤ lines ∧ lines ≤ 64) && zerosAt b 12 4) {
    region := r, unit := ⟨r.d, r.r, Fin.ofNat 64 (fieldAt b 0 1), none⟩, twin := fieldAt b 1 1 == 1, bundle := close % 1024
    verso := close.testBit 10, prog := fieldAt b 4 2, lines := lines, area := fieldAt b 8 4 }

/-- The tables of a die, read into what the forme has for it. -/
def FormeDie.withTables (e : FormeDie) (i : DieImage) : Option FormeDie :=
  (readTable 32 256 RedWindow.ofBytes i.windows).bind fun w =>
    (readTable 32 (2 ^ 20) RingEntry.ofBytes i.rings).bind fun r =>
      (readTable 160 (2 ^ 20) Invocation.ofBytes i.schedule).map fun v => { e with windows := w, rings := r, schedule := v }

/-- The stores of a cluster's engines. -/
def ClusterTables.withTables (c : ClusterTables) (i : ClusterImage) : Option ClusterTables :=
  let dieOf : Nat → Die := fun k => (i.routeDies[k]?).getD c.cluster.d
  if i.routes.length % 16 ≠ 0 ∨ 16 * 1024 < i.routes.length then none else
  ((List.range (i.routes.length / 16)).mapM fun k => Route.ofBytes (dieOf k) ((i.routes.drop (16 * k)).take 16)).bind fun rs =>
    (readTable 4 256 BufRec.ofBytes i.bufs).bind fun bs =>
      (readTable 4 256 BufRec.ofBytes i.reply).map fun rep => { c with routes := rs, bufs := bs, reply := rep }

/-- The forme with the tables that its image's bytes spell; `none` where a table is not one (R687 check 5). -/
def Forme.withTables (f : Forme) (t : TableImage) : Option Forme :=
  if f.perDie.length ≠ t.dies.length ∨ f.clusters.length ≠ t.clusters.length then none else
  ((f.perDie.zip t.dies).mapM fun (e : FormeDie × DieImage) => e.1.withTables e.2).bind fun ds =>
    ((f.clusters.zip t.clusters).mapM fun (e : ClusterTables × ClusterImage) => e.1.withTables e.2).bind fun cs =>
      (t.links.mapM PatternImage.slots).bind fun ls =>
        (t.degraded.mapM fun (e : Nat × PatternImage) => e.2.slots.map fun l => l.map fun x => (e.1, x)).bind fun gs =>
          (t.replay.mapM fun (e : RegionId × List Byte) => readTable 16 256 (ReplayEntry.ofBytes e.1) e.2).map fun rs =>
            { f with perDie := ds, clusters := cs, linkSlots := ls.flatten, degraded := gs.flatten, replay := rs.flatten }

end Sys2Proof.Machine
end

