-- ==== Sys2Proof/Machine/Engines.lean ====
section
/-!
DEFINITION. The drill and the rake (09_irregular_work.md R371 to R396).
-/
namespace Sys2Proof.Machine

open Sys2Proof

/-! ### Command blocks (R371 to R374) -/

/-- Row formats (R371). -/
def Fmt.rowFormat : Fmt → Bool
  | .bf16 | .mx false _ => true
  | _ => false

/-- Element bytes and scale bytes of a row (R371). -/
def rowElemBytes (f : Fmt) (cols : Nat) : Nat := cols * f.elemBits / 8
def rowScaleBytes (f : Fmt) (cols : Nat) : Nat := if f.blockScaled then cols / 32 else 0

def engOpOf : Nat → Option EngOp
  | 1 => some .sow
  | 2 => some .pack
  | 3 => some .drain
  | 8 => some .gather
  | 9 => some .pick
  | _ => none

def EngOp.rake : EngOp → Bool
  | .gather | .pick => true
  | _ => false

/-- The rows of a block begin at this byte (R373). -/
def rowsAt (n : Nat) : Nat := 128 * ((64 + 8 * n + 127) / 128)

/-- The capacity buffers that routes name (R374). -/
def routeBuffers (rs : List Route) : Nat := rs.foldl (fun a r => if r.link then a + r.nb + r.nh else a) 0

/-- A command block, or `none` where it is malformed (R374). `rs` is the drill's route store. -/
def parseBlock (rake : Bool) (rs : List Route) (b : List Byte) (add : Word) : Option EngCmd :=
  let n := blockField b 4 2
  let nrows := blockField b 6 2
  let cols := blockField b 2 2
  match engOpOf (blockField b 0 1), Fmt.ofCode (blockField b 1 1) with
  | some op, some f =>
    let rb := rowElemBytes f cols + rowScaleBytes f cols
    let zero := fun (at_ k : Nat) => ((b.drop at_).take k).all (· == 0)
    let items := (List.range n).map fun j =>
      (⟨BitVec.ofNat 32 (blockField b (64 + 8 * j) 4), blockField b (68 + 8 * j) 2,
        if op == .drain then blockField b (70 + 8 * j) 2 else j⟩ : Item)
    let used := (rs.drop (blockField b 16 2)).take (blockField b 18 2)
    let good := op.rake == rake && f.rowFormat && cols % 64 == 0 && decide (0 < cols) && decide (rb ≤ 1024)
      && decide (64 + 8 * n ≤ b.length)
      && (rake || items.all fun i => decide (i.src < nrows))
      && (rake || decide (rowsAt n + nrows * rb ≤ b.length))
      && !(op == .pack && decide (96 < routeBuffers used))
      && zero 9 3 && zero 23 1 && zero 28 36 && decide (blockField b 24 4 < 2 ^ 20)
      && decide (blockField b 20 1 < 32) && decide (blockField b 21 1 < 8) && decide (blockField b 22 1 ≤ 16)
      && (op == .drain || (List.range n).all fun j => zero (70 + 8 * j) 2)
    if !good then none else
    some {
      op := op, fmt := f, cols := cols, rowBytes := rb, items := items
      rows := if rake then [] else (List.range nrows).map fun i => (b.drop (rowsAt n + i * rb)).take rb
      target := blockField b 8 1, col0 := blockField b 12 4
      route0 := blockField b 16 2, nroute := blockField b 18 2, shift := blockField b 20 1
      ogal := ⟨blockField b 21 1 % 8, by omega⟩, maxOvf := blockField b 22 1
      dest := (blockField b 24 4 + add.toNat) % 2 ^ 20 }
  | _, _ => none

/-! ### The engines of a cluster -/

def State.tablesOf (s : State) (c : ClusterId) : Option ClusterTables :=
  (s.formeOn c.d).bind fun f => f.clusters.find? (·.cluster = c)

def State.routes (s : State) (c : ClusterId) : List Route := ((s.tablesOf c).map (·.routes)).getD []

def engReg (c : ClusterId) (rake : Bool) : Reg := creg (if rake then .cdRakeStat else .cdDrillStat) c

def ClusterS.engine (x : ClusterS) (rake : Bool) : Option EngRun := if rake then x.rake else x.drill
def ClusterS.setEngine (x : ClusterS) (rake : Bool) (e : Option EngRun) : ClusterS :=
  if rake then { x with rake := e } else { x with drill := e }

/-- BUSY of an engine's register (R396). -/
def State.setBusy (s : State) (c : ClusterId) (rake b : Bool) : State := s.wrBit (engReg c rake) 8 b

/-- A suspect event of the step in which a command's X.ENG issued (R378); a guest's belongs to no step (R488). -/
def State.engSuspect (s : State) (c : ClusterId) (rake : Bool) (e : EngRun) (b : Nat) : State :=
  let s := s.raiseBit (engReg c rake) b true
  if e.guest then s else s.suspectOrd e.part e.ord c.d

/-- A transfer of an engine that a closed wrapper answers with an error: a read or a contribution (R617). -/
def State.engIso (s : State) (c : ClusterId) (e : EngRun) (b : Nat) : State :=
  let s := s.raiseBit (dreg .cdIso c.d) b true
  if e.guest then s else s.suspectOrd e.part e.ord c.d

/-- Capacity in entries of a buffer (R383). -/
def capEntries (rowBytes : Nat) : Nat := min 30 (2432 / max rowBytes 1)

/-- Occupancy in core cycles (R376). -/
def EngCmd.occupancy (e : EngCmd) (rs : List Route) : Nat :=
  let n := e.items.length
  let c := (e.rowBytes + 255) / 256
  let used := (rs.drop e.route0).take e.nroute
  match e.op with
  | .sow | .gather | .pick => 8 + n * c
  | .drain => 8 + n * c + (n + 63) / 64
  | .pack =>
    let w := used.foldl (fun a r => if r.link then a else a + r.cap + r.hcap) 0
    16 + n * c + 10 * routeBuffers used + c * w + 8 * e.maxOvf + (n + 63) / 64

/-- Core cycles in which the lines of a row leave or land, 256 B in each (R376). -/
def EngCmd.rowCycles (m : EngCmd) : Nat := (m.rowBytes + 255) / 256

/-- Lines of a row. -/
def EngCmd.rowLines (m : EngCmd) : Nat := (m.rowBytes + 127) / 128

/-- Whether the port cycle that begins now is assigned to an engine of a cluster (R377). -/
def State.engPort (s : State) (c : ClusterId) (rake inbound : Bool) : Bool :=
  s.portOwned c (engineUser rake) inbound ((s.region c.region).gear.edges s.now) 1

/-- Lines placed in a port cycle not assigned to the engine: each is dropped with PORT_COLLIDE and a suspect event
(R377). -/
def State.portDrop (s : State) (c : ClusterId) (rake : Bool) (e : EngRun) (n : Nat) : State :=
  (List.range n).foldl (fun s _ => s.engSuspect c rake e (if rake then 3 else 4)) s

/-! ### Landings in the issuing unit -/

/-- The bytes that pieces at scratchpad addresses put into a line. -/
def linePut (parts : List (Nat × List Byte)) (line : Nat) : List (Option Byte) :=
  (List.range 128).map fun x => parts.findSome? fun (a, b) => b[(128 * line + x + 2 ^ 20 - a % 2 ^ 20) % 2 ^ 20]?

/-- The lines that pieces touch. -/
def linesPut (parts : List (Nat × List Byte)) : List Nat :=
  (parts.flatMap fun (a, b) => linesOf (a % 2 ^ 20) b.length).eraseDups

/-- Bytes laid into a unit's scratchpad in this cycle, each line an X access (R377). A unit that has become fallow takes
nothing (R378). -/
def State.deposit (s : State) (p : PU) (parts : List (Nat × List Byte)) (blank : Bool) : State :=
  if s.unitFallow p || parts.isEmpty then s else
  let c := s.cycle p.region
  s.modUnit p fun x =>
    x.launch .x 0 ((linesPut parts).map fun l => ⟨c, l, none, 0, 0, .land (linePut parts l) blank⟩) [] .deposit

/-! ### Rows as contributions (R379, R380) -/

/-- A row's contribution to a sown window, by a source port; `lost` are the lines of the row that were dropped. -/
def State.sowRow (s : State) (d : Die) (port w row col0 : Nat) (f : Fmt) (cols : Nat) (b : List Byte) (lost : List Nat) :
    State :=
  let pitch := ((s.window d w).map (·.pitch)).getD 1
  let eb := rowElemBytes f cols
  let hit := fun (a n : Nat) => (List.range n).any fun i => lost.contains ((a + i) / 128)
  let skip := (List.range (cols / 64)).filter fun k =>
    hit (rowElemBytes f 64 * k) (rowElemBytes f 64) || hit (eb + rowScaleBytes f 64 * k) (rowScaleBytes f 64)
  s.contribute d port w (row * 64 * pitch + col0) f 1 cols (f.element (fun v => (b[v]?).getD 0) 0 eb 1 cols) skip

/-- The number of a cluster port among the source ports of a die's adders (R336). -/
def ClusterId.port (c : ClusterId) : Nat := 8 * c.r.val + c.c.val

def State.sowDie (s : State) (c : ClusterId) (w : Nat) : Die :=
  match s.tablesOf c with
  | some t => match t.sowDie.find? (fun e => e.1 = w) with
    | some e => e.2
    | none => c.d
  | none => c.d

def EngCmd.row (e : EngCmd) (i : Item) : List Byte := (e.rows[i.src]?).getD []

/-- A row goes out in its port cycles from engine cycle `k`. -/
def EngCmd.sendRow (m : EngCmd) (k : Nat) (x : EngOut) : List (Nat × EngStep) :=
  (k, .take x) :: (List.range m.rowCycles).map (fun i => (k + i, .pair i m.rowLines)) ++ [(k + m.rowCycles - 1, .send)]

/-- A command begins: what it does in each of its cycles (R376). -/
def State.engBegin (s : State) (c : ClusterId) (e : EngRun) (plan : List (Nat × EngStep)) : State :=
  s.modCluster c fun x => x.setEngine e.cmd.op.rake (some { e with plan := plan })

/-- SOW (R379): the contribution of item `j` leaves in cycle 8 + j·c. -/
def State.sow (s : State) (c : ClusterId) (e : EngRun) : State :=
  let m := e.cmd
  let d := s.sowDie c m.target
  s.engBegin c e (m.items.zipIdx.flatMap fun (i, j) =>
    if i.index = (0xFFFFFFFF : Word) then [] else
    m.sendRow (8 + j * m.rowCycles) (.sow d m.target i.index.toNat m.col0 (m.row i)))

/-! ### Capacity buffers (R383, R384) -/

/-- The header and contents of a capacity buffer holding items (R383). -/
def capPayload (node : Nat) (f : Fmt) (cols rowBytes : Nat) (fill : List (Word × List Byte)) : List Byte :=
  let e := capEntries rowBytes
  let eb := rowElemBytes f cols
  let sb := rowScaleBytes f cols
  let idx := (List.range 30).flatMap fun i => match fill[i]? with
    | some x => natLe 4 x.1.toNat
    | none => natLe 4 0xFFFFFFFF
  let row := fun (i from_ n : Nat) => match fill[i]? with
    | some x => ((x.2.drop from_).take n) ++ List.replicate (n - ((x.2.drop from_).take n).length) 0
    | none => List.replicate n 0
  let fmtCode := match f with
    | .mx _ t => 0x20 + (match t with
      | .e4m3 => 0
      | .e5m2 => 1
      | .e3m2 => 2
      | .e2m3 => 3
      | .e2m1 => 4
      | _ => 5)
    | _ => 8
  let body := natLe 2 fill.length ++ natLe 1 e ++ natLe 1 fmtCode ++ natLe 2 cols ++ natLe 2 node ++ idx
    ++ ((List.range e).flatMap fun i => row i 0 eb) ++ ((List.range e).flatMap fun i => row i eb sb)
  body ++ List.replicate (2560 - body.length) 0

/-- The send buffer a record names and the value of its tag (R265, R381). -/
def BufRec.place (b : BufRec) (furrow : Nat) : Option (BufId × Nat) :=
  if h : b.port.val < 49 then
    some (⟨⟨b.port.val, h⟩, b.lane, b.buf⟩, (furrow + b.fsel.toNat) * 128 + b.slot.val)
  else none

/-- Whether an engine of a die may reach the link buffer that a record names (R245). -/
def State.bufAllowed (s : State) (d : Die) (b : BufRec) : Bool := s.farAllowed d ⟨.send, d, 0, b.port, b.lane, b.buf⟩

/-- Bytes put into a buffer's data from a place, but for those of dropped lines. -/
def putBytes (data : List Byte) (a : Nat) (b : List Byte) : List Byte := data.take a ++ b ++ data.drop (a + b.length)

/-- A send buffer that a record names takes the lines of a payload that were not dropped, and its tag with the last (R265,
R384). -/
def State.fillBuffer (s : State) (d : Die) (b : BufRec) (furrow : Nat) (pay : List Byte) (lost : List Nat) : State :=
  match b.place furrow with
  | some (id, v) =>
    if !s.bufAllowed d b then s else
    let x := s.sendBuf id
    let old := x.data ++ List.replicate (2560 - x.data.length) 0
    let data := (List.range 2560).map fun i => ((if lost.contains (i / 128) then old else pay)[i]?).getD 0
    let x := if lost.contains 19 then x else x.setTag (some (v % 2 ^ 39)) s.now
    s.setSend id { x with data := data }
  | none => s

/-! ### PACK (R382 to R386) -/

/-- A placement word (R386). -/
def placement (state buf pos : Nat) : Word := BitVec.ofNat 32 (state * 2 ^ 30 + buf % 256 * 256 + pos % 256)

/-- What PACK makes of its items so far: for each route the items placed in its main positions in order, the overflow
items, the placement words, and the drops by route, with bad keys. -/
structure PackAcc where
  placed : AMap Nat (List (Word × List Byte))
  ovf : List Item
  words : List (Nat × Word)
  badKeys : Nat
  deriving DecidableEq, Repr

/-- The main positions of a route. -/
def Route.mainCap (r : Route) (e : Nat) : Nat := if r.link then r.nb * e else r.cap

/-- The headland positions of a route. -/
def Route.headCap (r : Route) (e : Nat) : Nat := if r.link then r.nh * e else r.hcap

/-- The buffer record and the place in it of position `p` of a route, main or headland. -/
def Route.spot (r : Route) (e p : Nat) (head : Bool) : Nat × Nat :=
  if r.link then (r.buf0 + (if head then r.nb else 0) + p / max e 1, p % max e 1) else (0xFF, p)

/-- One item binned (R382, R384). -/
def packItem (m : EngCmd) (rs : List Route) (a : PackAcc) (i : Item) : PackAcc :=
  if i.index == 0xFFFFFFFF then { a with words := a.words ++ [(i.pos, placement 3 0 0)] } else
  let key := i.index.toNat / 2 ^ m.shift
  match (if key < m.nroute then rs[m.route0 + key]? else none) with
  | none => { a with words := a.words ++ [(i.pos, placement 3 0 0)], badKeys := a.badKeys + 1 }
  | some r =>
    let k := m.route0 + key
    let e := capEntries m.rowBytes
    let l := a.placed.getD k []
    if l.length < r.mainCap e then
      let (b, p) := r.spot e l.length false
      { a with placed := a.placed.set k (l ++ [(i.index, m.row i)]), words := a.words ++ [(i.pos, placement 0 b p)] }
    else { a with ovf := a.ovf ++ [i] }

/-- Items that an overflow tile holds (R385). -/
def tileItems (rowBytes : Nat) : Nat :=
  ((List.range 256).filter fun n => decide (rowsAt n + n * rowBytes ≤ 2048)).foldl max 0

/-- An overflow tile: a DRAIN command block (R385). -/
def overflowTile (m : EngCmd) (fmtByte : Byte) (is : List Item) : List Byte :=
  let head := [3, fmtByte] ++ natLe 2 m.cols ++ natLe 2 is.length ++ natLe 2 is.length ++ [0, 0, 0, 0] ++ natLe 4 0
    ++ natLe 2 m.route0 ++ natLe 2 m.nroute ++ [BitVec.ofNat 8 m.shift, 0, 0, 0] ++ natLe 4 m.dest
    ++ List.replicate 36 0
  let items := is.zipIdx.flatMap fun (i, k) => natLe 4 i.index.toNat ++ natLe 2 k ++ natLe 2 i.pos
  let pre := head ++ items
  let rows := is.flatMap m.row
  let all := pre ++ List.replicate (rowsAt is.length - pre.length) 0 ++ rows
  all ++ List.replicate (2048 - all.length) 0

/-- The scratchpad byte at which the next tile of a galley goes (R260). -/
def UnitS.tilePlace (x : UnitS) (g : Fin 8) : Nat :=
  let q := x.galley g
  galleyLine g * 128 + (q.head.val + q.count) % 16 * 2048

/-- A galley whose pointers are undefined (R269): free values (log 1). -/
def UnitS.freeGalley (x : UnitS) (n : Nat) (g : Fin 8) : UnitS :=
  x.setGalley g {
    head := ⟨(Config.freeWord n (2 * g.val)).toNat % 16, Nat.mod_lt _ (by decide)⟩
    count := (Config.freeWord n (2 * g.val + 1)).toNat % 17
    blanks := (List.range 16).filter fun i => (Config.freeByte n i).getLsbD 0 }

/-- A tile put at the end of a galley (R262); the lines that have a mark take it as their stamp (R272). -/
def UnitS.pushTile (x : UnitS) (g : Fin 8) (b : List Byte) (blank : Bool) (mark : Nat → Option (Word × Word)) : UnitS :=
  let q := x.galley g
  let place := (q.head.val + q.count) % 16
  let a := x.tilePlace g
  let lines := (List.range 16).map (a / 128 + ·)
  { x.setGalley g { q with
      count := q.count + 1
      blanks := if blank then place :: q.blanks.filter (· ≠ place) else q.blanks.filter (· ≠ place) } with
    sp := x.sp.write a b
    blank := x.blank.filter fun l => !lines.contains l
    stamps := (List.range 16).foldl (fun m i => match mark i with
      | some t => m.set (a / 128 + i) (t.1, t.2, true)
      | none => m) x.stamps }

/-- Tile `k` of an operation lands in a galley of a unit; in timing audit mode each line has the stamp of its own landing
(R272). -/
def State.pushTile (s : State) (u : LU) (p : PU) (g : Fin 8) (b : List Byte) (blank : Bool) (c : Caught) (k : Nat) : State :=
  s.modUnit p fun x => x.pushTile g b blank fun i => if s.auditOn u then c.marks.get? (16 * k + i) else none

/-- Whether the live bank is that of the step in which a command's X.ENG issued (R378, R389): until the next boundary of a step that
follows, a halt in it or not. -/
def State.engLive (s : State) (e : EngRun) : Bool := (s.part e.part).ord == e.ord

/-- An item is dropped: its route's counter, DROP (R388, R389). -/
def State.dropItem (s : State) (c : ClusterId) (e : EngRun) (route : Nat) : State :=
  let live := s.engLive e
  (s.modCluster c fun x =>
    if live then { x with drops := x.drops.set route (satAdd32 (x.drops.getD route 0) 1) }
    else { x with dropsPrev := x.dropsPrev.set route (satAdd32 (x.dropsPrev.getD route 0) 1) }).raiseBit
    (engReg c false) 1

def State.badKeys (s : State) (c : ClusterId) (e : EngRun) (n : Nat) : State :=
  if n = 0 then s else
  let live := s.engLive e
  ((s.modCluster c fun x => if live then { x with badKey := satAdd32 x.badKey n }
    else { x with badKeyPrev := satAdd32 x.badKeyPrev n }).raiseBit (engReg c false) 5).raiseBit (engReg c false) 1

/-- The route entry that an item's key takes. -/
def EngCmd.routeOf (m : EngCmd) (i : Item) : Nat := m.route0 + i.index.toNat / 2 ^ m.shift

/-- Overflow items that are dropped, with their placement words (R385, R386). -/
def State.dropItems (s : State) (c : ClusterId) (e : EngRun) (is : List Item) : State :=
  is.foldl (fun s i => s.dropItem c e (e.cmd.routeOf i)) s

/-- The words of items whose fate is known. -/
def State.noteWords (s : State) (c : ClusterId) (rake : Bool) (ws : List (Nat × Word)) : State :=
  s.modCluster c fun x => x.setEngine rake ((x.engine rake).map fun e => { e with words := e.words ++ ws })

/-- The byte of a row format's code. -/
def Fmt.rowCode (f : Fmt) : Byte := ((capPayload 0 f 64 64 [])[3]?).getD 0

/-- The cycles in which a list of items has its placement words written, 64 in each (R376). -/
def wordSteps (k : Nat) (js : List Nat) : List (Nat × EngStep) :=
  (List.range ((js.length + 63) / 64)).map fun q => (k + q, .words ((js.drop (64 * q)).take 64))

/-- PACK (R382 to R386): the items are binned; then its link buffers, main and headland, 10 cycles each; its window-route
entries, whose cycles are idle where none is filled; its overflow tiles; its placement words. -/
def State.pack (s : State) (c : ClusterId) (e : EngRun) : State :=
  let m := e.cmd
  let rs := s.routes c
  let a := m.items.foldl (packItem m rs) ⟨.empty, [], [], 0⟩
  let s := s.badKeys c e a.badKeys
  let en := capEntries m.rowBytes
  let bufs := ((s.tablesOf c).map (·.bufs)).getD []
  let node := s.rdFld (xreg .htNodeId) 14 0
  let used := ((List.range m.nroute).filterMap fun i => (rs[m.route0 + i]?).map fun r => (m.route0 + i, r))
  let base := 16 + m.items.length * m.rowCycles
  let links := used.flatMap fun (ri, r) =>
    if !r.link then [] else (List.range (r.nb + r.nh)).map fun b =>
      (r.buf0 + b, if b < r.nb then (((a.placed.getD ri []).drop (en * b)).take en) else [])
  let fills := links.zipIdx.flatMap fun ((b, fill), n) =>
    match bufs[b]? with
    | some r => (base + 10 * n, .take (.fill r (capPayload node m.fmt m.cols m.rowBytes fill)))
        :: (List.range 10).map (fun i => (base + 10 * n + i, .pair i 20)) ++ [(base + 10 * n + 9, EngStep.send)]
    | none => []
  let entries := used.flatMap fun (ri, r) =>
    if r.link then [] else
    (List.range (r.cap + r.hcap)).map fun k => ((a.placed.getD ri [])[k]?).map fun x => (r, x)
  let base := base + 10 * links.length
  let sows := entries.zipIdx.flatMap fun (x, n) =>
    match x with
    | some (r, i, b) =>
      m.sendRow (base + m.rowCycles * n) (.sow r.windowDie r.window (i.toNat % 2 ^ m.shift) 0 b)
    | none => []
  let base := base + m.rowCycles * entries.length
  let n := max (tileItems m.rowBytes) 1
  let tiles := (List.range (min m.maxOvf ((a.ovf.length + n - 1) / n))).map fun t => (a.ovf.drop (n * t)).take n
  let pushes := tiles.zipIdx.flatMap fun (is, t) => (List.range 8).map fun i => (base + 8 * t + i, EngStep.push is i)
  let excess := a.ovf.drop (n * m.maxOvf)
  let s := s.dropItems c e excess
  let e := { e with words := a.words ++ excess.map fun i => (i.pos, placement 2 0 0) }
  s.engBegin c e (fills ++ sows ++ pushes ++ wordSteps (base + 8 * m.maxOvf) (m.items.map (·.pos)))

/-- The tile that the drill of a cluster is pushing. -/
def State.setTile (s : State) (c : ClusterId) (id : Option Nat) (is : List Item) : State :=
  s.modCluster c fun k => { k with drill := k.drill.map fun r => { r with tile := some (id, is) } }

/-- The first cycle of a tile's push window: its 16 lines take their banks, two in a cycle (R377, R385). -/
def State.pushBegin (s : State) (c : ClusterId) (e : EngRun) (is : List Item) : State :=
  if s.unitFallow e.pos then s.setTile c none is else
  let k := s.cycle c.region
  let x := s.unit e.pos
  let accs : List LineAcc := (List.range 16).map fun n => ⟨k + n / 2, n, some e.cmd.ogal, 1, n, .tile false⟩
  (s.setUnit e.pos (x.launch .x k accs [] .tile)).setTile c (some x.nextId) is

/-- The two lines of a cycle of the push window that is not the drill's are dropped (R377). -/
def State.dropPush (s : State) (c : ClusterId) (e : EngRun) (i : Nat) : State :=
  match ((s.clusterS c).drill).bind (·.tile) with
  | some (some id, _) => s.modUnit e.pos fun x => { x with flights := x.flights.map fun f =>
      if f.id ≠ id then f else { f with
        accs := f.accs.filter fun a => !decide (a.n / 2 = i)
        caught := { f.caught with lost := [2 * i, 2 * i + 1] ++ f.caught.lost } } }
  | _ => s

/-- The bytes of a tile as it lands: a line that lost its bank keeps what the galley held there (R234). -/
def UnitS.tileBytes (x : UnitS) (f : Flight) (g : Fin 8) (k : Nat) (b : List Byte) : List Byte :=
  let a := x.tilePlace g
  (List.range 16).flatMap fun i =>
    if f.caught.lost.contains (16 * k + i) then x.sp.bytes (a + 128 * i) 128 else (b.drop (128 * i)).take 128

/-- The end of a tile's push window, in the cycle in which its last line has landed: the tile enters its galley, or is
dropped where it finds it full (R385). -/
def State.pushEnd (s : State) (c : ClusterId) (e : EngRun) (id : Option Nat) (is : List Item) : State :=
  let m := e.cmd
  let x := s.unit e.pos
  let s := s.modCluster c fun k => { k with drill := k.drill.map fun r => { r with tile := none } }
  match id.bind fun i => x.flights.find? (·.id == i) with
  | none => (s.dropItems c e is).noteWords c false (is.map fun i => (i.pos, placement 2 0 0))
  | some f =>
    let s := s.setUnit e.pos { x with flights := x.flights.filter (·.id ≠ f.id) }
    if 16 ≤ (x.galley m.ogal).count then
      ((s.raiseBit (engReg c false) 6).dropItems c e is).noteWords c false (is.map fun i => (i.pos, placement 2 0 0))
    else
      let b := overflowTile m m.fmt.rowCode is
      (s.pushTile e.unit e.pos m.ogal (x.tileBytes f m.ogal 0 b) false f.caught 0).noteWords c false
        (is.map fun i => (i.pos, placement 1 0 0))

/-- The tile that the drill of a unit's cluster pushes to it, once all its lines have had their cycles. -/
def State.drillTile (s : State) (u : LU) (p : PU) : State :=
  match (s.clusterS u.cluster).drill with
  | none => s
  | some e => match e.tile with
    | none => s
    | some (id, is) =>
      let waits : Bool := match id with
        | some i => (s.unit p).flights.any fun f => f.id == i && !f.accs.isEmpty
        | none => false
      if e.pos ≠ p || waits then s else s.pushEnd u.cluster e id is

/-! ### DRAIN (R387) -/

/-- One entry appended to a filled buffer (R387): COUNT, INDEX, and the bytes of the row whose lines were not dropped. -/
def appendEntry (f : Fmt) (cols rowBytes pos : Nat) (index : Word) (row data : List Byte) (lost : List Nat) : List Byte :=
  let e := capEntries rowBytes
  let eb := rowElemBytes f cols
  let sb := rowScaleBytes f cols
  let data := data ++ List.replicate (2560 - data.length) 0
  let at_ := fun (i : Nat) => if i < eb then 128 + pos * eb + i else 128 + e * eb + pos * sb + (i - eb)
  let row := row.zipIdx.map fun (b, i) => if lost.contains (i / 128) then (data[at_ i]?).getD 0 else b
  let d := putBytes data 0 (natLe 2 (pos + 1))
  let d := putBytes d (8 + 4 * pos) (natLe 4 index.toNat)
  let d := putBytes d (128 + pos * eb) (row.take eb)
  putBytes d (128 + e * eb + pos * sb) ((row.drop eb).take sb)

/-- The start of the slot that a tag value names. -/
def tagTick (v : Nat) : Nat := v * 128

/-- The tick at which what an engine sends in `n` cycles from now has arrived, its way being F ticks (R376, R387). -/
def State.engArrives (s : State) (c : ClusterId) (n f : Nat) : Nat := s.now + (s.region c.region).gear.ticks n + f

/-- The next item of a DRAIN finds its headland position, or is dropped (R387). -/
def State.drainItem (s : State) (c : ClusterId) (e : EngRun) (i : Item) : State :=
  let m := e.cmd
  let put := fun (s : State) (x : Option EngOut) => s.modCluster c fun k =>
    { k with drill := k.drill.map fun r => { r with cur := x, lost := [] } }
  let word := fun (s : State) (w : Word) => s.noteWords c false [(i.pos, w)]
  let s := put s none
  if i.index = (0xFFFFFFFF : Word) then s else
  let ri := m.routeOf i
  match (if ri < m.route0 + m.nroute then (s.routes c)[ri]? else none) with
  | none => word (s.badKeys c e 1) (placement 3 0 0)
  | some r =>
    let en := capEntries m.rowBytes
    let p := (s.clusterS c).head.getD ri 0
    if r.headCap en ≤ p then word ((s.raiseBit (engReg c false) 7).dropItem c e ri) (placement 2 0 0) else
    let (b, pos) := r.spot en p true
    let took := fun (s : State) => s.modCluster c fun x => { x with head := x.head.set ri (p + 1) }
    if !r.link then
      word (put (took s) (some (.sow r.windowDie r.window (i.index.toNat % 2 ^ m.shift) 0 (m.row i)))) (placement 0 b pos)
    else
      let bufs := ((s.tablesOf c).map (·.bufs)).getD []
      match (bufs[b]?).bind fun q => (q.place e.furrow).map fun v => (q, v.2) with
      | some (q, v) =>
        let t := s.engArrives c m.rowCycles (farTicks c.d ⟨.send, c.d, 0, q.port, q.lane, q.buf⟩)
        if tagTick v < t + 64 then word ((s.engSuspect c false e 0).dropItem c e ri) (placement 2 0 0)
        else word (put (took s) (some (.append q pos i.index (m.row i)))) (placement 0 b pos)
      | none => word (s.dropItem c e ri) (placement 2 0 0)

/-- DRAIN (R387): item `j` is appended from cycle 8 + j·c on, then the placement words are rewritten. -/
def State.drain (s : State) (c : ClusterId) (e : EngRun) : State :=
  let m := e.cmd
  let s := s.modCluster c fun x => if x.headFurrow = e.furrow then x else { x with headFurrow := e.furrow, head := .empty }
  let n := m.items.length
  s.engBegin c e (((List.range n).flatMap fun j =>
      (8 + j * m.rowCycles, EngStep.item j) :: (List.range m.rowCycles).map (fun i => (8 + j * m.rowCycles + i, .pair i m.rowLines))
        ++ [(8 + j * m.rowCycles + m.rowCycles - 1, .send)])
    ++ wordSteps (8 + n * m.rowCycles) (m.items.map (·.pos)))

/-! ### GATHER and PICK (R392 to R394) -/

/-- The scratchpad pieces of line `l` of landed row `j`: its element bytes, then its scale bytes (R393). -/
def EngCmd.landing (m : EngCmd) (j l : Nat) (b : List Byte) : List (Nat × List Byte) :=
  let eb := rowElemBytes m.fmt m.cols
  let sb := rowScaleBytes m.fmt m.cols
  let sbase := lineUp (m.dest + m.items.length * eb)
  let line := (b.drop (128 * l)).take 128
  let el := line.take (eb - 128 * l)
  let sc := line.drop (eb - 128 * l)
  (if el.isEmpty then [] else [(m.dest + j * eb + 128 * l, el)])
    ++ (if sc.isEmpty then [] else [(sbase + j * sb + (128 * l - eb), sc)])

/-- The path of the request for a row (R259, R376). -/
def State.fetchPath (s : State) (c : ClusterId) (m : EngCmd) (i : Item) : Far :=
  let tables := ((s.tablesOf c).map (·.tables)).getD []
  let reply := ((s.tablesOf c).map (·.reply)).getD []
  if m.op == .gather then
    match tables[m.target]? with
    | some t => ⟨if t.hbm then .hbm else .cache, t.die, 0, 0, 0, 0⟩
    | none => ⟨.cache, c.d, 0, 0, 0, 0⟩
  else match reply[fld i.index 15 8]? with
    | some r => ⟨.recv, c.d, 0, r.port, r.lane, r.buf⟩
    | none => ⟨.cache, c.d, 0, 0, 0, 0⟩

/-- GATHER and PICK: the request for row `j` leaves in cycle 8 + j·c (R376). -/
def EngCmd.fetchPlan (m : EngCmd) : List (Nat × EngStep) :=
  (List.range m.items.length).flatMap fun j =>
    [(8 + j * m.rowCycles, EngStep.take (.fetch j)), (8 + j * m.rowCycles, .send)]

/-- GATHER (R392). -/
def State.gather (s : State) (c : ClusterId) (e : EngRun) : State :=
  match (s.tablesOf c).bind fun t => t.tables[e.cmd.target]? with
  | none => s.engSuspect c true e 2
  | some _ => s.engBegin c e e.cmd.fetchPlan

/-- PICK (R394). -/
def State.pick (s : State) (c : ClusterId) (e : EngRun) : State :=
  let s := s.modCluster c fun x => if x.fly.isEmpty then { x with blankBufs := [] } else x
  s.engBegin c e e.cmd.fetchPlan

/-- The row of entry `pos` of a capacity payload (R383, R394). -/
def payloadRow (m : EngCmd) (b : List Byte) (pos : Nat) : List Byte :=
  let eb := rowElemBytes m.fmt m.cols
  let sb := rowScaleBytes m.fmt m.cols
  let e := ((b[2]?).getD 0).toNat
  let take := fun (a n : Nat) => (List.range n).map fun i => (b[a + i]?).getD 0
  take (128 + pos * eb) eb ++ take (128 + e * eb + pos * sb) sb

/-- The row that a GATHER's request finds, and whether it is blank (R392, R393, R616, R617). -/
def State.gatherRow (s : State) (c : ClusterId) (e : EngRun) (i : Item) : State × List Byte × Bool :=
  let zero := List.replicate e.cmd.rowBytes (0 : Byte)
  match (s.tablesOf c).bind fun t => t.tables[e.cmd.target]? with
  | none => (s, zero, false)
  | some t =>
    if i.index = (0xFFFFFFFF : Word) then (s, zero, false)
    else if t.rows ≤ i.index.toNat then (s.raiseBit (engReg c true) 5, zero, false)
    else if s.dieClosed t.die then (s.engIso c e 0, zero, true)
    else
      let (s, b) := s.engineRead t.die t.hbm (t.base + i.index.toNat * t.pitch) e.cmd.rowBytes (.step c.d)
        (Issuer.source (.step c.d) t.die)
      (s, b, false)

/-- The receive buffer that carries the reply of a placement, where its tag is the slot's (R266, R394). -/
def State.replyBuf (s : State) (c : ClusterId) (e : EngRun) (r : BufRec) : Option (List Byte) :=
  if h : r.port.val < 49 then
    let x := s.recvBuf ⟨⟨r.port.val, h⟩, r.lane, r.buf⟩
    if s.farAllowed c.d ⟨.recv, c.d, 0, r.port, r.lane, r.buf⟩
        && x.tag.map (·.1) == some (((e.furrow - r.fsel.toNat) * 128 + r.slot.val) % 2 ^ 39) then some x.data else none
  else none

/-- The row that a PICK's request finds; a buffer whose tag has failed once gives this command nothing but zeros (R394). -/
def State.pickRow (s : State) (c : ClusterId) (e : EngRun) (i : Item) : State × List Byte :=
  let m := e.cmd
  let zero := List.replicate m.rowBytes (0 : Byte)
  let bi := fld i.index 15 8
  match (if fld i.index 31 30 = 0 then (((s.tablesOf c).map (·.reply)).getD [])[bi]? else none) with
  | none => (s, zero)
  | some r =>
    let key := (e.start, r.port.val * 64 + r.lane.val * 8 + r.buf.val)
    if (s.clusterS c).blankBufs.contains key then (s, zero) else
    match s.replyBuf c e r with
    | some b => (s, payloadRow m b (fld i.index 7 0))
    | none => ((s.engSuspect c true e 4).modCluster c fun x => { x with blankBufs := key :: x.blankBufs }, zero)

/-! ### The engines' cycles and what they have sent (R376, R377) -/

/-- The path of what an engine sends. -/
def State.outPath (s : State) (c : ClusterId) (e : EngRun) : EngOut → Far
  | .sow d .. => ⟨.red, d, 0, 0, 0, 0⟩
  | .fill r _ | .append r .. => ⟨.send, c.d, 0, r.port, r.lane, r.buf⟩
  | .fetch j => match e.cmd.items[j]? with
    | some i => s.fetchPath c e.cmd i
    | none => ⟨.cache, c.d, 0, 0, 0, 0⟩
  | .land .. => ⟨.cache, c.d, 0, 0, 0, 0⟩

/-- What an engine has ready leaves, in a fabric slot of the forme where its way needs one (R16, R392); a request reaches
its buffer 8 ticks before its row begins to land (R266). -/
def State.engSend (s : State) (c : ClusterId) (rake : Bool) (e : EngRun) : State :=
  match e.cur with
  | none => s
  | some x =>
    let far := s.outPath c e x
    let f := farTicks c.d far
    let (s, ok) := s.fabricTake c.d far rake
    let at_ := if rake then s.now + f - 8 else s.engArrives c 1 f
    s.modCluster c fun k =>
      let k := k.setEngine rake (some { e with cur := none, lost := [] })
      if ok then { k with fly := k.fly ++ [⟨at_, e, x, e.lost⟩] } else k

/-- Placement words that are written in this cycle (R386). -/
def State.putWords (s : State) (c : ClusterId) (e : EngRun) (js : List Nat) : State :=
  let parts := js.filterMap fun j => (e.words.find? (·.1 = j)).map fun w => (e.cmd.dest + 4 * j, natLe 4 w.2.toNat)
  if parts.isEmpty then s
  else if s.engPort c false true then s.deposit e.pos parts false
  else s.portDrop c false e (linesPut parts).length

/-- One thing that an engine does in a cycle. -/
def State.engStep (s : State) (c : ClusterId) (rake : Bool) (x : EngStep) : State :=
  match (s.clusterS c).engine rake with
  | none => s
  | some e =>
    let put := fun (e : EngRun) => s.modCluster c fun k => k.setEngine rake (some e)
    match x with
    | .take o => put { e with cur := some o, lost := [] }
    | .item j => match e.cmd.items[j]? with
      | some i => s.drainItem c e i
      | none => s
    | .pair i n =>
      if e.cur.isNone || s.engPort c rake false then s else
      let bad := [2 * i, 2 * i + 1].filter (· < n)
      (put { e with lost := e.lost ++ bad }).portDrop c rake e bad.length
    | .send => s.engSend c rake e
    | .push is i =>
      let s := if i = 0 then s.pushBegin c e is else s
      if s.engPort c rake true then s else (s.dropPush c e i).portDrop c rake e 2
    | .words js => s.putWords c e js

/-- A core cycle of an engine: everything of its command that is due (R375, R376). -/
def State.engineCycle (s : State) (c : ClusterId) (rake : Bool) : State :=
  match (s.clusterS c).engine rake with
  | none => s
  | some e =>
    let k := s.cycle c.region - e.start
    let due := e.plan.filter (·.1 ≤ k)
    if !e.made || due.isEmpty then s else
    due.foldl (fun s x => s.engStep c rake x.2)
      (s.modCluster c fun y => y.setEngine rake (some { e with plan := e.plan.filter fun x => !decide (x.1 ≤ k) }))

/-- What an engine has sent arrives (R378, R379, R384, R387, R392 to R394). -/
def State.flyArrives (s : State) (c : ClusterId) (x : EngFly) : State :=
  let e := x.run
  let m := e.cmd
  match x.out with
  | .sow d w row col0 b =>
    if s.dieClosed d then s.engIso c e 2
    else (s.intake d m.rowBytes).sowRow d c.port w row col0 m.fmt m.cols b x.lost
  | .fill r b => s.fillBuffer c.d r e.furrow b x.lost
  | .append r pos index b =>
    match r.place e.furrow with
    | some (id, _) =>
      if !s.bufAllowed c.d r then s else
      let y := s.sendBuf id
      s.setSend id { y with data := appendEntry m.fmt m.cols m.rowBytes pos index b y.data x.lost }
    | none => s
  | .fetch j =>
    match m.items[j]? with
    | none => s
    | some i =>
      let (s, b, blank) := if m.op == .gather then s.gatherRow c e i else
        let (s, b) := s.pickRow c e i
        (s, b, false)
      let g := (s.region c.region).gear
      let lands := (List.range m.rowCycles).map fun i =>
        (⟨x.at_ + 8 + g.ticks (i + 1), e, .land j i b blank, []⟩ : EngFly)
      s.modCluster c fun k => { k with fly := k.fly ++ lands }
  | .land j i b blank =>
    let ls := [2 * i, 2 * i + 1].filter (· < m.rowLines)
    if s.engPort c true true then s.deposit e.pos (ls.flatMap fun l => m.landing j l b) blank
    else s.portDrop c true e ls.length

/-- What a cluster's engines have sent and is due by now. -/
def State.flyTick (s : State) (c : ClusterId) : State :=
  let due := (s.clusterS c).fly.filter (·.at_ ≤ s.now)
  if due.isEmpty then s else
  due.foldl (fun s x => s.flyArrives c x)
    (s.modCluster c fun k => { k with fly := k.fly.filter fun x => !decide (x.at_ ≤ s.now) })

/-! ### Arrival, effect and end of a command (R375, R378) -/

/-- A command block arrives at its engine (R374, R375). -/
def State.blockArrive (s : State) (u : LU) (p : PU) (rake : Bool) (issue lines furrow : Nat) (who : Option (Part × Nat)) (add : Word)
    (b : List Byte) : State :=
  let c := u.cluster
  match s.partOf c.d with
  | none => s
  | some q =>
    let bad := fun (k : Nat) => match who with
      | some (p, ord) => (s.raiseBit (engReg c rake) k true).suspectOrd p ord c.d
      | none => s.raiseBit (engReg c rake) k true
    if ((s.clusterS c).engine rake).isSome then bad (if rake then 1 else 2) else
    match parseBlock rake (s.routes c) b add with
    | none => bad (if rake then 2 else 3)
    | some m =>
      let run : EngRun := {
        cmd := m, unit := u, pos := p, part := q, ord := (who.map (·.2)).getD 0, guest := who.isNone, furrow := furrow
        start := issue + (lines + 1) / 2 + 3, occ := m.occupancy (s.routes c), made := false
        plan := [], cur := none, lost := [], tile := none, words := [] }
      (s.modCluster c fun x => x.setEngine rake (some run)).setBusy c rake true

/-- The command that an engine runs begins, once it has started. -/
def State.engMake (s : State) (c : ClusterId) (op : EngOp) (f : State → ClusterId → EngRun → State) : State :=
  match (s.clusterS c).engine op.rake with
  | none => s
  | some e =>
    if e.made || e.cmd.op != op || s.cycle c.region < e.start || (s.region c.region).suppressed || s.clockOut (.region c.region) then s else
    f (s.modCluster c fun x => x.setEngine op.rake (some { e with made := true })) c { e with made := true }

/-- The command's occupancy is over. -/
def State.engDone (s : State) (c : ClusterId) (rake : Bool) : State :=
  match (s.clusterS c).engine rake with
  | none => s
  | some e =>
    if e.made && decide (e.start + e.occ ≤ s.cycle c.region) then
      (s.modCluster c fun x => x.setEngine rake none).setBusy c rake false
    else s

/-! ### Capacity slots (R391) -/

/-- Whether a received capacity payload is as its descriptor says. -/
def capGood (a : CapDesc) (b : List Byte) : Bool :=
  let e := ((b[2]?).getD 0).toNat
  decide (blockField b 0 2 ≤ e) && e == a.e && blockField b 3 1 == a.fmt && blockField b 4 2 == a.cols

def State.capacitySlot (s : State) (p : Port) (k : Fin 8) (x : RxSlot) : State :=
  match s.judgeSlot p k x with
  | (s, none) => s
  | (s, some (q, f, e, pay)) =>
    if e.rkind != .capacity then s else
    let id : BufId := ⟨p, k, e.rbuf⟩
    let blank := (s.blankSlot p k q x.tick).setRecv id ⟨List.replicate 2560 0, none, []⟩
    match pay, f.caps[e.rarg]? with
    | some b, some a =>
      if !capGood a b then blank
      else if !a.sow then s.setRecv id ⟨b, some (slotValue x.tick, s.now), []⟩
      else if s.dieClosed a.die then blank
      else match Fmt.ofCode a.fmt with
        | none => blank
        | some m =>
          let (s, ok) := s.fabricWay q (.link (portLinkDie p k.val)) (.die a.die)
          if !ok then blank else
          let eb := rowElemBytes m a.cols
          let sb := rowScaleBytes m a.cols
          (List.range (blockField b 0 2)).foldl (fun s i =>
            let idx := blockField b (8 + 4 * i) 4
            let row := ((b.drop (128 + i * eb)).take eb) ++ ((b.drop (128 + a.e * eb + i * sb)).take sb)
            s.sowRow a.die (linkPort p k) a.window (idx % 2 ^ a.rshift) 0 m a.cols row []) (s.intake a.die 2560)
    | _, _ => blank

end Sys2Proof.Machine
end

