-- ==== Sys2Proof/Machine/Moves.lean ====
section
/-!
DEFINITION. The X slot (06_unit_programming.md R231, R235, R243 to R245, R258 to R268; 08_gradient_reduction.md R330,
09_irregular_work.md R372, R375; 16_reset_boot_firmware.md R617).
-/
namespace Sys2Proof.Machine

open Sys2Proof

/-- Operations in flight in the order of R225. -/
def UnitS.ordered (x : UnitS) : List Flight :=
  [Slot.m, .w, .v, .x].flatMap fun sl => x.flights.filter fun f => f.slot == sl

/-! ### Kinds of move -/

/-- The spaces a far move may name (R243). -/
def MoveKind.takes : MoveKind → Space → Bool
  | .ld, .cache | .ld, .hbm | .st, .cache | .st, .hbm | .iload, .cache | .iload, .hbm => true
  | .send, .send | .recv, .recv | .racc, .red => true
  | _, _ => false

/-- The direction a move uses of the cluster port: outbound or inbound, `none` for a local move (R244). -/
def MoveKind.inbound : MoveKind → Option Bool
  | .st | .send | .racc | .eng => some false
  | .ld | .recv | .iload => some true
  | _ => none

/-- Port cycles of a number of lines. -/
def portCycles (lines : Nat) : Nat := (lines + 1) / 2

/-- The edge at which a move issued at tick `t` begins to hold its port: that of its issue, or on the inbound side that of its
first lines (R235, R244). -/
def portFirst (g : Gear) (inbound : Bool) (t fixed : Nat) : Nat := if inbound then g.edges (t + fixed) + 1 else g.edges t

/-- The edges at which a move holds its port. -/
def MoveFlight.port (m : MoveFlight) (g : Gear) : Option (Bool × Nat × Nat) :=
  m.kind.inbound.map fun d => (d, portFirst g d m.issueTick m.fixed, portCycles m.total)

/-- Whether a field that the operation does not use is not 0 (R224, R243, R372). -/
def MoveKind.stray (k : MoveKind) (o : MoveOp) : Bool :=
  let far := match k with
    | .ld | .st | .send | .recv | .racc | .iload => true
    | _ => false
  let slots := k == .send || k == .recv
  (k == .iload && (o.ldesc != 0 || o.lreg != 0)) || (!far && o.fdesc != 0) || (!far && k != .eng && o.freg != 0)
    || (!slots && (o.fsel || decide ((if k == .eng then 2 else 1) ≤ o.slot.val)))
    || (k != .push && k != .pop && o.gal != 0)

/-- Whether an earlier move of the unit holds a port cycle of the interval in the same direction (R270). -/
def UnitS.portHeld (x : UnitS) (g : Gear) (inb : Bool) (e n : Nat) : Bool :=
  let meets := fun (h : Bool × Nat × Nat) => h.1 == inb && decide (h.2.1 < e + n) && decide (e < h.2.1 + h.2.2)
  x.held.any meets || x.flights.any fun f => match f.kind with
    | .move m => (m.port g).any meets
    | _ => false

/-- The lines of a move's local operand: its own, or those of the tiles it takes of a galley. -/
def Opnd.moveLines (o : Opnd) : List Nat :=
  match o.gal with
  | none => o.lines
  | some _ => (List.range (16 * o.tiles)).map (· % 16)

/-- Reads of a move's source (R235), and the pops of one that is a galley. -/
def sourceAccs (c : Nat) (o : Opnd) (lines : List Nat) : List LineAcc × List PopDue :=
  (lines.zipIdx.map fun e => ⟨c + e.2 / 2, e.1, o.gal, 0, e.2, .read⟩,
    match o.gal with
    | none => []
    | some g => (List.range ((lines.length + 15) / 16)).map fun t => ⟨c + 8 * t, g, 0, t⟩)

/-- A move's record at issue; of a guest replay's it belongs to no step (R488). -/
def State.newMove (s : State) (u : LU) (k : MoveKind) (lines : List Nat) : MoveFlight :=
  { kind := k, lines := lines, far := none, fixed := 0, issueTick := s.now, tag := 0, next := 0
    total := lines.length, dead := false, gal := none, bank := false, own := true, err := false, checked := false
    pushed := 0, opnd := none, who := if s.isGuest u then none else (s.partOf u.d).map fun p => (p, (s.part p).ord), carried := true }

/-! ### Issue of far moves (R231, R244, R245) -/

/-- A move takes its port cycles, or is dropped (R244, R270); `go` launches it. -/
def State.takePort (s : State) (u : LU) (x : UnitS) (inb : Bool) (delay n : Nat) (go : State → State) : State :=
  let g := (s.region u.region).gear
  let e := portFirst g inb s.now delay
  if x.portHeld g inb e n then s.tuFlag u tuXOverlap
  else if !s.portOwned u.cluster (.unit ⟨u.inCluster, Nat.mod_lt _ (by decide)⟩) inb e n then s.tuFlag u tuPortCollide
  else go s

/-- A move that is refused takes its port cycles, or is dropped, and reads its source (R136, R244, log 31). -/
def State.refusedMove (s : State) (u : LU) (p : PU) (x : UnitS) (c : Nat) (inb : Option Bool) (far : Nat) (l : Opnd)
    (lines : List Nat) : State :=
  let (accs, pops) := if inb == some true then ([], []) else sourceAccs c l lines
  let go := fun (s : State) (x : UnitS) => (s.setUnit p (x.readsOnly .x c accs pops)).tuFlag u tuFmtBad
  match inb with
  | none => go s x
  | some i =>
    let g := (s.region u.region).gear
    let delay := if i then far else 0
    let h := (i, portFirst g i s.now delay, portCycles lines.length)
    s.takePort u x i delay (portCycles lines.length) fun s =>
      go s { x with held := h :: x.held.filter fun e => decide (g.edges s.now ≤ e.2.1 + e.2.2) }

/-- A far move. It fills a fabric slot of the forme where its way needs one; without one nothing is carried (R16, R29, log
30). -/
def State.xFar (s : State) (u : LU) (o : MoveOp) (k : MoveKind) : State :=
  if k.stray o then s.badSlot u .x else
  s.issue u .x fun s p x =>
    let c := s.cycle u.region
    if c < x.xBusy then s.tuFlag u tuXOverlap else
    let l := x.opnd o.ldesc (x.areg o.lreg)
    let all := if k == .iload then List.range 256 else if x.isFar o.ldesc then [] else (x.sized o.ldesc (x.areg o.lreg)).moveLines
    let lines := if k == .iload then all else all.take 64
    match x.far o.fdesc (x.areg o.freg) with
    | none => s.refusedMove u p x c k.inbound 0 l lines
    | some f =>
      if !k.takes f.space || (k != .iload && (x.isFar o.ldesc || l.fmt.isNone)) then
        s.refusedMove u p x c k.inbound (farTicks u.d f) l lines
      else
      let inb := k.inbound == some true
      let far := farTicks u.d f
      s.takePort u x inb (if inb then far else 0) (portCycles lines.length) fun s =>
        let ok := s.farAllowed u.d f
        let furrow := s.now / 16384
        let turn := if k == .recv then furrow - o.fsel.toNat else furrow + o.fsel.toNat
        let (s, got) := if ok then s.fabricTake u.d f inb else (s, true)
        let m : MoveFlight := { s.newMove u k lines with
          far := some f, fixed := far, tag := (turn * 128 + o.slot.val) % 2 ^ 39, dead := !ok || !got, carried := got
          gal := if inb && k != .iload then l.gal else none
          bank := !x.ctl.verso, opnd := some l }
        let (accs, pops) := if inb then ([], []) else sourceAccs c l lines
        let s := s.setUnit p (if lines.isEmpty then x else x.launch .x c accs pops (.move m))
        let s := s.tuFlagIf u tuFmtBad (64 < all.length && k != .iload)
        if ok then s else s.tuSuspect u tuPartOut

/-! ### Issue of the X engine's local moves -/

/-- A local operation holds the X engine for `occ` cycles. -/
def State.xLocal (s : State) (u : LU) (k : MoveKind) (o : MoveOp) (occ : Nat) (f : State → PU → UnitS → Nat → State) :
    State :=
  if k.stray o then s.badSlot u .x else
  s.issue u .x fun s p x =>
    let c := s.cycle u.region
    if c < x.xBusy then s.tuFlag u tuXOverlap
    else
      let x := { x with xBusy := c + occ }
      f (s.setUnit p x) p x c

/-- A local source of `n` lines or a popped galley; `none` where the descriptor is far or names no format. -/
def UnitS.xSource (x : UnitS) (o : MoveOp) : Option Opnd :=
  let l := x.opnd o.ldesc (x.areg o.lreg)
  if x.isFar o.ldesc || l.fmt.isNone then none else some l

/-- A local operation whose descriptor is refused reads the lines it would read, `n` at most (R136). -/
def State.xRefused (s : State) (u : LU) (p : PU) (x : UnitS) (c : Nat) (o : MoveOp) (inb : Option Bool) (n : Nat) : State :=
  let l := x.sized o.ldesc (x.areg o.lreg)
  s.refusedMove u p x c inb 0 l (if x.isFar o.ldesc then [] else l.moveLines.take n)

/-- X.PUSH (R243, R262): 16 lines to a galley; a disabled galley takes nothing (R260). -/
def State.xPush (s : State) (u : LU) (o : MoveOp) : State :=
  s.xLocal u .push o 8 fun s p x c =>
    match x.xSource o with
    | none => s.xRefused u p x c o none 16
    | some l =>
      let lines := l.moveLines.take 16
      let m : MoveFlight := { s.newMove u .push lines with gal := some o.gal, total := 1, opnd := some l }
      let (reads, pops) := sourceAccs c l lines
      let tiles : List LineAcc := (List.range 16).map fun n => ⟨c + n / 2 + 3, n, some o.gal, 1, n, .tile false⟩
      (s.setUnit p (x.launch .x c (reads ++ tiles) pops (.move m))).tuFlagIf u tuFmtBad (l.moveLines.length != 16)

/-- X.POP (R243, R262, R263): the tile is taken in this cycle. -/
def State.xPop (s : State) (u : LU) (o : MoveOp) : State :=
  s.xLocal u .pop o 8 fun s p x c =>
    match x.xSource o with
    | none => s.tuFlag u tuFmtBad
    | some l =>
      let lines := l.moveLines.take 16
      let m : MoveFlight := { s.newMove u .pop lines with gal := l.gal, opnd := some l }
      let reads : List LineAcc := (List.range 16).map fun n => ⟨c + n / 2, n, some o.gal, 0, n, .read⟩
      (s.setUnit p (x.launch .x c reads [⟨c, o.gal, 0, 0⟩] (.move m))).tuFlagIf u tuFmtBad (l.moveLines.length != 16)

/-- X.WTBL and X.DTBL (R243): the first lines of the operand go to a table. -/
def State.xTable (s : State) (u : LU) (o : MoveOp) (k : MoveKind) (n occ : Nat) : State :=
  s.xLocal u k o occ fun s p x c =>
    match x.xSource o with
    | none => s.xRefused u p x c o none n
    | some l =>
      let lines := l.moveLines.take n
      let m : MoveFlight := { s.newMove u k lines with opnd := some l }
      let (reads, pops) := sourceAccs c l lines
      (s.setUnit p (x.launch .x c reads pops (.move m))).tuFlagIf u tuFmtBad (l.moveLines.length != n)

/-- X.MON (R181, R243): both monitor banks, 2 KiB, to the operand's lines. -/
def State.xMon (s : State) (u : LU) (o : MoveOp) : State :=
  s.xLocal u .mon o 8 fun s p x c =>
    match x.xSource o with
    | none => s.tuFlag u tuFmtBad
    | some l =>
      let lines := l.moveLines.take 16
      let m : MoveFlight := { s.newMove u .mon lines with opnd := some l }
      let outs : List LineAcc := if l.gal.isSome then [] else
        lines.zipIdx.map fun e => ⟨c + e.2 / 2 + 1, e.1, none, 1, e.2, .claim⟩
      (s.setUnit p (x.launch .x c outs [] (.move m))).tuFlagIf u tuFmtBad (l.moveLines.length != 16 || l.gal.isSome)

/-- X.ENG (R372): the block's lines leave through the cluster port. -/
def State.xEng (s : State) (u : LU) (o : MoveOp) : State :=
  s.xLocal u .eng o 2 fun s p x c =>
    match x.xSource o with
    | none => s.xRefused u p x c o (some false) 64
    | some l =>
      let all := match l.gal with
        | none => l.lines
        | some _ => List.range 16
      let lines := all.take 64
      s.takePort u x false 0 (portCycles lines.length) fun s =>
        let m : MoveFlight := { s.newMove u .eng lines with
          tag := s.now / 16384 * 2 + o.slot.val % 2, fixed := (x.areg o.freg).toNat, opnd := some l }
        let (accs, pops) := sourceAccs c l lines
        let s := s.setUnit p (if lines.isEmpty then x else x.launch .x c accs pops (.move m))
        s.tuFlagIf u tuFmtBad (64 < all.length)

def State.xLd (s : State) (u : LU) (o : MoveOp) : State := s.xFar u o .ld
def State.xSt (s : State) (u : LU) (o : MoveOp) : State := s.xFar u o .st
def State.xSend (s : State) (u : LU) (o : MoveOp) : State := s.xFar u o .send
def State.xRecv (s : State) (u : LU) (o : MoveOp) : State := s.xFar u o .recv
def State.xRacc (s : State) (u : LU) (o : MoveOp) : State := s.xFar u o .racc
def State.xIload (s : State) (u : LU) (o : MoveOp) : State := s.xFar u o .iload
def State.xWtbl (s : State) (u : LU) (o : MoveOp) : State := s.xTable u o .wtbl 2 1
def State.xDtbl (s : State) (u : LU) (o : MoveOp) : State := s.xTable u o .dtbl 16 8

/-! ### Landings -/

def UnitS.flight (x : UnitS) (id : Nat) : Option Flight := x.flights.find? (·.id == id)

def UnitS.setFlight (x : UnitS) (f : Flight) : UnitS :=
  { x with flights := x.flights.map fun g => if g.id = f.id then f else g }

def UnitS.dropFlight (x : UnitS) (id : Nat) : UnitS := { x with flights := x.flights.filter (·.id != id) }

/-- The move goes on to its next line, with line accesses added, or is over. -/
def UnitS.moved (x : UnitS) (f : Flight) (m : MoveFlight) (accs : List LineAcc) : UnitS :=
  let m := { m with next := m.next + 1 }
  let g := { f with kind := .move m, accs := f.accs ++ accs }
  if m.next < m.total || !g.accs.isEmpty || m.gal.isSome then x.setFlight g else x.dropFlight f.id

/-- Bit of CD_ISO of a kind of access (R617, R636). -/
def MoveKind.isoBit : MoveKind → Nat
  | .st => 1
  | .racc => 2
  | _ => 0

/-- A suspect event of a move, charged to the step that issued it (R34). -/
def State.moveSuspect (s : State) (d : Die) (m : MoveFlight) (r : Reg) (b : Nat) : State :=
  let s := s.raiseBit r b true
  match m.who with
  | some (p, n) => s.suspectOrd p n d
  | none => s

/-- An error response: counted once for a move (R617). -/
def State.isoError (s : State) (u : LU) (m : MoveFlight) : State × MoveFlight :=
  if m.err then (s, m) else (s.moveSuspect u.d m (dreg .cdIso u.d) m.kind.isoBit, { m with err := true })

def LineEcc.upset : LineEcc → Nat
  | .clean => 0
  | .corrected => 1
  | .bad => 2

/-- Two halves of a line: an error, a blank, or both together. -/
def Delivery.join (a b : Delivery) : Delivery :=
  match a, b with
  | .error, _ | _, .error => .error
  | .data x, .data y => .data (x ++ y)
  | _, _ => .blank

/-- Who accesses a memory for a move: an operation of a step, or of none for a guest's (R488). -/
def MoveFlight.issuer (m : MoveFlight) (d : Die) : Issuer := if m.who.isSome then .step d else .host

/-- A line read at a far target in the cache or a stack. -/
def State.farRead (s : State) (i : Issuer) (f : Far) (a : Nat) (e : LineEcc) : State × Delivery :=
  match f.space with
  | .cache => s.cacheRead f.die a i e.upset
  | _ =>
    let (s, x) := s.hbmRead f.die a i e.upset
    let (s, y) := s.hbmRead f.die (a + 64) i
    (s, x.join y)

/-- A line written at a far target in the cache or a stack. -/
def State.farWrite (s : State) (i : Issuer) (f : Far) (a : Nat) (b : List Byte) : State × Delivery :=
  match f.space with
  | .cache => s.cacheWrite f.die a i b
  | _ =>
    let (s, x) := s.hbmWrite f.die a i (b.take 64)
    let (s, y) := s.hbmWrite f.die (a + 64) i (b.drop 64)
    (s, x.join y)

def zeroLine : List Byte := List.replicate 128 0

/-- Bytes of a free value (log 1): what reaches a unit's own state after the step boundary (R269). -/
def freeLine (g line : Nat) : List Byte := (List.range 128).map fun i => Config.freeByte g (128 * line + i)

/-- The buffer a far target names. -/
def Far.bufId (f : Far) : Option BufId := if h : f.port.val < 49 then some ⟨⟨f.port.val, h⟩, f.lane, f.buf⟩ else none

/-- An X.RECV's request reaches its buffer (R266): a tag that is not the slot's gives zeros, RECV_BLANK, a suspect event. -/
def State.recvCheck (s : State) (u : LU) (p : PU) (f : Flight) (m : MoveFlight) : State × MoveFlight :=
  if m.kind != .recv || m.checked || !m.carried then (s, m) else
  let good : Bool := match m.far.bind Far.bufId with
    | some b => (s.recvBuf b).tag.map (·.1) == some m.tag
    | none => false
  let m' := { m with checked := true, dead := m.dead || !good, err := !good && !m.dead }
  let s := s.modUnit p fun x => x.setFlight { f with kind := .move m' }
  (if good || m.dead then s else s.moveSuspect u.d m (ureg .tuStat u) tuRecvBlank, m')

/-- A line brought in lands: in the instruction bank, in the tile it makes, or in scratchpad in this cycle; the line of an
X.POP takes its bank and shows with the others (R258). -/
def State.landLine (s : State) (u : LU) (p : PU) (f : Flight) (m : MoveFlight) (b : List Byte) (blank : Bool) : State :=
  let n := m.next
  let c := s.cycle u.region
  if m.kind == .iload then
    let x := s.unit p
    let s := s.setUnit p (x.moved f m [])
    let (s, b) := if m.own then (s, b) else ({ s with free := s.free + 1 }, freeLine s.free n)
    if x.ctl.verso == m.bank then s.tuFlag u tuIbankActiveWr
    else if m.bank then s.modUnit p fun x => { x with verso := x.verso.write (128 * n) b }
    else s.modUnit p fun x => { x with recto := x.recto.write (128 * n) b }
  else
    let line := (m.lines[n]?).getD 0
    let (s, b) := if m.own then (s, b) else ({ s with free := s.free + 1 }, freeLine s.free line)
    match m.gal with
    | some g =>
      let f := { f with caught := { f.caught with
        lines := f.caught.lines.set (0, n) b, blank := f.caught.blank || blank } }
      let acc : LineAcc := if m.kind == .pop then ⟨max c (f.issue + n / 2 + 3), n % 16, some g, 1, n, .tile false⟩
        else ⟨c, n % 16, some g, 1, n, .tile true⟩
      s.modUnit p fun x => x.moved f m [acc]
    | none =>
      let act : Access := if m.kind == .pop then .claim else .land (b.map some) blank
      s.modUnit p fun x => x.moved f m [⟨c, line, none, 1, n, act⟩]

/-- The contribution of an X.RACC by a cluster's port (R330, R336): the operand its lines carry, in 64 x 64 records where they
come from a galley. -/
def State.raccApply (s : State) (c : ClusterId) (f : Flight) (o : Opnd) (t : Far) : State :=
  let wi := t.addr / 2 ^ 32 % 256
  let index := t.addr % 2 ^ 32
  match o.fmt with
  | none => s
  | some fm =>
    s.contribute t.die c.port wi index fm o.rows o.cols fun i j =>
      match o.gal with
      | none => fm.element (f.caught.reader .empty o 0) 0 scaleOrigin o.rows o.cols i j
      | some _ => fm.element (f.caught.record fm 0 (i / 64 * max 1 (o.cols / 64) + j / 64)) 0 (fm.arrayBytes 64 64) 64 64
          (i % 64) (j % 64)

/-- A line put into a send buffer; the last one sets the tag, or leaves it unset where the source was blank (R263, R265). -/
def State.sendInto (s : State) (m : MoveFlight) (t : Far) (b : List Byte) (blank : Bool) : State :=
  match t.bufId with
  | none => s
  | some id =>
    let x := s.sendBuf id
    let n := m.next
    let d := x.data ++ List.replicate (2560 - x.data.length) 0
    let d := if n < 20 then d.take (128 * n) ++ b ++ d.drop (128 * n + 128) else d
    let x := if n + 1 = m.total then x.setTag (if blank then none else some m.tag) s.now else x
    s.setSend id { x with data := d }

/-- A line sent out reaches its far target. A line of a `dead` move goes nowhere (R245); a store of a replay whose
comparison failed is dropped (R482), and a guest's contribution enters no window of the twin's own jobs (R488, log 22). -/
def State.sendLine (s : State) (u : LU) (p : PU) (f : Flight) (m : MoveFlight) (t : Far) (b : List Byte) : State :=
  let n := m.next
  let barred : Bool := m.dead || (u.alt.isSome && s.replays.any fun r => decide (r.spare = p) && r.failed
      && (m.kind == .st && !r.guest || m.kind == .send && r.guest)) || (m.kind == .racc && m.who.isNone)
  let (s, m) := if barred then (s, m) else
    match m.kind with
    | .st =>
      let (s, r) := s.farWrite (m.issuer u.d) t (t.addr + 128 * n) b
      if r == .error then s.isoError u m else (s, m)
    | .send => (s.sendInto m t b f.caught.blank, m)
    | .racc =>
      if s.dieClosed t.die then s.isoError u m else
      let s := s.intake t.die 128
      match m.opnd with
      | some o => (if n + 1 < m.total || f.caught.blank then s else s.raccApply u.cluster f o t, m)
      | none => (s, m)
    | _ => (s, m)
  s.modUnit p fun x => x.moved f m []

/-- A line comes in from its far target: zeros for a `dead` move, a blank for one that was not carried and for a read that
delivers one (R16, R245, R266, R410, R616). -/
def State.bringLine (s : State) (u : LU) (p : PU) (f : Flight) (m : MoveFlight) (t : Far) (e : LineEcc) : State :=
  let n := m.next
  if m.dead then s.landLine u p f m zeroLine (!m.carried || m.kind == .recv && m.err) else
  match m.kind with
  | .recv =>
    let b := match t.bufId with
      | some id => (((s.recvBuf id).data.drop (128 * n)).take 128)
      | none => []
    s.landLine u p f m (b ++ List.replicate (128 - b.length) 0) false
  | _ =>
    let (s, r) := s.farRead (m.issuer u.d) t (t.addr + 128 * n) e
    match r with
    | .data b => s.landLine u p f m b false
    | .blank => s.landLine u p f m zeroLine true
    | .error =>
      let (s, m) := s.isoError u m
      s.landLine u p f m zeroLine true

/-- The tick at which line `n` of a far move lands, at the earliest (R235, R258). -/
def MoveFlight.landTick (m : MoveFlight) (g : Gear) : Nat := m.issueTick + m.fixed + g.ticks (m.next / 2 + 1)

/-- MOVE_LINE_LAND: the next line of a move in flight. -/
def State.moveLineLand (s : State) (u : LU) (id : Nat) (e : LineEcc) : State :=
  match s.carrier u with
  | none => s
  | some p =>
    match (s.unit p).flight id with
    | none => s
    | some f =>
      match f.kind with
      | .move m =>
        if m.total ≤ m.next then s else
        let late : Bool := decide (m.landTick (s.region u.region).gear ≤ s.now)
        let got := f.caught.lines.get? (0, m.next)
        match m.kind, m.far, got with
        | .pop, _, some b =>
          if f.issue + m.next / 2 + 1 ≤ s.cycle u.region && !(s.region u.region).suppressed then
            s.landLine u p f m b f.caught.blank
          else s
        | .st, some t, some b | .send, some t, some b | .racc, some t, some b =>
          if late then s.sendLine u p f m t b else s
        | .ld, some t, _ | .recv, some t, _ | .iload, some t, _ =>
          if !late then s else
          let (s, m) := s.recvCheck u p f m
          s.bringLine u p f m t e
        | _, _, _ => s
      | _ => s

/-! ### Pushed tiles (R240, R262, R264) -/

/-- The accesses of tile `n` of an operation that are still to come. -/
def Flight.tileAccs (f : Flight) (n : Nat) : List LineAcc := f.accs.filter fun a => a.act.isTile && a.n / 16 == n

/-- The next tile that an operation is to push, if the last of its lines is there in cycle `c`: its number, galley and
bytes. -/
def UnitS.nextTile (x : UnitS) (f : Flight) (c : Nat) : Option (Nat × Fin 8 × List Byte) :=
  let here := fun (n : Nat) => (f.tileAccs n).all fun a => decide (a.due ≤ c)
  match f.kind with
  | .write w =>
    if w.pushed < w.tiles && here w.pushed then
      some (w.pushed, w.tileGalley w.pushed,
        if w.blank then List.replicate 2048 0 else w.tile (w.output f.caught x.sp) w.pushed)
    else none
  | .move m =>
    match m.gal with
    | none => none
    | some g =>
      let k := m.pushed
      let whole : Bool := if m.kind == .push then true else decide (16 * (k + 1) ≤ m.next ∨ m.total ≤ m.next)
      if whole && here k then
        some (k, g, (List.range 16).flatMap fun i => f.caught.lines.getD (0, 16 * k + i) zeroLine)
      else none
  | _ => none

/-- The operation after a tile of it has been pushed. -/
def UnitS.pushedOne (x : UnitS) (f : Flight) : UnitS :=
  let f := { f with armed := false }
  match f.kind with
  | .write w => x.setFlight { f with kind := .write { w with pushed := w.pushed + 1 } }
  | .move m =>
    let k := m.pushed + 1
    if m.kind == .push || m.total ≤ 16 * k then x.dropFlight f.id
    else x.setFlight { f with kind := .move { m with pushed := k } }
  | _ => x

/-- The lines of a tile that a W.WRITE lands enter its unit's digest (R472). -/
def State.digestTile (s : State) (u : LU) (a : Nat) (f : Flight) (k : Nat) (b : List Byte) : State :=
  if !s.digested u then s else
  s.modLu u fun l => { l with wdigest := (List.range 16).foldl (fun w i =>
    if f.caught.lost.contains (16 * k + i) then w
    else w + lineDigest (a / 128 + i) ((b.drop (128 * i)).take 128)) l.wdigest }

/-- A tile of an operation lands: a full galley drops it with a suspect event, a disabled one drops it too (R260, R264).
Where the move has crossed a step boundary its galley is undefined (R269). A tile made of a source with a blank line carries
the flag (DESIGN CHOICE, log 10). -/
def State.landTile (s : State) (u : LU) (p : PU) (f : Flight) (k : Nat) (g : Fin 8) (b : List Byte) : State :=
  let x := s.unit p
  let s := s.setUnit p (x.pushedOne f)
  if !s.galleyOn u g || 16 ≤ (x.galley g).count then
    match f.kind with
    | .move m => s.moveSuspect u.d m (ureg .tuStat u) tuGalleyOver
    | _ => s.tuSuspect u tuGalleyOver
  else
    let t := x.tileBytes f g k b
    let a := x.tilePlace g
    match f.kind with
    | .write w => (s.pushTile u p g t (f.caught.blank || w.blank) f.caught k).digestTile u a f k t
    | .move m =>
      if m.own then s.pushTile u p g t f.caught.blank f.caught k
      else { s.modUnit p fun y => y.freeGalley s.free g with free := s.free + 1 }
    | _ => s.pushTile u p g t f.caught.blank f.caught k

/-- Whether an operation's tiles come from the fabric (R256). -/
def Flight.onHall (f : Flight) : Bool :=
  match f.kind with
  | .move m => m.kind.inbound == some true
  | _ => false

/-- GALLEY_PUSH_LAND: the next tile of an operation lands. A tile whose last line has its access in this cycle lands with it,
at the cycle's end; one whose lines have all had theirs lands now. -/
def State.galleyPushLand (s : State) (u : LU) (id : Nat) : State :=
  match s.carrier u with
  | none => s
  | some p =>
    let x := s.unit p
    match x.flight id with
    | none => s
    | some f =>
      if (s.region u.region).suppressed && !f.onHall then s else
      match x.nextTile f (s.cycle u.region) with
      | none => s
      | some (k, g, b) =>
        if (f.tileAccs k).isEmpty then s.landTile u p f k g b else s.setUnit p (x.setFlight { f with armed := true })

/-- The tiles that land with the accesses of cycle `c` (R262). -/
def State.landArmed (s : State) (u : LU) (p : PU) (c : Nat) : State :=
  (s.unit p).ordered.foldl (fun s f =>
    if !f.armed || !(f.tileAccs (match f.kind with
      | .write w => w.pushed
      | .move m => m.pushed
      | _ => 0)).isEmpty then s else
    match (s.unit p).nextTile f c with
    | some (k, g, b) => s.landTile u p f k g b
    | none => s) s

/-! ### Command blocks (R375) -/

/-- ENGINE_BLOCK_ARRIVE: the block of an X.ENG whose lines have all been read arrives at its engine, in cycle
issue + P + 2. -/
def State.engineBlockArrive (s : State) (u : LU) (id : Nat) : State :=
  match s.carrier u with
  | none => s
  | some p =>
    match (s.unit p).flight id with
    | none => s
    | some f =>
      match f.kind with
      | .move m =>
        if m.kind != .eng || !f.accs.isEmpty || s.cycle u.region < f.issue + portCycles m.total + 2
            || (s.region u.region).suppressed then s else
        let b := (List.range m.total).flatMap fun n => f.caught.lines.getD (0, n) zeroLine
        let s := s.modUnit p fun x => x.dropFlight id
        s.blockArrive u p (m.tag % 2 == 1) f.issue m.total (m.tag / 2) m.who (BitVec.ofNat 32 m.fixed) b
      | _ => s

end Sys2Proof.Machine
end

