-- ==== Sys2Proof/Machine/Bundle.lean ====
section
/-!
DEFINITION. The bits of a bundle (06_unit_programming.md R223, R224, R236, R239, R241, R243, R246, R248): where each slot
lies, and the operation that a slot's bits spell. Bits that the operation does not use must be 0; of a field of which it
uses a part, such as IMM[4:0], the rest is unused (notes/assumptions 7).
-/
namespace Sys2Proof.Machine

open Sys2Proof

/-- What a slot's bits spell: nothing, an operation, or what issues as NOP with OP_BAD (R224). -/
inductive SlotRead where
  | nop | op (i : Instr) | bad
  deriving DecidableEq, Repr

/-- Field of `w` bits at `lo` of a slot's value. -/
def slotFld (v lo w : Nat) : Nat := v / 2 ^ lo % 2 ^ w

/-- An operation where every bit of the slot outside those it uses, given as pairs of lowest bit and width, is 0. -/
def SlotRead.using (v : Nat) (used : List (Nat × Nat)) (i : Instr) : SlotRead :=
  if v = used.foldl (fun a f => a + slotFld v f.1 f.2 * 2 ^ f.1) 0 then .op i else .bad

/-- The slots of a bundle: its lowest bit and width (R223). -/
def Slot.place : Slot → Nat × Nat
  | .m => (8, 40)
  | .w => (48, 32)
  | .v => (80, 48)
  | .x => (128, 56)
  | .a => (184, 24)
  | .l => (208, 32)

/-- The value of a slot of a bundle. -/
def slotValueOf (b : List Byte) (sl : Slot) : Nat := slotFld (leNat b) sl.place.1 sl.place.2

/-- The M slot (R236). -/
def readM (u : LU) (v : Nat) : SlotRead :=
  let g := Fin.ofNat 4 (slotFld v 4 2)
  match slotFld v 0 4 with
  | 0 => if v = 0 then .nop else .bad
  | 1 => .using v [(0, 34)] (.mMma u {
      group := g, adesc := Fin.ofNat 64 (slotFld v 6 6), areg := Fin.ofNat 16 (slotFld v 12 4)
      bdesc := Fin.ofNat 64 (slotFld v 16 6), breg := Fin.ofNat 16 (slotFld v 22 4)
      oga := if slotFld v 29 1 = 1 then some (Fin.ofNat 8 (slotFld v 26 3)) else none
      ogb := if slotFld v 33 1 = 1 then some (Fin.ofNat 8 (slotFld v 30 3)) else none })
  | 2 => .using v [(0, 18)] (.grpOpen u {
      group := g, load := slotFld v 6 1 == 1, proof := slotFld v 7 1 == 1
      desc := Fin.ofNat 64 (slotFld v 8 6), areg := Fin.ofNat 16 (slotFld v 14 4) })
  | 3 => .using v [(0, 6)] (.grpClose u g)
  | _ => .bad

/-- The W slot (R239): of SRC a group source uses the two low bits. -/
def readW (u : LU) (v : Nat) : SlotRead :=
  if v = 0 then .nop else
  if slotFld v 0 2 ≠ 1 then .bad else
  let srcg := slotFld v 5 1 == 1
  .using v (if srcg then [(0, 8), (12, 20)] else [(0, 32)]) (.wWrite u {
    prof := Fin.ofNat 8 (slotFld v 2 3), srcg := srcg, src := Fin.ofNat 64 (slotFld v 6 6)
    sreg := Fin.ofNat 16 (slotFld v 12 4), dst := Fin.ofNat 64 (slotFld v 16 6)
    dreg := Fin.ofNat 16 (slotFld v 22 4), aux := Fin.ofNat 64 (slotFld v 26 6) })

/-- The V slot (R241). -/
def readV (u : LU) (v : Nat) : SlotRead :=
  let reg := fun lo => Fin.ofNat 16 (slotFld v lo 4)
  let d := reg 6
  let a := reg 10
  let b := reg 14
  let c := reg 18
  let desc := Fin.ofNat 64 (slotFld v 22 6)
  let ar := reg 28
  let three := SlotRead.using v [(0, 18)]
  let two := SlotRead.using v [(0, 14)]
  match slotFld v 0 6 with
  | 0 => if v = 0 then .nop else .bad
  | 1 => three (.vAdd u d a b)
  | 2 => three (.vSub u d a b)
  | 3 => three (.vMul u d a b)
  | 4 => .using v [(0, 22)] (.vFma u d a b c)
  | 5 => two (.vRcp u d a)
  | 6 => two (.vRsq u d a)
  | 7 => two (.vExp u d a)
  | 8 => two (.vSum u d a)
  | 9 => .using v [(0, 10), (22, 10)] (.vLd u d desc ar)
  | 10 => .using v [(0, 6), (10, 4), (22, 10)] (.vSt u a desc ar)
  | 11 => .using v [(0, 12), (28, 4), (32, 6)]
      (.vLdg u d (Fin.ofNat 4 (slotFld v 10 2)) (Fin.ofNat 64 (slotFld v 32 6)) ar)
  | 12 => .using v [(0, 10), (32, 16)] (.vSplat u d (BitVec.ofNat 16 (slotFld v 32 16)))
  | _ => .bad

/-- The fields of the X slot (R243). -/
def readMove (v : Nat) : MoveOp where
  ldesc := Fin.ofNat 64 (slotFld v 5 6)
  lreg := Fin.ofNat 16 (slotFld v 11 4)
  fdesc := Fin.ofNat 64 (slotFld v 15 6)
  freg := Fin.ofNat 16 (slotFld v 21 4)
  slot := Fin.ofNat 128 (slotFld v 25 7)
  fsel := slotFld v 32 1 == 1
  gal := Fin.ofNat 8 (slotFld v 33 3)

/-- The X slot (R243). -/
def readX (u : LU) (v : Nat) : SlotRead :=
  let o := readMove v
  let move := fun (k : MoveKind) (i : Instr) => if k.stray o then .bad else SlotRead.using v [(0, 36)] i
  match slotFld v 0 5 with
  | 0 => if v = 0 then .nop else .bad
  | 1 => move .ld (.xLd u o)
  | 2 => move .st (.xSt u o)
  | 3 => move .send (.xSend u o)
  | 4 => move .recv (.xRecv u o)
  | 5 => move .push (.xPush u o)
  | 6 => move .pop (.xPop u o)
  | 7 => move .racc (.xRacc u o)
  | 8 => move .iload (.xIload u o)
  | 9 => move .wtbl (.xWtbl u o)
  | 10 => move .dtbl (.xDtbl u o)
  | 11 => move .eng (.xEng u o)
  | 12 => move .mon (.xMon u o)
  | _ => .bad

/-- The A slot (R246): an immediate shift uses IMM[4:0]. -/
def readA (u : LU) (v : Nat) : SlotRead :=
  let reg := fun lo => Fin.ofNat 16 (slotFld v lo 4)
  let d := reg 4
  let a := reg 8
  let t := reg 12
  let imm := BitVec.ofNat 16 (slotFld v 12 12)
  let regs := SlotRead.using v [(0, 16)]
  match slotFld v 0 4 with
  | 0 => if v = 0 then .nop else .bad
  | 1 => regs (.aAdd u d a t)
  | 2 => regs (.aSub u d a t)
  | 3 => regs (.aAnd u d a t)
  | 4 => regs (.aShl u d a t)
  | 5 => regs (.aShr u d a t)
  | 6 => .op (.aAddi u d a imm)
  | 7 => .op (.aAndi u d a imm)
  | 8 => .using v [(0, 17)] (.aShli u d a imm)
  | 9 => .using v [(0, 17)] (.aShri u d a imm)
  | _ => .bad

/-- The L slot (R248): LEN and COUNT are at least 1. -/
def readL (u : LU) (v : Nat) : SlotRead :=
  match slotFld v 0 4 with
  | 0 => if v = 0 then .nop else .bad
  | 1 => if slotFld v 8 10 = 0 then .bad else
    .using v [(0, 18)] (.lLoop u (Fin.ofNat 16 (slotFld v 4 4)) (Fin.ofNat 1024 (slotFld v 8 10)))
  | 2 => .using v [(0, 18)] (.lWait u (Fin.ofNat 16384 (slotFld v 4 14)))
  | 3 => if slotFld v 4 14 = 0 then .bad else .using v [(0, 18)] (.lIdle u (Fin.ofNat 16384 (slotFld v 4 14)))
  | 4 => .using v [(0, 4)] (.lArm u)
  | 5 => .using v [(0, 14)] (.lEntry u (Fin.ofNat 1024 (slotFld v 4 10)))
  | 6 => .using v [(0, 4)] (.lHalt u)
  | 7 => .using v [(0, 19)]
      (.lSkip u (Fin.ofNat 16 (slotFld v 4 4)) (slotFld v 8 1 == 1) (Fin.ofNat 1024 (slotFld v 9 10)))
  | _ => .bad

/-- What a slot of a bundle spells. -/
def readSlot (u : LU) (b : List Byte) (sl : Slot) : SlotRead :=
  let v := slotValueOf b sl
  match sl with
  | .m => readM u v
  | .w => readW u v
  | .v => readV u v
  | .x => readX u v
  | .a => readA u v
  | .l => readL u v

/-- The slots in bundle order (R225). -/
def allSlots : List Slot := [.m, .w, .v, .x, .a, .l]

/-- The operations that a bundle issues, in bundle order. -/
def bundleOps (u : LU) (b : List Byte) : List Instr :=
  allSlots.filterMap fun sl => match readSlot u b sl with
    | .op i => some i
    | _ => none

/-- Whether a slot of a bundle is not as the tables say (R224). -/
def bundleSlotBad (u : LU) (b : List Byte) : Bool := allSlots.any fun sl => readSlot u b sl == .bad

/-- The bundle of a unit that is not held issues: its header and slots are read (R224), the sequencer goes on. -/
def State.bundleIssue (s : State) (u : LU) (p : PU) : State :=
  let x := s.unit p
  let bad := x.ctl.hold == .none && bundleSlotBad u x.bundle
  (s.bundleEnd u p).tuFlagIf u tuOpBad bad

end Sys2Proof.Machine
end

