-- ==== Sys2Proof/Machine/UnitTick.lean ====
section
/-!
DEFINITION. One core cycle of a region: pops, line accesses and bank collisions, results that land, timing audit mode,
and suppression (06_unit_programming.md R225, R233 to R235, R256, R258, R260 to R263, R270 to R275;
13_power_and_thermal.md R524 to R527).
-/
namespace Sys2Proof.Machine

open Sys2Proof

/-- The units of a region with their positions: the carriers, and the spares that replay (R44, R480). -/
def State.regionUnits (s : State) (r : RegionId) : List (LU × PU) :=
  ((regionLus r).filterMap fun l => (s.carrier l).map fun p => (l, p))
    ++ s.replays.filterMap fun e =>
      if e.spare.region = r && e.running then
        some ({ e.unit with alt := some ⟨(e.spare.p.val - 64) % 2, Nat.mod_lt _ (by decide)⟩ }, e.spare)
      else none

/-! ### Pops (R262, R263) -/

/-- The oldest tile leaves a galley: its place, and whether it is blank; `none` where it is empty. -/
def UnitS.pop (x : UnitS) (g : Fin 8) : UnitS × Option (Nat × Bool) :=
  let q := x.galley g
  if q.count = 0 then (x, none)
  else (x.setGalley g { q with head := ⟨(q.head.val + 1) % 16, Nat.mod_lt _ (by decide)⟩, count := q.count - 1 },
    some (q.head.val, q.blanks.contains q.head.val))

/-- One pop of an operation. -/
def State.popTile (s : State) (u : LU) (p : PU) (id : Nat) (d : PopDue) : State :=
  let x := s.unit p
  let (x, got) := if s.galleyOn u d.gal then x.pop d.gal else (x, none)
  let put := fun (f : Flight) => { f with
    pops := f.pops.filter (· ≠ d)
    caught := { f.caught with
      tiles := f.caught.tiles.set (d.stream, d.tile) (got.map (·.1))
      blank := f.caught.blank || (match got with
        | some e => e.2
        | none => true) } }
  let s := s.setUnit p { x with flights := x.flights.map fun f => if f.id = id then put f else f }
  if got.isSome then s else s.tuSuspect u tuGalleyUnder

/-- The galleys that an operation of an earlier step would move in cycle `c` are undefined (R269). -/
def State.undefGalleys (s : State) (p : PU) (c : Nat) : State :=
  let x := s.unit p
  let due := x.galUndef.filter fun e => decide (e.1 ≤ c)
  if due.isEmpty then s else
  let x := { x with galUndef := x.galUndef.filter fun e => !decide (e.1 ≤ c) }
  { s.setUnit p (due.foldl (fun x e => x.freeGalley s.free e.2) x) with free := s.free + 1 }

def State.doPops (s : State) (u : LU) (p : PU) (c : Nat) : State :=
  let due := (s.unit p).ordered.flatMap fun f => (f.pops.filter fun d => d.due ≤ c).map fun d => (f.id, d)
  due.foldl (fun s e => s.popTile u p e.1 e.2) s

/-! ### Timing audit mode (R271 to R275) -/

/-- The side-table entry that governs a read (R273). -/
def Flight.auditEntry (f : Flight) (stream : Nat) : Option Nat :=
  match f.kind with
  | .mma _ => if stream < 2 then some stream else none
  | .write w => if w.src.isSome then some 2 else none
  | .vld _ _ => some 3
  | .move _ => some 4
  | _ => none

/-- A read of line `line`: a record where its producer had not landed, as where no stamp of this step stands (R274, R275,
R663). -/
def State.auditRead (s : State) (u : LU) (p : PU) (f : Flight) (stream line : Nat) : State :=
  if !s.auditOn u then s else
  match f.auditEntry stream with
  | none => s
  | some e =>
    let x := s.unit p
    let dmax := leNat (x.sp.bytes ((if f.verso then 0xFC000 else 0xF8000) + 16 * f.bundle + 2 * e) 2)
    let (n, t, valid) := x.stamps.getD line (0, 0, false)
    let now := BitVec.ofNat 32 (s.cycle u.region)
    if dmax = 0xFFFF || (valid && decide ((now - n).toNat ≤ dmax)) || f.hits.contains e then s else
    let s := s.modUnit p fun x => { x with flights := x.flights.map fun g =>
      if g.id = f.id then { g with hits := e :: g.hits } else g }
    let r := ureg .tuAudit u
    let k := s.rdFld r 9 4
    let rec_ := (BitVec.ofNat 32 s.now, BitVec.ofNat 32 (128 * line),
      BitVec.ofNat 32 (f.bundle + (if f.verso then 1024 else 0) + 65536 * e), t)
    let s := s.modLu u fun l => { l with audit := l.audit.set k rec_ }
    let s := (s.wrFld r 9 4 (k + 1)).wrFld r 31 16 (min (s.rdFld r 31 16 + 1) 0xFFFF)
    s.raiseBit (ureg .tuStat u) tuAuditHit false (128 * line)

/-! ### Line accesses -/

/-- The scratchpad line of an access, where it has one: a popped tile that was not there has none. -/
def Flight.accLine (f : Flight) (a : LineAcc) : Option Nat :=
  match a.gal with
  | none => some a.line
  | some g => match f.caught.tiles.getD (a.stream, a.n / 16) none with
    | some place => some (galleyLine g + 16 * place + a.n % 16)
    | none => none

/-- The bank of an access (R233). -/
def LineAcc.bank (a : LineAcc) : Nat := (match a.gal with
  | none => a.line
  | some _ => a.n) % 16

/-- The 64 bytes of a monitor set (R180, R182). -/
def MonSet.bytes (m : MonSet) : List Byte :=
  ([m.c.satElem, m.c.unfElem, m.c.zeroBlk, m.c.nanBlk, m.c.flatBlk, m.c.outlier, m.c.satBlk, m.c.unfBlk, m.c.nzIn].flatMap
    fun n => natLe 4 n) ++ natLe 4 m.trip.toNat ++ List.replicate 24 0

/-- Line `n` of the two monitor banks as X.MON moves them (R181). -/
def LuS.monLine (l : LuS) (n : Nat) : List Byte :=
  let all := l.live ++ l.prev
  ((all[2 * n]?).getD .zero).bytes ++ ((all[2 * n + 1]?).getD .zero).bytes

/-- A row half that a GRP_OPEN's load has read goes to its group: s flushed, c +0 (R200, R235). A NaN or infinity so loaded
sets no ACC_NAN and no ACC_INF, which promotions set (DESIGN CHOICE, log 32). -/
def State.loadRow (s : State) (u : LU) (p : PU) (g : Fin 4) (n : Nat) (b : List Byte) : State :=
  let x := s.unit p
  let gr := x.group g
  let base := 64 * (n / 2) + 32 * (n % 2)
  let ws := (List.range 32).map fun i => canon32 (BitVec.ofNat 32 (leNat ((b.drop (4 * i)).take 4)))
  let cells := ws.zipIdx.foldl (fun l e => l.set (base + e.2) (⟨e.1, 0⟩ : Pair)) gr.cells
  let s := s.setUnit p { x.setGroup g { gr with cells := cells } with flights := x.flights.map (Flight.rebase g) }
  if gr.st == .proof then
    let feed := fun (e : ProofS) =>
      let acc := ws.zipIdx.foldl (fun a w => a.set (base + w.2) (Exact.add .zero (f32 w.1))) e.acc
      if e.boundTo u g then { e with acc := acc } else e
    s.modCluster u.cluster fun c => { c with proof := c.proof.map feed }
  else s

/-- A line is written: bytes over the old ones, its blank flag, its stamp (R272, R469), and for the writer the digest
(R472). -/
def State.putScratch (s : State) (u : LU) (p : PU) (line : Nat) (b : List (Option Byte)) (blank digest : Bool) : State :=
  let x := s.unit p
  let old := x.sp.bytes (128 * line) 128
  let new := (old.zip b).map fun e => e.2.getD e.1
  let x := { x with
    sp := x.sp.write (128 * line) new
    blank := if blank then line :: x.blank.filter (· ≠ line) else x.blank.filter (· ≠ line)
    stamps := if s.auditOn u then
        x.stamps.set line (BitVec.ofNat 32 (s.cycle u.region), BitVec.ofNat 32 s.now, true)
      else x.stamps }
  let s := s.setUnit p x
  if digest && s.digested u then s.modLu u fun l => { l with wdigest := l.wdigest + lineDigest line new } else s

/-- A read brings a line, or where `got` is `none` a line of zeros. -/
def State.catchLine (s : State) (u : LU) (p : PU) (f : Flight) (a : LineAcc) (got : Option (List Byte)) (blank : Bool) :
    State :=
  let b := got.getD zeroLine
  let s := s.modUnit p fun x => { x with flights := x.flights.map fun g =>
    if g.id = f.id then { g with caught := { g.caught with
      lines := g.caught.lines.set (a.stream, a.n) b, blank := g.caught.blank || blank } } else g }
  match f.kind with
  | .load g crossed =>
    if crossed then { s.loadRow u p g a.n (freeLine s.free a.n) with free := s.free + 1 } else s.loadRow u p g a.n b
  | _ => s

/-- What a destination line of an operation holds. -/
def State.outLine (s : State) (p : PU) (f : Flight) (a : LineAcc) : List (Option Byte) × Bool × Bool :=
  match f.kind with
  | .write w =>
    if w.blank then (List.replicate 128 (some 0), true, true)
    else (w.line (w.output f.caught (s.unit p).sp) a.line, false, true)
  | _ => ([], false, false)

/-- A line that an operation holds until it shows (R258). -/
def State.noteLine (s : State) (p : PU) (f : Flight) (k : Nat × Nat) (b : List Byte) : State :=
  s.modUnit p fun x => { x with flights := x.flights.map fun g =>
    if g.id = f.id then { g with caught := { g.caught with lines := g.caught.lines.set k b } } else g }

/-- An access that has its bank. -/
def State.served (s : State) (u : LU) (p : PU) (f : Flight) (a : LineAcc) : State :=
  match a.act with
  | .read =>
    match f.accLine a with
    | some l =>
      let x := s.unit p
      (s.auditRead u p f a.stream l).catchLine u p f a (some (x.sp.bytes (128 * l) 128)) (x.blank.contains l)
    | none => s.catchLine u p f a none false
  | .out =>
    let (b, blank, digest) := s.outLine p f a
    s.putScratch u p a.line b blank digest
  | .data b blank => s.putScratch u p a.line b blank false
  | .land b blank => s.putScratch u p a.line b blank false
  | .tile _ =>
    let t := (BitVec.ofNat 32 (s.cycle u.region), BitVec.ofNat 32 s.now)
    if !s.auditOn u then s else
    s.modUnit p fun x => { x with flights := x.flights.map fun g =>
      if g.id = f.id then { g with caught := { g.caught with marks := g.caught.marks.set a.n t } } else g }
  | .claim => match f.kind with
    | .move m => if m.kind == .mon then s.noteLine p f (1, a.n) ((s.lu u).monLine a.n) else s
    | _ => s

/-- An access that finds its bank taken is dropped (R234). -/
def State.dropped (s : State) (u : LU) (p : PU) (f : Flight) (a : LineAcc) : State :=
  let s := s.tuFlag u tuBankCollide
  match a.act with
  | .read => s.catchLine u p f a none false
  | .tile _ | .claim => s.modUnit p fun x => { x with flights := x.flights.map fun g =>
      if g.id = f.id then { g with caught := { g.caught with lost := a.n :: g.caught.lost } } else g }
  | _ => s

/-- The line accesses of cycle `c`; in a suppressed cycle only what comes in from the fabric (R256). -/
def State.accesses (s : State) (u : LU) (p : PU) (c : Nat) (landOnly : Bool) : State :=
  let now : LineAcc → Bool := fun a => decide (a.due ≤ c) && (!landOnly || a.act.isLand)
  let due := (s.unit p).ordered.flatMap fun f => (f.accs.filter now).map fun a => (f.id, a)
  let s := if due.isEmpty then s else
    s.modUnit p fun x => { x with flights := x.flights.map fun f => { f with accs := f.accs.filter fun a => !now a } }
  (due.foldl (fun (acc : State × List Nat) e =>
    let (s, used) := acc
    match (s.unit p).flight e.1 with
    | none => (s, used)
    | some f =>
      let b := e.2.bank
      if used.contains b then (s.dropped u p f e.2, used) else (s.served u p f e.2, b :: used)) (s, [])).1

/-! ### Results that land -/

/-- Flights that have nothing left to do leave; loads of vectors go on to their registers (R258). -/
def UnitS.settle (x : UnitS) : UnitS :=
  let done : Flight → Bool := fun f => f.accs.isEmpty && (match f.kind with
    | .load _ _ | .vld _ _ | .vst | .deposit => true
    | .write w => w.counted && w.pushed == w.tiles
    | .move m => m.kind != .mon && m.kind != .pop && m.kind != .push && m.next == m.total && m.gal.isNone
    | _ => false)
  let vs := x.flights.filterMap fun f => if !done f then none else
    match f.kind with
    | .vld vd o => some (⟨f.issue + o.vLatency, f.id, vd, f.vValue o⟩ : VPend)
    | _ => none
  { x with flights := x.flights.filter fun f => !done f, vpend := x.vpend ++ vs }

/-- Vector results of cycle `c`: of two into one register the later-issued is kept (R270). -/
def State.landVectors (s : State) (u : LU) (p : PU) (c : Nat) : State :=
  let x := s.unit p
  let due := x.vpend.filter fun v => v.due ≤ c
  if due.isEmpty then s else
  let last := fun (v : VPend) => !due.any fun w => w.vd = v.vd && decide (v.id < w.id)
  let x := { x with
    vpend := x.vpend.filter fun v => !decide (v.due ≤ c)
    vregs := (due.filter last).foldl (fun l v => l.set v.vd.val v.val) x.vregs }
  (s.setUnit p x).tuFlagIf u tuVregCollide (due.any fun v => !last v)

/-- The tables of X.WTBL and X.DTBL take effect (R258). -/
def UnitS.landTables (x : UnitS) (c : Nat) : UnitS :=
  let ready : Flight → Bool := fun f => match f.kind with
    | .move m => (m.kind == .wtbl && decide (f.issue + 4 ≤ c)) || (m.kind == .dtbl && decide (f.issue + 10 ≤ c))
    | _ => false
  (x.flights.filter ready).foldl (fun x f =>
    match f.kind with
    | .move m =>
      let b := (List.range m.total).flatMap fun n => f.caught.lines.getD (0, n) zeroLine
      let x := x.dropFlight f.id
      if m.kind == .wtbl then { x with wtab := x.wtab.write 0 (b.take 256) } else { x with dtab := x.dtab.write 0 (b.take 2048) }
    | _ => x) x

/-- The lines of X.POP and X.MON show in cycle issue + 10 (R258): each that has taken its bank. -/
def State.landLocals (s : State) (u : LU) (p : PU) (c : Nat) : State :=
  (s.unit p).ordered.foldl (fun s f =>
    match f.kind with
    | .move m =>
      let n := if m.kind == .mon then m.total else m.next
      if !(m.kind == .mon || m.kind == .pop) || m.gal.isSome || c < f.issue + 10 || !f.accs.isEmpty || n ≤ m.pushed then s else
      let key := if m.kind == .mon then 1 else 0
      let s := (List.range n).foldl (fun s k =>
        if k < m.pushed || f.caught.lost.contains k then s else
        s.putScratch u p ((m.lines[k]?).getD 0) ((f.caught.lines.getD (key, k) zeroLine).map some)
          (m.kind == .pop && f.caught.blank) false) s
      s.modUnit p fun x => if m.total ≤ n then x.dropFlight f.id else x.setFlight { f with kind := .move { m with pushed := n } }
    | _ => s) s

/-- Address registers take the results of the cycle (R246). -/
def UnitS.landA (x : UnitS) : UnitS :=
  { x with aregs := x.apend.foldl (fun l e => l.set e.1.val e.2) x.aregs, apend := [] }

/-- What a unit makes of cycle `c`: its pops, its accesses, the tiles that land with them, its groups and its sequencer; and
the results that the next cycle sees. -/
def State.unitCycle (s : State) (u : LU) (p : PU) (c : Nat) (issues : Bool) : State :=
  let s := ((s.landLocals u p c).undefGalleys p c).doPops u p c
  let s := s.accesses u p c false
  let s := (s.landArmed u p c).drillTile u p
  let s := s.groupEnd u p c
  let s := if issues then s.bundleIssue u p else s
  let s := s.modUnit p fun x => ((x.settle).landA).landTables (c + 1)
  s.landVectors u p (c + 1)

/-- What a unit makes of a suppressed cycle: only what comes in from the fabric lands (R256). -/
def State.heldCycle (s : State) (u : LU) (p : PU) (c : Nat) : State :=
  ((s.accesses u p c true).landArmed u p c).modUnit p UnitS.settle

/-- The tags that X.RECVs of a unit test by now (R266). -/
def State.recvChecks (s : State) (u : LU) (p : PU) : State :=
  (s.unit p).flights.foldl (fun s f => match f.kind with
    | .move m => if m.kind == .recv && !m.checked && decide (m.issueTick + m.fixed ≤ s.now + 8) then
        (s.recvCheck u p f m).1 else s
    | _ => s) s

/-! ### Suppression (R83, R524 to R527) -/

/-- Whether the region's core cycle now is suppressed by droop, and by its cap. -/
def RegionS.droops (x : RegionS) : Bool := x.droop.isSome
def RegionS.capped (x : RegionS) : Bool := capCycle x.q x.cm x.cyc

/-- The region after a core cycle. -/
def State.nextCycle (s : State) (r : RegionId) : State :=
  let x := s.region r
  let s := if x.suppressed && x.droops then s.count (rreg .pwrDroopCyc r) 1 else s
  let s := if x.suppressed && x.capped then s.count (rreg .pwrCapCyc r) 1 else s
  let starts : Bool := x.droopIn == some 1
  let s := if starts then (s.count (rreg .pwrDroopEv r) 1).raiseBit (rreg .pwrRegionStat r) 2 else s
  s.modRegion r fun _ =>
    let droop := if starts then some 0 else if x.droopBad then x.droop else x.droop.map (· + 1)
    let y := { x with
      cyc := x.cyc + 1
      live := if x.suppressed then x.live else x.live + 1
      lag := if x.suppressed then x.lag + 1 else x.lag
      droop := droop
      droopBad := false
      droopIn := match x.droopIn with
        | some (n + 2) => some (n + 1)
        | _ => none }
    { y with suppressed := y.droops || y.capped }

/-- One core cycle of a region that has an edge at this tick: its engines (R376), its units, the count of its cycles. -/
def State.regionCycle (s : State) (r : RegionId) : State :=
  let c := s.cycle r
  let issues := s.regionIssues r
  let us := s.regionUnits r
  let s := if (s.region r).suppressed then s else
    (regionClusters r).foldl (fun s k => (s.engineCycle k false).engineCycle k true) s
  let s := us.foldl (fun s e => if (s.region r).suppressed then s.heldCycle e.1 e.2 c else s.unitCycle e.1 e.2 c issues) s
  s.nextCycle r

/-- Whether a region's units and engines have anything to do in a cycle: a forme runs on its die, or something is in
flight. -/
def State.regionActive (s : State) (r : RegionId) : Bool :=
  (s.running r.d).isSome || (s.units.entries.any fun e => e.1.region = r && !e.2.flights.isEmpty)
    || (regionClusters r).any fun c => (s.clusterS c).drill.isSome || (s.clusterS c).rake.isSome

/-- The regions' share of a tick (R99, R601): each that has power, a locked clock and an edge. A region with nothing to
do counts its cycles all the same (R272). -/
def State.unitTick (s : State) : State :=
  allRegions.foldl (fun s r =>
    if s.power.clkLost.contains (.region r) || !s.edgeNow r || s.regionFallow r then s
    else if !s.regionActive r then (if s.rdBit (rreg .pwrRegionStat r) 4 then s.nextCycle r else s) else
    let s := s.regionCycle r
    (s.regionUnits r).foldl (fun s e => s.recvChecks e.1 e.2) s) s

end Sys2Proof.Machine
end

