-- ==== Sys2Proof/Machine/Boundaries.lean ====
section
/-!
DEFINITION. Furrow boundaries and step boundaries: slips and cuts (02_hall_time.md R86 to R89, R98), unit state
(06_unit_programming.md R269), fences and spares (01_package_and_levels.md R49 to R51), the choice of a variant
(07_training_step.md R310 to R312), the step report (R320), and the start and the halt of a forme (02_hall_time.md R95
to R98).
-/
namespace Sys2Proof.Machine

open Sys2Proof

/-! ### Slips (R86 to R89) -/

/-- A block slips: HT_SLIP_CNT, and a place in the slip notice. -/
def State.slip (s : State) (b : SlipBlock) : State :=
  (s.count (xreg .htSlipCnt) 1).modLinks fun k => { k with slips := k.slips ++ [b] }

/-- The number of a slipping block's kind (R444). -/
def SlipKind.code : SlipKind → Nat
  | .region => 0
  | .update => 1
  | .adders => 2
  | .hbm => 3

/-- The order of slipping blocks in a notice: by die, then kind, then region (R444). -/
def SlipBlock.key (b : SlipBlock) : Nat :=
  16 * b.die.val + 4 * b.kind.code + (match b.region with
    | some r => r.val
    | none => 0)

/-- What a notice says of each partition that slipped: its first slipping block and its slips (R88, R444). -/
def slipEntries (bs : List SlipBlock) : List SlipEntry :=
  let bs := bs.mergeSort fun a b => decide (a.key ≤ b.key)
  allParts.filterMap fun p =>
    let mine := bs.filter (·.part = p)
    mine.head?.map fun b => ⟨p, b.kind.code, b.die.val, (b.region.map (·.val)).getD 0xFF, mine.length⟩

/-- The slip notice of a boundary, for the tramlines at least 512 ticks after it (R88). -/
def State.slipNotice (s : State) : State :=
  let bs := s.links.slips
  if bs.isEmpty then s else
  let es := slipEntries bs
  let ports := (es.flatMap fun e => match (s.part e.part).forme with
    | some f => f.ports
    | none => []).eraseDups
  (s.sendMsg ports ((es.map (·.part)).headD 0) (s.now + 512)
    (.slip ((s.furrow - 1) % 2 ^ 32) bs.length es)).modLinks fun k => { k with slips := [] }

/-! ### Units at a furrow boundary (R86, R253, R254, R307, R483) -/

/-- Whether a partition had scheduled issue in the furrow that ends: its step had begun, and its banks were loaded. -/
def State.issuedFurrow (s : State) (p : Part) : Bool :=
  let ps := s.part p
  decide (ps.stepStart < s.now) && decide (ps.loadUntil + 16384 ≤ s.now)

/-- A region at a furrow boundary: a main segment without SEG_END slips, headland work still to issue is cut, a spare
that replays stops. -/
def State.regionBoundary (s : State) (p : Part) (r : RegionId) : State :=
  let us := (regionLus r).filterMap fun l => (s.carrier l).map fun q => (l, q)
  let ctl := fun (q : PU) => (s.unit q).ctl
  let counts := s.issuedFurrow p && !s.regionFallow r
  let slips : Bool := counts && us.any fun e => !(ctl e.2).segEnd
  let cutUnits := us.filter fun e => counts && (ctl e.2).segEnd && (ctl e.2).hold != .halted
  let spares := s.replays.filter fun e => e.spare.region = r
  let cutSpares := spares.filter fun e => e.running && (ctl e.spare).hold != .halted
  let s := if slips then (((s.noteLag r).raiseSuspect (rreg .tuRegionLag r) 15).slip ⟨p, .region, r.d, some r.r⟩) else s
  let s := if cutUnits.isEmpty && cutSpares.isEmpty then s else s.raiseBit (rreg .tuRegionLag r) 14
  let s := cutUnits.foldl (fun s e => if s.rdBit (ureg .tuStat e.1) tuWtrip then s.suspect p r.d else s) s
  let s := cutSpares.foldl (fun s e => s.modUnit e.spare fun x => { x with flights := [] }) s
  let s := spares.foldl (fun s e => s.modUnit e.spare fun x => { x with ctl := { x.ctl with hold := .halted }, cmps := [] }) s
  let s := { s with replays := s.replays.filter fun e => !decide (e.spare.region = r) }
  us.foldl (fun s e => s.modUnit e.2 fun x => { x with ctl := x.ctl.boundary }) s

/-- A region's clock at a furrow boundary: cycle 0, no lag (R83). -/
def State.clockBoundary (s : State) (r : RegionId) : State :=
  s.modRegion r fun x =>
    let y := { x with cyc := 0, lag := 0 }
    { y with suppressed := y.droops || y.capped }

/-! ### The die's engines at a furrow boundary (R87, R301, R338, R406) -/

/-- The update engine: an invocation still running is cut, one passed over never starts; one slip. -/
def State.updBoundary (s : State) (p : Part) (d : Die) : State :=
  match s.formeDie d with
  | none => s
  | some fd =>
    let u := (s.die d).upd
    let cut : Bool := match u.run with
      | some r => decide (r.furrow < s.now / 16384)
      | none => false
    let missed := ((fd.schedule.drop u.next).takeWhile fun v => decide (s.invFurrow p v < s.now / 16384)).length
    let s := s.modUpd d fun u => { u with run := if cut then none else u.run, next := u.next + missed }
    if cut || missed != 0 then ((s.raiseSuspect (updReg d) 0).slip ⟨p, .update, d, none⟩) else s

/-- The adders: work not done and ring entries of the furrow that ends and have not run are cut (R338). -/
def State.adderBoundary (s : State) (p : Part) (d : Die) : State :=
  match s.formeDie d with
  | none => s
  | some fd =>
    let furrow := (s.now - (s.part p).stepStart) / 16384
    let red := (s.die d).red
    let late := !red.work.isEmpty || red.owed != 0
      || fd.rings.zipIdx.any fun (e, i) => decide (e.furrow + 1 = furrow) && !red.ringDone.contains i
    let s := if late then ((s.raiseSuspect (dreg .cdRedStat d) 12).slip ⟨p, .adders, d, none⟩) else s
    s.modRed d fun r => { r with work := [], owed := 0, ringDone :=
      (r.ringDone ++ ((fd.rings.zipIdx.filter fun (e, _) => decide (e.furrow < furrow)).map (·.2))).eraseDups }

/-- The stack's controller: a furrow with a refused access ends in a slip. -/
def State.hbmBoundary (s : State) (p : Part) (d : Die) : State :=
  if (s.die d).hbmRefused then
    let s := s.modDie d fun x => { x with hbmRefused := false }
    (s.raiseSuspect (dreg .hbmStat d) 11).slip ⟨p, .hbm, d, none⟩
  else s

/-! ### Units at a step boundary (R232, R269) -/

/-- A number of its own for each position. -/
def PU.index (p : PU) : Nat := 264 * p.d.val + 66 * p.r.val + p.p.val

def freeWords (g from_ n : Nat) : List Word := (List.range n).map fun i => Config.freeWord g (from_ + i)

/-- An access from here on: what it writes is a free value; what it reads of a tile not popped yet is undefined as the
galley's lines are (R269). -/
def Flight.crossAcc (g : Nat) (f : Flight) (a : LineAcc) : LineAcc :=
  match a.act with
  | .out | .data _ _ => { a with act := .data ((freeLine g a.line).map some) false }
  | .land _ _ => { a with act := .land ((freeLine g a.line).map some) false }
  | .read => match a.gal with
    | some q => if (f.caught.tiles.get? (a.stream, a.n / 16)).isSome then a
      else { a with gal := none, line := galleyLine q + a.n % 256 }
    | none => a
  | _ => a

/-- The lines that an operation holds for the unit's own state become free values. -/
def Flight.freeLines (g : Nat) (f : Flight) (n : Nat) : AMap (Nat × Nat) (List Byte) :=
  ⟨(List.range n).map fun k => ((0, k), freeLine g (8192 + 64 * f.id + k))⟩

/-- What an operation in flight does from here on: what it does to the unit's own state is a free value, a far move goes on
(R178, R269, log 1); a galley whose pointers it would move is undefined from then on. -/
def Flight.crossStep (g : Nat) (f : Flight) : List Flight :=
  let f := { f with armed := false, pops := [], accs := f.accs.map (f.crossAcc g) }
  let untiled := f.accs.filter fun a => !a.act.isTile
  match f.kind with
  | .mma m => [{ f with kind := .mma { m with crossed := true, base := none } }]
  | .load k _ => [{ f with kind := .load k true }]
  | .vld _ _ => [{ f with kind := .vst }]
  | .write w => [{ f with kind := .write { w with crossed := true, pushed := w.tiles }, accs := untiled }]
  | .move m =>
    if m.kind.inbound.isSome then
      [{ f with
        kind := .move { m with own := false }
        caught := if m.gal.isSome then { f.caught with lines := f.freeLines g m.next } else f.caught }]
    else if m.gal.isSome then []
    else [{ f with
      kind := .move { m with own := false, kind := if m.kind == .mon then .pop else m.kind, next := if m.kind == .mon then m.total else m.next }
      accs := f.accs.filter fun a => a.act == .claim
      caught := { f.caught with lines := f.freeLines g m.total } }]
  | .vst | .deposit | .tile => [f]

/-- The galleys whose pointers the operations in flight of a unit would still move, and when: undefined from then on (R269). -/
def UnitS.crossGalleys (x : UnitS) : List (Nat × Fin 8) :=
  x.flights.flatMap fun f =>
    let last := fun (k : Nat) => ((f.tileAccs k).map (·.due)).foldl max f.issue
    f.pops.map (fun d => (d.due, d.gal)) ++ (match f.kind with
      | .write w => ((List.range w.tiles).drop w.pushed).map fun k => (last k, w.tileGalley k)
      | .move m => match m.gal with
        | some g => if m.kind.inbound.isSome then [] else
          ((List.range (max 1 ((m.total + 15) / 16))).drop m.pushed).map fun k => (last k, g)
        | none => []
      | _ => [])

/-- The vector results on their way: undefined (R269). -/
def UnitS.crossVectors (x : UnitS) (g : Nat) : List VPend :=
  (x.vpend.map fun v => { v with val := freeWords g (64 * v.id) 64 })
    ++ x.flights.filterMap fun f => match f.kind with
      | .vld vd o => some ⟨f.issue + o.vLatency, f.id, vd, freeWords g (64 * f.id) 64⟩
      | _ => none

/-- The descriptor table of a step: undefined but for the prologue's two entries (R232). -/
def prologueTable (g : Nat) (d : Die) (off len : Nat) : Memory :=
  let m : Memory := ⟨.free g, []⟩
  let m := m.write (62 * 32) (natLe 8 0 ++ natLe 2 (len / 128) ++ natLe 2 64 ++ natLe 4 128 ++ natLe 2 0 ++ [8, 0]
    ++ List.replicate 12 0)
  m.write (63 * 32) (natLe 8 off ++ natLe 1 d.val ++ [1] ++ List.replicate 9 0 ++ [2] ++ List.replicate 12 0)

/-- A unit at a step boundary: `g` numbers its free values. -/
def UnitS.stepStart (x : UnitS) (g : Nat) (d : Die) (pro : Nat × Nat) : UnitS :=
  { x with
    sp := ⟨.free g, []⟩
    blank := []
    vregs := (List.range 16).map fun v => freeWords (g + 1) (64 * v) 64
    aregs := List.replicate 16 0
    apend := []
    vpend := x.crossVectors (g + 4)
    dtab := prologueTable (g + 2) d pro.1 pro.2
    wtab := ⟨.free (g + 3), []⟩
    groups := (List.range 4).map fun k => ⟨.shut,
      (List.range 4096).map fun i => ⟨Config.freeWord (g + 1) (1024 + 8192 * k + 2 * i),
        Config.freeWord (g + 1) (1025 + 8192 * k + 2 * i)⟩, List.replicate 4096 .zero⟩
    galleys := List.replicate 8 Galley.reset
    ctl := .reset
    flights := x.flights.flatMap (Flight.crossStep (g + 4))
    mPend := none
    cmps := x.cmps.map fun d => { d with crossed := true }
    badCmp := []
    galUndef := x.galUndef ++ x.crossGalleys
    stamps := x.stamps.mapVals fun _ t => (t.1, t.2.1, false) }

/-- The name under which a spare that carries no logical unit uses its cluster's engines: the unit it replayed for last is
not kept, and unit 0 of its region stands for it (R480). -/
def spareLu (q : PU) : LU := ⟨q.d, q.r, 0, some ⟨(q.p.val - 64) % 2, by omega⟩⟩

/-- The step boundary in a unit: a group still open is shut without comparison or result (R199); TU_CHK counts anew (R507). -/
def State.unitStep (s : State) (f : Forme) (u : LU) (p : PU) : State :=
  let x := s.unit p
  let open_ := (List.finRange 4).filter fun g => (x.group g).st != .shut
  let s := open_.foldl (fun s g => s.releaseProof u g) s
  let s := s.accFlagIf u accCut (!open_.isEmpty)
  let s := if s.rdFld (ureg .tuChk u) 31 24 = 0 then s else s.modReg (ureg .tuChk u) fun w =>
    setFld (setFld (setFld (setFld w 31 24 0) 23 22 0) 21 15 127) 14 8 127
  let pro := match f.prologues.find? (·.1 = u) with
    | some e => e.2
    | none => (0, 0)
  s.setUnit p (x.stepStart (s.free + 5 * p.index) u.d pro)

/-- The step boundary in every mapped unit of a partition, and in its free spares. -/
def State.unitsStep (s : State) (p : Part) (f : Forme) : State :=
  let s := (s.partRegions p).foldl (fun s r =>
    let s := (regionLus r).foldl (fun s l => match s.carrier l with
      | some q => s.unitStep f l q
      | none => s) s
    (s.freeSpares r).foldl (fun s q => s.unitStep f (spareLu q) q) s) s
  { s with free := s.free + 5 * 4224 }

/-- Banks that begin a step anew: monitors, digests, drop counters (R179, R389, R472). -/
def LuS.bank (l : LuS) : LuS := { l with prev := l.live, live := List.replicate 16 .zero, wdigest := 0 }

def State.bankMonitors (s : State) (p : Part) : State :=
  let mine : Die → Bool := fun d => decide (s.partOf d = some p)
  let s := { s with
    lus := s.lus.mapVals fun l x => if mine l.d then x.bank else x
    clusters := s.clusters.mapVals fun c x => if mine c.d then
      { x with dropsPrev := x.drops, drops := .empty, badKeyPrev := x.badKey, badKey := 0 } else x }
  (s.partDies p).foldl (fun s d => s.modUpd d fun u => { u with
    prev := u.live, live := List.replicate 16 .zero, run := none, next := 0, wrote := s.now }) s

/-! ### Variants (R310 to R312, R317, R358) -/

/-- The cold-start variant of a gear. -/
def Forme.coldOf (f : Forme) (g : Gear) : Option Nat :=
  f.variants.findIdx? fun v => v.kind == .cold && v.gear == g

/-- The snapshot form of a variant: the one a SNAPSHOT names, or that of the variant chosen. -/
def Forme.snapOf (f : Forme) (v : Nat) (q : SnapReq) : Option Nat :=
  match f.variants[q.variant]? with
  | some x => if x.kind == .snapshot && x.snapOf == some v then some q.variant
    else f.variants.findIdx? fun y => y.kind == .snapshot && y.snapOf == some v
  | none => none

/-- Hall counts were held early enough for a boundary at this tick (R311, R358). -/
def State.early (s : State) (at_ : Nat) : Bool := decide (at_ + 32768 ≤ s.now)

/-- The promotable operations whose hall counts, held early enough, reach their thresholds (R310, R311). -/
def State.promotionsDue (s : State) (p : Part) (f : Forme) : List Nat :=
  let held := (s.part p).hallCounts.filter fun e => s.early e.1
  (List.range 12).filter fun i => match f.promotable[i]? with
    | some o => o.threshold != 0 && held.any fun e => decide (o.threshold ≤ ((e.2[i]?).getD 0).toNat)
    | none => false

/-- Whether the coming step is a cold-start step (R358). -/
def State.coldDue (s : State) (p : Part) : Bool :=
  (s.part p).coldNext || (s.part p).hallCold.any fun e => s.early e.1 && e.2 != 0

/-- Whether a SNAPSHOT is due at this boundary: CD_STEP is its step and it was collected 4 furrows before (R317), or R311
put it off. -/
def State.snapDue (s : State) (p : Part) (q : SnapReq) : Bool :=
  !q.runs && (q.deferred || (q.step == s.step p && decide (q.accepted + 65536 ≤ s.now)))

/-- The choice of the coming step's variant: the variant, the promotions taken, whether one was missing (R310), whether one
was taken, whether the counts held so far wait for the next boundary, and the SNAPSHOT whose form it is. -/
structure Choice where
  variant : Nat
  promos : List Nat
  missing : Bool
  took : Bool
  keep : Bool
  snap : Option SnapReq
  deriving DecidableEq, Repr

/-- The variant of the step that begins (R311, R358): the gear, then a promotion, then a snapshot; what has no variant is
put off, the last first, so that nothing is taken while what comes before it is put off. A cold-start step puts off
promotions and snapshots. -/
def State.choose (s : State) (p : Part) (f : Forme) : Choice :=
  let ps := s.part p
  let due := match s.nextGear p with
    | some (t, g) => if t ≤ s.now then some g else none
    | none => none
  let turn := due.filter fun g => (f.follow g ps.promos).isSome
  let putOff : Bool := due.isSome && turn.isNone
  let g := turn.getD (s.gearOf p)
  let turned : Bool := turn.isSome || decide (ps.gearAt = s.now)
  let base := (f.follow g ps.promos).getD ps.variant
  match (if s.coldDue p then f.coldOf g else none) with
  | some v => ⟨v, ps.promos, false, false, true, none⟩
  | none =>
    if putOff then ⟨base, ps.promos, false, false, true, none⟩ else
    let due := s.promotionsDue p f
    let named := due.find? fun op => (f.promote base op).isSome
    let v := (named.bind (f.promote base)).getD base
    let promos := ps.promos ++ named.toList
    let none_ : Bool := !due.isEmpty && named.isNone
    let snap := if none_ && turned then none
      else (ps.snaps.find? (s.snapDue p)).bind fun q => (f.snapOf v q).map fun w => (w, q)
    ⟨(snap.map (·.1)).getD v, promos, none_ && !turned, named.isSome, none_ && turned, snap.map (·.2)⟩

/-- The images of a variant are put into both banks of every mapped unit (R312, R562). -/
def State.loadVariant (s : State) (p : Part) : State :=
  (s.partDies p).foldl (fun s d => (dieRegions d).foldl (fun s r => (regionLus r).foldl (fun s l =>
    match s.carrier l with
    | some q => s.loadBanks l q
    | none => s) s) s) s

/-- The replay image is put into both banks of the free spares (R479). -/
def State.loadReplay (s : State) (p : Part) : State :=
  match (s.part p).forme with
  | none => s
  | some f =>
    (s.partRegions p).foldl (fun s r =>
      match f.replayImage.find? (·.1 = r) with
      | none => s
      | some (_, im) => (s.freeSpares r).foldl (fun s q => s.modUnit q fun u => { u with
          recto := Memory.empty.write 0 im, verso := Memory.empty.write 0 im }) s) s

/-- The chosen variant comes into force; another than the one in the banks begins with two load furrows (R312). Counts that
were held too late for this boundary wait for the next (R311, R358), as does a SNAPSHOT that is due and does not run. -/
def State.takeVariant (s : State) (p : Part) (c : Choice) : State :=
  let change := decide ((s.part p).banksOf ≠ c.variant)
  let snaps := (s.part p).snaps.map fun q =>
    if some q = c.snap then { q with runs := true } else if s.snapDue p q then { q with deferred := true } else q
  let s := s.modPart p fun ps => { ps with
    variant := c.variant
    banksOf := c.variant
    promos := c.promos
    hallCounts := if c.keep then ps.hallCounts else ps.hallCounts.filter fun e => !s.early e.1
    hallCold := ps.hallCold.filter fun e => !s.early e.1
    coldNext := false
    promoteMissing := c.missing
    snaps := snaps
    loadUntil := if change then s.now + 32768 else s.now }
  let s := if change then s.loadVariant p else s
  if c.missing then (s.partDies p).foldl (fun s d => s.raiseBit (updReg d) 7) s else s

/-! ### The step report (R320) -/

/-- The nine counters of a set. -/
def Counts.words (c : Counts) : List Nat :=
  [c.satElem, c.unfElem, c.zeroBlk, c.nanBlk, c.flatBlk, c.outlier, c.satBlk, c.unfBlk, c.nzIn]

/-- The step report of the step that ends but for its sums. -/
def State.reportHead (s : State) (p : Part) (f : Forme) (promoted : Bool) : StepReport :=
  let ps := s.part p
  let e := (s.power.acc.part[p.val]?).getD 0
  { job := f.job, step := ps.curStep, variant := ps.variant, committed := ps.committedLast, incomplete := false
    stale := ps.stale, promoted := promoted, loc := s.rd (preg .htVlocal p), hall := s.rd (preg .htVhall p)
    energy := microjoules (e - ps.energyAt), tensors := [] }

/-- A report is formed, with the drop report (R390), from the previous-step banks as they stand. -/
def State.postReport (s : State) (p : Part) (f : Forme) (r : StepReport) : State :=
  let sets : List (Nat × MonSet) :=
    (f.monMap.filterMap fun e => ((s.lu e.1).prev[e.2.1.val]?).map fun m => (e.2.2, m))
    ++ (f.updMap.filterMap fun e => ((s.die e.1).upd.prev[e.2.1.val]?).map fun m => (e.2.2, m))
  let ids := (sets.map (·.1)).eraseDups
  let sum := fun (t : Nat) => ((sets.filter (·.1 = t)).map fun e => e.2.c.words).foldl (fun a w =>
    (a.zip w).map fun x => min (x.1 + x.2) 0xFFFFFFFF) (List.replicate 9 0)
  let drops : List (Nat × Word) := f.dropMap.map fun e => (e.2.2, ((s.clusterS e.1).dropsPrev).getD e.2.1 0)
  let total := fun (l : List Word) => l.foldl (fun a w => satAdd32 a w.toNat) 0
  let keys := ((s.partRegions p).flatMap regionClusters).map fun c => (s.clusterS c).badKeyPrev
  let d : DropReport := {
    job := f.job, step := r.step, incomplete := r.incomplete, badKey := total keys
    lines := ((drops.map (·.1)).eraseDups).map fun l => (l, total ((drops.filter (·.1 = l)).map (·.2))) }
  s.modPart p fun ps => { ps with
    report := some { r with tensors := ids.map fun t => (t, (sum t).map fun n => BitVec.ofNat 32 n) }
    dropReport := some d
    reportDue := none }

/-- The report of the step that ends: the firmware forms it, or in an activation pause leaves it for the pause's end. One
that still waits has lost its banks and is INCOMPLETE (R320). -/
def State.formReport (s : State) (p : Part) (f : Forme) (promoted : Bool) : State :=
  let s := match (s.part p).reportDue with
    | some r => s.postReport p f { r with incomplete := true }
    | none => s
  let r := s.reportHead p f promoted
  if s.fw.pause.isSome then s.modPart p fun ps => { ps with reportDue := some r } else s.postReport p f r

/-- The reports that waited for the end of an activation pause (R320, R630). -/
def State.dueReports (s : State) : State :=
  allParts.foldl (fun s p => match (s.part p).reportDue, (s.part p).forme with
    | some r, some f => s.postReport p f r
    | _, _ => s) s

/-! ### The beginning of a step -/

/-- The step number and job of an input buffer are compared (R316). -/
def State.inputCheck (s : State) (p : Part) (f : Forme) : State :=
  if f.inCount = 0 then s else
  (s.partDies p).foldl (fun s d =>
    let a := f.inBase + (s.stepNo p).toNat % f.inCount * f.inLen
    let (s, b) := s.engineRead d true (plainOff a) 8 (.step d) .update true
    if leNat (b.take 4) = f.job.toNat ∧ leNat (b.drop 4) = (s.stepNo p).toNat then s
    else (s.raiseSuspect (updReg d) 5).modPart p fun ps => { ps with stale := true }) s

/-- Whether a send or receive buffer is the forme's: every buffer of a hall port it claims, and of the twin port those that
its slots name (R40, R438). -/
def Forme.ownsBuf (f : Forme) (send : Bool) (b : BufId) : Bool :=
  if b.port.val = 48 then f.slotsUsed.any fun e => decide (e.port = b.port ∧ e.lane = b.lane)
    && (if send then e.entry.send && e.entry.tbuf == b.buf else e.entry.rkind != .none && e.entry.rbuf == b.buf)
  else f.claimsPort b.port

/-- What waits for a step boundary of a partition, whether or not another step follows: fences (R49), table switches (R450),
lanes spared by LD_SPARE (R452), exits from HOT and FENCED (R404), page switches (R413), caps (R530). -/
def State.boundaryWork (s : State) (p : Part) : State :=
  let s := s.settleFences p (s.now - 32768)
  let s := s.laneSwitches (some p)
  let s := s.sparesDue (some p)
  let s := (s.partDies p).foldl (fun s d => s.bandExit d) s
  let s := s.switchWaiting p
  s.capInForce p 32768

/-- The work of the step that ends stops here whether or not another follows: what waits for the boundary is done, its banks
are kept (R179), its open groups are shut (R199), units begin anew (R269), and its report is formed (R320). -/
def State.endStep (s : State) (p : Part) (f : Forme) (promoted : Bool) : State :=
  (((s.boundaryWork p).bankMonitors p).unitsStep p f).formReport p f promoted

/-- A step of a partition begins at this tick; `c` is its variant. -/
def State.beginStep (s : State) (p : Part) (f : Forme) (first : Bool) (c : Choice) : State :=
  -- dies, links
  let s := (s.partDies p).foldl (fun s d => s.modDie d fun x => { x with red := .reset, digest := 0 }) s
  let s := s.modLinks fun k => { k with
    send := k.send.mapVals fun id b => if f.ownsBuf true id then b.untag else b
    recv := k.recv.mapVals fun id b => if f.ownsBuf false id then b.untag else b
    twin := { k.twin with sentDigest := k.twin.sentDigest.filter (· ≠ p) } }
  -- the step
  let n := s.step p
  let e := (s.power.acc.part[p.val]?).getD 0
  let s := s.modPart p fun ps => { ps with
    stepStart := s.now
    ord := if first then 0 else ps.ord + 1
    curStep := n
    lastStep := n
    vcount := hold32 ps.vnext (if ps.diverged then 1 else 0)
    vnext := 0, vdone := false, commitDone := false, own := none, up := none, childUp := [], down := none, held := false
    coldReq := if first then ps.coldReq else false
    stale := false, energyAt := e }
  let s := s.takeVariant p c
  let s := s.loadReplay p
  let s := (s.partDies p).foldl (fun s d => s.loadStepRow d) s
  s.inputCheck p f

/-! ### FORME_HALT (R72, R98, R314) and STEP_BOUNDARY -/

/-- Whether a HALT_AT of a partition is due. -/
def State.haltDue (s : State) (p : Part) : Bool :=
  s.host.jobs.any fun j => decide (j.req.part = p) && (match j.kind with
    | .haltAt t => decide (t ≤ s.now)
    | _ => false)

/-- The forme halts as by HALT_AT: a RUN_AT or GEAR_AT that the partition still holds is cancelled (R98, R559). -/
def State.haltAs (s : State) (p : Part) : State :=
  let s := s.haltPart p
  let s := s.endJobs (fun j => decide (j.req.part = p) && (match j.kind with
    | .runAt _ | .gearAt _ _ => true
    | _ => false)) stCancelled
  s.syncGear p

/-- Windows whose committed streak first equals FALLOW_N (R364): the record committed before did not. -/
def State.fallowWatch (s : State) (p : Part) : State :=
  (s.partDies p).foldl (fun s d =>
    let n := s.rdFld (dreg .cdRedCfg d) 15 0
    match s.formeDie d with
    | none => s
    | some fd => fd.windows.foldl (fun s w =>
      if n ≠ 0 ∧ s.streakOf d w false = some n ∧ s.streakOf d w true ≠ some n then
        (s.raiseBit (dreg .cdRedStat d) 11).wr (dreg .cdRedFallow d) (BitVec.ofNat 32 (w.tensor + 65536 * n))
      else s) s) s

/-- COMMIT_TICK with the watch. -/
def State.commit (s : State) (p : Part) : State :=
  let done := (s.part p).commitDone
  let s := s.commitTick p
  if !done && (s.part p).commitDone && (s.part p).committedLast then s.fallowWatch p else s

/-- The step of a running partition whose boundary is this tick. -/
def State.stepEnding (s : State) (p : Part) : Option Forme :=
  let ps := s.part p
  match ps.forme with
  | none => none
  | some f => if ps.running && s.now == ps.stepStart + f.length * 16384 then some f else none

/-- A step that ends at this tick ends, and its forme halts by `halt` (R98, R314). -/
def State.haltStep (s : State) (p : Part) (f : Forme) (halt : State → State) : State := halt ((s.commit p).endStep p f false)

/-- STEP_BOUNDARY: the step of a running partition is over, after its commit tick. -/
def State.stepBoundary (s : State) (p : Part) : State :=
  match s.stepEnding p with
  | none => s
  | some f =>
    let s := s.commit p
    if (s.part p).haltOnBoundary || s.haltDue p then (s.endStep p f false).haltAs p
    else
      let c := s.choose p f
      (s.endStep p f c.took).beginStep p f false c

/-- The furrow boundary of a HALT_AT or of LOST, or the step boundary of a step left unclean under HALT: the forme
stops; a HALT_AT on a step boundary ends it cleanly after the step. -/
def State.formeHalt (s : State) (p : Part) : State :=
  let ps := s.part p
  if s.tickIn ≠ 0 then s else
  match s.stepEnding p with
  | some f =>
    if s.haltDue p || ps.haltOnBoundary then s.haltStep p f fun s => s.haltAs p
    else if s.ht.haltPending then s.haltStep p f fun s => s.haltPart p
    else s
  | none => if s.haltDue p then s.haltAs p else if s.ht.haltPending then s.haltPart p else s

/-- LOST halts every running forme at the boundary, and the links fall silent (R72). -/
def State.lostBoundary (s : State) : State :=
  if !s.ht.haltPending then s else
  let s := allParts.foldl (fun s p => if (s.part p).running then s.formeHalt p else s) s
  (s.modHt fun h => { h with haltPending := false }).modLinks fun k => { k with silenced := true }

/-! ### FURROW_BOUNDARY -/

def State.furrowBoundary (s : State) : State :=
  if s.tickIn ≠ 0 || !s.powered then s else
  let s := allParts.foldl (fun s p =>
    if !(s.part p).running then s else
    let s := (s.partRegions p).foldl (fun s r => s.regionBoundary p r) s
    (s.partDies p).foldl (fun s d => ((s.updBoundary p d).adderBoundary p d).hbmBoundary p d) s) s
  let s := allDies.foldl (fun s d => s.modDie d fun x => { x with hbmRefused := false }) s
  let s := s.slipNotice
  let s := s.lostBoundary
  let s := allParts.foldl (fun s p => if (s.part p).armed then s else s.capInForce p 1) s
  let s := allRegions.foldl (fun s r => s.vtabBoundary r) s
  let s := s.laneSwitches none
  let s := allParts.foldl (fun s p => if (s.part p).running then s else s.laneSwitches (some p)) s
  let s := allDies.foldl (fun s d => if s.dieArmed d then s else s.bandExit d) s
  let s := s.capBoundary
  let s := { s with power := { s.power with clkWait := [] } }
  allRegions.foldl (fun s r => s.clockBoundary r) s

/-- RUN_START: the first step of an armed forme begins at its RUN_AT tick (R95 to R97). -/
def State.runStart (s : State) (p : Part) : State :=
  let ps := s.part p
  match ps.forme, s.runAt? p with
  | some f, some t =>
    if !ps.armed || ps.running || s.now != t || s.htState == htLost || s.htState == htAcquire then s else
    let s := s.endJobs (fun j => decide (j.req.part = p) && j.kind == .runAt t) stOk
    let s := s.modLinks fun k => { k with silenced := false }
    let s := s.modPart p fun ps => { ps with
      running := true, firstStep := s.step p, coldNext := ps.coldArm, coldArm := false }
    let c := s.choose p f
    (((s.boundaryWork p).bankMonitors p).unitsStep p f).beginStep p f true c
  | _, _ => s

/-- The units of a region whose fences will be applied at the coming step boundary, once its two load furrows have
begun (R49). -/
def State.loadingFor (s : State) (r : RegionId) : List LU :=
  match s.running r.d with
  | none => []
  | some p => match (s.part p).forme with
    | none => []
    | some f =>
      let b := (s.part p).stepStart + f.length * 16384
      if s.now + 32768 < b then [] else
      (regionLus r).filter fun l => s.fen.pend.any fun e => s.carrier l = some e.unit && decide (e.at_ + 32768 ≤ b)

/-- The spares chosen for them, which have ceased to be free (R479). -/
def State.loadingSpares (s : State) (r : RegionId) : List PU := (s.freeSpares r).take (s.loadingFor r).length

/-- SPARE_BANK_LOAD (R49): the spare chosen for a unit takes its program; a replay on it stops (R479). -/
def State.spareBankLoad (s : State) (l : LU) : State :=
  match (s.loadingFor l.region).findIdx? (· = l) with
  | none => s
  | some i => match (s.freeSpares l.region)[i]? with
    | none => s
    | some p => { s with replays := s.replays.filter (·.spare ≠ p) }.loadBanks l p

/-! ### The digest on its way to the twin (R456) -/

/-- DIGEST messages that are due on the twin port by tick `t`. -/
def State.digestDue (s : State) (t : Nat) : State :=
  allParts.foldl (fun s p =>
    match (s.part p).forme with
    | none => s
    | some f =>
      let ps := s.part p
      if !ps.running || !f.twinCompared || s.links.twin.sentDigest.contains p then s else
      let scheds := (s.partDies p).filterMap fun d => (s.formeDie d).map fun fd => (d, fd.schedule.length)
      let any := scheds.any fun e => e.2 != 0
      let done := scheds.all fun e => decide (e.2 ≤ (s.die e.1).upd.next) && (s.die e.1).upd.run.isNone
      let last := if any then scheds.foldl (fun m e => max m (s.die e.1).upd.wrote) 0
        else ps.stepStart + f.verdictAt - 2 * s.tramInterval - 512
      if done && decide (last + 512 ≤ t) then
        (s.sendMsg [48] p 0 (.digest f.job (s.stepNo p) (s.ownDigest p f))).modTwin fun w =>
          { w with sentDigest := p :: w.sentDigest }
      else s) s

/-- A tramline slot on a port: on the twin port the digests that are due come first (R443, R456), and a DETACH that
leaves answers its command (R458). -/
def State.sendTramline (s : State) (p : Port) : State :=
  let s := if p.val = 48 then s.digestDue (s.now / 128 * 128) else s
  (s.tramlineSend p).detachSent p

end Sys2Proof.Machine
end

