-- ==== Sys2Proof/Machine/Replay.lean ====
section
/-!
DEFINITION. Replays on free spares and field proofs (12_silent_errors_and_faults.md R478 to R491,
16_reset_boot_firmware.md R618 to R621).
-/
namespace Sys2Proof.Machine

open Sys2Proof

/-! ### Replays (R480, R486) -/

/-- The unit index and the entry index of a mailbox or request line. -/
def replayRequest (b : List Byte) : Nat × Nat := (leNat (b.take 2), ((b[2]?).getD 0).toNat)

/-- The entries of a region's replay table, in their order (R478). -/
def Forme.replayOf (f : Forme) (r : RegionId) : List ReplayEntry := f.replay.filter (·.region = r)

/-- The free spares of a region that may start a replay, lowest first (R479, R480). -/
def State.idleSpares (s : State) (r : RegionId) : List PU :=
  (s.freeSpares r).filter fun p => !s.replaying p && !(s.loadingSpares r).contains p

/-- A request is accepted: LAST takes its unit, and the lowest free spare is to start 4 cycles later; `none` where no
spare is idle. -/
def State.acceptReplay (s : State) (r : RegionId) (n : Nat) (e : ReplayEntry) (u : LU) (guest : Bool) : Option State :=
  match s.idleSpares r with
  | [] => none
  | p :: _ =>
    let s := s.wrFld (rreg .tuRegionRpl r) 13 8 n
    some { s with replays := s.replays.filter (·.spare ≠ p) ++ [⟨p, e, u, s.cycle r + 4, false, false, guest⟩] }

/-- REPLAY_MAILBOX: the line in the region's mailbox is tested; the entry must cover a standing provisional event of
the unit it names, of which no replay has failed (R480, R482). -/
def State.replayMailbox (s : State) (r : RegionId) : State :=
  match s.running r.d, s.formeOn r.d with
  | some _, some f =>
    match f.mailbox.find? (·.1 = r) with
    | none => s
    | some (_, off) =>
      let x := s.die r.d
      let (n, k) := replayRequest (x.cache.bytes (off / 128 * 128) 128)
      if x.blanks.contains (off / 128) then s else
      match (f.replayOf r)[k]? with
      | none => s
      | some e =>
        let mine : ProvEv → Bool := fun v => decide (v.unit = e.unit) && v.bundle == e.bundle && v.verso == e.verso
        if e.unit.n.val ≠ n || e.twin || !s.prov.any mine || (s.prov.filter mine).any (·.failed) then s else
        let s := s.modDie r.d fun x => { x with
          blanks := ((List.range e.lines).map (e.area / 128 + ·) ++ x.blanks).eraseDups }
        match s.acceptReplay r n e e.unit false with
        | some t => t
        | none => s.raiseBit (ureg .tuChk e.unit) 5
  | _, _ => s

/-- REPLAY_START: the spare's program begins. -/
def State.replayStart (s : State) (r : RegionId) (second : Bool) : State :=
  let p : PU := ⟨r.d, r.r, if second then 65 else 64⟩
  match s.replays.find? fun e => e.spare = p && !e.running with
  | none => s
  | some e =>
    if !s.regionIssues r || s.cycle r < e.due then s else
    let s := { s with replays := s.replays.map fun x => if x = e then { x with running := true } else x }
    s.modUnit p fun u => { u with ctl := { Ctl.reset with fetch := e.entry.prog % 1024 }, badCmp := [], cmps := [] }

/-- TWIN_REPLAY_REQUEST: a request line lands from the twin for a region of the guest table (R486, R487). -/
def State.twinRequest (s : State) (r : RegionId) (line : List Byte) : State :=
  match s.running r.d, s.formeOn r.d with
  | some _, some f =>
    if !f.guests.contains r then s else
    let (n, k) := replayRequest line
    match (f.replayOf r)[k]? with
    | none => s
    | some e => if h : n < 64 then (s.acceptReplay r n e ⟨r.d, r.r, ⟨n, h⟩, none⟩ true).getD s else s
  | _, _ => s

/-! ### Fit (R8, R39, R40, R51) -/

/-- Whether a unit can carry a forme's work: it is mapped on a position that is not fallow. -/
def State.carries (s : State) (u : LU) : Bool :=
  match s.carrier u with
  | some p => !s.unitFallow p
  | none => false

/-- Whether the package supplies what a forme needs: its units, its dies, its lanes and ports. -/
def State.fits (s : State) (f : Forme) : Bool :=
  f.needs.all s.carries && f.dies.all (fun d => !s.fen.dies.contains d)
    && f.needLanes.all (fun l => !s.fen.lds.contains l.ld && !s.spared l && !s.ldSpared l
        || f.claims.any fun c => c.port = (portOfLane l).1 && c.degradeOk)

/-! ### Field proofs (R489 to R491) -/

/-- A part of a proof failed: FIELD_FAIL, and a record of the block whatever stands already (R490). -/
def State.fieldFail (s : State) (d : Die) (region index : Nat) : State :=
  let r := dreg .cdFault d
  let rose := !s.rdBit r 8
  let s := (s.wrBit r 8 true).record ⟨d.val, 14, 8, 5, region, index, s.partOf d, false, false, 0⟩
  if rose then s.vector r.vector else s

/-- A failed lane is named by its link die's record and spared out; at the end of an automatic proof its table switches at
once (R490). The record has FIELD_FAIL's register and bit; a link die has no FIELD_FAIL of its own, so an automatic proof sets
that of its partition's first die (DESIGN CHOICE, log 22). -/
def State.laneFail (s : State) (p : Option Part) (l : Lane) : State :=
  let s := match p with
    | some q =>
      let c := dreg .cdFault (s.firstDie q)
      let rose := !s.rdBit c 8
      let s := s.wrBit c 8 true
      if rose then s.vector c.vector else s
    | none => s
  let s := s.record ⟨16 + l.ld.val, 14, 8, 5, 0xFF, l.n.val, p, false, false, 0⟩
  let s := s.wrBit (if l.n.val < 32 then ⟨.ldSpareLo, l.ld.val, 0, 0⟩ else ⟨.ldSpareHi, l.ld.val, 0, 0⟩) (l.n.val % 32) true
  let s := s.spareOut l
  let (port, k) := portOfLane l
  match p with
  | some _ => (s.modPort port fun x => { x with switches := x.switches.filter (·.1 ≠ k) }).switchLane port k
  | none => s

/-- The outcome of a failed part (R490). -/
def State.proofFail (s : State) (p : Option Part) (x : ProofFail) : State :=
  match x with
  | .unit u => (s.fieldFail u.d u.r.val u.p.val).fence (·.fenceUnit u)
  | .adders d => (s.fieldFail d 0xFF 0xFF).fence (·.fenceDie d)
  | .lane l => s.laneFail p l

/-- Whether a failed part belongs to a partition's proof. -/
def State.proves (s : State) (p : Part) (x : ProofFail) : Bool :=
  match x with
  | .unit u => s.partOf u.d == some p
  | .adders d => s.partOf d == some p
  | .lane l => s.claimant (portOfLane l).1 == some p

/-- AUTOMATIC_FIELD_PROOF_END: the failed parts are fenced; where the forme no longer fits, the arm is cancelled, a
RUN_AT is refused and REPLACE_N asserted; the arm is answered. The regions return to their gear and voltage (R520). -/
def State.autoProofEnd (s : State) (p : Part) (fails : List ProofFail) : State :=
  match (s.part p).proofUntil, (s.part p).forme with
  | some t, some f =>
    if s.now < t then s else
    let s := (s.modPart p fun ps => { ps with proofUntil := none }).endProof p
    let s := (fails.filter (s.proves p)).foldl (fun s x => s.proofFail (some p) x) s
    let mine : Job → Bool := fun j => decide (j.req.part = p) && (match j.kind with
      | .arm _ => true
      | _ => false)
    if s.fits f then s.endJobs mine stOk else
    let s := (s.endJobs mine stNoFit).disarm p stNotArmed
    s.setReplace ((s.rd (xreg .rstReplace)).toNat ||| 16)
  | _, _ => s

/-- The result bytes of FIELD_PROOF (R564). -/
def proofBytes (mask : Half) (tested failed : List PU) : List Byte :=
  allRegions.map fun r =>
    if !mask.toNat.testBit r.d.val then 0 else
    let bits := fun (k : Fin 66) (b : Nat) =>
      let p : PU := ⟨r.d, r.r, k⟩
      if tested.contains p then b + (if failed.contains p then 0 else 2 * b) else 0
    BitVec.ofNat 8 (bits 64 1 + bits 65 4 + (if tested.any (·.region = r) then 0 else 16))

/-- FIELD_PROOF_END: of each FIELD_PROOF whose 64 furrows are over, the spares that failed are fenced and the reply is
posted. -/
def State.fieldProofEnd (s : State) (fails : List PU) : State :=
  s.host.jobs.foldl (fun s j => match j.kind with
    | .fieldProof mask t tested =>
      if s.elapsed < t then s else
      let bad := tested.filter fails.contains
      let s := bad.foldl (fun s u => (s.fieldFail u.d u.r.val u.p.val).fence (·.fenceUnit u)) s
      s.endJobs (· = j) stOk 0 (proofBytes mask tested bad)
    | _ => s) s

/-! ### Block resets (R619 to R621) -/

/-- The link die and regions of a block (R619). -/
def blockRegions (level target : Nat) : List RegionId :=
  if level = 0 then [⟨⟨target / 4 % 16, by omega⟩, ⟨target % 4, by omega⟩⟩]
  else if level = 1 then dieRegions ⟨target % 16, by omega⟩
  else []

/-- Positions of regions that leave the fallow state: a released position below 64 takes back its unit, unless that
unit keeps a place of its own. -/
def State.releaseUnits (s : State) (ps : List PU) : State :=
  ps.foldl (fun s p =>
    let s := { s with fen := { s.fen with
      units := s.fen.units.filter (· ≠ p), pend := s.fen.pend.filter (·.unit ≠ p) } }
    if h : p.p.val < 64 then
      let l : LU := ⟨p.d, p.r, ⟨p.p.val, h⟩, none⟩
      let e := s.rdFld (ureg .tuImpose l) 6 0
      if e = 127 ∨ e = 64 ∨ e = 65 then s.wr (ureg .tuImpose l) (BitVec.ofNat 32 p.p.val) else s
    else s) s

/-- Units without a place move to the free spares of their region, lowest first (R51, R620). -/
def State.placeUnits (s : State) (r : RegionId) : State :=
  (regionLus r).foldl (fun s l =>
    match s.carrier l with
    | some p => if s.unitFallow p then s.fence (·.substitute l) else s
    | none => match s.freeSpares r with
      | p :: _ => if s.unitFallow ⟨r.d, r.r, ⟨l.n.val, by omega⟩⟩ then
          s.wr (ureg .tuImpose l) (BitVec.ofNat 32 p.p.val) else s
      | [] => s) s

/-- A region's parts after its proof: those that passed are released, those that failed are or become fallow. -/
def State.releaseRegion (s : State) (r : RegionId) (failed : List PU) : State :=
  let s := { s with fen := { s.fen with
    regions := s.fen.regions.filter (· ≠ r), pendRegions := s.fen.pendRegions.filter (· ≠ r)
    units := (regionPus r).filter failed.contains ++ s.fen.units.filter fun (u : PU) => !decide (u.region = r)
    pend := s.fen.pend.filter (·.unit.region ≠ r) } }
  ((s.releaseUnits ((regionPus r).filter fun p => !failed.contains p)).placeUnits r)

/-- BLOCK_PROOF_END: the proof of the block reset ends; what passed leaves the fallow state, the lists, RST_REPLACE and
the domains follow, and the command is answered. A proof that passes whole takes PROOF_CANCEL away with the other causes
(R505, log 13). A unit or die that becomes fallow by it is fenced, with FENCE_DONE (R509). -/
def State.blockProofEnd (s : State) (fails : List ProofFail) : State :=
  match s.fw.block with
  | none => s
  | some b =>
    if s.elapsed < b.start + 64 * 16384 then s else
    let rs := blockRegions b.level b.target
    let d : Die := ⟨(if b.level = 0 then b.target / 4 else b.target) % 16, by omega⟩
    let k : LinkDie := ⟨b.target % 4, by omega⟩
    let badUnits := fails.filterMap fun x => match x with
      | .unit u => if rs.contains u.region then some u else none
      | _ => none
    let badDie := b.level == 1 && fails.any fun x => match x with
      | .adders e => decide (e = d)
      | _ => false
    let badLanes := if b.level = 2 then fails.filterMap fun x => match x with
        | .lane l => if l.ld = k then some l else none
        | _ => none
      else []
    let failed := !badUnits.isEmpty || badDie || !badLanes.isEmpty
    let newly : Bool := if badDie then !s.fen.dies.contains d else badUnits.any fun u => !s.unitFallow u
    let s := rs.foldl (fun s r => s.proofOff r) { s with fw := { s.fw with block := none } }
    let s := s.wr (xreg .rstBlock) 0
    let s := s.wrBit (dreg .cdIso d) 3 false
    let s :=
      if b.level = 2 then
        let s := { s with fen := { s.fen with lds := s.fen.lds.filter (· ≠ k) } }
        badLanes.foldl (fun s l => s.laneFail none l) s
      else if badDie then
        let s := s.fieldFail d 0xFF 0xFF
        let s := if s.fen.dies.contains d then s else
          { s with fen := { s.fen with dies := d :: s.fen.dies } }
        rs.foldl (fun s r => s.wrBit (rreg .pwrRegionStat r) 4 false) s
      else
        let s := badUnits.foldl (fun s u => s.fieldFail u.d u.r.val u.p.val) s
        let s := if b.level = 1 then { s with fen := { s.fen with dies := s.fen.dies.filter (· ≠ d) } } else s
        rs.foldl (fun s r => s.releaseRegion r (badUnits.filter fun (u : PU) => decide (u.region = r))) s
    let s := if failed then s else
      s.wr (xreg .rstReplace) (s.rd (xreg .rstReplace) &&& ~~~(0x10 : Word))
    let s := s.syncFence
    let s := if newly then s.raiseAll 16 [fenceDone d false] else s
    let s := if b.level = 2 then s else s.syncDomains d
    s.endJobs (fun j => j.kind == .block) (if failed then stRefused else stOk) (if failed then 8 else 0)

/-! ### Clocks (15_registers.md R601) -/

/-- A domain leaves lock. -/
def State.clockLoss (s : State) (c : ClkDom) : State :=
  if s.power.clkLost.contains c then s else
  let s := s.wrBit (xreg .clkStat) 28 true
  { s with power := { s.power with clkLost := c :: s.power.clkLost, clkWait := s.power.clkWait.filter (· ≠ c) } }

/-- Its lock returns; it works again from the next furrow boundary. -/
def State.clockReturn (s : State) (c : ClkDom) : State :=
  if !s.power.clkLost.contains c then s else
  { s with power := { s.power with clkLost := s.power.clkLost.filter (· ≠ c), clkWait := c :: s.power.clkWait } }

end Sys2Proof.Machine
end

