-- ==== Sys2Proof/Machine/Load.lean ====
section
/-!
DEFINITION. Loading, arming and disarming a forme (14_host_and_management.md R561, R562, R687; 01_package_and_levels.md
R8, R39, R40; 08_gradient_reduction.md R329, R380).
-/
namespace Sys2Proof.Machine

open Sys2Proof

/-! ### The load checks (R687) -/

/-- Whether two dies are neighbours in the grid (R14). -/
def adjacent (a b : Die) : Bool := hops a b == 1

/-- The dies of a set that a path of the set reaches from those found so far. -/
def spread (ds : List Die) : Nat → List Die → List Die
  | 0, found => found
  | n + 1, found => spread ds n (ds.filter fun d => found.contains d || found.any (adjacent d))

/-- Whether dies form a connected set (R39). -/
def connected (ds : List Die) : Bool :=
  match ds with
  | [] => true
  | d :: _ => ds.all (spread ds 16 [d]).contains

/-- Whether a claim lies on link dies bonded to the forme's dies, lane by lane for the twin port (R39). -/
def Forme.claimReaches (f : Forme) (c : PortClaim) : Bool :=
  if c.port.val = 48 then c.lanes.all fun l => f.dies.any fun d => linkDieOf d = portLinkDie c.port l.val
  else f.dies.any fun d => linkDieOf d = portLinkDie c.port 0

/-- Whether a slot of a table lies on a link die bonded to the forme's dies (R39). -/
def Forme.slotReaches (f : Forme) (x : LinkSlot) : Bool :=
  f.dies.any fun d => linkDieOf d = portLinkDie x.port x.lane.val

/-- Whether an end of the fabric joins a compute die's port (R15, R29). -/
def FabricEnd.joins (e : FabricEnd) (d : Die) : Bool :=
  match e with
  | .die x => x = d
  | .stack n => n = d
  | .link k => linkDieOf d = k

/-- Consecutive dies of a path are joined by mesh ports (R15). -/
def meshPath : List Die → Bool
  | [] | [_] => true
  | a :: b :: l => adjacent a b && meshPath (b :: l)

/-- Whether a fabric slot uses only mesh ports between the forme's dies, and link-die ports and HBM interfaces of its own
dies (R39, R40). -/
def Forme.pathFits (f : Forme) (x : FabricSlot) : Bool :=
  x.via.all f.dies.contains && meshPath x.via
    && (match x.via.head?, x.via.getLast? with
      | some a, some b => x.src.joins a && x.dst.joins b
      | _, _ => false)

/-- The compute dies that the forme's tables name (R40). -/
def Forme.named (f : Forme) : List Die :=
  f.perDie.map (·.die) ++ f.pages.map (·.die) ++ f.hists.map (·.die) ++ f.accums.map (·.die) ++ f.caps.map (·.die)
    ++ f.clusters.flatMap (fun c => c.cluster.d :: c.sowDie.map (·.2) ++ (c.routes.filter (!·.link)).map (·.windowDie)
      ++ c.tables.map (·.die))
    ++ (f.needs.map (·.d) ++ f.portCycles.map (·.cluster.d) ++ f.replay.map (·.region.d) ++ f.guests.map (·.d))
    ++ (f.galleys.map (·.1.d) ++ f.prologues.map (·.1.d) ++ f.audit.map (·.d)
      ++ f.shadows.flatMap (fun e => [e.1.d, e.2.d]) ++ f.promotable.flatMap (fun o => o.sets.map (·.1.d))
      ++ f.variants.flatMap (fun v => v.images.map (·.unit.d)))
    ++ (f.mailbox.map (·.1.d) ++ f.replayImage.map (·.1.d) ++ f.monMap.map (·.1.d) ++ f.updMap.map (·.1)
      ++ f.dropMap.map (·.1.d))

/-- Whether two formes claim a hall port, or a slot of a twin lane, both (R40). -/
def Forme.clashes (f g : Forme) : Bool :=
  (f.ports.any fun p => p.val ≠ 48 && g.claimsPort p)
    || f.twinSlots.any fun e => g.twinSlots.contains e

/-- Every window with its index, of every die and variant. -/
def Forme.allWindows (f : Forme) : List (Die × Nat × RedWindow) :=
  f.perDie.flatMap fun e => e.windows.zipIdx.map fun (w, i) => (e.die, i, w)

/-- Check 9: units, dies, lanes, ports, grid, checkers (R8, R39, R40, R329). -/
def State.loadFits (s : State) (p : Part) (f : Forme) : Bool :=
  s.fits f && connected f.dies && f.claims.all f.claimReaches && f.slotsUsed.all f.slotReaches
    && f.fabric.all (f.pathFits) && f.named.all f.dies.contains
    && allParts.all (fun q => q = p || (match (s.part q).forme with
      | some g => !f.clashes g
      | none => true))
    && f.allWindows.all fun (_, _, w) => !w.glean || f.dies.contains w.checker

/-- Check 10: areas, checkers, sown windows (R329, R380). -/
def Forme.windowsOk (f : Forme) : Bool :=
  f.allWindows.all fun (d, i, w) =>
    decide (w.lines + 260 * w.blocks ≤ cacheSize) && !(w.glean && w.checker = d)
      && (!f.sown d i || (w.sp32 && !w.ring))

/-- Whether a rake's tables are within their ranges (R392). -/
def RakeTable.ok (t : RakeTable) : Bool := t.base % 64 == 0 && t.pitch % 64 == 0

/-- Whether an invocation's streams lie in the spaces that take them: outputs in the cache or the stack (R298). -/
def Invocation.spacesOk (v : Invocation) : Bool :=
  v.streams.all fun t => !t.en || decide (t.space < 2) || (!t.output && t.space == 4)

/-- Whether a state pair or history pair lies in the stack; a state pair's regions are 64 KiB aligned (R282, R353, R398). -/
def DiePair.ok (x : DiePair) (align : Nat) : Bool :=
  x.a % align == 0 && x.b % align == 0 && x.len % align == 0 && decide (x.a + x.len ≤ spareBase ∧ x.b + x.len ≤ spareBase)

/-- Whether what the forme puts on a die is within its ranges: windows, programs (R295, R326), the step table (R300), the engine's HBM
slots (R301), its streams (R298), the host slots (R18). -/
def FormeDie.ok (e : FormeDie) : Bool :=
  decide (e.windows.length ≤ 256) && decide (e.programs.length ≤ 64) && e.programs.all (fun p => decide (p.length ≤ 64))
    && decide (e.stepRows ≤ 65536) && decide (e.queueBytes ≤ 2624) && e.schedule.all Invocation.spacesOk
    && e.hostSlots.all fun x => decide (x.1 + x.2 ≤ 16384)

/-- Check 5, beside what the layouts of the tables ask (R687): the number of variants, the step's length (R311, R663), the
headland (R75), GLEAN_LOG (R369), promotable operations (R308), descriptors that slots name (R331, R391), the engines' stores
(R381, R392), CHK_CFG's fields (R508). -/
def Forme.formatOk (f : Forme) : Bool :=
  let g := fld f.redCfg 20 16
  decide (f.variants.length ≤ 32) && decide (0 < f.length ∧ f.length ≤ 262144) && (decide (g ≤ 16) || g == 31)
    && f.headland % 128 == 0 && decide (f.headland ≤ 4096)
    && decide (f.promotable.length ≤ 12) && f.promotable.all (fun o => decide (o.threshold < 65536))
    && f.perDie.all FormeDie.ok && f.clusters.all (fun c => decide (c.tables.length ≤ 16) && c.tables.all RakeTable.ok)
    && (f.linkSlots ++ f.degraded.map (·.2)).all (fun x => match x.entry.rkind with
      | .accum => decide (x.entry.rarg < f.accums.length)
      | .capacity => decide (x.entry.rarg < f.caps.length)
      | _ => true)
    && f.pages.all (·.ok 65536) && f.hists.all (·.ok 64)
    && decide (f.level < 4 ∧ f.mult < 16 ∧ f.inCount < 256)

/-- The checks after the image's own, in their order: status and DETAIL of the first that fails. -/
def State.loadCheck (s : State) (p : Part) (f : Forme) : Option (Nat × Nat) :=
  let mine := s.partDies p
  if !f.formatOk then some (stFormeBad, 2)
  else if !(mine.all f.dies.contains && f.dies.all mine.contains) then some (stFormeBad, 3)
  else if f.node ≠ s.rdFld (xreg .htNodeId) 14 0 then some (stFormeBad, 4)
  else if f.mirror != s.twinModeBit || (f.level == 3 && !f.mirror) then some (stFormeBad, 5)
  else if !s.loadFits p f then some (stNoFit, 0)
  else if !f.windowsOk then some (stFormeBad, 6)
  else if f.bases.any fun b => (f.coldOf b.1).isNone then some (stNoVariant, 0)
  else none

/-! ### The load -/

/-- What FORME_LOAD writes into the registers of a die (R282, R287, R321, R353, R367, R369, R508). -/
def State.loadDie (s : State) (f : Forme) (d : Die) : State :=
  let pair := fun (s : State) lo hi (v : Nat) =>
    (s.wr (dreg lo d) (BitVec.ofNat 32 v)).wr (dreg hi d) (BitVec.ofNat 32 (v / 2 ^ 32))
  let s := s.wrBit (dreg .cdPage d) 0 false
  let of := fun (l : List DiePair) => (l.find? (·.die = d)).getD ⟨d, 0, 0, 0⟩
  let pg := of f.pages
  let hs := of f.hists
  let s := s.wrBit (dreg .cdHist d) 0 false
  let s := pair (pair (pair s .cdPageALo .cdPageAHi pg.a) .cdPageBLo .cdPageBHi pg.b) .cdPageLenLo .cdPageLenHi pg.len
  let s := pair (pair (pair s .cdHistALo .cdHistAHi hs.a) .cdHistBLo .cdHistBHi hs.b) .cdHistLenLo .cdHistLenHi hs.len
  let s := s.wrFld (dreg .cdInput d) 7 0 f.inCount
  let s := s.wrFld (dreg .cdRedCfg d) 21 0 (fld f.redCfg 21 0)
  let s := [RegName.cdRedExhCnt, .cdRedGleanCnt, .cdRedMismCnt, .cdRedNanCnt, .cdRedUnfCnt].foldl (fun s n => s.wr (dreg n d) 0) s
  let s := (s.wrFld (dreg .cdChkCfg d) 1 0 f.level).wrFld (dreg .cdChkCfg d) 7 4 f.mult
  s.wrBit (dreg .cdChkCfg d) 8 f.twinDup

/-- A port a forme claims: its degraded tables, which are in force at once for a lane that LD_SPARE holds out, and the other
spared lanes, which return to service (R451, R452, R462). -/
def State.loadPort (s : State) (c : PortClaim) : State :=
  let s := (List.range (portLanes c.port)).foldl (fun s k =>
    let l := laneOf c.port k
    let s := if s.ldSpared l then s else s.wrBit (lreg .ldLaneStat l) 7 false
    let r := portReg .ldPortStat c.port k
    ((s.wrBit r 16 c.degradeOk).wrBit r 17 false).wrFld r 15 13 0) s
  let s := if c.port.val = 48 then s.wrBit (xreg .twStatus) 3 false else s
  let s := s.modPort c.port fun x => { x with switches := [], lost := [] }
  let s := (List.range (portLanes c.port)).foldl (fun s k =>
    let l := laneOf c.port k
    if s.ldSpared l && s.spared l then s.switchLane c.port k else s) s
  s.syncPort c.port

/-- The load takes effect. -/
def State.loadForme (s : State) (p : Part) (f : Forme) : State :=
  let v := ((f.bases.find? (·.1 = s.gearOf p)).map (·.2)).getD 0
  let s := s.modPart p fun ps => { PartS.reset with
    forme := some f, variant := v, banksOf := v, gearAt := ps.gearAt, gearDown := ps.gearDown, report := ps.report, dropReport := ps.dropReport
    lastCommit := ps.lastCommit, firstStep := ps.firstStep, lastStep := ps.lastStep }
  let s := (s.partDies p).foldl (fun s d => s.loadDie f d) s
  let s := ((s.partRegions p).flatMap regionLus).foldl (fun s l => if s.rdFld (ureg .tuAudit l) 31 16 = 0 then s else s.wrFld (ureg .tuAudit l) 31 16 0) s
  let s := f.claims.foldl (fun s c => s.loadPort c) s
  let s := (s.partDies p).foldl (fun s d => s.syncRegionGear d) s
  let s := if f.mirror && s.rdFld (xreg .twStatus) 2 0 == 2 then s.wrBit (xreg .twStatus) 4 false else s
  s.loadVariant p

/-- DEGRADE_OK of a port follows the formes that are loaded (R462). -/
def State.degradeOkNow (s : State) (p : Port) : State :=
  let ok := allParts.any fun q => match (s.part q).forme with
    | some f => f.claims.any fun c => decide (c.port = p) && c.degradeOk
    | none => false
  (portHeads p).foldl (fun s i => s.wrBit (portReg .ldPortStat p i) 16 ok) s

/-- A partition is left with no forme (R687, R603): its ports' degraded tables are gone, and lanes that LD_SPARE was to take
out at its step boundary go out (R452, R462). -/
def State.unload (s : State) (p : Part) : State :=
  let ports := match (s.part p).forme with
    | some f => f.ports
    | none => []
  let s := s.modPart p fun ps => { ps with forme := none }
  (ports.foldl (fun s i => s.degradeOkNow i) s).sparesDue none

/-- The logical units of a partition that are mapped. -/
def State.mappedUnits (s : State) (p : Part) : Nat :=
  (((s.partRegions p).flatMap regionLus).filter s.carries).length

/-- FORME_LOAD (R561, R687). -/
def State.formeLoad (s : State) (q : Req) (r : FormeRead) : State :=
  let p := q.part
  if (s.partDies p).isEmpty then s.reply q stBadPart
  else if (s.partDies p).any s.dieArmed then s.reply q stFormeArmed
  else match r with
    | .dmaError => (s.unload p).reply q stDmaFault
    | .badDigest => (s.unload p).reply q stFormeBad 1
    | .badFormat => (s.unload p).reply q stFormeBad 2
    | .ok f t =>
      let s := s.unload p
      match f.withTables t with
      | none => s.reply q stFormeBad 2
      | some f =>
      match s.loadCheck p f with
      | some (st, det) => s.reply q st det
      | none =>
        let s := s.loadForme p f
        s.reply q stOk 0 (natLe 2 (s.mappedUnits p) ++ natLe 2 f.needs.length)

/-! ### Arming (R562) -/

/-- The variant in force: the gear's base variant followed through the promotions taken since FORME_LOAD. -/
def State.variantInForce (s : State) (p : Part) (f : Forme) : Option Nat := f.follow (s.gearOf p) (s.part p).promos

/-- FORME_ARM: refused as R562 lists, else the partition is armed, and what was raised before belongs to none of its steps
(R34); the automatic field proof runs where the tree has 64
packages or fewer (R489), and the reply waits for it. -/
def State.formeArm (s : State) (q : Req) (start : Word) (cold : Bool) : State :=
  let p := q.part
  if (s.partDies p).isEmpty then s.reply q stBadPart else
  match (s.part p).forme with
  | none => s.reply q stNotArmed
  | some f =>
    if (s.part p).armed then s.reply q stFormeArmed
    else if (s.partRegions p).any fun r => !s.regionFallow r && !s.rdBit (rreg .pwrRegionStat r) 4 then s.reply q stBusy
    else if !s.timed then s.reply q stTimeState
    else
      let v := (s.variantInForce p f).getD (s.part p).variant
      let s := { s with susp := s.susp.filter fun e => e.part ≠ p }.setArmed p true
      let s := (s.partDies p).foldl (fun s d => s.wr (dreg .cdStep d) start) s
      let s := { s with power := { s.power with
        jobBase := s.power.jobBase.set p.val ((s.power.acc.part[p.val]?).getD 0) } }
      let proof := decide (f.tree.packages ≤ 64)
      let until_ := s.now + 192 * 16384
      let s := s.modPart p fun ps => { ps with
        variant := v, banksOf := v, coldArm := cold, coldNext := false, hallCounts := [], hallCold := []
        ord := 0, vcount := 0, vnext := 0, coldReq := false, vdone := false, commitDone := false, haltOnBoundary := false
        proofUntil := if proof then some until_ else none }
      let s := (s.partDies p).foldl (fun s d => s.syncRegionGear d) s
      let s := if proof then (s.partRegions p).foldl (fun s r => if s.regionFallow r then s else s.proofOn r) s else s
      let s := (s.loadVariant p).loadReplay p
      if proof then s.addJob q (.arm until_) else s.reply q stOk

/-- FORME_DISARM (R562). At the tick of a RUN_AT the run comes first, as pending commands that are due do (R555): the partition
counts as running. -/
def State.formeDisarm (s : State) (q : Req) : State :=
  let p := q.part
  if (s.partDies p).isEmpty then s.reply q stBadPart
  else if (s.part p).running || (s.part p).armed && s.runAt? p == some s.now then s.reply q stFormeArmed
  else if !(s.part p).armed then s.reply q stNotArmed
  else (s.disarm p stCancelled).reply q stOk

end Sys2Proof.Machine
end

