-- ==== Sys2Proof/Machine/Packets.lean ====
section
/-!
DEFINITION. Command packets (14_host_and_management.md R551 to R560): the opcodes, their parameters as bytes, the
checks that need nothing but the packet.
-/
namespace Sys2Proof.Machine

open Sys2Proof

/-! ### The opcodes (R560) -/

/-- Opcodes of R560 that its SB column does not mark (R573). -/
def hostOnly (op : Nat) : Bool := [0x0101, 0x0102, 0x0103, 0x0201, 0x0301, 0x0303, 0x0304, 0x0305, 0x0306, 0x0402, 0x0601].contains op

/-- Whether the sideband accepts a command (R560, R573); a packet that is not well formed goes by its opcode. -/
def Cmd.onSideband (op : Half) : Cmd → Bool
  | .bad _ => !hostOnly op.toNat
  | .haltAt | .gearAt _ | .cancel _ _ | .pageRetire _ _ | .fieldProof _ | .fence _ _ _ _ | .capSet _ | .energyRead
  | .twinDetach | .fwStage _ _ _ _ | .fwActivate | .settingsGet _ | .settingsSet _ _ | .warmReset | .blockReset _ _
  | .attest _ _ | .secTransition _ _ _ | .trafficGen _ | .telemetryRead _ _ _ _ => true
  | .formeLoad _ | .formeArm _ _ | .formeDisarm | .runAt | .snapshot _ _ _ _ _ | .dmaRead _ | .dmaWrite _
  | .streamOpen _ | .streamClose _ | .proofRun _ _ | .twinMode _ => false

/-- Opcode group 0x02 (R556). -/
def Cmd.timed : Cmd → Bool
  | .runAt | .haltAt | .gearAt _ | .cancel _ _ => true
  | _ => false

/-- Commands that name a partition (R560). -/
def Cmd.namesPart : Cmd → Bool
  | .formeLoad _ | .formeArm _ _ | .formeDisarm | .runAt | .haltAt | .gearAt _ | .snapshot _ _ _ _ _ | .capSet _ => true
  | .telemetryRead sel _ _ _ => sel == 0 || sel == 1 || sel == 4
  | _ => false

/-- Commands that need no powered block: Latched answers four alone (R573); Standby also SETTINGS_SET, whose flash the
always-on domains reach (log 21). -/
def Cmd.anywhere (latched : Bool) : Cmd → Bool
  | .telemetryRead _ _ _ _ | .energyRead | .attest _ _ | .settingsGet _ => true
  | .settingsSet _ _ => !latched
  | _ => false

/-- Commands that run while JTAG scan has stopped the clocks (R651). -/
def Cmd.inScan : Cmd → Bool
  | .attest _ _ | .settingsGet _ => true
  | .telemetryRead _ _ _ host => host == 0
  | _ => false

/-! ### Reading a packet (R552, R560) -/

/-- The field of `n` bytes at offset `o`. -/
def pfld (b : List Byte) (o n : Nat) : Nat := leNat ((b.drop o).take n)

/-- Whether every byte outside the listed fields is 0. -/
def restZero (b : List Byte) (fields : List (Nat × Nat)) : Bool :=
  b.zipIdx.all fun (x, i) => x == 0 || fields.any fun f => decide (f.1 ≤ i ∧ i < f.1 + f.2)

/-- A packet of an opcode whose parameters take `n` bytes in the given fields. -/
def packet (b : List Byte) (n : Nat) (fields : List (Nat × Nat)) (c : Cmd) : Cmd :=
  if b.length ≠ n then .bad 0x11 else if restZero b fields then c else .bad 0x12

/-- A byte of which only bits under `m` may be set. -/
def byteIn (b : List Byte) (o m : Nat) (c : Cmd) : Cmd := if pfld b o 1 &&& m = pfld b o 1 then c else .bad 0x12

def dmaParams (b : List Byte) : DmaParams := ⟨pfld b 0 1, pfld b 1 1, pfld b 8 8, pfld b 16 4, pfld b 24 8⟩

def dmaFields : List (Nat × Nat) := [(0, 2), (8, 12), (24, 8)]

/-- The command of an opcode and its parameter bytes, with what a read of host memory for it gives. -/
def readCmd (op : Nat) (b : List Byte) (r : HostRead) : Cmd :=
  match op with
  | 0x0101 => packet b 16 [(0, 16)] (.formeLoad (match r with
    | .forme f => f
    | .fault => .dmaError
    | .bytes _ => .badDigest))
  | 0x0102 => packet b 5 [(0, 5)] (byteIn b 4 1 (.formeArm (BitVec.ofNat 32 (pfld b 0 4)) (pfld b 4 1 == 1)))
  | 0x0103 => packet b 0 [] .formeDisarm
  | 0x0201 => packet b 0 [] .runAt
  | 0x0202 => packet b 0 [] .haltAt
  | 0x0203 => packet b 1 [(0, 1)] (.gearAt (pfld b 0 1))
  | 0x0204 => packet b 3 [(0, 3)] (.cancel (pfld b 0 1) (BitVec.ofNat 16 (pfld b 1 2)))
  | 0x0301 => packet b 16 [(0, 16)] (byteIn b 5 1 (.snapshot (BitVec.ofNat 32 (pfld b 0 4)) (pfld b 4 1)
      (pfld b 5 1 == 1) (BitVec.ofNat 16 (pfld b 6 2)) (pfld b 8 8)))
  | 0x0302 => packet b 8 [(0, 1), (4, 4)] (.pageRetire (pfld b 0 1) (pfld b 4 4))
  | 0x0303 => packet b 32 dmaFields (.dmaRead (dmaParams b))
  | 0x0304 => packet b 32 dmaFields (.dmaWrite (dmaParams b))
  | 0x0305 => packet b 40 [(0, 5), (8, 32)] (.streamOpen ⟨BitVec.ofNat 16 (pfld b 0 2), pfld b 2 1, pfld b 3 1,
      pfld b 4 1, pfld b 8 8, pfld b 16 8, pfld b 24 8, pfld b 32 8⟩)
  | 0x0306 => packet b 2 [(0, 2)] (.streamClose (BitVec.ofNat 16 (pfld b 0 2)))
  | 0x0401 => packet b 2 [(0, 2)] (.fieldProof (BitVec.ofNat 16 (pfld b 0 2)))
  | 0x0402 => packet b 64 [(0, 7), (8, 4), (16, 48)] (byteIn b 6 7 (.proofRun
      ⟨pfld b 0 1, pfld b 1 1, pfld b 2 1, pfld b 3 1, (b[4]?).getD 0, (b[5]?).getD 0, (pfld b 6 1).testBit 0,
        (pfld b 6 1).testBit 1, (pfld b 6 1).testBit 2, pfld b 8 4, pfld b 40 8 != 0, pfld b 48 8 != 0,
        pfld b 56 8⟩ r))
  | 0x0403 => packet b 4 [(0, 4)] (.fence (pfld b 0 1) (pfld b 1 1) (pfld b 2 1) (pfld b 3 1))
  | 0x0501 => packet b 2 [(0, 2)] (.capSet (pfld b 0 2))
  | 0x0502 => packet b 0 [] .energyRead
  | 0x0601 => packet b 1 [(0, 1)] (.twinMode (pfld b 0 1))
  | 0x0602 => packet b 0 [] .twinDetach
  | 0x0701 =>
    let n := pfld b 8 4
    let inline_ := pfld b 0 1 == 1
    packet b (if inline_ then 64 + n else 24) ([(0, 2), (4, 8), (16, 8)] ++ (if inline_ then [(64, n)] else []))
      (byteIn b 1 1 (.fwStage (pfld b 0 1) (pfld b 1 1 == 1) (pfld b 4 4)
        (if inline_ then .bytes (b.drop 64) else r)))
  | 0x0702 => packet b 0 [] .fwActivate
  | 0x0703 => packet b 2 [(0, 2)] (.settingsGet (BitVec.ofNat 16 (pfld b 0 2)))
  | 0x0704 => packet b 8 [(0, 2), (4, 4)] (.settingsSet (BitVec.ofNat 16 (pfld b 0 2)) (BitVec.ofNat 32 (pfld b 4 4)))
  | 0x0705 => packet b 0 [] .warmReset
  | 0x0706 => packet b 2 [(0, 2)] (.blockReset (pfld b 0 1) (pfld b 1 1))
  | 0x0801 => packet b 36 [(0, 36)] (.attest (b.take 32) (BitVec.ofNat 32 (pfld b 32 4)))
  | 0x0802 => packet b 340 [(0, 1), (64, 133), (200, 132)]
      (.secTransition (pfld b 0 1) ((b.drop 64).take 133) ((b.drop 200).take 132))
  | 0x0901 => packet b 24 [(0, 1), (4, 6), (12, 12)] (byteIn b 8 0x3F (byteIn b 9 1 (.trafficGen
      ⟨pfld b 0 1, BitVec.ofNat 32 (pfld b 4 4), (b[8]?).getD 0, pfld b 9 1 == 1, BitVec.ofNat 32 (pfld b 12 4),
        BitVec.ofNat 32 (pfld b 16 4), BitVec.ofNat 32 (pfld b 20 4)⟩)))
  | 0x0902 => packet b 24 [(0, 1), (4, 8), (16, 8)] (.telemetryRead (pfld b 0 1) (pfld b 4 4) (pfld b 8 4) (pfld b 16 8))
  | _ => .bad 0x10

/-- The request and the command of a packet: header of 64 B and LENGTH parameter bytes (R552). -/
def readPacket (src : Src) (p : List Byte) (r : HostRead) : Req × Cmd :=
  let h := p.take 60
  let len := pfld p 4 4
  let b := (p.drop 64).take len
  let flags := pfld p 16 1
  let op := pfld p 0 2
  let q : Req := {
    src := src, op := BitVec.ofNat 16 op, tag := BitVec.ofNat 16 (pfld p 2 2)
    at_ := if flags.testBit 0 then some (pfld p 8 8) else none
    irq := flags.testBit 1
    vec := ⟨pfld p 17 1 % 64, Nat.mod_lt _ (by decide)⟩
    part := ⟨pfld p 18 1 % 8, Nat.mod_lt _ (by decide)⟩
    crc := crc32 (h ++ b)
    raw := BitVec.ofNat 64 (pfld p 8 8) }
  let c := readCmd op b r
  let clean := flags < 4 && restZero ((p.drop 19).take 41) [] && (!flags.testBit 1 || pfld p 17 1 < 64)
  (q, match c with
    | .bad 0x10 => c
    | _ => if 4096 < len ∨ b.length ≠ len then .bad 0x11
      else if !clean || (c.namesPart && decide (8 ≤ pfld p 18 1)) then
        (match c with
          | .bad st => .bad st
          | _ => .bad 0x12)
      else c)

end Sys2Proof.Machine
end

