-- ==== Sys2Proof/Machine/Views.lean ====
section
/-!
DEFINITION. What a register reads as, where it is formed from other state (15_registers.md R579; the tables named at
each).
-/
namespace Sys2Proof.Machine

open Sys2Proof

/-- The low or high half of a 64-bit value. -/
def half64 (high : Bool) (v : Nat) : Word := BitVec.ofNat 32 (if high then v / 2 ^ 32 else v)

/-- CMD_PEND (R577): the host slots that hold a pending command. -/
def State.pendMask (s : State) : Nat :=
  s.host.jobs.foldl (fun m j => match j.req.src with
    | .host i => if j.pending then m ||| 2 ^ i.val else m
    | _ => m) 0

/-- A fuse word (R658). -/
def State.fuse (s : State) (a : Nat) : Word :=
  Config.fuseWord a ||| ((s.sec.burnt.find? (·.1 = a)).map (·.2)).getD 0

/-- The fallow list as retained memory shows it (R622): byte `o` from offset 0x3000. -/
def State.fallowByte (s : State) (o : Nat) : Byte :=
  if o < 0x400 then
    let d : Die := ⟨o / 64 % 16, by omega⟩
    let r : RegionId := ⟨d, ⟨o / 16 % 4, by omega⟩⟩
    BitVec.ofNat 8 ((List.range 8).foldl (fun a i =>
      let k := 8 * (o % 16) + i
      let on : Bool := if h : k < 66 then s.fen.units.contains ⟨d, r.r, ⟨k, h⟩⟩ else k == 71 && s.fen.regions.contains r
      if on then a + 2 ^ i else a) 0)
  else
    let m := (allDies.foldl (fun a d => if s.fen.dies.contains d then a + 2 ^ d.val else a) 0)
      + (allLinkDies.foldl (fun a k => if s.fen.lds.contains k then a + 2 ^ (16 + k.val) else a) 0)
    BitVec.ofNat 8 (m / 256 ^ (o - 0x400))

/-- Boot counters as retained memory shows them (R622). -/
def State.counterBytes (s : State) : List Byte :=
  natLe 4 (s.rd (xreg .rstBoots)).toNat ++ natLe 4 (s.rd (xreg .rstWdogCnt)).toNat ++ natLe 4 s.fw.warmCount

/-- A byte of retained memory (R622). -/
def State.retainedByte (s : State) (o : Nat) : Byte :=
  if 0x3000 ≤ o ∧ o < 0x3440 then s.fallowByte (o - 0x3000)
  else if 0x3440 ≤ o ∧ o < 0x3480 then (s.counterBytes[o - 0x3440]?).getD 0
  else if 0x3480 ≤ o ∧ o < 0x3500 then (s.fw.shown[o - 0x3480]?).getD 0
  else if 0x4000 ≤ o ∧ o < 0x8000 then
    (((s.fw.bootlog[(o - 0x4000) / 64]?).getD [])[o % 64]?).getD 0
  else s.retained.byte o

def State.retainedWord (s : State) (o : Nat) : Word :=
  BitVec.ofNat 32 (leNat ((List.range 4).map fun i => s.retainedByte (o + i)))

def wordOf (b : List Byte) (j : Nat) : Word := BitVec.ofNat 32 (leNat ((b.drop (4 * j)).take 4))

def bits32 (l : List Bool) : Nat := l.foldr (fun b a => b.toNat + 2 * a) 0

/-- The logical unit that a register of a unit's block belongs to. -/
def Reg.lu (r : Reg) : LU := ⟨⟨r.unit % 16, by omega⟩, ⟨r.i % 4, by omega⟩, ⟨r.j % 64, by omega⟩, none⟩

/-- The logical unit whose records a family indexed by 64 r + n holds (R181, R275). -/
def Reg.luOf (r : Reg) : LU := ⟨⟨r.unit % 16, by omega⟩, ⟨r.i / 64 % 4, by omega⟩, ⟨r.i % 64, by omega⟩, none⟩

def Reg.die (r : Reg) : Die := ⟨r.unit % 16, by omega⟩

/-- The cluster of a cluster's register. -/
def Reg.cluster (r : Reg) : ClusterId := ⟨r.die, ⟨r.i % 4, by omega⟩, ⟨r.j % 8, by omega⟩⟩

/-- The unit that carries a logical unit; a unit that none carries reads as one after reset. -/
def State.unitOf (s : State) (l : LU) : UnitS :=
  match s.carrier l with
  | some p => s.unit p
  | none => .reset

/-- Four galleys of TU_GALLEY (R278). -/
def State.galleyWord (s : State) (l : LU) (high : Bool) : Word :=
  let x := s.unitOf l
  BitVec.ofNat 32 ((List.finRange 4).foldl (fun a k =>
    let g : Fin 8 := ⟨k.val + (if high then 4 else 0), by split <;> omega⟩
    a + ((x.galley g).count % 32 + 32 * (s.galleyOn l g).toNat) * 256 ^ k.val) 0)

/-- TU_IBANK (R279). -/
def State.ibankWord (s : State) (l : LU) : Word :=
  let c := (s.unitOf l).ctl
  BitVec.ofNat 32 (c.verso.toNat + 2 * c.armed.toNat + 4 * (c.entry % 1024) + 4096 * (c.fetch % 1024))

/-- A word of a monitor set in one of two banks (R180, R181, R321). -/
def monWord (sets : List MonSet) (m j : Nat) : Word := wordOf ((sets[m]?).getD .zero).bytes j

/-- A word of an audit record (R275). -/
def State.auditWord (s : State) (l : LU) (k j : Nat) : Word :=
  let r := (s.lu l).audit.getD k (0, 0, 0, 0)
  if j = 0 then r.1 else if j = 1 then r.2.1 else if j = 2 then r.2.2.1 else r.2.2.2

/-- A drop counter: drill 16 r + 2 c + b (R389). -/
def State.dropWord (s : State) (d : Die) (i e : Nat) : Word :=
  let c := s.clusterS ⟨d, ⟨i / 16 % 4, by omega⟩, ⟨i / 2 % 8, by omega⟩⟩
  (if i % 2 = 0 then c.drops else c.dropsPrev).getD e 0

/-- Whether the adders of a die hold scheduled work: intake or a contribution not applied, or of the running forme a window that is
open or a ring entry that has not run. -/
def State.addersBusy (s : State) (d : Die) : Bool :=
  let x := s.die d
  x.red.owed != 0 || !x.red.work.isEmpty || (match s.running d, s.formeOn d with
    | some p, some f => match f.onDie d (s.part p).variant with
      | some e => !x.red.opened.isEmpty || decide (x.red.ringDone.length < e.rings.length)
      | none => false
    | _, _ => false)

/-- CD_PROOF_STAT's binding (R220). -/
def State.proofWord (s : State) (c : ClusterId) : Nat :=
  match (s.clusterS c).proof with
  | some e => 1 + 8 * (e.owner % 8) + 64 * e.group.val
  | none => 0

/-- Whether a clock domain is locked: it has power, runs, and has not lost lock (R601). Of XD's eight clocks, management,
monitor UART, security and debug run in every power state (R517, R651, log 18). -/
def State.locked (s : State) (c : ClkDom) : Bool :=
  !s.power.clkLost.contains c && (s.powered || (match c with
    | .xd i => i.val == 2 || i.val == 3 || i.val == 5 || i.val == 7
    | _ => false))

/-- CLK_STAT but for LOCK_LOST. -/
def State.clkWord (s : State) : Nat :=
  bits32 (allDies.map fun d => s.locked (.uncore d) && s.locked (.hbm d))
    + 2 ^ 16 * bits32 (allLinkDies.map fun k => s.locked (.linkLogic k) && s.locked (.linkSerdes k))
    + 2 ^ 20 * bits32 ((List.finRange 8).map fun i => s.locked (.xd i))

/-- CLK_REGION_LOCK. -/
def State.regionLocks (s : State) : Nat := bits32 (allRegions.map fun r => s.locked (.region r))

/-- DIVERGED of CD_PAGE (R323): the latch of the partition that holds the die (R93). -/
def State.divergedOn (s : State) (d : Die) : Bool :=
  match s.partOf d with
  | some p => (s.part p).diverged
  | none => false

/-- What a register reads as. -/
def State.view (s : State) (r : Reg) : Word :=
  match r.name with
  | .secFuseRead => s.fuse (s.rdFld (xreg .secFuseCtl) 11 0)
  | .htNowLo => half64 false s.now
  | .htNowHi => half64 true s.now
  | .cmdPendLo => half64 false s.pendMask
  | .cmdPendHi => half64 true s.pendMask
  | .pwrEDomLo => half64 false (microjoules ((s.power.acc.dom[r.i]?).getD 0))
  | .pwrEDomHi => half64 true (microjoules ((s.power.acc.dom[r.i]?).getD 0))
  | .pwrEPartLo => half64 false (microjoules ((s.power.acc.part[r.i]?).getD 0))
  | .pwrEPartHi => half64 true (microjoules ((s.power.acc.part[r.i]?).getD 0))
  | .pwrEInLo => half64 false (microjoules s.power.acc.input)
  | .pwrEInHi => half64 true (microjoules s.power.acc.input)
  | .pwrEUnassignedLo => half64 false (microjoules s.power.acc.unassigned)
  | .pwrEUnassignedHi => half64 true (microjoules s.power.acc.unassigned)
  | .pwrJobBaseLo => half64 false (microjoules ((s.power.jobBase[r.i]?).getD 0))
  | .pwrJobBaseHi => half64 true (microjoules ((s.power.jobBase[r.i]?).getD 0))
  | .faultRec => s.retainedWord (32 * r.i + 4 * r.j)
  | .retained => s.retainedWord (4 * r.i)
  | .pwrStatus => setFld (s.rd r) 13 11 s.powerState
  | .pwrRegionStat => setBit (s.rd r) 5 (s.region ⟨⟨r.unit % 16, by omega⟩, ⟨r.i % 4, by omega⟩⟩).suppressed
  | .secFuseCtl => s.rd r &&& ~~~(0x1000 : Word)
  | .unitMon =>
    let x := s.lu r.luOf
    monWord (if r.j < 256 then x.live else x.prev) (r.j % 256 / 16) (r.j % 16)
  | .updMon => monWord (s.die r.die).upd.live r.i r.j
  | .updMonPrev => monWord (s.die r.die).upd.prev r.i r.j
  | .drillDrop => s.dropWord r.die r.i r.j
  | .auditRec => s.auditWord r.luOf (r.j / 4) (r.j % 4)
  | .tuGalleyLo => s.rd r ||| s.galleyWord r.lu false
  | .tuGalleyHi => s.rd r ||| s.galleyWord r.lu true
  | .tuIbank => s.rd r ||| s.ibankWord r.lu
  | .ldPortStat => setBit (s.rd r) 12 (s.ready (if r.i = 12 then 48 else ⟨(12 * r.unit + r.i) % 49, by omega⟩))
  | .cdPage => setBit (s.rd r) 3 (s.divergedOn r.die)
  | .tuWdigestLo => ((s.lu r.lu).wdigest).setWidth 32
  | .tuWdigestHi => ((s.lu r.lu).wdigest >>> 32).setWidth 32
  | .tuAccStat => s.rd r ||| BitVec.ofNat 32 (s.unitOf r.lu).accBits
  | .tuAudit => setBit (s.rd r) 0 (s.auditOn r.lu)
  | .tuRegionRpl => setBit (setBit (s.rd r) 0 (s.replaying ⟨r.die, ⟨r.i % 4, by omega⟩, 64⟩)) 1
      (s.replaying ⟨r.die, ⟨r.i % 4, by omega⟩, 65⟩)
  | .cdProofStat => s.rd r ||| BitVec.ofNat 32 (s.proofWord r.cluster)
  | .cdDrillStat => setBit (s.rd r) 8 (s.clusterS r.cluster).drill.isSome
  | .cdRakeStat => setBit (s.rd r) 8 (s.clusterS r.cluster).rake.isSome
  | .cdUpdStat => setBit (s.rd r) 8 (s.die r.die).upd.run.isSome
  | .cdRedStat => setBit (s.rd r) 0 (s.addersBusy r.die)
  | .cmdStat => setBit (setBit (s.rd r) 2 s.lowPower) 3 s.fw.pause.isSome
  | .clkStat => s.rd r ||| BitVec.ofNat 32 s.clkWord
  | .clkRegionLockLo => half64 false s.regionLocks
  | .clkRegionLockHi => half64 true s.regionLocks
  | _ => s.rd r

end Sys2Proof.Machine
end

