-- ==== Sys2Proof/Machine/Registers.lean ====
section
/-!
DEFINITION. Register accesses (15_registers.md R579 to R601): the map, grades (17_security_states.md R647 to R652),
refused accesses, reads that clear, shadows, quoins, and the registers with write rules of their own.
-/
namespace Sys2Proof.Machine

open Sys2Proof

/-! ### The map (R594 to R596) -/

/-- The window of a BAR0 offset, its die, and the offset within it (R594). -/
def windowAt (a : Nat) : Option (Window × Nat × Nat) :=
  if a < 0x100000 then some (.xd, 0, a)
  else if a < 0x200000 then some (.ld, (a - 0x100000) / 0x40000, (a - 0x100000) % 0x40000)
  else if 0x400000 ≤ a ∧ a < 0x2400000 then some (.cd, (a - 0x400000) / 0x200000, (a - 0x400000) % 0x200000)
  else none

/-- The indices of a register of a family at an offset of its window. -/
def RegInfo.at? (i : RegInfo) (off : Nat) : Option (Nat × Nat) :=
  if off < i.base then none else
  let x := off - i.base
  let a := if i.n1 ≤ 1 then 0 else x / max i.s1 1
  let y := if i.n1 ≤ 1 then x else x % max i.s1 1
  let b := if i.n2 ≤ 1 then 0 else y / max i.s2 1
  let z := if i.n2 ≤ 1 then y else y % max i.s2 1
  if a < max i.n1 1 ∧ b < max i.n2 1 ∧ z = 0 then some (a, b) else none

/-- The register at a BAR0 offset, if one is there (R581). -/
def regAt (a : Nat) : Option Reg :=
  match windowAt a with
  | none => none
  | some (w, u, off) => allRegNames.findSome? fun n =>
      if n.info.window = w then (n.info.at? off).map fun p => ⟨n, u, p.1, p.2⟩ else none

/-- The BAR0 offset of a register. -/
def Reg.addr (r : Reg) : Nat :=
  (match r.name.info.window with
    | .xd => 0
    | .ld => 0x100000 + r.unit * 0x40000
    | .cd => 0x400000 + r.unit * 0x200000) + r.name.info.base + r.i * r.name.info.s1 + r.j * r.name.info.s2

/-- The _HI register of a pair's _LO (R589). -/
def RegName.high : RegName → Option RegName
  | .clkRegionLockLo => some .clkRegionLockHi | .htNowLo => some .htNowHi | .htSetLo => some .htSetHi
  | .twDigestOwnLo => some .twDigestOwnHi | .twDigestTwinLo => some .twDigestTwinHi | .cmdPendLo => some .cmdPendHi
  | .cmdCollectLo => some .cmdCollectHi | .pwrEDomLo => some .pwrEDomHi | .pwrEPartLo => some .pwrEPartHi
  | .pwrEInLo => some .pwrEInHi | .pwrEUnassignedLo => some .pwrEUnassignedHi | .pwrJobBaseLo => some .pwrJobBaseHi
  | .ldSpareLo => some .ldSpareHi | .cdPageALo => some .cdPageAHi | .cdPageBLo => some .cdPageBHi
  | .cdPageLenLo => some .cdPageLenHi | .cdHistALo => some .cdHistAHi | .cdHistBLo => some .cdHistBHi
  | .cdHistLenLo => some .cdHistLenHi | .hbmUeAddrLo => some .hbmUeAddrHi | .tuGalleyLo => some .tuGalleyHi
  | .tuWdigestLo => some .tuWdigestHi
  | _ => none

/-- Whether a register is the _HI of a pair. -/
def RegName.isHigh (n : RegName) : Bool := allRegNames.any fun m => m.high == some n

/-! ### Grades (R647 to R650) -/

/-- The always-on ranges of the XD window (R648). -/
def alwaysOn (a : Nat) : Bool :=
  decide (a < 0x1000) || decide (0x5000 ≤ a ∧ a < 0x6000) || decide (0x8000 ≤ a ∧ a < 0xA000)
    || decide (0x10000 ≤ a ∧ a < 0x20000)

def State.secState (s : State) : Nat := s.rdFld (xreg .secState) 1 0


/-- Whether a requester's grade in a security state allows an access, apart from the power state (R647, R648, R650). -/
def gradeAllows (st : Nat) (lock : Word) (who : Requester) (write : Bool) : Bool :=
  match who with
  | .firmware => true
  | .host => true
  | .sideband => !write || (st != 1 && !bit lock 2)
  | .monitor => st != 1 && !bit lock 0
  | .jtag => st != 1 && !bit lock 1

/-- Whether an access is allowed now (R648). -/
def State.allows (s : State) (who : Requester) (a : Nat) (write : Bool) : Bool :=
  gradeAllows s.secState (s.rd (xreg .secDebugCtl)) who write
    && (who == .firmware || !s.lowPower || (who != .host && alwaysOn a))

/-- DEBUG_SEEN is set at an access that Production-Locked grades would refuse (R652). -/
def State.noteDebug (s : State) (who : Requester) (write : Bool) : State :=
  if gradeAllows 1 0 who write then s else s.wrBit (xreg .secState) 2 true

/-! ### Refused accesses (R581, R600) -/

def Requester.code : Requester → Nat
  | .firmware => 0
  | .host => 1
  | .sideband => 2
  | .monitor => 3
  | .jtag => 4

/-- A refused access is noted: bit 0 UNMAPPED, 1 PARTIAL, 2 QUOIN_DROP (R600). -/
def State.refused (s : State) (who : Requester) (a b : Nat) : State :=
  let s := (s.wrBit (xreg .secAccess) b true).wrFld (xreg .secAccess) 6 4 who.code
  if s.rdBit (xreg .secAccessAddr) 31 then s
  else (s.wrFld (xreg .secAccessAddr) 25 0 a).wrBit (xreg .secAccessAddr) 31 true

/-! ### Reads (R586 to R590) -/

/-- The RC bits returned as 1 are cleared; fields whose Meaning states a value take it (R586). -/
def State.clearRead (s : State) (r : Reg) (v : Word) : State :=
  match r.name with
  | .pwrTj => s.wrFld r 15 8 (s.rdFld r 7 0)
  | .hbmTemp => s.wrFld r 15 8 (s.rdFld r 7 0)
  | _ => if v &&& r.name.info.rc = 0 then s else s.modReg r fun w => w &&& ~~~(v &&& r.name.info.rc)

/-- The shadow a requester holds for a _HI register (R589). -/
def State.shadow (s : State) (who : Requester) (a : Nat) : Option Word :=
  (s.host.shadows.find? fun e => e.1 = who ∧ e.2.1 = a).map (·.2.2)

def State.setShadow (s : State) (who : Requester) (a : Nat) (v : Option Word) : State :=
  let rest := s.host.shadows.filter fun e => !(e.1 = who ∧ e.2.1 = a)
  { s with host := { s.host with shadows := match v with
    | some w => (who, a, w) :: rest
    | none => rest } }

def State.out (s : State) (v : Word) : State := { s with busOut := v }

/-- An ordinary read of a register (R586, R589, R590). -/
def State.readReg (s : State) (who : Requester) (r : Reg) : State :=
  match r.name.high with
  | some h =>
    let hi : Reg := { r with name := h }
    let v := s.view r
    ((s.setShadow who hi.addr (some (s.view hi))).clearRead r v).out v
  | none =>
    if r.name.isHigh then
      match s.shadow who r.addr with
      | some v => ((s.setShadow who r.addr none).clearRead r v).out v
      | none => (s.clearRead r (s.view r)).out (s.view r)
    else (s.clearRead r (s.view r)).out (s.view r)

/-- Host reads return 0 during a warm reset (R607). -/
def State.busDead (s : State) (who : Requester) : Bool := who == .host && s.fw.warm.isSome

/-- A read at a BAR0 offset (R581, R649). -/
def State.busRead (s : State) (who : Requester) (a : Nat) : State :=
  if s.busDead who then s.out 0 else
  if !s.allows who a false then (s.refused who a 0).out 0 else
  let s := s.noteDebug who false
  match regAt (a / 4 * 4) with
  | some r => s.readReg who r
  | none => (s.refused who a 0).out 0

/-- A read through the debug path, without any side effect on the register (R588). -/
def State.debugRead (s : State) (who : Requester) (a : Nat) : State :=
  if !s.allows who a false || who == .host || who == .sideband then (s.refused who a 0).out 0 else
  let s := s.noteDebug who false
  match regAt (a / 4 * 4) with
  | some r => s.out (s.view r)
  | none => (s.refused who a 0).out 0

/-! ### Registers with write rules of their own -/

/-- R42. -/
def State.partitionWrite (s : State) (d : Die) (v : Word) : State :=
  if s.dieArmed d then s.raiseBit (dreg .cdPartition d) 5
  else ((s.storeReg (dreg .cdPartition d) v).syncDomains d).syncRegionGear d

/-- TU_IMPOSE written (R46). A write that meets both of its cases, an armed die and a bad value, sets the armed die's bit alone
(DESIGN CHOICE, log 30: R46 does not say whether both are set). -/
def State.imposeWrite (s : State) (l : LU) (v : Word) : State :=
  let n := fld v 6 0
  if s.dieArmed l.d then s.raiseBit (rreg .tuRegionStat l.region) 10
  else
    let bad : Bool := if h : n < 66 then
        let p : PU := ⟨l.d, l.r, ⟨n, h⟩⟩
        s.unitFallow p || (match s.carried p with
          | some m => m != l
          | none => false)
      else n != 127
    if bad then s.raiseBit (rreg .tuRegionStat l.region) 9
    else (s.storeReg (ureg .tuImpose l) v).syncFence

/-- R591. -/
def State.quoinWrite (s : State) (v : Word) : State :=
  s.modReg (xreg .secQuoin) fun w => (w ||| (v &&& 0x7F)) &&& 0x7F ||| (v &&& ~~~(0x7F : Word))

/-- R425. -/
def State.hbmCfgWrite (s : State) (d : Die) (v : Word) : State :=
  if fld v 7 0 = 0 then s else s.storeReg (dreg .hbmCfg d) v

/-- R463. -/
def State.twCfgWrite (s : State) (v : Word) : State :=
  if s.anyArmed then s.raiseBit (xreg .twStatus) 11 else s.storeReg (xreg .twCfg) v

/-- R658: PROG burns in Manufacturing only; elsewhere it is refused under R649. -/
def State.fuseCtlWrite (s : State) (who : Requester) (v : Word) : State :=
  if bit v 12 then
    if s.secState ≠ 0 then s.refused who (xreg .secFuseCtl).addr 0
    else if s.rdBit (xreg .secFuseCtl) 13 then s
    else
      let s := (s.storeReg (xreg .secFuseCtl) (v &&& ~~~(0x1000 : Word))).wrBit (xreg .secFuseCtl) 13 true
      { s with sec := { s.sec with progDue := some (fld v 11 0, s.rd (xreg .secFuseData)) } }
  else s.storeReg (xreg .secFuseCtl) v

/-- Fuse programming ends (R658): a word that did not verify holds some of the bits (log 1). -/
def State.fuseDone (s : State) (verified : Bool) : State :=
  match s.sec.progDue with
  | none => s
  | some (a, w) =>
    let got := if verified then w else w &&& Config.freeWord s.free a
    let old := ((s.sec.burnt.find? (·.1 = a)).map (·.2)).getD 0
    let s := { s with
      free := s.free + 1
      sec := { s.sec with progDue := none, burnt := (a, old ||| got) :: s.sec.burnt.filter (·.1 ≠ a) } }
    let s := s.wrBit (xreg .secFuseCtl) 13 false
    if verified then s else s.wrBit (xreg .secFuseCtl) 14 true

/-- Retained memory and RST_BACKUP: the host's words (R622). -/
def hostWords (r : Reg) : Bool :=
  match r.name with
  | .retained => decide (0xF000 ≤ r.i * 4)
  | .rstBackup => decide (r.i < 16)
  | _ => true

def die4 (n : Nat) : Die := ⟨n % 16, by omega⟩
def ld4 (n : Nat) : LinkDie := ⟨n % 4, by omega⟩
def fin4 (n : Nat) : Fin 4 := ⟨n % 4, by omega⟩
def fin64 (n : Nat) : Fin 64 := ⟨n % 64, by omega⟩
def fin32 (n : Nat) : Fin 32 := ⟨n % 32, by omega⟩

/-- A write that the access rules and quoins let through, under the register's own rules. -/
def State.ownWrite (s : State) (who : Requester) (r : Reg) (v : Word) : State :=
  match r.name with
  | .htSetLo => s.setLoWrite v
  | .htConfig => s.htConfigWrite v
  | .htNodeId => s.nodeIdWrite v
  | .cdPartition => s.partitionWrite (die4 r.unit) v
  | .tuImpose => s.imposeWrite ⟨die4 r.unit, fin4 r.i, fin64 r.j, none⟩ v
  | .pwrVtab => s.vtabWrite ⟨die4 r.unit, fin4 r.i⟩ (Gear.ofCode r.j) v
  | .secQuoin => s.quoinWrite v
  | .secFuseCtl => s.fuseCtlWrite who v
  | .ldSpareLo => s.ldSpareWrite (ld4 r.unit) false v
  | .ldSpareHi => s.ldSpareWrite (ld4 r.unit) true v
  | .hbmCfg => s.hbmCfgWrite (die4 r.unit) v
  | .twCfg => s.twCfgWrite v
  | .tgCtl =>
    let s := if bit v 7 then s.tgStop (die4 r.unit) (fin32 r.i) 1 else s
    if bit v 6 then s.tgStart (die4 r.unit) (fin32 r.i) v
    else s.storeReg r (v &&& ~~~(0xC0 : Word))
  | .retained => { s with retained := s.retained.write (r.i * 4) (natLe 4 v.toNat) }
  | _ => s.storeReg r v

/-- A whole-word write judged by the register's quoin, then by its own rules (R592). -/
def State.judgedWrite (s : State) (who : Requester) (r : Reg) (v : Word) : State :=
  if r.name.info.wq ≠ 0 ∧ s.rdBit (xreg .secQuoin) r.name.info.quoin then s.refused who r.addr 2
  else s.ownWrite who r v

/-- A write at a BAR0 offset: the grade, the access rules, the quoin, the register's own rules (R581, R592, R649). -/
def State.busWrite (s : State) (who : Requester) (a : Nat) (whole : Bool) (v : Word) : State :=
  if s.busDead who then s else
  if !s.allows who a true then s.refused who a 0 else
  let s := s.noteDebug who true
  if !whole then s.refused who a 1 else
  match regAt (a / 4 * 4) with
  | none => s.refused who a 0
  | some r => if hostWords r || who == .firmware then s.judgedWrite who r v else s.refused who a 0

/-! ### Meanings: the register family -/

def execRegisterWrite (who : Requester) (addr : Nat) (whole : Bool) (v : Word) (s : State) :
    Host.Outcome State Fault Refusal := .next (s.busWrite who addr whole v)

def execRegisterReadClear (who : Requester) (addr : Nat) (s : State) : Host.Outcome State Fault Refusal :=
  .next (s.busRead who addr)

/-- A read of a pair's _LO (R589). -/
def execShadowLoRead (who : Requester) (addr : Nat) (s : State) : Host.Outcome State Fault Refusal :=
  .next (match regAt (addr / 4 * 4) with
    | some r => if r.name.high.isSome then s.busRead who addr else s
    | none => s)

/-- A read of a pair's _HI (R589, R590). -/
def execHiRead (who : Requester) (addr : Nat) (s : State) : Host.Outcome State Fault Refusal :=
  .next (match regAt (addr / 4 * 4) with
    | some r => if r.name.isHigh then s.busRead who addr else s
    | none => s)

def execDebugRead (who : Requester) (addr : Nat) (s : State) : Host.Outcome State Fault Refusal :=
  .next (s.debugRead who addr)

def execHtSetLoWrite (who : Requester) (v : Word) (s : State) : Host.Outcome State Fault Refusal :=
  .next (s.busWrite who (xreg .htSetLo).addr true v)

def execHtConfigWrite (who : Requester) (v : Word) (s : State) : Host.Outcome State Fault Refusal :=
  .next (s.busWrite who (xreg .htConfig).addr true v)

def execHtNodeIdWrite (who : Requester) (v : Word) (s : State) : Host.Outcome State Fault Refusal :=
  .next (s.busWrite who (xreg .htNodeId).addr true v)

def execCdPartitionWrite (who : Requester) (die : Die) (v : Word) (s : State) : Host.Outcome State Fault Refusal :=
  .next (s.busWrite who (dreg .cdPartition die).addr true v)

def execTuImposeWrite (who : Requester) (lu : LU) (v : Word) (s : State) : Host.Outcome State Fault Refusal :=
  .next (s.busWrite who (ureg .tuImpose lu).addr true v)

def execPwrVtabWrite (who : Requester) (rid : RegionId) (gear : Fin 3) (v : Word) (s : State) :
    Host.Outcome State Fault Refusal := .next (s.busWrite who (vtabReg rid (Gear.ofCode gear.val)).addr true v)

def execSecQuoinWrite (who : Requester) (v : Word) (s : State) : Host.Outcome State Fault Refusal :=
  .next (s.busWrite who (xreg .secQuoin).addr true v)

def execSecDebugCtlWrite (who : Requester) (v : Word) (s : State) : Host.Outcome State Fault Refusal :=
  .next (s.busWrite who (xreg .secDebugCtl).addr true v)

def execLdSpareWrite (who : Requester) (k : LinkDie) (high : Bool) (v : Word) (s : State) :
    Host.Outcome State Fault Refusal :=
  .next (s.busWrite who (Reg.addr ⟨if high then .ldSpareHi else .ldSpareLo, k.val, 0, 0⟩) true v)

def execHbmCfgWrite (who : Requester) (die : Die) (v : Word) (s : State) : Host.Outcome State Fault Refusal :=
  .next (s.busWrite who (dreg .hbmCfg die).addr true v)

def execHbmUeAddrHiRead (who : Requester) (die : Die) (s : State) : Host.Outcome State Fault Refusal :=
  .next (s.busRead who (dreg .hbmUeAddrHi die).addr)

def execSecAccessAddrRead (who : Requester) (s : State) : Host.Outcome State Fault Refusal :=
  .next (s.busRead who (xreg .secAccessAddr).addr)

/-- A write of a generator's register 0x00 with START set (R420, R426). -/
def execTgStart (who : Requester) (die : Die) (ch : Fin 32) (v : Word) (s : State) :
    Host.Outcome State Fault Refusal := .next (s.busWrite who (tgReg .tgCtl die ch).addr true (setBit v 6 true))

/-- A write of STOP, `n` accesses into the pass (R426). -/
def execTgStop (who : Requester) (die : Die) (ch : Fin 32) (v : Word) (n : Nat) (s : State) :
    Host.Outcome State Fault Refusal :=
  .next (if s.allows who (tgReg .tgCtl die ch).addr true && !s.busDead who then
      ((s.noteDebug who true).tgStop die ch n).storeReg (tgReg .tgCtl die ch) (v &&& ~~~(0xC0 : Word))
    else s.refused who (tgReg .tgCtl die ch).addr 0)

def execTgRunDone (die : Die) (ch : Fin 32) (s : State) : Host.Outcome State Fault Refusal := .next (s.tgDone die ch)

def execFuseProg (who : Requester) (v : Word) (s : State) : Host.Outcome State Fault Refusal :=
  .next (s.busWrite who (xreg .secFuseCtl).addr true (setBit v 12 true))

def execFuseProgDone (verified : Bool) (s : State) : Host.Outcome State Fault Refusal := .next (s.fuseDone verified)

end Sys2Proof.Machine
end

