-- ==== Sys2Proof/Machine/Data.lean ====
section
/-!
DEFINITION. The time group and the commands on integrity, data, power and the twin (14_host_and_management.md R556,
R563 to R570; 02_hall_time.md R95, R98, R100; 07_training_step.md R317; 10_memory_system.md R414, R420;
13_power_and_thermal.md R530; 11_links_and_twin.md R453, R458).
-/
namespace Sys2Proof.Machine

open Sys2Proof

/-! ### The time group (R556, R563) -/

/-- RUN_AT (R95): accepted, it waits for its tick. -/
def State.runAt (s : State) (q : Req) : State :=
  let p := q.part
  let t := q.at_.getD 0
  if (s.partDies p).isEmpty then s.reply q stBadPart
  else if !(s.part p).armed && !(s.part p).running then s.reply q stNotArmed
  else if (s.runAt? p).isSome then s.reply q stBusy
  else if (s.part p).running then s.reply q stFormeArmed
  else if t % 16384 ≠ 0 then s.reply q stTimeNotBoundary
  else if t < s.now + 65536 then s.reply q stTimeTooSoon
  else if s.htState ≠ htLocked ∧ s.htState ≠ htFree then s.reply q stTimeState
  else if (match (s.part p).proofUntil with
    | some u => decide (t < u)
    | none => false) then s.reply q stTimeTooSoon
  else s.addJob q (.runAt t)

/-- HALT_AT (R98). -/
def State.haltAt (s : State) (q : Req) : State :=
  let p := q.part
  let t := q.at_.getD 0
  if (s.partDies p).isEmpty then s.reply q stBadPart
  else if t % 16384 ≠ 0 then s.reply q stTimeNotBoundary
  else if !(s.part p).armed && !(s.part p).running then s.reply q stNotArmed
  else if t ≤ s.now then s.reply q stTimeTooSoon
  else s.addJob q (.haltAt t)

/-- Whether a tick is one that GEAR_AT may name: a step boundary of the partition's forme, counted from the step that
runs or from the RUN_AT that waits, or a furrow boundary where none is armed (R100). -/
def State.gearBoundary (s : State) (p : Part) (t : Nat) : Bool :=
  let ps := s.part p
  match ps.forme with
  | none => t % 16384 == 0
  | some f =>
    let onStep := fun (t0 : Nat) => decide (t0 ≤ t) && (t - t0) % (f.length * 16384) == 0
    if ps.running then onStep ps.stepStart
    else if ps.armed then (match s.runAt? p with
      | some t0 => onStep t0
      | none => false)
    else t % 16384 == 0

/-- GEAR_AT (R100). -/
def State.gearCommand (s : State) (q : Req) (gear : Nat) : State :=
  let p := q.part
  let t := q.at_.getD 0
  let g := Gear.ofCode gear
  if 2 < gear then s.reply q stBadParam
  else if (s.partDies p).isEmpty then s.reply q stBadPart
  else if !s.gearBoundary p t then s.reply q stTimeNotBoundary
  else if (match (s.part p).forme with
    | some f => !f.hasGear g
    | none => false) then s.reply q stNoVariant
  else if t < s.now + 65536 then s.reply q stTimeTooSoon
  else if (s.gearAts p).any fun e => decide (e.1 < t + 32768 ∧ t < e.1 + 32768) then s.reply q stTimeConflict
  else (s.addJob q (.gearAt t g)).syncGear p

/-- The tick at which a pending command comes due. -/
def Job.due (j : Job) : Nat :=
  match j.kind with
  | .runAt t | .haltAt t | .gearAt t _ | .held _ t => t
  | _ => 0

/-- Whether a slot of the same kind as the sender's has an index. -/
def Src.slotIs (mine other : Src) (slot : Nat) : Bool :=
  match mine, other with
  | .host _, .host i => i.val == slot
  | .sideband _, .sideband i => i.val == slot
  | _, _ => false

/-- CANCEL (R563). -/
def State.cancel (s : State) (q : Req) (slot : Nat) (tag : Half) : State :=
  let top := match q.src with
    | .sideband _ => 8
    | _ => 64
  if top ≤ slot then s.reply q stBadParam else
  let hit : Job → Bool := fun j => j.pending && q.src.slotIs j.req.src slot && j.req.tag == tag && decide (s.now < j.due)
  match s.host.jobs.find? hit with
  | none => s.reply q stNotPending
  | some j => ((s.endJobs hit stCancelled).syncGear j.req.part).reply q stOk

/-! ### SNAPSHOT (R317) -/

/-- Whether a snapshot buffer of a partition is still being shipped (R317, R319): a send stream has bytes of it to move, or
a DMA_READ of it is under way. -/
def State.shipping (s : State) (p : Part) (b : SnapBuf) : Bool :=
  let mine := s.partDies p
  let overlaps := fun (a n : Nat) => decide (a < b.base + b.len ∧ b.base < a + n)
  (s.host.streams.any fun t => t.send && decide (t.moved < t.length) && t.dies.any mine.contains
      && (if t.more.isEmpty then overlaps (t.addr + t.moved) (t.length - t.moved) else overlaps t.addr t.share))
    || s.host.jobs.any fun j => match j.kind with
      | .dmaRead x _ _ => x.space == 1 && mine.any (·.val == x.die) && overlaps x.offset x.length
      | _ => false

def State.snapshot (s : State) (q : Req) (step : Word) (variant : Nat) (ship : Bool) (stream : Half) (ports : Nat) :
    State :=
  let p := q.part
  if (s.partDies p).isEmpty then s.reply q stBadPart
  else if ship && decide (2 ^ 49 ≤ ports) then s.reply q stBadParam
  else match (s.part p).forme with
  | none => s.reply q stNotArmed
  | some f =>
    if !(s.part p).armed && !(s.part p).running then s.reply q stNotArmed else
    match (f.variants[variant]?).bind fun v => if v.kind == .snapshot then v.snap else none with
    | none => s.reply q stNoVariant
    | some b =>
      if s.shipping p b
          || (ship && (s.host.streams.any (·.id = stream) || decide (16 ≤ s.host.streams.length))) then
        s.reply q stBusy
      else (s.modPart p fun ps => { ps with
          snaps := ps.snaps ++ [⟨q, step, variant, ship, stream, ports, s.now, false, false⟩] }).addJob q .snapshot

/-! ### Integrity -/

/-- The free spares of the dies that a FIELD_PROOF names, which it tests (R491). -/
def State.proofSpares (s : State) (mask : Half) : List PU :=
  (allRegions.filter fun r => mask.toNat.testBit r.d.val).flatMap s.freeSpares

/-- FIELD_PROOF (R491): 64 furrows, on the spares free now. -/
def State.fieldProof (s : State) (q : Req) (mask : Half) : State :=
  s.addJob q (.fieldProof mask (s.elapsed + 64 * 16384) (s.proofSpares mask))

/-- A FENCE's record (R566). -/
def State.fenceRecord (s : State) (react die region index : Nat) (p : Option Part) (suspect : Bool) : State :=
  s.record ⟨die, 0x23, 0, react, region, index, p, suspect, false, 0⟩

/-- FENCE (R498, R566): of a block already fallow it writes its record and changes nothing else (R500). -/
def State.fenceCommand (s : State) (q : Req) (level die region pos : Nat) : State :=
  let noted := fun (t : State) (react die region index : Nat) (p : Option Part) =>
    (t.fenceRecord react die region index p (decide (s.susp.length < t.susp.length))).reply q stOk
  if hd : die < 16 then
    let d : Die := ⟨die, hd⟩
    match level with
    | 0 =>
      if h : region < 4 ∧ pos < 66 then
        let u : PU := ⟨d, ⟨region, h.1⟩, ⟨pos, h.2⟩⟩
        noted (s.fence (·.fenceUnit u)) 1 die region pos (s.partOf d)
      else s.reply q stBadParam
    | 1 =>
      if h : region < 4 then
        let r : RegionId := ⟨d, ⟨region, h⟩⟩
        noted (s.fence (·.fenceRegion r)) 2 die region 0xFF (s.partOf d)
      else s.reply q stBadParam
    | 2 =>
      noted (s.fence (·.fenceDie d)) 3 die 0xFF 0xFF (s.partOf d)
    | 3 =>
      if h : die < 4 then
        let k : LinkDie := ⟨die, h⟩
        noted (s.fenceLd k).syncFence 3 (16 + die) 0xFF 0xFF none
      else s.reply q stBadParam
    | _ => s.reply q stBadParam
  else s.reply q stBadParam

/-! ### PROOF_RUN (R565) -/

/-- Operand A or B of a PROOF_RUN as its bytes from `base` give it: element array, then scale array. -/
def proofSide (b : List Byte) (base : Nat) (f : Fmt) (tr sideA : Bool) (k : Nat) : Opnd × Side :=
  let kCols := sideA != tr
  let (rows, cols) := if kCols then (64, k) else (k, 64)
  let r : Reader := fun a => (b[base + a]?).getD 0
  let at_ := fun (i t : Nat) => if kCols then (i, t) else (t, i)
  (⟨some f, tr, rows, cols, 0, 0, 0, 0, none⟩,
    { ty := (f.mtype).getD .bf16, depth := f.depth kCols
      elem := fun i t => f.rawAt r 0 rows cols (at_ i t).1 (at_ i t).2
      scale := fun i t => f.scaleAt r (f.arrayBytes rows cols) rows cols (at_ i t).1 (at_ i t).2 })

/-- The bytes of an operand: element array and scale array (R126 to R132). -/
def proofLen (f : Fmt) (k : Nat) : Nat := f.arrayBytes 64 k + (if f.blockScaled then f.blocks 64 k else 0)

/-- The outlier entries of an operand's tiles from `base`, with their places, and whether one is bad (R172, R209). -/
def proofEntries (b : List Byte) (base : Nat) (o : Opnd) (sideA : Bool) (k : Nat) : List (Nat × Nat × Val) × Bool :=
  let es := (List.range (k / 64)).flatMap fun t => (List.range 256).filterMap fun n =>
    let e := Entry.read (fun a => (b[base + a]?).getD 0) (2048 * t + 8 * n)
    if e.valid then some ((o.entryAt sideA t e).map fun q => (q.1, q.2, bf16 e.value)) else none
  (es.filterMap (fun e => e), es.any Option.isNone)

/-- The group of a PROOF_RUN in its normal mode (R196, R197). -/
def proofNormal (rate : RateClass) (a b : Side) (len k : Nat) (sides : List (Nat × Val)) (init : List Word) :
    Group × AccFlags :=
  let g0 : Group := { Group.reset with cells := init.map fun w => ⟨toF32 (f32 w).flush, 0⟩ }
  let (g, fl) := (List.range (k / len)).foldl (fun (x : Group × AccFlags) n =>
    let (g, f) := promoteRun rate a b len n [] false x.1
    (g, x.2.or f)) (g0, {})
  sides.foldl (promoteSide false) (g, fl)

/-- The proved result (R217, R218). -/
def proofExact (a b : Side) (len k : Nat) (sides : List (Nat × Val)) (init : List Word) : List Word :=
  let acc := init.map fun w => Exact.zero.add (f32 w)
  let acc := (List.range (k / len)).foldl (fun acc n => exactRun a b len n acc) acc
  (sides.foldl (fun (acc : List Exact) q => acc.set q.1 (((acc[q.1]?).getD .zero).add q.2)) acc).map Exact.result

/-- The operation of a PROOF_RUN: the FP32 words, what it raises, whether an outlier entry is bad; `none` where the
array refuses the operands (R237). -/
def proofRunOp (p : ProofParams) (data : List Byte) (proved : Bool) : Option (List Word × AccFlags × Bool) :=
  match Fmt.ofCode p.fmtA.toNat, Fmt.ofCode p.fmtB.toNat with
  | some fa, some fb =>
    let baseB := proofLen fa p.k
    let baseI := baseB + proofLen fb p.k
    let baseOA := baseI + (if p.load then 16384 else 0)
    let baseOB := baseOA + (if p.outA then 2048 * (p.k / 64) else 0)
    let (oa, a) := proofSide data 0 fa p.ta true p.k
    let (ob, b) := proofSide data baseB fb p.tb false p.k
    match pairRate oa ob with
    | none => none
    | some rate =>
      if !extentsOk oa ob then none else
      let len := min a.depth b.depth
      let init := (List.range 4096).map fun i =>
        if p.load then BitVec.ofNat 32 (leNat ((data.drop (baseI + 4 * i)).take 4)) else 0
      let (ea, badA) := if p.outA then proofEntries data baseOA oa true p.k else ([], false)
      let (eb, badB) := if p.outB then proofEntries data baseOB ob false p.k else ([], false)
      let sides := crossProducts a b ea eb
      if proved then some (proofExact a b len p.k sides init, {}, badA || badB)
      else
        let (g, fl) := proofNormal rate a b len p.k sides init
        some (g.cells.map fun c => toF32 c.value, fl, badA || badB)
  | _, _ => none

/-- PROOF_RUN: refused on an armed die, an unmapped unit or a region without power; one whose
cluster's engine is bound, by a group or by an earlier PROOF_RUN of the boundary, is not proved (R216). What the unit's scratchpad holds afterwards is free (log 1). -/
def State.proofRun (s : State) (q : Req) (p : ProofParams) (r : HostRead) : State :=
  if h : p.die < 16 ∧ p.region < 4 ∧ p.cluster < 8 ∧ p.unit < 8 then
    if p.k < 64 ∨ 4096 < p.k then s.reply q stBadParam else
    let u : LU := ⟨⟨p.die, h.1⟩, ⟨p.region, h.2.1⟩, ⟨8 * p.cluster + p.unit, by omega⟩, none⟩
    if s.dieArmed u.d then s.reply q stFormeArmed else
    match s.carrier u, r with
    | none, _ => s.reply q stNoFit
    | some pos, .bytes data =>
      if s.unitFallow pos then s.reply q stNoFit
      else if !s.rdBit (rreg .pwrRegionStat u.region) 4 then s.reply q stBusy
      else
        let bound := (s.clusterS u.cluster).proof.isSome
        let s := if bound then (s.accFlag u accProofCollide).raiseBit (creg .cdProofStat u.cluster) 8 else s
        let g := s.free
        let s := { s with free := g + 1 }.modUnit pos fun x => { x with sp := x.sp.lost (2 ^ 32 * g + pos.index) }
        match proofRunOp p data (!bound) with
        | none => (s.tuFlag u tuFmtBad).reply q stRefused tuFmtBad
        | some (ws, fl, bad) =>
          let s := (s.accFlags u fl).accFlagIf u accOutBad bad
          let s := s.modUnit pos fun x => x.setGroup 0 ⟨.shut, ws.map fun w => ⟨w, 0⟩, List.replicate 4096 .zero⟩
          let s := if bound then s else
            s.modCluster u.cluster fun c => { c with proof := some ⟨u.inCluster, 0, [], false, true⟩ }
          s.addJob q (.proof u.cluster (BitVec.ofNat 16 (if bound then stUnproved else stOk)) p.host
            (ws.flatMap fun w => natLe 4 w.toNat))
    | some _, _ => s.reply q stDmaFault
  else s.reply q stBadParam

/-! ### PAGE_RETIRE (R414) -/

def State.pageRetire (s : State) (q : Req) (die page : Nat) : State :=
  if h : die < 16 then
    let d : Die := ⟨die, h⟩
    if 0xFF000 ≤ page then s.reply q stBadParam
    else if (s.die d).retireRefused page then (s.raiseBit (dreg .hbmStat d) 9).reply q stRefused 9
    else (s.startCopy d page).addJob q (.pageRetire d)
  else s.reply q stBadParam

/-! ### DMA (R567) -/

/-- The far offset of 64 B block `i` of a transfer: `none` where a plain address lies outside the stack's address
space. -/
def DmaParams.block (p : DmaParams) (i : Nat) : Option Nat :=
  let o := p.offset + 64 * i
  if p.space = 1 ∧ 2 ^ 36 ≤ o then none else some o

/-- The status bit that the access of a block would set: 4 REFUSED, 3 PAGE_RANGE, 0 SC_RANGE. -/
def State.dmaBit (s : State) (d : Die) (p : DmaParams) (i : Nat) : Option Nat :=
  if s.dieClosed d then some 4 else
  match p.block i with
  | none => some 3
  | some o =>
    if p.space = 0 then (if cacheSize < o + 64 then some 0 else none)
    else match s.resolve d (o / 64 * 64) with
      | none => some 3
      | some (a, _) => if s.refuses d a then some 4 else none

/-- The number of the first status bit that a transfer sets. -/
def State.dmaDetail (s : State) (d : Die) (p : DmaParams) : Option Nat :=
  (List.range (p.length / 64)).findSome? (s.dmaBit d p)

/-- What a DMA_READ takes from the die. -/
def State.dmaTake (s : State) (d : Die) (p : DmaParams) : State × List Byte :=
  (List.range (p.length / 64)).foldl (fun (acc : State × List Byte) i =>
    match p.block i with
    | none => (acc.1.pageRange d .host, acc.2 ++ List.replicate 64 0)
    | some o =>
      let (s, b) := acc.1.engineRead d (p.space != 0) o 64 .host .linkDie
      (s, acc.2 ++ b)) (s, [])

/-- What a DMA_WRITE puts into the die. -/
def State.dmaPut (s : State) (d : Die) (p : DmaParams) (b : List Byte) : State :=
  (List.range (p.length / 64)).foldl (fun s i =>
    match p.block i with
    | none => s.pageRange d .host
    | some o => s.engineWrite d (p.space != 0) o .host .linkDie ((List.range 64).map fun v => (b[64 * i + v]?).getD 0)) s

/-- Whether a transfer's parameters are in range. -/
def DmaParams.ok (p : DmaParams) : Bool :=
  decide (p.die < 16 ∧ p.space ≤ 2 ∧ p.length % 64 = 0 ∧ p.length ≤ 2 ^ 30)

def State.dma (s : State) (q : Req) (p : DmaParams) (write : Bool) : State :=
  if !p.ok then s.reply q stBadParam else
  let d : Die := die4 p.die
  if s.noHostSlots d then s.reply q stBusy
  else if write then s.addJob q (.dmaWrite p)
  else if s.hostOpen d then
    let bit_ := s.dmaDetail d p
    let (s, b) := s.dmaTake d p
    s.addJob q (.dmaRead p (some b) bit_)
  else s.addJob q (.dmaRead p none none)

/-- Bytes that the package writes to host memory. -/
def State.toHost (s : State) (a : Nat) (b : List Byte) : State :=
  { s with host := { s.host with hostMem := s.host.hostMem ++ [(a, b)] } }

/-- DMA_TRANSFER_DONE: the transfer of a slot's command ends; its reply follows (R549, R567). A PROOF_RUN has held its cluster's
engine until then (R565). At a die with a forme armed the data enter or leave in a slot that the forme reserves, so until then the
transfer is not done (R18); D3hot stops it (R547). -/
def State.transferDone (s : State) (src : Src) (r : HostRead) : State :=
  let done := fun (j : Job) (s : State) (st : Nat) (det : Nat) => s.endJobs (· = j) st det
  let closing := fun (bit_ : Option Nat) => match bit_ with
    | some b => (stRefused, b)
    | none => (stOk, 0)
  let free := fun (s : State) (k : JobKind) => match k with
    | .proof c st _ _ => if st.toNat = stOk then s.modCluster c fun x => { x with proof := x.proof.filter fun e => !e.host } else s
    | _ => s
  if s.host.d3hot then s else
  match s.host.jobs.find? fun j => j.req.src = src with
  | none => s
  | some j =>
    let s := free s j.kind
    match j.kind, r with
    | .dmaRead .., .fault | .dmaWrite _, .fault | .hostWrite .., .fault | .proof .., .fault => done j s stDmaFault 0
    | .dmaRead p (some b) bit_, _ => done j (s.toHost p.host b) (closing bit_).1 (closing bit_).2
    | .dmaRead p none _, _ =>
      if !s.hostOpen (die4 p.die) then s else
      let bit_ := s.dmaDetail (die4 p.die) p
      let (s, b) := s.dmaTake (die4 p.die) p
      done j (s.toHost p.host b) (closing bit_).1 (closing bit_).2
    | .dmaWrite p, .bytes b =>
      if !s.hostOpen (die4 p.die) then s else
      let bit_ := s.dmaDetail (die4 p.die) p
      done j (s.dmaPut (die4 p.die) p b) (closing bit_).1 (closing bit_).2
    | .dmaWrite _, .forme _ => s
    | .hostWrite st det a b, _ => done j (s.toHost a b) st.toNat det.toNat
    | .proof _ st a b, _ => done j (s.toHost a b) st.toNat 0
    | _, _ => s

/-! ### Streams (R569) -/

def State.streamOpen (s : State) (q : Req) (p : StreamParams) : State :=
  if 1 < p.dir ∨ 16 ≤ p.die ∨ 1 < p.target ∨ 2 ^ 49 ≤ p.ports then s.reply q stBadParam
  else if s.host.streams.any (·.id = p.id) || decide (16 ≤ s.host.streams.length) then s.reply q stBusy
  else
    let ports := (List.finRange 49).filter fun i => p.ports.testBit i.val
    let t : BulkStream := ⟨p.id, p.dir == 1, die4 p.die, p.target, p.addr, p.length, ports, p.first, 0, p.first, 0, [], [], []⟩
    { s with host := { s.host with streams := s.host.streams ++ [t] } }.reply q stOk

def State.streamClose (s : State) (q : Req) (id : Half) : State :=
  match s.host.streams.find? (·.id = id) with
  | none => s.reply q stBadParam
  | some t =>
    { s with host := { s.host with streams := s.host.streams.filter (·.id ≠ id) } }.reply q stOk 0
      (natLe 8 t.moved ++ natLe 8 t.highest)

/-! ### Power and energy (R530, R567) -/

def State.capSet (s : State) (q : Req) (watts : Nat) : State :=
  let p := q.part
  if watts ≠ 0 ∧ (watts < 200 ∨ 4000 < watts) then s.reply q stBadParam
  else if (s.partDies p).isEmpty then s.reply q stBadPart
  else
    let s := s.endJobs (fun j => decide (j.req.part = p) && (match j.kind with
      | .cap _ => true
      | _ => false)) stCancelled
    ((s.wrFld (preg .pwrCap p) 28 16 watts).wrBit (preg .pwrCap p) 31 true).addJob q (.cap watts)

/-- The ENERGY_READ result (R567). -/
def State.energyBytes (s : State) : List Byte :=
  let a := s.power.acc
  natLe 8 (microjoules a.input) ++ natLe 8 (microjoules a.unassigned)
    ++ (a.part.flatMap fun e => natLe 8 (microjoules e)) ++ (a.dom.flatMap fun e => natLe 8 (microjoules e))
    ++ s.power.jobEnd.flatMap fun e => natLe 4 e.job.toNat ++ natLe 4 e.first.toNat ++ natLe 4 e.last.toNat
        ++ natLe 4 0 ++ natLe 8 e.energy ++ natLe 8 0

/-! ### The twin (R453, R458, R463) -/

def State.twinMode (s : State) (q : Req) (mode : Nat) : State :=
  if 1 < mode then s.reply q stBadParam
  else if s.anyArmed then s.reply q stFormeArmed
  else (s.wrBit (xreg .twCfg) 0 (mode == 1)).reply q stOk

def State.twinDetach (s : State) (q : Req) : State := (s.sendMsg [48] 0 0 (.detach true)).addJob q .detach

/-! ### Settings (R570) -/

/-- The default of a key. -/
def settingDefault (k : Half) : Option Word :=
  match k.toNat with
  | 1 => some 921600
  | 2 => some 1
  | 3 => some 0
  | 4 => some 0
  | 5 => some 6
  | _ => none

/-- Whether a key takes a value. -/
def settingOk (k : Half) (v : Word) : Bool :=
  match k.toNat with
  | 1 => v == 115200 || v == 460800 || v == 921600 || v == 1843200
  | 2 => decide (v.toNat ≤ 1)
  | 3 => decide (v.toNat ≤ 2)
  | 4 => decide (-128 ≤ v.toInt ∧ v.toInt ≤ 127)
  | 5 => decide (1 ≤ v.toNat ∧ v.toNat ≤ 255)
  | _ => false

def State.setting (s : State) (k : Half) : Word :=
  ((s.fw.settings.find? (·.1 = k)).map (·.2)).getD ((settingDefault k).getD 0)

def State.settingsGet (s : State) (q : Req) (k : Half) : State :=
  match settingDefault k with
  | none => s.reply q stBadParam
  | some d => s.reply q stOk 0 (natLe 4 (s.setting k).toNat ++ natLe 4 d.toNat)

/-- MON_BAUD and MON_ECHO as they are set come into force (R570). -/
def State.monSettings (s : State) : State :=
  { s with mon := { s.mon with baud := s.setting 1, echo := s.setting 2 != 0 } }

/-- SETTINGS_SET (R570). -/
def State.settingsSet (s : State) (q : Req) (k : Half) (v : Word) : State :=
  if !settingOk k v then s.reply q stBadParam
  else
    let s := { s with fw := { s.fw with settings := (k, v) :: s.fw.settings.filter (·.1 ≠ k) } }.reply q stOk
    if k = 1 ∨ k = 2 then s.monSettings else s

/-! ### TRAFFIC_GEN (R420, R426) -/

/-- A STOP ends a pass at an access that the spec does not fix (log 1). -/
def State.tgStopFree (s : State) (d : Die) (c : Fin 32) : State :=
  let n := (Config.freeWord s.free c.val).toNat % (s.rdFld (tgReg .tgLen d c) 25 0 + 1)
  s.tgStop d c n

def State.trafficGen (s : State) (q : Req) (p : TgParams) : State :=
  if h : p.die < 16 then
    let d : Die := ⟨p.die, h⟩
    let mine := (List.finRange 32).filter fun c => bit p.channels c.val
    if p.stop then
      let s := { mine.foldl (fun s c => s.tgStopFree d c) s with free := s.free + 1 }
      s.reply q stOk 0 (s.tgResults d)
    else
      let s := mine.foldl (fun s c =>
        let s := ((s.storeReg (tgReg .tgBase d c) p.base).storeReg (tgReg .tgLen d c) p.length).storeReg
          (tgReg .tgSeed d c) p.seed
        s.tgStart d c ((p.mode &&& 0x3F).setWidth 32 ||| 0x40)) s
      if mine.any fun c => !s.rdBit (tgReg .tgCtl d c) 9 then s.reply q stRefused 10
      else if mine.isEmpty then s.reply q stOk 0 (s.tgResults d)
      else s.addJob q (.traffic d p.channels)
  else s.reply q stBadParam

/-! ### TELEMETRY_READ (R568) -/

/-- The bytes of a step report (R320). -/
def StepReport.bytes (r : StepReport) (p : Part) : List Byte :=
  natLe 4 r.job.toNat ++ natLe 4 r.step.toNat ++ natLe 1 p.val ++ natLe 1 r.variant
    ++ natLe 1 (r.committed.toNat + 2 * r.incomplete.toNat + 4 * r.stale.toNat + 8 * r.promoted.toNat) ++ natLe 1 0
    ++ natLe 4 r.loc.toNat ++ natLe 4 r.hall.toNat ++ natLe 8 r.energy ++ natLe 2 r.tensors.length
    ++ List.replicate 34 0
    ++ r.tensors.flatMap fun e => natLe 2 e.1 ++ natLe 2 0 ++ e.2.flatMap fun w => natLe 4 w.toNat

/-- The bytes of a drop report (R390). -/
def DropReport.bytes (r : DropReport) (p : Part) : List Byte :=
  natLe 4 r.job.toNat ++ natLe 4 r.step.toNat ++ natLe 1 p.val ++ natLe 1 r.incomplete.toNat
    ++ natLe 2 r.lines.length ++ natLe 4 r.badKey.toNat
    ++ r.lines.flatMap fun e => natLe 2 e.1 ++ natLe 2 0 ++ natLe 4 e.2.toNat

/-- The data of a selector; a report that has not been formed is empty. -/
def State.telemetry (s : State) (p : Part) (selector index count : Nat) : List Byte :=
  let word := fun (r : Reg) => natLe 4 (s.view r).toNat
  match selector with
  | 0 => ((s.part p).report.map (·.bytes p)).getD []
  | 1 => ((s.part p).dropReport.map (·.bytes p)).getD []
  | 2 => (List.range count).flatMap fun i => s.retained.bytes ((index + i) % 256 * 32) 32
  | 3 => allDies.flatMap fun d => word (dreg .hbmTemp d) ++ word (dreg .pwrTj d)
  | 4 => [xreg .htStatus, xreg .htOffset, xreg .htDelay, preg .htVlocal p, preg .htVhall p, preg .htVstep p,
      preg .htVflags p].flatMap word
  | _ => (allLinkDies.flatMap fun k => (List.finRange 50).flatMap fun n => word (lreg .ldLaneStat ⟨k, n⟩))
      ++ allLinkDies.flatMap fun k => (List.range 13).flatMap fun i => word ⟨.ldPortStat, k.val, i, 0⟩

def State.telemetryRead (s : State) (q : Req) (selector index count host : Nat) : State :=
  if 5 < selector ∨ (selector = 2 ∧ (256 ≤ index ∨ 256 < count)) then s.reply q stBadParam
  else if (selector = 0 ∨ selector = 1 ∨ selector = 4) ∧ (s.partDies q.part).isEmpty then s.reply q stBadPart
  else
    let b := s.telemetry q.part selector index count
    if host ≠ 0 then s.addJob q (.hostWrite 0 0 host b)
    else s.reply q stOk (if 4096 < b.length then 1 else 0) (b.take 4096)

end Sys2Proof.Machine
end

