-- ==== Sys2Proof/Machine/FwImage.lean ====
section
/-!
DEFINITION. Firmware images: containers, decrypted images, deltas and their checks (16_reset_boot_firmware.md R625 to R628).
-/
namespace Sys2Proof.Machine

open Sys2Proof

/-! ### A decrypted full image (R626) -/

def imageVersion (b : List Byte) : List Byte := b.take 16
def imageSvn (b : List Byte) : Word := BitVec.ofNat 32 (leNat ((b.drop 16).take 4))
def imageCodeLen (b : List Byte) : Nat := leNat ((b.drop 20).take 8)
def imageDigest (b : List Byte) : List Byte := (b.drop 28).take 64
def imageKey (b : List Byte) : List Byte := (b.drop 92).take 133
def imageCode (b : List Byte) : List Byte := (b.drop 256).take (imageCodeLen b)
def imageSig (b : List Byte) : List Byte := (b.drop (256 + imageCodeLen b)).take 132

/-- The length that an image's header states: header, code and signature. -/
def imageLength (b : List Byte) : Nat := 256 + imageCodeLen b + 132

/-- The checks of an image that is decrypted, in the order of R628: the signing key, the code digest and signature (DETAIL 3;
so is an image whose length is not what its header states, log 13), and the SVN (DETAIL 4). -/
def imageFault (b : List Byte) : Option Nat :=
  if Config.sha512 (imageKey b) != Config.firmwareDigest then some 3
  else if b.length != imageLength b || Config.sha512 (imageCode b) != imageDigest b
      || !Config.verifies (imageKey b) (Config.sha512 (b.take (256 + imageCodeLen b))) (imageSig b) then some 3
  else if (imageSvn b).toNat < Config.svnMin.toNat then some 4
  else none

/-! ### Deltas (R627) -/

/-- The records of a delta executed in order on the active image `src`; `none` where a record is none of R627's or reaches
beyond the source or the body (log 13). `n` bounds the records. -/
def runDelta (src : List Byte) : Nat → List Byte → List Byte → Option (List Byte)
  | 0, _, _ => none
  | n + 1, body, out =>
    match body with
    | [] => none
    | k :: rest =>
      if k = 0 then some out
      else if k = 1 then
        let off := leNat (rest.take 4)
        let len := leNat ((rest.drop 4).take 4)
        if rest.length < 8 ∨ src.length < off + len then none
        else runDelta src n (rest.drop 8) (out ++ (src.drop off).take len)
      else if k = 2 then
        let len := leNat (rest.take 4)
        if rest.length < 4 + len then none
        else runDelta src n (rest.drop (4 + len)) (out ++ (rest.drop 4).take len)
      else none

/-- The image that a delta's body yields, if it has the length its own header states. -/
def rebuilt (src body : List Byte) : Option (List Byte) :=
  (runDelta src (body.length + 1) body []).filter fun b => b.length == imageLength b

/-! ### The container in the staging area (R625, R628) -/

/-- Whether the container passes the first check: MAGIC, FORMAT and BODY_LEN with the staged extent, without a gap. -/
def FwS.containerOk (f : FwS) : Bool :=
  let magic := leNat (f.staging.bytes 0 4)
  let len := leNat (f.staging.bytes 40 8)
  (magic == 0x465A5753 || magic == 0x445A5753) && leNat (f.staging.bytes 4 4) == 1
    && decide (f.extents.foldl (fun m e => max m (e.1 + e.2)) 0 = 96 + len)
    && (f.extents.all fun e => e.1 == 0 || f.extents.any fun g => decide (g.1 < e.1 ∧ e.1 ≤ g.1 + g.2))
    && f.extents.any (·.1 == 0)

/-- The container's body, decrypted, where its tag is right. -/
def FwS.opened (f : FwS) : Option (List Byte) :=
  let m := f.staging
  Config.gcmOpen (m.bytes 48 12) (m.bytes 0 64) (m.bytes 96 (leNat (m.bytes 40 8))) (m.bytes 64 16)

/-- The BASE of a delta; `none` for a full image. -/
def FwS.deltaBase (f : FwS) : Option (List Byte) :=
  if leNat (f.staging.bytes 0 4) = 0x445A5753 then some (f.staging.bytes 24 16) else none

/-- The image that the firmware runs: of the active slot, or the one that the ROM loader started, which is in no slot
(R609). -/
def FwS.running (f : FwS) : List Byte := if f.loaderImage then f.loaded else (f.images[f.active.toNat]?).getD []

/-- The image that a decrypted body yields: itself, or what a delta on the active version rebuilds. -/
def FwS.yields (f : FwS) (version body : List Byte) : Option (List Byte) :=
  match f.deltaBase with
  | none => some body
  | some base => if base = version then rebuilt f.running body else none

/-- The image checks in their order, and the image that passes them (R628). -/
def FwS.check (f : FwS) (version : List Byte) : ImageCheck :=
  if !f.containerOk then .fails 5 else
  match f.opened with
  | none => .fails 1
  | some body => match f.yields version body with
    | none => .fails 2
    | some b => match imageFault b with
      | some d => .fails d
      | none => .passes b

/-- Whether a slot holds an image that passes its checks (R610): its container decrypts, and the image is as R628 asks. -/
def FwS.slotOk (f : FwS) (i : Bool) : Bool :=
  let b := (f.images[i.toNat]?).getD []
  (f.sound[i.toNat]?).getD false && !b.isEmpty && (imageFault b).isNone

end Sys2Proof.Machine
end

