-- ==== Sys2Proof/Machine/Security.lean ====
section
/-!
DEFINITION. The security enclave (17_security_states.md R637 to R657): the colophon, attestation, transitions, SPDM.
-/
namespace Sys2Proof.Machine

open Sys2Proof

/-! ### The colophon (R653) -/

/-- VERSION of the firmware that runs: an image that the ROM loader started is in no slot (R609). -/
def State.activeVersion (s : State) : List Byte :=
  if s.fw.loaderImage then imageVersion s.fw.loaded else (s.fw.versions[s.fw.active.toNat]?).getD []

/-- VERSION in the other slot. -/
def State.otherVersion (s : State) : List Byte := (s.fw.versions[1 - s.fw.active.toNat]?).getD []

def State.colophon (s : State) : List Byte :=
  natLe 4 Config.enterprise.toNat ++ natLe 2 0x0C25 ++ natLe 1 Config.revision.toNat
    ++ natLe 1 (s.rdFld (xreg .secState) 4 0 % 32 / 16 * 16 + s.rdFld (xreg .secState) 3 3 * 8
      + s.rdFld (xreg .secState) 2 2 * 4 + s.secState)
    ++ padTo 16 Config.serial ++ padTo 16 s.activeVersion ++ padTo 16 s.otherVersion
    ++ natLe 4 s.fw.svn.toNat ++ natLe 4 Config.svnMin.toNat ++ padTo 16 Config.romVersion
    ++ padTo 64 Config.idkDigest ++ natLe 2 Config.vtabSet.toNat ++ natLe 2 Config.hbmSet.toNat
    ++ List.replicate 108 0

/-! ### Attestation (R654) -/

/-- Whether IDK can sign: not in Vendor-Return (R646). -/
def State.canSign (s : State) : Bool := !s.sec.idkGone && s.secState != 3

/-- The digest of a measurement index. -/
def State.measurement (s : State) (i : Nat) : List Byte :=
  padTo 64 (
    if i = 0 then Config.romDigest
    else if i = 1 then Config.sha512 (imageCode s.fw.running)
    else if i = 2 then
      Config.sha512 (natLe 4 (s.rd (xreg .secState)).toNat ++ natLe 4 (s.rd (xreg .secQuoin)).toNat)
    else if i = 3 then Config.fusedDigest
    else match (s.part ⟨(i - 4) % 8, by omega⟩).forme with
      | some f => f.digest
      | none => [])

def State.measurementRecord (s : State) (i : Nat) : List Byte := natLe 4 i ++ s.measurement i

/-- ATTEST: the results, signed where IDK can sign. -/
def State.attest (s : State) (q : Req) (nonce : List Byte) (mask : Word) : State :=
  if 2 ^ 12 ≤ mask.toNat then s.reply q stBadParam else
  let ms := (List.range 12).filter mask.toNat.testBit
  let body := s.colophon ++ padTo 32 nonce ++ natLe 4 mask.toNat ++ natLe 4 ms.length ++ ms.flatMap s.measurementRecord
  let sig := if s.canSign then padTo 132 (Config.signature s.free (Config.sha512 body)) else List.replicate 132 0
  { s with free := s.free + 1 }.reply q stOk (if s.canSign then 0 else 1) (body ++ sig)

/-! ### Transitions (R640 to R646) -/

/-- The fuses and the Owner-Debug bit as SEC_STATE shows them (R638). -/
def State.syncSec (s : State) : State :=
  let st := if s.sec.owner then 2 else s.sec.fused.toNat
  (s.wrFld (xreg .secState) 1 0 st).wrBit (xreg .secState) 3 s.sec.tampered

/-- A new challenge is drawn (R642). -/
def State.drawChallenge (s : State) : State :=
  let n := s.sec.draws + 1
  let s := { s with sec := { s.sec with draws := n } }
  (List.range 4).foldl (fun s i => s.wr ⟨.secChal, 0, i, 0⟩ (Config.challenge n i)) s

/-- The entry effects of Vendor-Return but for the clearing of HBM (R644, R646). -/
def State.vendorReturn (s : State) : State :=
  let s := { s with sec := { s.sec with fused := 3, owner := false, idkGone := true, revoked := true } }
  let s := { s with dies := ⟨allDies.map fun d =>
    (d, { s.die d with cache := .empty, blanks := [], cacheBad := [] })⟩ }
  let s := (List.range 16).foldl (fun s i => s.wr ⟨.rstBackup, 0, i, 0⟩ 0) s
  let s := { s with retained := s.retained.write 0xF000 (List.replicate 4096 0) }
  s.wrBit (xreg .secState) 2 true

/-- Every stack is written with zero (R646); the spare pages with it (log 14). -/
def State.clearStacks (s : State) : State :=
  { s with dies := s.dies.mapVals fun _ x => { x with hbm := .empty, syms := [] } }

/-- The states a transition may lead to, and whose key authorises it (R640): `some true` the vendor's, `some false` the
owner's, `none` nobody's. -/
def secPath (from_ to_ : Nat) : Option (Option Bool) :=
  match from_, to_ with
  | 0, 1 => some (some true)
  | 1, 2 => some (some false)
  | 2, 1 => some none
  | 1, 3 => some (some true)
  | 2, 3 => some (some true)
  | _, _ => none

/-- The 34 bytes a transition's signature covers (R642). -/
def State.secMessage (s : State) (target : Nat) : List Byte :=
  padTo 16 Config.serial ++ natLe 1 s.secState ++ natLe 1 target
    ++ (List.range 4).flatMap fun i => natLe 4 (s.rd ⟨.secChal, 0, i, 0⟩).toNat

/-- The DETAIL that the enclave refuses a transition with (R642, R646). -/
def State.secRefusal (s : State) (target : Nat) (key sig : List Byte) (vendor : Bool) : Option Nat :=
  if s.secState = 0 ∧ !Config.ownerFused s.sec.burnt then some 2
  else if Config.sha512 key ≠ (if vendor then Config.vendorDigest else Config.ownerDigest s.sec.burnt) then some 2
  else if !vendor && s.sec.revoked then some 2
  else if !Config.verifies key (Config.sha512 (s.secMessage target)) sig then some 1
  else none

/-- A transition takes effect (R640, R643, R646). A session on the TAP beyond the new grade ends (R649). -/
def State.secEnter (s : State) (target : Nat) : State :=
  match target with
  | 1 => { s with sec := { s.sec with
      fused := if s.secState = 0 then s.sec.fused ||| 1 else s.sec.fused, owner := false, tapReset := true } }.syncSec
  | 2 => { s with sec := { s.sec with owner := true } }.syncSec
  | _ => (s.vendorReturn.clearStacks).syncSec

/-- SEC_TRANSITION (R641); a new challenge is drawn after each, done or refused (R642). -/
def State.secTransition (s : State) (q : Req) (target : Nat) (key sig : List Byte) : State :=
  let done := fun (s : State) (st det : Nat) => (s.drawChallenge).reply q st det
  if s.anyArmed then done s stFormeArmed 0
  else if s.powerState ≠ 1 ∧ s.powerState ≠ 3 then done s stBusy 0
  else match secPath s.secState target with
    | none => done s stDeniedSecurity 3
    | some none => if (key ++ sig).all (· == 0) then done (s.secEnter target) stOk 0 else done s stBadParam 0
    | some (some vendor) => match s.secRefusal target key sig vendor with
      | some d => done s stDeniedSecurity d
      | none => done (s.secEnter target) stOk 0

/-- TAMPER (R644): the package latches; TAMPERED is fused, and Vendor-Return is the state of the next power-up. -/
def State.tamper (s : State) : State :=
  if s.power.mode = .off then s else
  let s := s.latch 2 false
  let s := { s.vendorReturn with sec := { s.vendorReturn.sec with tampered := true } }
  s.wrBit (xreg .secState) 3 true

/-! ### SPDM (R655): message codes and layouts PRESUMED from SPDM 1.3 (log 15) -/

def State.spdmOut (s : State) (o : SbOut) : State := { s with sb := { s.sb with out := s.sb.out ++ [o] } }

/-- Whether the transport answers: the sideband with a dynamic address, DOE with the endpoint on power (R571, R547). -/
def State.spdmUp (s : State) (doe : Bool) : Bool :=
  if doe then s.power.mode == .on else s.power.mode != .off && s.sb.addr.isSome

def State.spdmPhase (s : State) (doe : Bool) : Nat := if doe then s.sb.doePhase else s.sb.phase

def State.setPhase (s : State) (doe : Bool) (n : Nat) : State :=
  { s with sb := if doe then { s.sb with doePhase := n } else { s.sb with phase := n } }

def State.spdmError (s : State) (doe : Bool) (code : Nat) : State := s.spdmOut (.spdm doe 0x7F (natLe 2 code))

def spdmInvalid : Nat := 1
def spdmUnexpected : Nat := 4
def spdmUnspecified : Nat := 5

/-- A request that needs the negotiation to have come as far as `n`. -/
def State.spdmAfter (s : State) (doe : Bool) (n : Nat) (f : State → State) : State :=
  if !s.spdmUp doe then s
  else if s.spdmPhase doe < n then s.spdmError doe spdmUnexpected
  else f s

def State.getVersion (s : State) (doe : Bool) : State :=
  s.spdmAfter doe 0 fun s => (s.setPhase doe 1).spdmOut (.spdm doe 0x04 (natLe 2 0x1300))

/-- Certificates, challenges and signed measurements; no sessions. -/
def State.getCapabilities (s : State) (doe : Bool) : State :=
  s.spdmAfter doe 1 fun s => (s.setPhase doe 2).spdmOut (.spdm doe 0x61 (natLe 4 0x16))

/-- The only algorithms: ECDSA P-521 and SHA-512, where the request offers them. -/
def State.negotiate (s : State) (doe p521 sha512 : Bool) : State :=
  s.spdmAfter doe 2 fun s => (s.setPhase doe 3).spdmOut
    (.spdm doe 0x63 (natLe 4 (if p521 then 0x100 else 0) ++ natLe 4 (if sha512 then 4 else 0)))

def State.getDigests (s : State) (doe : Bool) : State :=
  s.spdmAfter doe 3 fun s => s.spdmOut (.spdm doe 0x01 (natLe 1 1 ++ padTo 64 (Config.sha512 Config.certChain)))

def State.getCertificate (s : State) (doe : Bool) (slot offset length : Nat) : State :=
  s.spdmAfter doe 3 fun s =>
    let all := Config.certChain
    if slot ≠ 0 ∨ all.length ≤ offset then s.spdmError doe spdmInvalid else
    let b := (all.drop offset).take length
    s.spdmOut (.spdm doe 0x02 (natLe 1 0 ++ natLe 2 b.length ++ natLe 2 (all.length - offset - b.length) ++ b))

/-- A signed answer: an IDK signature over the body and the request's nonce. -/
def State.spdmSigned (s : State) (doe : Bool) (code : Byte) (body nonce : List Byte) : State :=
  if !s.canSign then s.spdmError doe spdmUnspecified else
  let sig := padTo 132 (Config.signature s.free (Config.sha512 (body ++ padTo 32 nonce)))
  { s with free := s.free + 1 }.spdmOut (.spdm doe code (body ++ sig))

def State.challenge (s : State) (doe : Bool) (slot : Nat) (nonce : List Byte) : State :=
  s.spdmAfter doe 3 fun s =>
    if slot ≠ 0 then s.spdmError doe spdmInvalid
    else s.spdmSigned doe 0x03 (natLe 1 0 ++ padTo 64 (Config.sha512 Config.certChain)) nonce

/-- Measurement block `i + 1` carries the digest of index `i`; 0 asks for the count, 255 for all. -/
def State.getMeasurements (s : State) (doe : Bool) (index : Nat) (signed : Bool) (nonce : List Byte) : State :=
  s.spdmAfter doe 3 fun s =>
    let blocks := fun (l : List Nat) => l.flatMap fun i => natLe 1 (i + 1) ++ s.measurement i
    let body := if index = 0 then some (natLe 1 12)
      else if index = 255 then some (natLe 1 12 ++ blocks (List.range 12))
      else if index ≤ 12 then some (natLe 1 1 ++ blocks [index - 1])
      else none
    match body with
    | none => s.spdmError doe spdmInvalid
    | some b => if signed then s.spdmSigned doe 0x60 b nonce else s.spdmOut (.spdm doe 0x60 b)

/-! ### MCTP control, private transfers, DOE discovery (R547, R571, R647) -/

def State.sidebandUp (s : State) : Bool := s.power.mode != .off && s.sb.addr.isSome

/-- An MCTP control message: endpoint id, versions, message types; every other code is not supported (log 15). -/
def State.mctpControl (s : State) (m : MctpReq) : State :=
  if !s.sidebandUp then s else
  match m with
  | .setEid e => { s with sb := { s.sb with eid := e } }.spdmOut (.control 1 [0, 0, e, 0])
  | .getEid => s.spdmOut (.control 2 [0, s.sb.eid, 0, 0])
  | .other c =>
    if c = 4 then s.spdmOut (.control 4 [0, 1, 0xF1, 0xF3, 0xF1, 0])
    else if c = 5 then s.spdmOut (.control 5 [0, 2, 0x05, 0x7F])
    else s.spdmOut (.control c [5])

def State.privateWrite (s : State) (offset : Nat) (data : Option Word) : State :=
  if !s.sidebandUp then s else
  let s := { s with sb := { s.sb with offset := offset } }
  match data with
  | some v => s.busWrite .sideband offset true v
  | none => s

def State.privateRead (s : State) : State :=
  if !s.sidebandUp then s else
  let t := s.busRead .sideband s.sb.offset
  t.spdmOut (.word t.busOut)

def State.addressAssigned (s : State) (a : BitVec 7) : State :=
  if s.power.mode = .off then s else { s with sb := { s.sb with addr := some a } }

/-- DOE Discovery lists Discovery itself and CMA/SPDM; numbers PRESUMED from the PCIe specification (log 15). -/
def State.doeDiscovery (s : State) (index : Byte) : State :=
  if s.power.mode ≠ .on then s
  else if index = 0 then s.spdmOut (.doe 1 0 1)
  else if index = 1 then s.spdmOut (.doe 1 1 0)
  else s.spdmOut (.doe 0xFFFF 0 0)

end Sys2Proof.Machine
end

