-- ==== Sys2Proof/Machine/Firmware.lean ====
section
/-!
DEFINITION. Resets, boot, firmware update (16_reset_boot_firmware.md R602 to R636), the removal of the supply
(19_electrical_mechanical.md R671).
-/
namespace Sys2Proof.Machine

open Sys2Proof

/-! ### The slot state (R623, R635) -/

/-- RST_FW and RST_FW_VER show the slot state and the image that runs. -/
def State.syncFw (s : State) : State :=
  let s := (s.wrBit (xreg .rstFw) 0 s.fw.active).wrBit (xreg .rstFw) 1 s.fw.trial
  let v := padTo 16 s.activeVersion
  (List.range 4).foldl (fun s i => s.wr ⟨.rstFwVer, 0, i, 0⟩ (BitVec.ofNat 32 (leNat ((v.drop (4 * i)).take 4)))) s

def State.modFw (s : State) (f : FwS → FwS) : State := { s with fw := f s.fw }

/-- The slot state as a read of the flash gives it: ACTIVE, TRIAL, the versions (R622, R623). -/
def FwS.slotState (f : FwS) : List Byte := natLe 1 f.active.toNat ++ natLe 1 f.trial.toNat ++ f.versions.flatten

/-- The firmware that starts reads the slot state (R622). -/
def State.readSlots (s : State) : State := s.modFw fun f => { f with shown := f.slotState }

/-- A line of the boot log, 64 B, in a ring of 256 (R622). -/
def State.bootLine (s : State) (b : List Byte) : State :=
  s.modFw fun f => { f with bootlog := ((f.bootlog ++ [padTo 64 b]).drop (f.bootlog.length + 1 - 256)) }

def State.setStage (s : State) (g : BootStage) : State := { s with power := { s.power with stage := g } }

/-- Boot stops (R608): a line, BOOT_FAIL. -/
def State.bootFail (s : State) : State := (s.bootLine (Config.bootLine 0)).raiseBit (xreg .rstFw) 6

/-! ### What a reset clears and keeps (R580, R603) -/

/-- How much of the always-on domains a reset keeps: nothing, what a brown-out keeps, what PERST# keeps. -/
inductive Keeps where
  | nothing | brownOut | perst
  deriving DecidableEq, Repr

/-- Registers that a cold reset after a brown-out or a fundamental reset keeps: the place in the fault ring that retained
memory holds, RST_BACKUP, DEBUG_SEEN; the fundamental reset also the counts that cold alone clears (R667) and the
challenge. -/
def Keeps.reg (k : Keeps) (n : RegName) : Bool :=
  match k, n with
  | .nothing, _ => false
  | _, .rstFaultNext | _, .rstBackup | _, .secState => true
  | .perst, .rstFaultCnt | .perst, .rstWdogCnt | .perst, .secChal => true
  | _, _ => false

/-- The boots counted in flash, holding at the top (R634). -/
def State.countBoot (s : State) : State := s.modFw fun f => { f with boots := satAdd32 f.boots 1 }

/-- The package as a reset leaves it, before boot. -/
def State.afterReset (s : State) (k : Keeps) (stage : BootStage) : State :=
  let kept := k != .nothing
  let g := s.free
  let t : State := { State.reset with
    pending := s.pending
    free := g + 2
    dies := lostDies g
    links := { LinkS.reset with framingOnly := true }
    regs := s.regs.drop fun r => !k.reg r.name
    retained := if kept then s.retained else .empty
    power := { PowerS.reset with stage := stage }
    host := { HostS.reset with hostMem := s.host.hostMem }
    sb := if kept then { s.sb with slots := s.sb.slots.map fun m => if m.any (·.taken) then none else m } else .reset
    fw := { s.fw with
      pause := none, trialFrom := none, warm := none, block := none, loaderImage := false
      bootlog := if kept then s.fw.bootlog else [], shown := if kept then s.fw.shown else []
      warmCount := if k = .perst then s.fw.warmCount else 0 }
    sec := { s.sec with progDue := none, tapReset := true }
    straps := s.straps }
  (t.modReg (xreg .secState) fun w => w &&& 4).syncSec.countBoot

/-- COLD_RESET: 72 V rises through 68.4 V where it was absent or browned out, or the sequence has just begun
(R602, R606, R608, R671). -/
def State.coldReset (s : State) (st : Straps) : State :=
  let p := s.power
  if p.mode = .off then
    { s.afterReset .nothing .rom with straps := st }
  else if p.mode = .standby ∧ p.brownOut then
    { s.afterReset .brownOut .rom with straps := st }.wrBit (xreg .rstCause) 3 true
  else if p.mode = .standby ∧ p.stage = .rom then { s with straps := st }
  else s

/-- FUNDAMENTAL_RESET: PERST# asserted; running formes halt without commit (R602, R603). A latched package stays
latched (R502); in Standby, but for a reset under way, PERST# is ignored (19_electrical_mechanical.md R680). -/
def State.fundamental (s : State) : State :=
  if s.power.mode = .off ∨ s.power.mode = .latched ∨ s.power.brownOut ∨ (s.power.mode = .standby ∧ s.power.stage = .failed)
  then s else
  (s.afterReset .perst .perst).wrFld (xreg .rstCause) 2 0 1

/-- PERST_RELEASE: the straps are sampled and the boot sequence runs (R606, R608). -/
def State.perstRelease (s : State) (st : Straps) : State :=
  if s.power.mode = .standby ∧ s.power.stage = .perst then { s with straps := st }.setStage .rom else s

/-- SUPPLY_REMOVAL (R671): everything but fuses and flash is lost. -/
def State.supplyRemoval (s : State) : State :=
  let s := { s with sec := { s.sec with owner := false } }
  let t := s.afterReset .nothing .failed
  { t with
    fw := { t.fw with boots := s.fw.boots }
    power := { t.power with mode := .off } }

/-! ### Boot (R606 to R610, R621, R645) -/

/-- The blocks of the fallow list are fenced again (R621). -/
def State.refence (s : State) : State :=
  let l := s.fw.fallow
  let s := l.dies.foldl (fun s d => s.fence (·.fenceDie d)) s
  let s := l.regions.foldl (fun s r => s.fence (·.fenceRegion r)) s
  let s := l.units.foldl (fun s u => s.fence (·.fenceUnit u)) s
  (l.lds.foldl (fun s k => s.fenceLd k) s).syncFence

/-- The remap tables from the retired-page lists (R415, R624). -/
def State.reloadPages (s : State) : State :=
  allDies.foldl (fun s d =>
    let mine := (s.fw.retired.filter (·.1 = d)).map (·.2)
    let s := s.modDie d fun x => { x with
      remap := (mine.filter fun e => !e.badSpare).map fun e => (e.page, e.spare)
      badSpares := (mine.filter (·.badSpare)).map (·.spare) }
    s.wrFld (dreg .hbmRetire d) 12 0 (s.die d).remap.length) s

/-- The PHYs of the stacks train, and repair what lanes they must (10_memory_system.md R397): which, no rule says (log 1). -/
def State.trainStacks (s : State) : State :=
  let g := s.free
  allDies.foldl (fun s d => s.modDie d fun x => { x with repairs := Config.freeWord g d.val }) { s with free := g + 1 }

/-- The quoins that boot sets (R645). -/
def bootQuoins (st : Nat) : Word :=
  match st with
  | 0 => 0
  | 1 => 0x1F
  | _ => 0x0C

/-- The settings that take effect at reset (R570). -/
def State.bootSettings (s : State) : State :=
  let s := (s.wrFld (xreg .htConfig) 1 0 (s.setting 3).toNat).wrFld (xreg .htConfig) 17 10
    ((s.setting 4).toNat % 256)
  (allDies.foldl (fun s d => s.wrFld (dreg .hbmCfg d) 7 0 (s.setting 5).toNat) s).monSettings

/-- The image of a slot starts: it comes from flash (R606, R635). -/
def State.startSlot (s : State) (active : Bool) : State :=
  ((s.modFw fun f => { f with
    active := active, loaderImage := false, svn := imageSvn ((f.images[active.toNat]?).getD []) }).syncFw.wrFld
      (xreg .rstStrap) 6 5 0).readSlots

/-- The firmware row of R608 from flash (R610): `ok` says which slots pass. Neither: BOOT_FAIL and the ROM loader. -/
def State.bootFlash (s : State) (ok : Bool → Bool) (next : BootStage) : State :=
  let a := s.fw.active
  if ok a then (s.startSlot a).setStage next
  else
    let s := s.raiseBit (xreg .rstFw) 5
    if ok (!a) then
      (({ s with fw := { s.fw with active := !a, trial := false } }).startSlot (!a)).setStage next
    else s.bootFail.setStage .loader

/-- The package reaches Idle: Hall Time acquires, lanes train, the pins follow RST_LATCH and RST_REPLACE (R607, R608,
R447); the REPLACEs that fences of the sequence queued go on waiting (R505), and the input's band shows (R513). -/
def State.bootDone (s : State) : State :=
  let s := { s with
    links := { LinkS.reset with queue := s.links.queue, nextSeq := s.links.nextSeq }
    power := { s.power with mode := .on, stage := .done } }
  let s := allLinkDies.foldl (fun s k => (List.finRange 50).foldl (fun s n =>
    s.wrFld (lreg .ldLaneStat ⟨k, n⟩) 2 0 (if s.fen.lds.contains k then lnDown else lnTrain)) s) s
  let s := s.wrFld (xreg .twStatus) 2 0 1
  let s := s.setReplace (s.replaceCauses + ((s.rd (xreg .rstReplace)).toNat &&& 0x30))
  let s := (s.bootLine ("ready".toList.map fun c => BitVec.ofNat 8 c.toNat)).inputBand
  let s := { s with mon := { s.mon with out := s.mon.out ++ [MonOut.prompt] } }
  s.modFw fun f => { f with trialFrom := if f.trial then some s.elapsed else none }

/-- One stage of the boot sequence ends in its time (R608). -/
def State.bootStep (s : State) : State :=
  match s.power.stage with
  | .rom =>
    let v := (s.straps.clkMode.toNat * 4 + s.straps.bootSrc.toNat)
    let s := (s.wrFld (xreg .rstStrap) 3 0 v).wr (xreg .rstBoots) s.fw.boots
    (if s.straps.bootSrc = 3 then s.raiseBit (xreg .rstStrap) 4 else s).setStage .selftest
  | .selftest =>
    let s := if s.rdFld (xreg .rstCause) 2 0 = 0 then s.drawChallenge else s
    s.syncSec.setStage .firmware
  | .firmware =>
    let src := s.straps.bootSrc
    if src = 1 ∨ src = 2 then (s.wrFld (xreg .rstStrap) 6 5 src.toNat).setStage .loader
    else s.bootFlash s.fw.slotOk .domains
  | .domains => ((allDies.foldl (fun s d => s.syncDomains d) s).startHall).setStage .hbm
  | .hbm => ((s.reloadPages.trainStacks).refence).setStage .quoins
  | .quoins => ((s.bootSettings).wr (xreg .secQuoin) (bootQuoins s.secState)).bootDone
  | _ => s

/-- Whether the boot sequence runs. -/
def State.booting (s : State) : Bool :=
  s.power.mode == .standby && (match s.power.stage with
    | .rom | .selftest | .firmware | .domains | .hbm | .quoins => true
    | _ => false)

/-- BOOT_STAGE_TIMEOUT (R608). -/
def State.bootTimeout (s : State) : State := if s.booting then s.bootFail.setStage .failed else s

/-! ### Staging (R625 to R629) -/

/-- The image checks of what is staged (R628). -/
def State.imageCheck (s : State) : ImageCheck := s.fw.check (padTo 16 s.activeVersion)

/-- An FW_ACTIVATE that waits or runs. -/
def State.activating (s : State) : Bool :=
  s.fw.pause.isSome || s.host.jobs.any fun j => match j.kind with
    | .held .fwActivate _ | .fwActivate => true
    | _ => false

/-- The data of an FW_STAGE goes to its offset; offset 0 discards what was staged. -/
def State.stage (s : State) (offset : Nat) (b : List Byte) : State :=
  let s := if offset = 0 then
      (s.modFw fun f => { f with staging := .empty, extents := [] }).wrBit (xreg .rstFw) 2 false
    else s
  s.modFw fun f => { f with staging := f.staging.write offset b, extents := f.extents ++ [(offset, b.length)] }

/-- FW_STAGE (R629). -/
def State.fwStage (s : State) (q : Req) (source : Nat) (last : Bool) (offset : Nat) (r : HostRead) : State :=
  if 1 < source then s.reply q stBadParam
  else if s.rdBit (xreg .rstFw) 3 || s.activating then s.reply q stBusy
  else match r with
    | .bytes b =>
      if 2 ^ 24 < offset + b.length ∨ (source = 1 ∧ 4032 < b.length) then s.reply q stBadParam else
      let s := s.stage offset b
      if last then (s.wrBit (xreg .rstFw) 3 true).addJob q .fwCheck else s.reply q stOk
    | _ => s.reply q stDmaFault

/-- FW_STAGE_CHECK_DONE: the checks end; an image that passes, full or rebuilt, is stored in the inactive slot (R628, R629). -/
def State.fwChecked (s : State) (iv : List Byte) : State :=
  if !s.rdBit (xreg .rstFw) 3 || s.power.mode != .on || s.fw.warm.isSome then s else
  let mine : Job → Bool := fun j => j.kind == .fwCheck
  let s := s.wrBit (xreg .rstFw) 3 false
  match s.imageCheck with
  | .fails d => s.endJobs mine stFwBad d
  | .passes b =>
    let i := 1 - s.fw.active.toNat
    let s := s.modFw fun f => { f with
      versions := f.versions.set i (imageVersion b), images := f.images.set i b, sound := f.sound.set i true,
      ivs := f.ivs.set i iv }
    (s.wrBit (xreg .rstFw) 2 true).endJobs mine stOk

/-- Every command that is TAKEN or pending is answered CANCELLED (R603, R605, R611). -/
def State.cancelTaken (s : State) : State :=
  let s := (s.endJobs (fun _ => true) stCancelled).clearPending
  let s := (List.finRange 64).foldl (fun s i =>
    if s.slotState i.val = 2 then
      s.reply (readPacket (.host i) (s.host.window.bytes (cmdSlot i.val) 0x2000) (.bytes [])).1 stCancelled
    else s) s
  (List.finRange 8).foldl (fun s j => match s.sb.slots[j.val]? with
    | some (some m) => if m.taken then s.reply (readPacket (.sideband j) m.bytes (.bytes [])).1 stCancelled else s
    | _ => s) s

/-! ### Activation (R630 to R633) -/

/-- The activation pause begins: the staged slot is ACTIVE on trial and the processors restart into it. -/
def State.beginActivation (s : State) (q : Req) : State :=
  let s := s.modFw fun f => { f with
    active := !f.active, trial := true, loaderImage := false, pause := some s.now, trialFrom := some s.elapsed }
  let s := (s.syncFw.readSlots.wrFld (xreg .rstCause) 2 0 5).wrFld (xreg .rstStrap) 6 5 0
  (s.wrBit (xreg .rstFw) 2 false).addJob q .fwActivate

/-- FW_ACTIVATE as it is collected: `due` is its AT. -/
def State.fwActivate (s : State) (q : Req) (due : Option Nat) : State :=
  if !s.rdBit (xreg .rstFw) 2 then s.reply q stFwBad 8
  else if s.activating then s.reply q stBusy
  else match due with
    | some t => if s.now < t then s.addJob q (.held .fwActivate t) else s.beginActivation q
    | none => s.beginActivation q

def fwTrialTicks : Nat := 250000000

/-- FW_TRIAL_CONFIRM: the new firmware, whose own settings FORMAT is `format`, clears TRIAL and answers (R631); PAUSED
clears at the next furrow boundary. -/
def State.trialConfirm (s : State) (format : Nat) : State :=
  match s.fw.trialFrom with
  | none => s
  | some t =>
    if !s.fw.trial || s.power.mode != .on || decide (t + fwTrialTicks ≤ s.elapsed) then s else
    let differs := s.fw.format != format
    let s := if differs then
        (s.modFw fun f => { f with
          settings := ([1, 2, 3, 4, 5] : List Half).map fun k => (k, (settingDefault k).getD 0)
          format := format }).raiseBit (xreg .rstFw) 4
      else s
    let s := (s.startSlot s.fw.active).modFw fun f => { f with
      trial := false, trialFrom := none, ownFormat := format, pause := f.pause.map fun _ => s.now }
    s.syncFw.endJobs (fun j => j.kind == .fwActivate) stOk (if differs then 1 else 0) (padTo 16 s.activeVersion)

/-- FW_TRIAL_TIMEOUT: the watchdog fires and the slot state returns to the previous slot (R632); as at every watchdog reset it is
counted, and what is pending besides the FW_ACTIVATE is cancelled (R605, R615). -/
def State.trialTimeout (s : State) : State :=
  match s.fw.trialFrom with
  | none => s
  | some t =>
    if !s.fw.trial || s.power.mode != .on || decide (s.elapsed < t + fwTrialTicks) then s else
    let s := (s.startSlot (!s.fw.active)).modFw fun f => { f with
      trial := false, trialFrom := none, pause := f.pause.map fun _ => s.now }
    let s := (s.syncFw.wrFld (xreg .rstCause) 2 0 6).count (xreg .rstWdogCnt) 1
    ((s.endJobs (fun j => j.kind == .fwActivate) stFwBad 7).cancelTaken).wrBit (xreg .rstFw) 3 false

/-- Once TRIAL is clear the pause ends at the next furrow boundary (R631): the reports that waited are posted. -/
def State.pauseEnd (s : State) : State :=
  match s.fw.pause with
  | some t => if !s.fw.trial && s.tickIn = 0 && decide (t < s.now) then (s.modFw fun f => { f with pause := none }).dueReports
      else s
  | none => s

/-! ### Warm reset (R604, R611 to R614) and watchdog (R605, R615) -/

/-- WARM_RESET at the boundary it is handled: formes halt, are unloaded and disarmed; the links carry framing and
tramlines only. -/
def State.warmReset (s : State) (q : Req) : State :=
  if s.fw.pause.isSome || s.fw.comesDue || s.fw.block.isSome then s.reply q stBusy else
  let s := allParts.foldl (fun s p =>
    let s := if (s.part p).armed || (s.part p).running then s.haltPart p else s
    s.unload p) s
  let cause := match q.src with
    | .host _ => 2
    | _ => 3
  let s := (s.wrFld (xreg .rstCause) 2 0 cause).countBoot
  let s := s.wr (xreg .rstBoots) s.fw.boots
  let s := s.modLinks fun k => { k with silenced := true }
  let s := { s with host := { s.host with jobs := s.host.jobs.map fun (j : Job) => { j with kind := .void } } }
  let s := s.clearPending
  (s.modFw fun f => { f with warm := some ⟨s.elapsed, false, false⟩, warmCount := f.warmCount + 1 }).addJob q .warm

/-- 16,384 ticks on: the execution state of every compute die is reset; the stacks, SEL and HSEL, CD_STEP, the input
ring and the energy counters stay (R611, R612), as do the registers, the monitor banks and audit records among them (R580); no
provisional event stands any more (R475). -/
def State.warmBlocks (s : State) (w : WarmRun) : State :=
  let g := s.free
  let s := s.prov.foldl (fun s e => s.wrBit (ureg .tuChk e.unit) 2 false) s
  let s := { s with
    free := g + 1
    units := .empty
    clusters := .empty
    prov := []
    replays := []
    susp := []
    dies := ⟨allDies.map fun d =>
      let x := s.die d
      (d, { x with
        cache := x.cache.lost (16 * g + d.val), blanks := [], cacheBad := [], banks := [], digest := 0
        delivered := none, upd := .reset, red := .reset })⟩ }
  let s := allDies.foldl (fun s d => (List.finRange 32).foldl (fun s c =>
    if s.rdBit (tgReg .tgCtl d c) 9 then s.wrBit (tgReg .tgCtl d c) 9 false else s) s) s
  s.modFw fun f => { f with warm := some { w with reset := true } }

/-- 75,000,000 ticks on: the active image is verified again and the firmware processors start (R611); where no slot passes
the ROM loader runs (R610). An image that the loader took in is not in flash. -/
def State.warmVerify (s : State) : State :=
  let s := s.modFw fun f => { f with warm := f.warm.map fun w => { w with verified := true } }
  if s.fw.loaderImage then s else s.bootFlash s.fw.slotOk .done

/-- The warm reset ends: OK for it, CANCELLED for the other commands; the links fill slots again. -/
def State.warmEnd (s : State) : State :=
  let s := s.endJobs (fun j => j.kind == .warm) stOk
  let s := ((s.cancelTaken).wrBit (xreg .rstFw) 3 false).modLinks fun k => { k with silenced := false }
  { s with fw := { s.fw with warm := none }, host := { s.host with streams := [] } }

/-- What a warm reset does as its ticks pass. -/
def State.warmTick (s : State) : State :=
  match s.fw.warm with
  | none => s
  | some w =>
    let s := if !w.reset && decide (w.start + 16384 ≤ s.elapsed) then s.warmBlocks w else s
    let s := if !w.verified && decide (w.start + 75000000 ≤ s.elapsed) then s.warmVerify else s
    if w.start + 187500000 ≤ s.elapsed ∧ s.power.stage = .done then s.warmEnd else s

/-- WATCHDOG_EXPIRY: the four firmware processors restart from memory where the digest is right, else from flash (R605, R610,
R615). In an activation pause the watchdog is suspended until the new firmware has `refreshed` it. -/
def State.watchdog (s : State) (digestOk refreshed : Bool) : State :=
  if s.power.mode ≠ .on ∨ (s.fw.pause.isSome ∧ !refreshed) ∨ s.fw.warm.isSome then s else
  let s := (s.count (xreg .rstWdogCnt) 1).wrFld (xreg .rstCause) 2 0 4
  let s := (s.cancelTaken).wrBit (xreg .rstFw) 3 false
  if digestOk then s else
  s.bootFlash s.fw.slotOk .done

/-! ### The ROM loader (R609, R610) -/

/-- Whether the loader listens to a source: slot 0 of the host, the sideband, or both after BOOT_FAIL. -/
def State.loaderHears (s : State) (src : Src) : Bool :=
  let both := s.straps.bootSrc != 1 && s.straps.bootSrc != 2
  match src with
  | .host i => i.val == 0 && (both || s.straps.bootSrc == 1)
  | .sideband _ => both || s.straps.bootSrc == 2
  | .monitor => false

/-- ROM_LOADER: a packet as the loader answers it. The image it starts keeps its settings under its own FORMAT. -/
def State.romLoader (s : State) (q : Req) (c : Cmd) (format : Nat) : State :=
  if s.power.stage ≠ .loader ∨ s.power.mode = .off ∨ s.power.mode = .latched ∨ !s.loaderHears q.src then s else
  match c with
  | .fwStage source last offset r =>
    if decide (1 < source) || (source == 0 && q.src.isSideband) then s.reply q stBadParam else
    (match r with
      | .bytes b =>
        if 2 ^ 24 < offset + b.length then s.reply q stBadParam else
        let s := s.stage offset b
        if !last then s.reply q stOk else
        (match s.imageCheck with
          | .fails d => s.reply q stFwBad d
          | .passes b => ((s.modFw fun f => { f with loaded := b }).wrBit (xreg .rstFw) 2 true).reply q stOk)
      | _ => s.reply q stDmaFault)
  | .fwActivate =>
    if q.at_.isSome then s.reply q stTimeState
    else if !s.rdBit (xreg .rstFw) 2 then s.reply q stFwBad 8
    else
      let s := (s.modFw fun f => { f with
        loaderImage := true, svn := imageSvn f.loaded, ownFormat := format }).syncFw
      let s := s.wrFld (xreg .rstStrap) 6 5 (if q.src.isSideband then 2 else 1)
      let s := s.wrBit (xreg .rstFw) 2 false
      let next := if s.power.mode = .on then BootStage.done else .domains
      (s.setStage next).reply q stOk 0 (padTo 16 s.activeVersion)
  | .bad st => s.reply q st.toNat
  | .secTransition _ _ _ => s.drawChallenge.reply q stBusy
  | _ => s.reply q stBusy

/-! ### BLOCK_RESET (R616 to R620) -/

/-- The dies a block stands on. -/
def blockDies (level target : Nat) : List Die :=
  if level = 0 then [⟨target / 4 % 16, by omega⟩]
  else if level = 1 then [⟨target % 16, by omega⟩]
  else []

/-- Registers that a region owns (R580), but for its holding counters (R667). -/
def RegName.ofRegion : RegName → Bool
  | .tuAccStat | .tuStat | .tuChk | .tuAudit | .tuRegionStat | .tuRegionLag | .tuRegionRpl | .cdProofStat | .cdDrillStat
  | .cdRakeStat | .pwrRegionStat | .pwrVtab => true
  | _ => false

/-- Registers that the reset of their block keeps: of a die the imposition, which R620 goes by, the fallow bits of CD_FAULT,
the voltage table, which a cold or fundamental reset alone returns to the fuses (R521), and the counters that hold until the events
that R667 names (DEDUCED, log 25), of TU_AUDIT its TOTAL; of a link die the lane counters (R460). -/
def RegName.keptByBlock : RegName → Bool
  | .tuImpose | .cdFault | .pwrVtab | .hbmRetire | .tuAudit | .pwrDroopCyc | .pwrCapCyc | .pwrDroopEv | .hbmCeCnt | .hbmUeCnt
  | .hbmRefuseCnt | .hbmScrubPass | .scCeCnt | .cdRedGleanCnt | .cdRedExhCnt | .cdRedMismCnt | .cdRedNanCnt | .cdRedUnfCnt
  | .tgErr | .tgPass | .ldLaneCw | .ldLaneUcw | .ldLaneBlank => true
  | _ => false

/-- Whether a block reset returns a register to its Reset value (R580). -/
def Reg.inBlock (r : Reg) (level target : Nat) : Bool :=
  if r.name.keptByBlock then false
  else if level = 0 then r.name.info.window == .cd && r.unit == target / 4 && r.i == target % 4 && r.name.ofRegion
  else if level = 1 then r.name.info.window == .cd && r.unit == target
  else r.name.info.window == .ld && r.unit == target

/-- What a block reset leaves of a register that it keeps in part. -/
def Reg.leftInBlock (r : Reg) (level target : Nat) (w : Word) : Word :=
  match r.name with
  | .tuAudit => if (blockRegions level target).contains r.lu.region then w &&& 0xFFFF0000 else w
  | .cdFault => if level = 1 ∧ r.unit = target then w &&& 0x2F else w
  | _ => w

/-- The block is reset (R618, R620). -/
def State.resetBlock (s : State) (level target : Nat) : State :=
  let rs := blockRegions level target
  let g := s.free
  let s := { s with
    free := g + 1
    regs := (s.regs.drop fun r => r.inBlock level target).mapVals fun r w => r.leftInBlock level target w
    units := s.units.drop fun u => rs.contains u.region
    lus := s.lus.drop fun u => rs.contains u.region
    clusters := s.clusters.drop fun c => rs.any fun r => decide (r.d = c.d ∧ r.r = c.r)
    replays := s.replays.filter fun e => !rs.contains e.spare.region
    prov := s.prov.filter fun e => !rs.contains e.unit.region }
  let s := if level = 1 then (blockDies level target).foldl (fun s d => s.modDie d fun x => { x with
      cache := x.cache.lost (16 * g + d.val), blanks := [], cacheBad := [], banks := [], digest := 0
      delivered := none, upd := .reset, red := .reset }) s else s
  let s := if level = 2 then
      let k : LinkDie := ⟨target % 4, by omega⟩
      let mine : Port → Bool := fun p => p.val / 12 == k.val
      let s := s.modLinks fun x => { x with
        ports := x.ports.drop mine, send := x.send.drop (mine ·.port), recv := x.recv.drop (mine ·.port)
        spareDue := x.spareDue.filter (·.ld ≠ k), spareHeld := x.spareHeld.set k 0 }
      (List.finRange 50).foldl (fun s n => (s.modLane ⟨k, n⟩ fun _ => .reset).setLane ⟨k, n⟩ lnTrain) s
    else s
  rs.foldl (fun s r => s.wrBit (rreg .pwrRegionStat r) 4 true) s

/-- Whether a block is one that a forme is armed on (R619). -/
def State.blockArmed (s : State) (level target : Nat) : Bool :=
  (blockDies level target).any s.dieArmed
    || (level == 2 && (s.claimantsOf ⟨target % 4, by omega⟩).any fun p => (s.part p).armed || (s.part p).running)

/-- BLOCK_RESET: accepted, its proof runs for 64 furrows from the boundary, in its regions one voltage step below nominal
(R520, R620). -/
def State.blockReset (s : State) (q : Req) (level target : Nat) : State :=
  if 2 < level ∨ (level = 0 ∧ 64 ≤ target) ∨ (level = 1 ∧ 16 ≤ target) ∨ (level = 2 ∧ 4 ≤ target) then
    s.reply q stBadParam
  else if s.blockArmed level target then s.reply q stFormeArmed
  else if s.power.mode = .latched ∨ s.fw.block.isSome ∨ s.fw.pause.isSome ∨ s.fw.comesDue then s.reply q stBusy
  else if (blockDies level target).any fun d => decide (90 < s.rdFld (dreg .pwrTj d) 7 0) then s.reply q stRefused 2
  else
    let s := s.resetBlock level target
    let s := (blockRegions level target).foldl (fun s r => s.proofOn r) s
    let s := s.wr (xreg .rstBlock) (BitVec.ofNat 32 (2 ^ 31 + level * 256 + target))
    let s := (blockDies level target).foldl (fun s d => s.wrBit (dreg .cdIso d) 3 true) s
    (s.modFw fun f => { f with block := some ⟨level, target, s.elapsed⟩ }).addJob q .block

/-! ### Latching sources (R502, R535) -/

/-- A source latches the package where the supply is there. -/
def State.latchIf (s : State) (b : Nat) (atOnce : Bool) : State := if s.power.mode = .off then s else s.latch b atOnce

/-- Overvoltage and converter faults take the power at once. -/
def State.overvolt (s : State) : State := s.latchIf 0 true
def State.pcFault (s : State) (k : Fin 4) : State := s.latchIf (3 + k.val) true
def State.fuseFail (s : State) : State := s.latchIf 1 false

/-- The control die at 105 degrees latches as for TAMPER (R535); the enclave's own measures are for a tamper. -/
def State.controlOvertemp (s : State) : State := s.latchIf 2 false

end Sys2Proof.Machine
end

