-- ==== Sys2Proof/Machine/Commands.lean ====
section
/-!
DEFINITION. How commands come to be handled (14_host_and_management.md R553 to R558, R571 to R573;
17_security_states.md R651): the checks common to all, collection at a furrow boundary, the free-running collection of
the sideband, host writes into the command window.
-/
namespace Sys2Proof.Machine

open Sys2Proof

/-! ### One command -/

/-- A command is carried out. -/
def State.perform (s : State) (q : Req) (c : Cmd) : State :=
  match c with
  | .formeLoad r => s.formeLoad q r
  | .formeArm start cold => s.formeArm q start cold
  | .formeDisarm => s.formeDisarm q
  | .runAt => s.runAt q
  | .haltAt => s.haltAt q
  | .gearAt g => s.gearCommand q g
  | .cancel slot tag => s.cancel q slot tag
  | .snapshot step v ship stream ports => s.snapshot q step v ship stream ports
  | .pageRetire d p => s.pageRetire q d p
  | .dmaRead p => s.dma q p false
  | .dmaWrite p => s.dma q p true
  | .streamOpen p => s.streamOpen q p
  | .streamClose id => s.streamClose q id
  | .fieldProof m => s.fieldProof q m
  | .proofRun p r => s.proofRun q p r
  | .fence l d r p => s.fenceCommand q l d r p
  | .capSet w => s.capSet q w
  | .energyRead => s.reply q stOk 0 s.energyBytes
  | .twinMode m => s.twinMode q m
  | .twinDetach => s.twinDetach q
  | .fwStage src last off r => s.fwStage q src last off r
  | .fwActivate => s.fwActivate q none
  | .settingsGet k => s.settingsGet q k
  | .settingsSet k v => s.settingsSet q k v
  | .warmReset => s.warmReset q
  | .blockReset l t => s.blockReset q l t
  | .attest n m => s.attest q n m
  | .secTransition t k g => s.secTransition q t k g
  | .trafficGen p => s.trafficGen q p
  | .telemetryRead sel i n h => s.telemetryRead q sel i n h
  | .bad st => s.reply q st.toNat

/-- What the sideband refuses of the opcodes it accepts (R573). -/
def Cmd.sidebandOk : Cmd → Bool
  | .fwStage src _ _ _ => src == 1
  | .telemetryRead _ _ _ host => host == 0
  | _ => true

/-- The slot a command was collected from is TAKEN (R554). -/
def State.take (s : State) (src : Src) : State :=
  match src with
  | .host i => s.winWrite (cmdSlot i.val + 60) (natLe 4 2)
  | .sideband j => { s with sb := { s.sb with slots := match s.sb.slots[j.val]? with
      | some (some m) => s.sb.slots.set j.val (some { m with taken := true })
      | _ => s.sb.slots } }
  | .monitor => s

/-- Whether a command's AT bit is as its opcode requires (R556). -/
def Cmd.timeOk (c : Cmd) (q : Req) : Bool :=
  match c with
  | .runAt | .haltAt | .gearAt _ => q.at_.isSome
  | .cancel _ _ => q.at_.isNone
  | _ => true

/-- A command turned away unperformed; a SEC_TRANSITION that is refused, malformed or not, draws a new challenge all the same
(R642). -/
def State.turnAway (s : State) (q : Req) (c : Cmd) (st : Nat) : State :=
  match c with
  | .secTransition _ _ _ => s.drawChallenge.reply q st
  | .bad _ => if q.op = 0x0802 then s.drawChallenge.reply q st else s.reply q st
  | _ => s.reply q st

/-- A collected command: judged by what every opcode is judged by, held for its AT, or carried out. One that waits for its AT is
handled, and counted, only then (R556, R577). -/
def State.handle (s : State) (q : Req) (c : Cmd) : State :=
  let held := s.take q.src
  let s := held.count (xreg .cmdCount) 1
  if q.src.isSideband && !(c.onSideband q.op && c.sidebandOk) then s.reply q stDeniedSideband
  else if s.rdBit (xreg .secState) 4 && !c.inScan then s.turnAway q c stBusy
  else match c with
  | .bad st => s.turnAway q c st.toNat
  | _ =>
    if !c.timeOk q then s.reply q stBadParam
    else if c.timed then s.perform q c
    else match q.at_ with
      | none => s.perform q c
      | some t =>
        if s.now < t then (match c with
          | .fwActivate => s.fwActivate q (some t)
          | _ => held.addJob q (.held c t))
        else s.perform q c

/-- A sideband command where Hall Time does not run (R572, R573). -/
def State.handleLow (s : State) (q : Req) (c : Cmd) : State :=
  let s := (s.take q.src).count (xreg .cmdCount) 1
  if !(c.onSideband q.op && c.sidebandOk) then s.reply q stDeniedSideband
  else match c with
  | .bad st => s.turnAway q c st.toNat
  | _ =>
    if q.at_.isSome || c.timed then s.turnAway q c stTimeState
    else if c.anywhere (s.power.mode == .latched) then s.perform q c
    else s.turnAway q c stBusy

/-! ### Collection (R554 to R556, R630) -/

/-- Whether commands are collected now: the firmware runs, at a furrow boundary, outside a warm reset and an activation
pause; after TRIAL is clear, the pause ends at the first furrow boundary (R631). In a JTAG scan, whose clocks stand,
they are collected at any time (R651, log 16). -/
def State.opens (s : State) : Option State :=
  if s.power.mode != .on || s.power.stage != .done || s.fw.warm.isSome then none
  else if s.tickIn ≠ 0 ∧ !s.rdBit (xreg .secState) 4 then none
  else
    let s := (s.wr (xreg .cmdCollectLo) (half64 false s.now)).wr (xreg .cmdCollectHi) (half64 true s.now)
    let s := s.pauseEnd
    if s.fw.pause.isNone then some s else none

/-- A command that arrives at a collection: a sideband command also where Hall Time does not run. -/
def State.command (s : State) (q : Req) (c : Cmd) : State :=
  match s.opens with
  | some t => t.handle q c
  | none => if s.lowPower && q.src.isSideband && s.sidebandUp && s.power.stage != .loader then s.handleLow q c else s

/-- A command held for its AT comes due: it is handled as if collected now. An FW_ACTIVATE was counted when its conditions were judged
at its collection (R577, R630). -/
def State.dueJob (s : State) (j : Job) : State :=
  match j.kind with
  | .held c t =>
    if s.now < t then s else
    let s := { s with host := { s.host with jobs := s.host.jobs.filter (· ≠ j) } }
    (if c == .fwActivate then s else s.count (xreg .cmdCount) 1).perform j.req c
  | _ => s

/-- PENDING_COMMAND_DUE. -/
def State.pendingDue (s : State) (src : Src) : State :=
  match s.opens with
  | none => s
  | some s => match s.host.jobs.find? fun j => decide (j.req.src = src) && (match j.kind with
      | .held _ _ => true
      | _ => false) with
    | some j => s.dueJob j
    | none => s

/-- Whether a reply slot is found EMPTY at a collection: a write of its RSTATE at the boundary tick counts for the next boundary
(R554). -/
def State.slotEmpty (s : State) (i : Nat) : Bool :=
  s.replyEmpty i && (s.rdBit (xreg .secState) 4 || decide (s.host.wroteAt.getD (64 + i) 0 < max s.elapsed 1))

/-- A READY slot is collected where its reply slot is EMPTY; else REPLY_FULL is set (R554). -/
def State.collectSlot (s : State) (i : Fin 64) (r : HostRead) : State :=
  if s.slotState i.val ≠ 1 then s
  else if !s.slotEmpty i.val then s.raiseBit (xreg .cmdStat) 1
  else
    let (q, c) := readPacket (.host i) (s.host.window.bytes (cmdSlot i.val) 0x2000) r
    s.handle q c

/-- A sideband slot that holds a message not yet taken. -/
def State.collectSideband (s : State) (j : Fin 8) (low : Bool) : State :=
  match s.sb.slots[j.val]? with
  | some (some m) =>
    if m.taken then s else
    let (q, c) := readPacket (.sideband j) m.bytes (.bytes [])
    if low then s.handleLow q c else s.handle q c
  | _ => s

/-- Once a warm reset is accepted, what was collected with it stays TAKEN (R611). -/
def State.collectOne (s : State) (f : State → State) (src : Src) : State :=
  if s.fw.warm.isSome then s.take src else f s

/-- Whether a slot is found READY at a collection: its writes reached XD before the boundary tick (R554). -/
def State.slotReady (s : State) (i : Nat) : Bool :=
  s.slotState i == 1 && (s.rdBit (xreg .secState) 4 || decide (s.host.wroteAt.getD i 0 < max s.elapsed 1))

/-- Whether an FW_ACTIVATE comes due at this collection: a held one, or one of the batch that has what it needs (R630, R633). -/
def State.activates (s : State) (ready : List (Fin 64)) : Bool :=
  let due : Req × Cmd → Bool := fun e => e.2 == .fwActivate && (match e.1.at_ with
    | some t => decide (t ≤ s.now)
    | none => true)
  (s.host.jobs.any fun j => match j.kind with
    | .held .fwActivate t => decide (t ≤ s.now)
    | _ => false)
  || (s.rdBit (xreg .rstFw) 2 && !s.activating
    && ((ready.any fun i => s.replyEmpty i.val
        && due (readPacket (.host i) (s.host.window.bytes (cmdSlot i.val) 0x2000) (.bytes [])))
      || (List.finRange 8).any fun j => match s.sb.slots[j.val]? with
        | some (some m) => !m.taken && due (readPacket (.sideband j) m.bytes (.bytes []))
        | _ => false))

/-- COMMAND_COLLECTION: held commands that are due, then the READY host slots in ascending index, then the sideband
slots; which slots are READY is sampled first. -/
def State.collect (s : State) (data : List (Fin 64 × HostRead)) : State :=
  match s.opens with
  | none => s
  | some s =>
    let ready := (List.finRange 64).filter fun i => s.slotReady i.val
    let s := s.host.jobs.foldl (fun s j => s.dueJob j) (s.modFw fun f => { f with comesDue := s.activates ready })
    let s := ready.foldl (fun s i =>
      let r := ((data.find? (·.1 = i)).map (·.2)).getD (.bytes [])
      if s.slotEmpty i.val then s.collectOne (fun s => s.collectSlot i r) (.host i) else s.collectSlot i r) s
    let s := (List.finRange 8).foldl (fun s j => match s.sb.slots[j.val]? with
      | some (some m) => if m.taken then s else s.collectOne (fun s => s.collectSideband j false) (.sideband j)
      | _ => s) s
    s.modFw fun f => { f with comesDue := false }

/-- SIDEBAND_FREE_COLLECTION, in Standby and Latched (R572). -/
def State.collectFree (s : State) : State :=
  if !s.lowPower || !s.sidebandUp || s.power.stage == .loader then s
  else (List.finRange 8).foldl (fun s j => s.collectSideband j true) s

/-! ### What reaches the slots -/

/-- Whether the host interface answers: its domain is on, or the ROM loader waits for the host (R609, R648). -/
def State.hostUp (s : State) : Bool :=
  s.power.mode == .on || (s.power.mode == .standby && s.power.stage == .loader)

/-- The bytes of a TLP that fall into command slot `i`: dropped with SLOT_BUSY while the slot is TAKEN (R553). -/
def State.slotWrite (s : State) (addr : Nat) (b : List Byte) (i : Nat) : State :=
  let lo := max addr (cmdSlot i)
  let hi := min (addr + b.length) (cmdSlot (i + 1))
  if hi ≤ lo then s
  else if s.slotState i = 2 then s.raiseBit (xreg .cmdStat) 0
  else { s with host := { s.host with wroteAt := s.host.wroteAt.set i s.elapsed } }.winWrite lo ((b.drop (lo - addr)).take (hi - lo))

/-- The size of BAR2; a write at an offset beyond it stands for one into BAR4 (DESIGN CHOICE, log 24: the table has no row for
BAR4). -/
def bar4 : Nat := 0x100000

/-- A write into BAR4: the MSI-X table of 256 entries of 16 B, whose last word's bit 0 masks the entry (PRESUMED, log 24: as PCI
Express defines it); a vector pending in an entry that is unmasked leaves. The pending-bit array is read-only. -/
def State.msixWrite (s : State) (a : Nat) (b : List Byte) : State :=
  let t := s.host.msix.write a (b.take (0x1000 - a))
  let mine := (List.range 256).filter fun n => decide (a ≤ 16 * n + 12 ∧ 16 * n + 12 < a + b.length)
  let u := mine.foldl (fun (u : BitVec 256) n =>
    let bit := BitVec.ofNat 256 (1 <<< n)
    if (t.byte (16 * n + 12)).getLsbD 0 then u &&& ~~~bit else u ||| bit) s.host.unmasked
  if 0x1000 ≤ a then s else
  let s := { s with host := { s.host with msix := t, unmasked := u } }
  if s.host.d3hot then s else { s with host := { s.host with sent := s.host.sent ||| (s.host.pba &&& u), pba := s.host.pba &&& ~~~u } }

/-- HOST_SLOT_WRITE: a posted write into BAR2 (R548, R553, R558), or into BAR4. -/
def State.hostSlotWrite (s : State) (addr : Nat) (b : List Byte) : State :=
  if !s.hostUp then s else
  if bar4 ≤ addr then s.msixWrite (addr - bar4) b else
  let s := (List.range 64).foldl (fun s i => s.slotWrite addr b i) s
  let lo := max addr (replySlot 0)
  let hi := min (addr + b.length) (replySlot 64)
  if hi ≤ lo then s else
  let touched := (List.range 64).filter fun i => decide (lo < replySlot i + 64 ∧ replySlot i + 60 < hi)
  let s := { s with host := { s.host with wroteAt := touched.foldl (fun m i => m.set (64 + i) s.elapsed) s.host.wroteAt } }
  s.winWrite lo ((b.drop (lo - addr)).take (hi - lo))

/-- SIDEBAND_MESSAGE: the lowest free slot takes it; with none free it is discarded (R572). -/
def State.sidebandMessage (s : State) (eid : Byte) (b : List Byte) : State :=
  if !s.sidebandUp then s else
  match s.sb.slots.findIdx? Option.isNone with
  | some i => { s with sb := { s.sb with slots := s.sb.slots.set i (some ⟨eid, b, false⟩) } }
  | none => s.raiseBit (xreg .cmdStat) 4

end Sys2Proof.Machine
end

