-- ==== Sys2Proof/Machine/Monitor.lean ====
section
/-!
DEFINITION. The Balmin monitor (14_host_and_management.md R574 to R576) and the JTAG port (17_security_states.md R647 to
R651).
-/
namespace Sys2Proof.Machine

open Sys2Proof

/-! ### Output and what is allowed -/

def State.print (s : State) (o : List MonOut) : State := { s with mon := { s.mon with out := s.mon.out ++ o } }

def State.monErr (s : State) (w : String) : State := s.print [.err w]

def State.monOk (s : State) (o : List MonOut) : State := s.print (o ++ [.ok])

/-- How far a monitor command reaches: what Standby and Latched run, what BASIC runs, what FULL runs (R576, R647). -/
inductive MonLevel where
  | always | basic | full
  deriving DecidableEq, Repr

/-- Whether the monitor listens: with the supply there, outside an activation pause and a warm reset, and not while a
command of its own still runs (R607, R630). -/
def State.monUp (s : State) : Bool :=
  s.power.mode != .off && s.fw.pause.isNone && s.fw.warm.isNone && !s.mon.waiting

/-- A monitor command under its grade (R576, R649): what Production-Locked would refuse sets DEBUG_SEEN (R652). -/
def State.monitor (s : State) (l : MonLevel) (f : State → State) : State :=
  if !s.monUp then s
  else if s.lowPower then (if l = .always then f s else s.monErr "power")
  else if l = .full then
    (if s.allows .monitor 0 true then f (s.noteDebug .monitor true) else s.monErr "denied")
  else f s

/-! ### The commands (R575) -/

/-- help lists the commands that would run now. -/
def State.monHelp (s : State) : State :=
  s.monitor .always fun s => s.monOk ((if s.lowPower then ["help", "faults", "colophon", "bootlog"]
    else if s.allows .monitor 0 true then
      ["help", "peek", "poke", "sticky", "faults", "time", "tg", "audit", "colophon", "bootlog"]
    else ["help", "faults", "time", "colophon", "bootlog"]).map .word)

/-- peek reads registers in ascending order; RC bits clear. -/
def State.peek (s : State) (addr n : Nat) : State :=
  s.monitor .full fun s =>
    let (s, o) := (List.range n).foldl (fun (acc : State × List MonOut) i =>
      let t := acc.1.busRead .monitor (addr + 4 * i)
      (t, acc.2 ++ [.reg (addr + 4 * i) t.busOut])) (s, [])
    s.monOk o

def State.poke (s : State) (addr : Nat) (v : Word) : State :=
  s.monitor .full fun s => (s.busWrite .monitor addr true v).monOk []

/-- sticky prints the set RC bits of the status registers of a die, or of all dies, and clears nothing. -/
def State.sticky (s : State) (die : Option Nat) : State :=
  s.monitor .full fun s =>
    if (match die with
      | some d => decide (16 ≤ d)
      | none => false) then s.monErr "param" else
    let mine := s.regs.entries.filter fun e => e.1.name.info.rc != 0 && (s.view e.1 &&& e.1.name.info.rc) != 0
      && (match die with
        | some d => e.1.name.info.window == .cd && e.1.unit == d
        | none => true)
    s.monOk (mine.map fun e => .bits e.1.name e.1.unit (s.view e.1 &&& e.1.name.info.rc))

/-- faults prints records of the ring; the last 16 where no range is named. -/
def State.monFaults (s : State) (range : Option (Nat × Nat)) : State :=
  s.monitor .always fun s =>
    let next := s.rdFld (xreg .rstFaultNext) 7 0
    let (i, n) := range.getD ((next + 240) % 256, 16)
    s.monOk ((List.range n).map fun k => .bytes (s.retained.bytes ((i + k) % 256 * 32) 32))

def State.monTime (s : State) : State :=
  s.monitor .basic fun s => s.monOk [.num s.now, .num s.htState, .num (s.rdFld (xreg .htStatus) 10 7),
    .num (s.view (xreg .htOffset)).toNat, .num (s.view (xreg .htDelay)).toNat]

/-- The request of a monitor command that runs an opcode. -/
def monReq (op : Half) : Req := ⟨.monitor, op, 0, none, false, 0, 0, 0, 0⟩

/-- tg runs TRAFFIC_GEN on one channel. -/
def State.monTg (s : State) (die ch mode pat : Nat) (base len seed : Word) : State :=
  s.monitor .full fun s =>
    if s.power.mode ≠ .on ∨ 16 ≤ die ∨ 32 ≤ ch ∨ 4 ≤ mode ∨ 8 ≤ pat then s.monErr "param" else
    let s := { s with mon := { s.mon with waiting := true } }
    s.trafficGen (monReq 0x0901)
      ⟨die, BitVec.ofNat 32 (2 ^ ch), BitVec.ofNat 8 (4 * pat + mode), false, base, len, seed⟩

/-- audit prints the 64 records of a unit and TOTAL (R275). -/
def State.monAudit (s : State) (die region unit : Nat) : State :=
  s.monitor .full fun s =>
    if h : die < 16 ∧ region < 4 ∧ unit < 64 then
      let l : LU := ⟨⟨die, h.1⟩, ⟨region, h.2.1⟩, ⟨unit, h.2.2⟩, none⟩
      let words := (List.range 64).flatMap fun k =>
        let r := (s.lu l).audit.getD k (0, 0, 0, 0)
        [MonOut.num r.1.toNat, .num r.2.1.toNat, .num r.2.2.1.toNat, .num r.2.2.2.toNat]
      s.monOk (words ++ [.num (s.rdFld (ureg .tuAudit l) 31 16)])
    else s.monErr "param"

def State.monColophon (s : State) : State := s.monitor .always fun s => s.monOk [.bytes s.colophon]

def State.monBootlog (s : State) : State := s.monitor .always fun s => s.monOk (s.fw.bootlog.map .bytes)

/-! ### Lines (R574) -/

def asciiOf (w : String) : List Byte := w.toList.map fun c => BitVec.ofNat 8 c.toNat

/-- The words of a line. -/
def wordsOf : List Byte → List Byte → List (List Byte)
  | acc, [] => if acc.isEmpty then [] else [acc]
  | acc, b :: rest =>
    if b = 0x20 then (if acc.isEmpty then wordsOf [] rest else acc :: wordsOf [] rest) else wordsOf (acc ++ [b]) rest

def hexDigit (b : Byte) : Option Nat :=
  let n := b.toNat
  if 48 ≤ n ∧ n ≤ 57 then some (n - 48)
  else if 97 ≤ n ∧ n ≤ 102 then some (n - 87)
  else if 65 ≤ n ∧ n ≤ 70 then some (n - 55)
  else none

/-- A number in hexadecimal, with an optional 0x prefix and underscores. -/
def hexNumber (w : List Byte) : Option Nat :=
  let d := match w with
    | 48 :: 120 :: rest => rest
    | 48 :: 88 :: rest => rest
    | _ => w
  let d := d.filter (· ≠ 95)
  if d.isEmpty then none else d.foldl (fun a b => a.bind fun n => (hexDigit b).map fun x => 16 * n + x) (some 0)

/-- The numbers of a command's arguments. -/
def hexNumbers (l : List (List Byte)) : Option (List Nat) :=
  l.foldr (fun w a => (hexNumber w).bind fun n => a.map fun r => n :: r) (some [])

def w32 (n : Nat) : Word := BitVec.ofNat 32 n

/-- A monitor command by its name and numbers; "err cmd" where there is none of that name and form (log 17). -/
def State.monCommand (s : State) (name : List Byte) (args : List Nat) : State :=
  let bad := s.monitor .always fun s => s.monErr "cmd"
  if name = asciiOf "help" then s.monHelp
  else if name = asciiOf "peek" then (match args with
    | [a] => s.peek a 1
    | [a, n] => s.peek a n
    | _ => bad)
  else if name = asciiOf "poke" then (match args with
    | [a, v] => s.poke a (w32 v)
    | _ => bad)
  else if name = asciiOf "sticky" then (match args with
    | [] => s.sticky none
    | [d] => s.sticky (some d)
    | _ => bad)
  else if name = asciiOf "faults" then (match args with
    | [] => s.monFaults none
    | [i, n] => s.monFaults (some (i, n))
    | _ => bad)
  else if name = asciiOf "time" then s.monTime
  else if name = asciiOf "tg" then (match args with
    | [d, c, m, p, b, l] => s.monTg d c m p (w32 b) (w32 l) 0
    | [d, c, m, p, b, l, k] => s.monTg d c m p (w32 b) (w32 l) (w32 k)
    | _ => bad)
  else if name = asciiOf "audit" then (match args with
    | [d, r, u] => s.monAudit d r u
    | _ => bad)
  else if name = asciiOf "colophon" then s.monColophon
  else if name = asciiOf "bootlog" then s.monBootlog
  else bad

/-- What a line of the monitor does and prints. -/
def State.monAnswer (s : State) (line : List Byte) : State :=
  if 127 < line.length then s.monErr "long"
  else match wordsOf [] line with
    | [] => s
    | w :: rest => match hexNumbers rest with
      | some args => s.monCommand w args
      | none => s.monErr "num"

/-- MONITOR_LINE: a line as it is ended. Its characters are echoed where MON_ECHO is 1 (R570), and the prompt comes once it is
answered, for an empty one at once (R574). -/
def State.monLine (s : State) (line : List Byte) : State :=
  if !s.monUp then s else
  let s := if s.mon.echo then s.print [.echo line] else s
  let s := s.monAnswer line
  if s.mon.waiting then s else s.print [.prompt]

/-! ### JTAG (R647, R648, R651) -/

/-- IDCODE returns SEC_ID and the colophon in every grade. -/
def State.jtagIdcode (s : State) : State :=
  if s.power.mode = .off then s else
  { s with busOut := s.view (xreg .secId), sec := { s.sec with tapOut := s.colophon, tapReset := false } }

/-- A debug-path read, or a write under register rules. -/
def State.jtagAccess (s : State) (addr : Nat) (data : Option Word) : State :=
  if s.power.mode = .off then s else
  match data with
  | some v => s.busWrite .jtag addr true v
  | none => s.debugRead .jtag addr

/-- SCAN in Idle, where the grade is SCAN: every clock but those of the always-on domains stops. -/
def State.jtagScan (s : State) : State :=
  if s.powerState = 1 ∧ (s.secState = 0 ∨ s.secState = 3) ∧ !s.rdBit (xreg .secDebugCtl) 1 then
    (s.noteDebug .jtag true).wrBit (xreg .secState) 4 true
  else s

end Sys2Proof.Machine
end

