-- ==== Sys2Proof/Machine/HostCmds.lean ====
section
/-!
DEFINITION. The meanings of the host commands, of their collection and of what reaches the slots, the sideband, the monitor and the JTAG port (14_host_and_management.md, 17_security_states.md).
-/
namespace Sys2Proof.Machine

open Sys2Proof

/-- FORME_LOAD: its effect (R687). -/
def execFormeLoad (q : Req) (r : FormeRead) (s : State) : Host.Outcome State Fault Refusal :=
  .next (s.command q (.formeLoad r))

/-- FORME_ARM: its effect (R562). -/
def execFormeArm (q : Req) (start : Word) (cold : Bool) (s : State) : Host.Outcome State Fault Refusal :=
  .next (s.command q (.formeArm start cold))

/-- FORME_DISARM: its effect (R562). -/
def execFormeDisarm (q : Req) (s : State) : Host.Outcome State Fault Refusal := .next (s.command q .formeDisarm)

/-- RUN_AT: its effect (R95). -/
def execRunAt (q : Req) (s : State) : Host.Outcome State Fault Refusal := .next (s.command q .runAt)

/-- HALT_AT: its effect (R98). -/
def execHaltAt (q : Req) (s : State) : Host.Outcome State Fault Refusal := .next (s.command q .haltAt)

/-- GEAR_AT: its effect (R100). -/
def execGearAt (q : Req) (gear : Nat) (s : State) : Host.Outcome State Fault Refusal :=
  .next (s.command q (.gearAt gear))

/-- CANCEL: its effect (R563). -/
def execCancel (q : Req) (slot : Nat) (tag : Half) (s : State) : Host.Outcome State Fault Refusal :=
  .next (s.command q (.cancel slot tag))

/-- SNAPSHOT: its effect (R317). -/
def execSnapshot (q : Req) (step : Word) (variant : Nat) (ship : Bool) (stream : Half) (ports : Nat)
    (s : State) : Host.Outcome State Fault Refusal := .next (s.command q (.snapshot step variant ship stream ports))

/-- PAGE_RETIRE: its effect (R413). -/
def execPageRetire (q : Req) (die : Nat) (page : Nat) (s : State) : Host.Outcome State Fault Refusal :=
  .next (s.command q (.pageRetire die page))

/-- DMA_READ: its effect (R567). -/
def execDmaRead (q : Req) (p : DmaParams) (s : State) : Host.Outcome State Fault Refusal :=
  .next (s.command q (.dmaRead p))

/-- DMA_WRITE: its effect (R567). -/
def execDmaWrite (q : Req) (p : DmaParams) (s : State) : Host.Outcome State Fault Refusal :=
  .next (s.command q (.dmaWrite p))

/-- STREAM_OPEN: its effect (R569). -/
def execStreamOpen (q : Req) (p : StreamParams) (s : State) : Host.Outcome State Fault Refusal :=
  .next (s.command q (.streamOpen p))

/-- STREAM_CLOSE: its effect (R569). -/
def execStreamClose (q : Req) (id : Half) (s : State) : Host.Outcome State Fault Refusal :=
  .next (s.command q (.streamClose id))

/-- FIELD_PROOF: its effect (R491). -/
def execFieldProof (q : Req) (mask : Half) (s : State) : Host.Outcome State Fault Refusal :=
  .next (s.command q (.fieldProof mask))

/-- PROOF_RUN: its effect (R565). -/
def execProofRun (q : Req) (p : ProofParams) (data : HostRead) (s : State) : Host.Outcome State Fault Refusal :=
  .next (s.command q (.proofRun p data))

/-- FENCE: its effect (R566). -/
def execFence (q : Req) (level : Nat) (die : Nat) (region : Nat) (pos : Nat)
    (s : State) : Host.Outcome State Fault Refusal := .next (s.command q (.fence level die region pos))

/-- CAP_SET: its effect (R530). -/
def execCapSet (q : Req) (watts : Nat) (s : State) : Host.Outcome State Fault Refusal :=
  .next (s.command q (.capSet watts))

/-- ENERGY_READ: its effect (R567). -/
def execEnergyRead (q : Req) (s : State) : Host.Outcome State Fault Refusal := .next (s.command q .energyRead)

/-- TWIN_MODE: its effect (R453). -/
def execTwinMode (q : Req) (mode : Nat) (s : State) : Host.Outcome State Fault Refusal :=
  .next (s.command q (.twinMode mode))

/-- TWIN_DETACH: its effect (R458). -/
def execTwinDetach (q : Req) (s : State) : Host.Outcome State Fault Refusal := .next (s.command q .twinDetach)

/-- FW_STAGE: its effect (R629). -/
def execFwStage (q : Req) (source : Nat) (last : Bool) (offset : Nat) (data : HostRead)
    (s : State) : Host.Outcome State Fault Refusal := .next (s.command q (.fwStage source last offset data))

/-- FW_ACTIVATE: its effect (R630). -/
def execFwActivate (q : Req) (s : State) : Host.Outcome State Fault Refusal := .next (s.command q .fwActivate)

/-- SETTINGS_GET: its effect (R570). -/
def execSettingsGet (q : Req) (key : Half) (s : State) : Host.Outcome State Fault Refusal :=
  .next (s.command q (.settingsGet key))

/-- SETTINGS_SET: its effect (R570). -/
def execSettingsSet (q : Req) (key : Half) (value : Word) (s : State) : Host.Outcome State Fault Refusal :=
  .next (s.command q (.settingsSet key value))

/-- WARM_RESET: its effect (R611). -/
def execWarmReset (q : Req) (s : State) : Host.Outcome State Fault Refusal := .next (s.command q .warmReset)

/-- BLOCK_RESET: its effect (R619). -/
def execBlockReset (q : Req) (level : Nat) (target : Nat) (s : State) : Host.Outcome State Fault Refusal :=
  .next (s.command q (.blockReset level target))

/-- ATTEST: its effect (R654). -/
def execAttest (q : Req) (nonce : List Byte) (mask : Word) (s : State) : Host.Outcome State Fault Refusal :=
  .next (s.command q (.attest nonce mask))

/-- SEC_TRANSITION: its effect (R640). -/
def execSecTransition (q : Req) (target : Nat) (key : List Byte) (sig : List Byte)
    (s : State) : Host.Outcome State Fault Refusal := .next (s.command q (.secTransition target key sig))

/-- TRAFFIC_GEN: its effect (R560). -/
def execTrafficGen (q : Req) (p : TgParams) (s : State) : Host.Outcome State Fault Refusal :=
  .next (s.command q (.trafficGen p))

/-- TELEMETRY_READ: its effect (R568). -/
def execTelemetryRead (q : Req) (selector : Nat) (index : Nat) (count : Nat) (host : Nat)
    (s : State) : Host.Outcome State Fault Refusal := .next (s.command q (.telemetryRead selector index count host))

/-- HOST_SLOT_WRITE: its effect (R553). -/
def execHostSlotWrite (addr : Nat) (bytes : List Byte) (s : State) : Host.Outcome State Fault Refusal :=
  .next (s.hostSlotWrite addr bytes)

/-- COMMAND_COLLECTION: its effect (R554). -/
def execCommandCollection (data : List (Fin 64 × HostRead)) (s : State) : Host.Outcome State Fault Refusal :=
  .next (s.collect data)

/-- PENDING_COMMAND_DUE: its effect (R556). -/
def execPendingCommandDue (src : Src) (s : State) : Host.Outcome State Fault Refusal := .next (s.pendingDue src)

/-- SIDEBAND_MESSAGE: its effect (R572). -/
def execSidebandMessage (eid : Byte) (bytes : List Byte) (s : State) : Host.Outcome State Fault Refusal :=
  .next (s.sidebandMessage eid bytes)

/-- SIDEBAND_FREE_COLLECTION: its effect (R572). -/
def execSidebandFreeCollection (s : State) : Host.Outcome State Fault Refusal := .next s.collectFree

/-- MCTP_CONTROL: its effect (R571). -/
def execMctpControl (m : MctpReq) (s : State) : Host.Outcome State Fault Refusal := .next (s.mctpControl m)

/-- GET_VERSION: its effect (R655). -/
def execGetVersion (doe : Bool) (s : State) : Host.Outcome State Fault Refusal := .next (s.getVersion doe)

/-- GET_CAPABILITIES: its effect (R655). -/
def execGetCapabilities (doe : Bool) (s : State) : Host.Outcome State Fault Refusal := .next (s.getCapabilities doe)

/-- NEGOTIATE_ALGORITHMS: its effect (R655). -/
def execNegotiateAlgorithms (doe : Bool) (p521 : Bool) (sha512 : Bool)
    (s : State) : Host.Outcome State Fault Refusal := .next (s.negotiate doe p521 sha512)

/-- GET_DIGESTS: its effect (R655). -/
def execGetDigests (doe : Bool) (s : State) : Host.Outcome State Fault Refusal := .next (s.getDigests doe)

/-- GET_CERTIFICATE: its effect (R655). -/
def execGetCertificate (doe : Bool) (slot : Nat) (offset : Nat) (length : Nat)
    (s : State) : Host.Outcome State Fault Refusal := .next (s.getCertificate doe slot offset length)

/-- CHALLENGE: its effect (R655). -/
def execChallenge (doe : Bool) (slot : Nat) (nonce : List Byte) (s : State) : Host.Outcome State Fault Refusal :=
  .next (s.challenge doe slot nonce)

/-- GET_MEASUREMENTS: its effect (R655). -/
def execGetMeasurements (doe : Bool) (index : Nat) (signed : Bool) (nonce : List Byte)
    (s : State) : Host.Outcome State Fault Refusal := .next (s.getMeasurements doe index signed nonce)

/-- SIDEBAND_PRIVATE_WRITE: its effect (R647). -/
def execSidebandPrivateWrite (offset : Nat) (data : Option Word) (s : State) : Host.Outcome State Fault Refusal :=
  .next (s.privateWrite offset data)

/-- SIDEBAND_PRIVATE_READ: its effect (R647). -/
def execSidebandPrivateRead (s : State) : Host.Outcome State Fault Refusal := .next s.privateRead

/-- MONITOR_LINE: its effect (R574). -/
def execMonitorLine (line : List Byte) (s : State) : Host.Outcome State Fault Refusal := .next (s.monLine line)

/-- HELP: its effect (R575). -/
def execHelp (s : State) : Host.Outcome State Fault Refusal := .next s.monHelp

/-- PEEK: its effect (R575). -/
def execPeek (addr : Nat) (n : Nat) (s : State) : Host.Outcome State Fault Refusal := .next (s.peek addr n)

/-- POKE: its effect (R575). -/
def execPoke (addr : Nat) (v : Word) (s : State) : Host.Outcome State Fault Refusal := .next (s.poke addr v)

/-- STICKY: its effect (R575). -/
def execSticky (die : Option Nat) (s : State) : Host.Outcome State Fault Refusal := .next (s.sticky die)

/-- FAULTS: its effect (R575). -/
def execFaults (range : Option (Nat × Nat)) (s : State) : Host.Outcome State Fault Refusal :=
  .next (s.monFaults range)

/-- TIME: its effect (R575). -/
def execTime (s : State) : Host.Outcome State Fault Refusal := .next s.monTime

/-- TG: its effect (R575). -/
def execTg (die : Nat) (ch : Nat) (mode : Nat) (pat : Nat) (base : Word) (len : Word) (seed : Word)
    (s : State) : Host.Outcome State Fault Refusal := .next (s.monTg die ch mode pat base len seed)

/-- AUDIT: its effect (R575). -/
def execAudit (die : Nat) (region : Nat) (unit : Nat) (s : State) : Host.Outcome State Fault Refusal :=
  .next (s.monAudit die region unit)

/-- COLOPHON: its effect (R575). -/
def execColophon (s : State) : Host.Outcome State Fault Refusal := .next s.monColophon

/-- BOOTLOG: its effect (R575). -/
def execBootlog (s : State) : Host.Outcome State Fault Refusal := .next s.monBootlog

/-- JTAG_IDCODE: its effect (R647). -/
def execJtagIdcode (s : State) : Host.Outcome State Fault Refusal := .next s.jtagIdcode

/-- JTAG_ACCESS: its effect (R647). -/
def execJtagAccess (addr : Nat) (data : Option Word) (s : State) : Host.Outcome State Fault Refusal :=
  .next (s.jtagAccess addr data)

/-- JTAG_SCAN: its effect (R651). -/
def execJtagScan (s : State) : Host.Outcome State Fault Refusal := .next s.jtagScan

/-- DMA_TRANSFER_DONE: its effect (R549). -/
def execDmaTransferDone (src : Src) (r : HostRead) (s : State) : Host.Outcome State Fault Refusal :=
  .next (s.transferDone src r)

/-- DYNAMIC_ADDRESS_ASSIGNED: its effect (R571). -/
def execDynamicAddressAssigned (a : BitVec 7) (s : State) : Host.Outcome State Fault Refusal :=
  .next (s.addressAssigned a)

/-- DOE_DISCOVERY: its effect (R547). -/
def execDoeDiscovery (index : Byte) (s : State) : Host.Outcome State Fault Refusal := .next (s.doeDiscovery index)

end Sys2Proof.Machine
end

