-- ==== Sys2Proof/Machine/LinkCmds.lean ====
section
/-!
DEFINITION. The meanings of the link dies' commands (11_links_and_twin.md).
-/
namespace Sys2Proof.Machine

open Sys2Proof

/-- SLOT_SEND: its effect (R436). -/
def execSlotSend (port : Port) (lane : Fin 8) (s : State) : Host.Outcome State Fault Refusal :=
  .next ((s.ringLate port lane).slotSend port lane)

/-- SLOT_RECEIVE: its effect (R437). -/
def execSlotReceive (port : Port) (lane : Fin 8) (x : RxSlot) (s : State) : Host.Outcome State Fault Refusal :=
  .next (s.slotReceive port lane x)

/-- ACCUM_SLOT_RECEIVE: its effect (R331). -/
def execAccumSlotReceive (port : Port) (lane : Fin 8) (x : RxSlot) (s : State) : Host.Outcome State Fault Refusal :=
  .next (s.accumSlot port lane x)

/-- CAPACITY_SLOT_RECEIVE: its effect (R391). -/
def execCapacitySlotReceive (port : Port) (lane : Fin 8) (x : RxSlot)
    (s : State) : Host.Outcome State Fault Refusal := .next (s.capacitySlot port lane x)

/-- FABRIC_SLOT: its effect (R16). -/
def execFabricSlot (slot : FabricSlot) (line : Option (List Byte)) (s : State) : Host.Outcome State Fault Refusal :=
  .next (s.fabricSlot slot line)

/-- CODEWORD_RECEIVE: its effect (R434). -/
def execCodewordReceive (lane : Lane) (c : Codeword) (s : State) : Host.Outcome State Fault Refusal :=
  .next (s.codeword lane c)

/-- TRAMLINE_SEND: its effect (R443). -/
def execTramlineSend (port : Port) (s : State) : Host.Outcome State Fault Refusal := .next (s.sendTramline port)

/-- TRAMLINE_RECEIVE: its effect (R443). -/
def execTramlineReceive (port : Port) (lane : Fin 8) (x : RxTram) (s : State) : Host.Outcome State Fault Refusal :=
  .next (s.tramlineReceive port lane x)

/-- HEARTBEAT_MISSING: its effect (R454). -/
def execHeartbeatMissing (s : State) : Host.Outcome State Fault Refusal := .next s.heartbeatMissing

/-- LANE_FAILURE: its effect (R450). -/
def execLaneFailure (lane : Lane) (s : State) : Host.Outcome State Fault Refusal := .next (s.laneFailure lane)

/-- LANE_TRAINED: its effect (R447). -/
def execLaneTrained (lane : Lane) (delay : Nat) (s : State) : Host.Outcome State Fault Refusal :=
  .next (s.laneTrained lane delay)

/-- TRAIN_TIMEOUT: its effect (R447). -/
def execTrainTimeout (lane : Lane) (s : State) : Host.Outcome State Fault Refusal := .next (s.trainTimeout lane)

/-- FAILED_RETRY: its effect (R447). -/
def execFailedRetry (lane : Lane) (s : State) : Host.Outcome State Fault Refusal := .next (s.failedRetry lane)

/-- LOSS_OF_SIGNAL: its effect (R447). -/
def execLossOfSignal (lane : Lane) (s : State) : Host.Outcome State Fault Refusal := .next (s.lossOfSignal lane)

end Sys2Proof.Machine
end

