-- ==== Sys2Proof/Machine/MoveCmds.lean ====
section
/-!
DEFINITION. The meanings of the X operations, of what their lines bring, and of the engines' commands (06_unit_programming.md, 09_irregular_work.md).
-/
namespace Sys2Proof.Machine

open Sys2Proof

/-- X_LD: its effect (R243). -/
def execXLd (u : LU) (o : MoveOp) (s : State) : Host.Outcome State Fault Refusal := .next (s.xLd u o)

/-- X_ST: its effect (R243). -/
def execXSt (u : LU) (o : MoveOp) (s : State) : Host.Outcome State Fault Refusal := .next (s.xSt u o)

/-- X_SEND: its effect (R265). -/
def execXSend (u : LU) (o : MoveOp) (s : State) : Host.Outcome State Fault Refusal := .next (s.xSend u o)

/-- X_RECV: its effect (R266). -/
def execXRecv (u : LU) (o : MoveOp) (s : State) : Host.Outcome State Fault Refusal := .next (s.xRecv u o)

/-- X_PUSH: its effect (R264). -/
def execXPush (u : LU) (o : MoveOp) (s : State) : Host.Outcome State Fault Refusal := .next (s.xPush u o)

/-- X_POP: its effect (R263). -/
def execXPop (u : LU) (o : MoveOp) (s : State) : Host.Outcome State Fault Refusal := .next (s.xPop u o)

/-- X_RACC: its effect (R330). -/
def execXRacc (u : LU) (o : MoveOp) (s : State) : Host.Outcome State Fault Refusal := .next (s.xRacc u o)

/-- X_ILOAD: its effect (R267). -/
def execXIload (u : LU) (o : MoveOp) (s : State) : Host.Outcome State Fault Refusal := .next (s.xIload u o)

/-- X_WTBL: its effect (R154). -/
def execXWtbl (u : LU) (o : MoveOp) (s : State) : Host.Outcome State Fault Refusal := .next (s.xWtbl u o)

/-- X_DTBL: its effect (R227). -/
def execXDtbl (u : LU) (o : MoveOp) (s : State) : Host.Outcome State Fault Refusal := .next (s.xDtbl u o)

/-- X_ENG: its effect (R372). -/
def execXEng (u : LU) (o : MoveOp) (s : State) : Host.Outcome State Fault Refusal := .next (s.xEng u o)

/-- X_MON: its effect (R243). -/
def execXMon (u : LU) (o : MoveOp) (s : State) : Host.Outcome State Fault Refusal := .next (s.xMon u o)

/-- MOVE_LINE_LAND: its effect (R235). -/
def execMoveLineLand (u : LU) (id : Nat) (e : LineEcc) (s : State) : Host.Outcome State Fault Refusal :=
  .next (s.moveLineLand u id e)

/-- GALLEY_PUSH_LAND: its effect (R262). -/
def execGalleyPushLand (u : LU) (id : Nat) (s : State) : Host.Outcome State Fault Refusal :=
  .next (s.galleyPushLand u id)

/-- ENGINE_BLOCK_ARRIVE: its effect (R375). -/
def execEngineBlockArrive (u : LU) (id : Nat) (s : State) : Host.Outcome State Fault Refusal :=
  .next (s.engineBlockArrive u id)

/-- SOW: its effect (R379). -/
def execSow (c : ClusterId) (s : State) : Host.Outcome State Fault Refusal := .next (s.engMake c .sow State.sow)

/-- PACK: its effect (R384). -/
def execPack (c : ClusterId) (s : State) : Host.Outcome State Fault Refusal := .next (s.engMake c .pack State.pack)

/-- DRAIN: its effect (R387). -/
def execDrain (c : ClusterId) (s : State) : Host.Outcome State Fault Refusal := .next (s.engMake c .drain State.drain)

/-- GATHER: its effect (R392). -/
def execGather (c : ClusterId) (s : State) : Host.Outcome State Fault Refusal :=
  .next (s.engMake c .gather State.gather)

/-- PICK: its effect (R394). -/
def execPick (c : ClusterId) (s : State) : Host.Outcome State Fault Refusal := .next (s.engMake c .pick State.pick)

/-- ENGINE_COMMAND_DONE: its effect (R376). -/
def execEngineCommandDone (c : ClusterId) (rake : Bool) (s : State) : Host.Outcome State Fault Refusal :=
  .next (s.engDone c rake)

end Sys2Proof.Machine
end

