-- ==== Sys2Proof/Machine/ResetCmds.lean ====
section
/-!
DEFINITION. The meanings of replays, field and block proofs, clocks, resets, boot, firmware update and latching sources (12_silent_errors_and_faults.md, 15_registers.md R601, 16_reset_boot_firmware.md).
-/
namespace Sys2Proof.Machine

open Sys2Proof

/-- REPLAY_MAILBOX: its effect (R480). -/
def execReplayMailbox (rid : RegionId) (s : State) : Host.Outcome State Fault Refusal := .next (s.replayMailbox rid)

/-- REPLAY_START: its effect (R480). -/
def execReplayStart (rid : RegionId) (second : Bool) (s : State) : Host.Outcome State Fault Refusal :=
  .next (s.replayStart rid second)

/-- TWIN_REPLAY_REQUEST: its effect (R486). -/
def execTwinReplayRequest (rid : RegionId) (line : List Byte) (s : State) : Host.Outcome State Fault Refusal :=
  .next (s.twinRequest rid line)

/-- AUTOMATIC_FIELD_PROOF_END: its effect (R490). -/
def execAutomaticFieldProofEnd (p : Part) (fails : List ProofFail) (s : State) : Host.Outcome State Fault Refusal :=
  .next (s.autoProofEnd p fails)

/-- FIELD_PROOF_END: its effect (R491). -/
def execFieldProofEnd (fails : List PU) (s : State) : Host.Outcome State Fault Refusal :=
  .next (s.fieldProofEnd fails)

/-- BLOCK_PROOF_END: its effect (R620). -/
def execBlockProofEnd (fails : List ProofFail) (s : State) : Host.Outcome State Fault Refusal :=
  .next (s.blockProofEnd fails)

/-- CLOCK_LOCK_LOSS: its effect (R601). -/
def execClockLockLoss (c : ClkDom) (s : State) : Host.Outcome State Fault Refusal := .next (s.clockLoss c)

/-- CLOCK_LOCK_RETURN: its effect (R601). -/
def execClockLockReturn (c : ClkDom) (s : State) : Host.Outcome State Fault Refusal := .next (s.clockReturn c)

/-- COLD_RESET: its effect (R608). -/
def execColdReset (st : Straps) (s : State) : Host.Outcome State Fault Refusal := .next (s.coldReset st)

/-- BOOT_STAGE_TIMEOUT: its effect (R608). -/
def execBootStageTimeout (s : State) : Host.Outcome State Fault Refusal := .next s.bootTimeout

/-- FUNDAMENTAL_RESET: its effect (R602). -/
def execFundamentalReset (s : State) : Host.Outcome State Fault Refusal := .next s.fundamental

/-- WATCHDOG_EXPIRY: its effect (R615). -/
def execWatchdogExpiry (digestOk refreshed : Bool) (s : State) : Host.Outcome State Fault Refusal :=
  .next (s.watchdog digestOk refreshed)

/-- SUPPLY_REMOVAL: its effect (R671). -/
def execSupplyRemoval (s : State) : Host.Outcome State Fault Refusal := .next s.supplyRemoval

/-- OVERVOLT: its effect (R502). -/
def execOvervolt (s : State) : Host.Outcome State Fault Refusal := .next s.overvolt

/-- PC_FAULT: its effect (R502). -/
def execPcFault (k : Fin 4) (s : State) : Host.Outcome State Fault Refusal := .next (s.pcFault k)

/-- FUSE_INTEGRITY_FAIL: its effect (R502). -/
def execFuseIntegrityFail (s : State) : Host.Outcome State Fault Refusal := .next s.fuseFail

/-- TAMPER: its effect (R644). -/
def execTamper (s : State) : Host.Outcome State Fault Refusal := .next s.tamper

/-- FW_STAGE_CHECK_DONE: its effect (R628). -/
def execFwStageCheckDone (iv : List Byte) (s : State) : Host.Outcome State Fault Refusal := .next (s.fwChecked iv)

/-- FW_TRIAL_CONFIRM: its effect (R631). -/
def execFwTrialConfirm (format : Nat) (s : State) : Host.Outcome State Fault Refusal := .next (s.trialConfirm format)

/-- FW_TRIAL_TIMEOUT: its effect (R632). -/
def execFwTrialTimeout (s : State) : Host.Outcome State Fault Refusal := .next s.trialTimeout

/-- ROM_LOADER: its effect (R609). -/
def execRomLoader (q : Req) (c : Cmd) (format : Nat) (s : State) : Host.Outcome State Fault Refusal :=
  .next (s.romLoader q c format)

/-- PERST_RELEASE: its effect (R606). -/
def execPerstRelease (st : Straps) (s : State) : Host.Outcome State Fault Refusal := .next (s.perstRelease st)

/-- CONTROL_DIE_OVERTEMP: its effect (R535). -/
def execControlDieOvertemp (s : State) : Host.Outcome State Fault Refusal := .next s.controlOvertemp

end Sys2Proof.Machine
end

