-- ==== Sys2Proof/Machine/TimeCmds.lean ====
section
/-!
DEFINITION. The meanings of the boundaries of time, of Hall Time's events and of power (02_hall_time.md, 07_training_step.md, 13_power_and_thermal.md).
-/
namespace Sys2Proof.Machine

open Sys2Proof

/-- FURROW_BOUNDARY: its effect (R86). -/
def execFurrowBoundary (s : State) : Host.Outcome State Fault Refusal := .next s.furrowBoundary

/-- STEP_BOUNDARY: its effect (R269). -/
def execStepBoundary (p : Part) (s : State) : Host.Outcome State Fault Refusal := .next (s.stepBoundary p)

/-- SPARE_BANK_LOAD: its effect (R49). -/
def execSpareBankLoad (lu : LU) (s : State) : Host.Outcome State Fault Refusal := .next (s.spareBankLoad lu)

/-- VERDICT_TICK: its effect (R475). -/
def execVerdictTick (p : Part) (s : State) : Host.Outcome State Fault Refusal := .next ((s.gleanAt p).verdictTick p)

/-- COMMIT_TICK: its effect (R313). -/
def execCommitTick (p : Part) (s : State) : Host.Outcome State Fault Refusal := .next (s.commit p)

/-- RUN_START: its effect (R97). -/
def execRunStart (p : Part) (s : State) : Host.Outcome State Fault Refusal := .next (s.runStart p)

/-- FORME_HALT: its effect (R98). -/
def execFormeHalt (p : Part) (s : State) : Host.Outcome State Fault Refusal := .next (s.formeHalt p)

/-- EPOCH_FRAME: its effect (R60). -/
def execEpochFrame (pulses : List EpochPulse) (s : State) : Host.Outcome State Fault Refusal :=
  .next (s.epochFrame pulses)

/-- REFERENCE_LOSS: its effect (R68). -/
def execReferenceLoss (l : RefLoss) (s : State) : Host.Outcome State Fault Refusal := .next (s.referenceLoss l)

/-- HALL_REF_RETURN: its effect (R68). -/
def execHallRefReturn (within_ : Bool) (s : State) : Host.Outcome State Fault Refusal :=
  .next (s.hallRefReturn within_)

/-- HOLDOVER_TIMEOUT: its effect (R68). -/
def execHoldoverTimeout (s : State) : Host.Outcome State Fault Refusal := .next s.holdoverTimeout

/-- LOST_TO_ACQUIRE: its effect (R68). -/
def execLostToAcquire (s : State) : Host.Outcome State Fault Refusal := .next s.lostToAcquire

/-- DIE_TEMP_READING: its effect (R532). -/
def execDieTempReading (die : Die) (readings : List (Option Nat)) (s : State) : Host.Outcome State Fault Refusal :=
  .next (s.dieTemp die readings)

/-- LINK_DIE_OVERTEMP: its effect (R535). -/
def execLinkDieOvertemp (k : LinkDie) (s : State) : Host.Outcome State Fault Refusal := .next (s.linkOvertemp k)

/-- DROOP_TRIP: its effect (R523). -/
def execDroopTrip (rid : RegionId) (after : Fin 3) (s : State) : Host.Outcome State Fault Refusal :=
  .next (s.droopTrip rid after)

/-- DROOP_RELEASE: its effect (R524). -/
def execDroopRelease (rid : RegionId) (s : State) : Host.Outcome State Fault Refusal := .next (s.droopRelease rid)

/-- ENERGY_PERIOD: its effect (R537). -/
def execEnergyPeriod (dom : List Nat) (input : Nat) (s : State) : Host.Outcome State Fault Refusal :=
  .next (s.energyPeriod dom input)

/-- GEAR_VOLTAGE_RISE: its effect (R101). -/
def execGearVoltageRise (p : Part) (s : State) : Host.Outcome State Fault Refusal := .next (s.voltageRise p)

/-- GEAR_SWITCH: its effect (R101). -/
def execGearSwitch (p : Part) (s : State) : Host.Outcome State Fault Refusal := .next (s.gearSwitch p)

/-- GEAR_VOLTAGE_FALL: its effect (R101). -/
def execGearVoltageFall (p : Part) (s : State) : Host.Outcome State Fault Refusal := .next (s.voltageFall p)

/-- REGION_POWER_ON: its effect (R518). -/
def execRegionPowerOn (rid : RegionId) (s : State) : Host.Outcome State Fault Refusal := .next (s.regionOn rid)

/-- INPUT_LEVEL_CHANGE: its effect (R513). -/
def execInputLevelChange (volts : Nat) (s : State) : Host.Outcome State Fault Refusal := .next (s.inputLevel volts)

/-- BROWN_OUT: its effect (R513). -/
def execBrownOut (s : State) : Host.Outcome State Fault Refusal := .next s.brownOut

/-- LATCH_POWER_OFF: its effect (R502). -/
def execLatchPowerOff (s : State) : Host.Outcome State Fault Refusal := .next s.latchPowerOff

end Sys2Proof.Machine
end

