-- ==== Sys2Proof/Machine/UnitCmds.lean ====
section
/-!
DEFINITION. The meanings of the unit operations M, W, V, A and L and of the checks (03_number_formats.md to 06_unit_programming.md, 12_silent_errors_and_faults.md).
-/
namespace Sys2Proof.Machine

open Sys2Proof

/-- M_MMA: its effect (R187). -/
def execMMma (u : LU) (o : MmaOp) (s : State) : Host.Outcome State Fault Refusal := .next (s.mma u o)

/-- GRP_OPEN: its effect (R200). -/
def execGrpOpen (u : LU) (o : OpenOp) (s : State) : Host.Outcome State Fault Refusal := .next (s.grpOpen u o)

/-- GRP_CLOSE: its effect (R202). -/
def execGrpClose (u : LU) (g : Fin 4) (s : State) : Host.Outcome State Fault Refusal := .next (s.grpClose u g)

/-- RUN_PROMOTION: its effect (R197). -/
def execRunPromotion (u : LU) (upsets : List (Nat × Word)) (s : State) : Host.Outcome State Fault Refusal :=
  .next (s.runPromotion u upsets)

/-- CHECKSUM_COMPARISON: its effect (R467). -/
def execChecksumComparison (u : LU) (s : State) : Host.Outcome State Fault Refusal := .next (s.checksumComparison u)

/-- PROOF_RESULT: its effect (R218). -/
def execProofResult (u : LU) (s : State) : Host.Outcome State Fault Refusal := .next (s.proofResult u)

/-- W_WRITE: its effect (R239). -/
def execWWrite (u : LU) (o : WriteOp) (s : State) : Host.Outcome State Fault Refusal := .next (s.wWrite u o)

/-- W_WRITE_COMPLETE: its effect (R178). -/
def execWWriteComplete (u : LU) (s : State) : Host.Outcome State Fault Refusal := .next (s.wWriteComplete u)

/-- V_ADD: its effect (R241). -/
def execVAdd (u : LU) (vd va vb : Fin 16) (s : State) : Host.Outcome State Fault Refusal := .next (s.vAdd u vd va vb)

/-- V_SUB: its effect (R241). -/
def execVSub (u : LU) (vd va vb : Fin 16) (s : State) : Host.Outcome State Fault Refusal := .next (s.vSub u vd va vb)

/-- V_MUL: its effect (R241). -/
def execVMul (u : LU) (vd va vb : Fin 16) (s : State) : Host.Outcome State Fault Refusal := .next (s.vMul u vd va vb)

/-- V_FMA: its effect (R241). -/
def execVFma (u : LU) (vd va vb vc : Fin 16) (s : State) : Host.Outcome State Fault Refusal :=
  .next (s.vFma u vd va vb vc)

/-- V_RCP: its effect (R241). -/
def execVRcp (u : LU) (vd va : Fin 16) (s : State) : Host.Outcome State Fault Refusal := .next (s.vRcpOp u vd va)

/-- V_RSQ: its effect (R241). -/
def execVRsq (u : LU) (vd va : Fin 16) (s : State) : Host.Outcome State Fault Refusal := .next (s.vRsqOp u vd va)

/-- V_EXP: its effect (R241). -/
def execVExp (u : LU) (vd va : Fin 16) (s : State) : Host.Outcome State Fault Refusal := .next (s.vExpOp u vd va)

/-- V_SUM: its effect (R241). -/
def execVSum (u : LU) (vd va : Fin 16) (s : State) : Host.Outcome State Fault Refusal := .next (s.vSum u vd va)

/-- V_LD: its effect (R241). -/
def execVLd (u : LU) (vd : Fin 16) (desc : Fin 64) (reg : Fin 16) (s : State) : Host.Outcome State Fault Refusal :=
  .next (s.vLd u vd desc reg)

/-- V_ST: its effect (R241). -/
def execVSt (u : LU) (va : Fin 16) (desc : Fin 64) (reg : Fin 16) (s : State) : Host.Outcome State Fault Refusal :=
  .next (s.vSt u va desc reg)

/-- V_LDG: its effect (R241). -/
def execVLdg (u : LU) (vd : Fin 16) (g : Fin 4) (imm : Fin 64) (reg : Fin 16)
    (s : State) : Host.Outcome State Fault Refusal := .next (s.vLdg u vd g imm reg)

/-- V_SPLAT: its effect (R241). -/
def execVSplat (u : LU) (vd : Fin 16) (imm : Half) (s : State) : Host.Outcome State Fault Refusal :=
  .next (s.vSplat u vd imm)

/-- A_ADD: its effect (R246). -/
def execAAdd (u : LU) (d a b : Fin 16) (s : State) : Host.Outcome State Fault Refusal := .next (s.a_add u d a b)

/-- A_SUB: its effect (R246). -/
def execASub (u : LU) (d a b : Fin 16) (s : State) : Host.Outcome State Fault Refusal := .next (s.a_sub u d a b)

/-- A_AND: its effect (R246). -/
def execAAnd (u : LU) (d a b : Fin 16) (s : State) : Host.Outcome State Fault Refusal := .next (s.a_and u d a b)

/-- A_SHL: its effect (R246). -/
def execAShl (u : LU) (d a b : Fin 16) (s : State) : Host.Outcome State Fault Refusal := .next (s.a_shl u d a b)

/-- A_SHR: its effect (R246). -/
def execAShr (u : LU) (d a b : Fin 16) (s : State) : Host.Outcome State Fault Refusal := .next (s.a_shr u d a b)

/-- A_ADDI: its effect (R246). -/
def execAAddi (u : LU) (d a : Fin 16) (imm : Half) (s : State) : Host.Outcome State Fault Refusal :=
  .next (s.a_addi u d a imm)

/-- A_ANDI: its effect (R246). -/
def execAAndi (u : LU) (d a : Fin 16) (imm : Half) (s : State) : Host.Outcome State Fault Refusal :=
  .next (s.a_andi u d a imm)

/-- A_SHLI: its effect (R246). -/
def execAShli (u : LU) (d a : Fin 16) (imm : Half) (s : State) : Host.Outcome State Fault Refusal :=
  .next (s.a_shli u d a imm)

/-- A_SHRI: its effect (R246). -/
def execAShri (u : LU) (d a : Fin 16) (imm : Half) (s : State) : Host.Outcome State Fault Refusal :=
  .next (s.a_shri u d a imm)

/-- L_LOOP: its effect (R249). -/
def execLLoop (u : LU) (creg : Fin 16) (len : Fin 1024) (s : State) : Host.Outcome State Fault Refusal :=
  .next (s.loopOp u len.val creg)

/-- L_WAIT: its effect (R251). -/
def execLWait (u : LU) (t : Fin 16384) (s : State) : Host.Outcome State Fault Refusal := .next (s.waitOp u t.val)

/-- L_WAIT_EXPIRY: its effect (R251). -/
def execLWaitExpiry (u : LU) (s : State) : Host.Outcome State Fault Refusal := .next (s.waitExpiry u)

/-- L_IDLE: its effect (R248). -/
def execLIdle (u : LU) (n : Fin 16384) (s : State) : Host.Outcome State Fault Refusal := .next (s.idleOp u n.val)

/-- L_IDLE_EXPIRY: its effect (R248). -/
def execLIdleExpiry (u : LU) (s : State) : Host.Outcome State Fault Refusal := .next (s.idleExpiry u)

/-- L_ARM: its effect (R267). -/
def execLArm (u : LU) (s : State) : Host.Outcome State Fault Refusal := .next (s.armOp u)

/-- L_ENTRY: its effect (R253). -/
def execLEntry (u : LU) (addr : Fin 1024) (s : State) : Host.Outcome State Fault Refusal :=
  .next (s.entryOp u addr.val)

/-- L_HALT: its effect (R248). -/
def execLHalt (u : LU) (s : State) : Host.Outcome State Fault Refusal := .next (s.haltOp u)

/-- L_SKIP: its effect (R252). -/
def execLSkip (u : LU) (flag : Fin 16) (sense : Bool) (n : Fin 1024) (s : State) : Host.Outcome State Fault Refusal :=
  .next (s.skipOp u flag.val sense n.val)

/-- UNDEFINED_OPCODE: its effect (R224). -/
def execUndefinedOpcode (u : LU) (sl : Slot) (s : State) : Host.Outcome State Fault Refusal := .next (s.badSlot u sl)

end Sys2Proof.Machine
end

