-- ==== Sys2Proof/Machine/Dispatch.lean ====
section
/-!
DEFINITION. The command's meaning, one arm per constructor.
-/
namespace Sys2Proof.Machine

open Sys2Proof

def exec (i : Instr) (s : State) : Host.Outcome State Fault Refusal :=
  match i with
  | .formeLoad q r => Sys2Proof.Machine.execFormeLoad q r s
  | .formeArm q start cold => Sys2Proof.Machine.execFormeArm q start cold s
  | .formeDisarm q => Sys2Proof.Machine.execFormeDisarm q s
  | .runAt q => Sys2Proof.Machine.execRunAt q s
  | .haltAt q => Sys2Proof.Machine.execHaltAt q s
  | .gearAt q gear => Sys2Proof.Machine.execGearAt q gear s
  | .cancel q slot tag => Sys2Proof.Machine.execCancel q slot tag s
  | .snapshot q step variant ship stream ports => Sys2Proof.Machine.execSnapshot q step variant ship stream ports s
  | .pageRetire q die page => Sys2Proof.Machine.execPageRetire q die page s
  | .dmaRead q p => Sys2Proof.Machine.execDmaRead q p s
  | .dmaWrite q p => Sys2Proof.Machine.execDmaWrite q p s
  | .streamOpen q p => Sys2Proof.Machine.execStreamOpen q p s
  | .streamClose q id => Sys2Proof.Machine.execStreamClose q id s
  | .fieldProof q mask => Sys2Proof.Machine.execFieldProof q mask s
  | .proofRun q p data => Sys2Proof.Machine.execProofRun q p data s
  | .fence q level die region pos => Sys2Proof.Machine.execFence q level die region pos s
  | .capSet q watts => Sys2Proof.Machine.execCapSet q watts s
  | .energyRead q => Sys2Proof.Machine.execEnergyRead q s
  | .twinMode q mode => Sys2Proof.Machine.execTwinMode q mode s
  | .twinDetach q => Sys2Proof.Machine.execTwinDetach q s
  | .fwStage q source last offset data => Sys2Proof.Machine.execFwStage q source last offset data s
  | .fwActivate q => Sys2Proof.Machine.execFwActivate q s
  | .settingsGet q key => Sys2Proof.Machine.execSettingsGet q key s
  | .settingsSet q key value => Sys2Proof.Machine.execSettingsSet q key value s
  | .warmReset q => Sys2Proof.Machine.execWarmReset q s
  | .blockReset q level target => Sys2Proof.Machine.execBlockReset q level target s
  | .attest q nonce mask => Sys2Proof.Machine.execAttest q nonce mask s
  | .secTransition q target key sig => Sys2Proof.Machine.execSecTransition q target key sig s
  | .trafficGen q p => Sys2Proof.Machine.execTrafficGen q p s
  | .telemetryRead q selector index count host => Sys2Proof.Machine.execTelemetryRead q selector index count host s
  | .hostSlotWrite addr bytes => Sys2Proof.Machine.execHostSlotWrite addr bytes s
  | .commandCollection data => Sys2Proof.Machine.execCommandCollection data s
  | .pendingCommandDue src => Sys2Proof.Machine.execPendingCommandDue src s
  | .sidebandMessage eid bytes => Sys2Proof.Machine.execSidebandMessage eid bytes s
  | .sidebandFreeCollection => Sys2Proof.Machine.execSidebandFreeCollection s
  | .mctpControl m => Sys2Proof.Machine.execMctpControl m s
  | .getVersion doe => Sys2Proof.Machine.execGetVersion doe s
  | .getCapabilities doe => Sys2Proof.Machine.execGetCapabilities doe s
  | .negotiateAlgorithms doe p521 sha512 => Sys2Proof.Machine.execNegotiateAlgorithms doe p521 sha512 s
  | .getDigests doe => Sys2Proof.Machine.execGetDigests doe s
  | .getCertificate doe slot offset length => Sys2Proof.Machine.execGetCertificate doe slot offset length s
  | .challenge doe slot nonce => Sys2Proof.Machine.execChallenge doe slot nonce s
  | .getMeasurements doe index signed nonce => Sys2Proof.Machine.execGetMeasurements doe index signed nonce s
  | .sidebandPrivateWrite offset data => Sys2Proof.Machine.execSidebandPrivateWrite offset data s
  | .sidebandPrivateRead => Sys2Proof.Machine.execSidebandPrivateRead s
  | .monitorLine line => Sys2Proof.Machine.execMonitorLine line s
  | .help => Sys2Proof.Machine.execHelp s
  | .peek addr n => Sys2Proof.Machine.execPeek addr n s
  | .poke addr v => Sys2Proof.Machine.execPoke addr v s
  | .sticky die => Sys2Proof.Machine.execSticky die s
  | .faults range => Sys2Proof.Machine.execFaults range s
  | .time => Sys2Proof.Machine.execTime s
  | .tg die ch mode pat base len seed => Sys2Proof.Machine.execTg die ch mode pat base len seed s
  | .audit die region unit => Sys2Proof.Machine.execAudit die region unit s
  | .colophon => Sys2Proof.Machine.execColophon s
  | .bootlog => Sys2Proof.Machine.execBootlog s
  | .jtagIdcode => Sys2Proof.Machine.execJtagIdcode s
  | .jtagAccess addr data => Sys2Proof.Machine.execJtagAccess addr data s
  | .jtagScan => Sys2Proof.Machine.execJtagScan s
  | .registerWrite who addr whole v => Sys2Proof.Machine.execRegisterWrite who addr whole v s
  | .registerReadClear who addr => Sys2Proof.Machine.execRegisterReadClear who addr s
  | .shadowLoRead who addr => Sys2Proof.Machine.execShadowLoRead who addr s
  | .hiRead who addr => Sys2Proof.Machine.execHiRead who addr s
  | .debugRead who addr => Sys2Proof.Machine.execDebugRead who addr s
  | .htSetLoWrite who v => Sys2Proof.Machine.execHtSetLoWrite who v s
  | .htConfigWrite who v => Sys2Proof.Machine.execHtConfigWrite who v s
  | .htNodeIdWrite who v => Sys2Proof.Machine.execHtNodeIdWrite who v s
  | .cdPartitionWrite who die v => Sys2Proof.Machine.execCdPartitionWrite who die v s
  | .tuImposeWrite who lu v => Sys2Proof.Machine.execTuImposeWrite who lu v s
  | .pwrVtabWrite who rid gear v => Sys2Proof.Machine.execPwrVtabWrite who rid gear v s
  | .secQuoinWrite who v => Sys2Proof.Machine.execSecQuoinWrite who v s
  | .secDebugCtlWrite who v => Sys2Proof.Machine.execSecDebugCtlWrite who v s
  | .ldSpareWrite who k high v => Sys2Proof.Machine.execLdSpareWrite who k high v s
  | .hbmCfgWrite who die v => Sys2Proof.Machine.execHbmCfgWrite who die v s
  | .hbmUeAddrHiRead who die => Sys2Proof.Machine.execHbmUeAddrHiRead who die s
  | .secAccessAddrRead who => Sys2Proof.Machine.execSecAccessAddrRead who s
  | .tgStart who die ch v => Sys2Proof.Machine.execTgStart who die ch v s
  | .tgStop who die ch v n => Sys2Proof.Machine.execTgStop who die ch v n s
  | .tgRunDone die ch => Sys2Proof.Machine.execTgRunDone die ch s
  | .fuseProg who v => Sys2Proof.Machine.execFuseProg who v s
  | .fuseProgDone verified => Sys2Proof.Machine.execFuseProgDone verified s
  | .mMma u o => Sys2Proof.Machine.execMMma u o s
  | .grpOpen u o => Sys2Proof.Machine.execGrpOpen u o s
  | .grpClose u g => Sys2Proof.Machine.execGrpClose u g s
  | .runPromotion u upsets => Sys2Proof.Machine.execRunPromotion u upsets s
  | .checksumComparison u => Sys2Proof.Machine.execChecksumComparison u s
  | .proofResult u => Sys2Proof.Machine.execProofResult u s
  | .wWrite u o => Sys2Proof.Machine.execWWrite u o s
  | .wWriteComplete u => Sys2Proof.Machine.execWWriteComplete u s
  | .vAdd u vd va vb => Sys2Proof.Machine.execVAdd u vd va vb s
  | .vSub u vd va vb => Sys2Proof.Machine.execVSub u vd va vb s
  | .vMul u vd va vb => Sys2Proof.Machine.execVMul u vd va vb s
  | .vFma u vd va vb vc => Sys2Proof.Machine.execVFma u vd va vb vc s
  | .vRcp u vd va => Sys2Proof.Machine.execVRcp u vd va s
  | .vRsq u vd va => Sys2Proof.Machine.execVRsq u vd va s
  | .vExp u vd va => Sys2Proof.Machine.execVExp u vd va s
  | .vSum u vd va => Sys2Proof.Machine.execVSum u vd va s
  | .vLd u vd desc reg => Sys2Proof.Machine.execVLd u vd desc reg s
  | .vSt u va desc reg => Sys2Proof.Machine.execVSt u va desc reg s
  | .vLdg u vd g imm reg => Sys2Proof.Machine.execVLdg u vd g imm reg s
  | .vSplat u vd imm => Sys2Proof.Machine.execVSplat u vd imm s
  | .xLd u o => Sys2Proof.Machine.execXLd u o s
  | .xSt u o => Sys2Proof.Machine.execXSt u o s
  | .xSend u o => Sys2Proof.Machine.execXSend u o s
  | .xRecv u o => Sys2Proof.Machine.execXRecv u o s
  | .xPush u o => Sys2Proof.Machine.execXPush u o s
  | .xPop u o => Sys2Proof.Machine.execXPop u o s
  | .xRacc u o => Sys2Proof.Machine.execXRacc u o s
  | .xIload u o => Sys2Proof.Machine.execXIload u o s
  | .xWtbl u o => Sys2Proof.Machine.execXWtbl u o s
  | .xDtbl u o => Sys2Proof.Machine.execXDtbl u o s
  | .xEng u o => Sys2Proof.Machine.execXEng u o s
  | .xMon u o => Sys2Proof.Machine.execXMon u o s
  | .moveLineLand u id e => Sys2Proof.Machine.execMoveLineLand u id e s
  | .galleyPushLand u id => Sys2Proof.Machine.execGalleyPushLand u id s
  | .aAdd u d a b => Sys2Proof.Machine.execAAdd u d a b s
  | .aSub u d a b => Sys2Proof.Machine.execASub u d a b s
  | .aAnd u d a b => Sys2Proof.Machine.execAAnd u d a b s
  | .aShl u d a b => Sys2Proof.Machine.execAShl u d a b s
  | .aShr u d a b => Sys2Proof.Machine.execAShr u d a b s
  | .aAddi u d a imm => Sys2Proof.Machine.execAAddi u d a imm s
  | .aAndi u d a imm => Sys2Proof.Machine.execAAndi u d a imm s
  | .aShli u d a imm => Sys2Proof.Machine.execAShli u d a imm s
  | .aShri u d a imm => Sys2Proof.Machine.execAShri u d a imm s
  | .lLoop u creg len => Sys2Proof.Machine.execLLoop u creg len s
  | .lWait u t => Sys2Proof.Machine.execLWait u t s
  | .lWaitExpiry u => Sys2Proof.Machine.execLWaitExpiry u s
  | .lIdle u n => Sys2Proof.Machine.execLIdle u n s
  | .lIdleExpiry u => Sys2Proof.Machine.execLIdleExpiry u s
  | .lArm u => Sys2Proof.Machine.execLArm u s
  | .lEntry u addr => Sys2Proof.Machine.execLEntry u addr s
  | .lHalt u => Sys2Proof.Machine.execLHalt u s
  | .lSkip u flag sense n => Sys2Proof.Machine.execLSkip u flag sense n s
  | .engineBlockArrive u id => Sys2Proof.Machine.execEngineBlockArrive u id s
  | .sow c => Sys2Proof.Machine.execSow c s
  | .pack c => Sys2Proof.Machine.execPack c s
  | .drain c => Sys2Proof.Machine.execDrain c s
  | .gather c => Sys2Proof.Machine.execGather c s
  | .pick c => Sys2Proof.Machine.execPick c s
  | .engineCommandDone c rake => Sys2Proof.Machine.execEngineCommandDone c rake s
  | .updateInvocationStart die => Sys2Proof.Machine.execUpdateInvocationStart die s
  | .updateInvocationEnd die => Sys2Proof.Machine.execUpdateInvocationEnd die s
  | .uAdd die d a b => Sys2Proof.Machine.execUAdd die d a b s
  | .uSub die d a b => Sys2Proof.Machine.execUSub die d a b s
  | .uMul die d a b => Sys2Proof.Machine.execUMul die d a b s
  | .uFma die d a b c => Sys2Proof.Machine.execUFma die d a b c s
  | .uDiv die d a b => Sys2Proof.Machine.execUDiv die d a b s
  | .uSqrt die d a => Sys2Proof.Machine.execUSqrt die d a s
  | .uRsq die d a => Sys2Proof.Machine.execURsq die d a s
  | .uSign die d a => Sys2Proof.Machine.execUSign die d a s
  | .uAbs die d a => Sys2Proof.Machine.execUAbs die d a s
  | .uClamp die d a b c => Sys2Proof.Machine.execUClamp die d a b c s
  | .uLd die d st => Sys2Proof.Machine.execULd die d st s
  | .uSt die a st => Sys2Proof.Machine.execUSt die a st s
  | .uStw die a st sr => Sys2Proof.Machine.execUStw die a st sr s
  | .uEnd die => Sys2Proof.Machine.execUEnd die s
  | .accumulateArrive x => Sys2Proof.Machine.execAccumulateArrive x s
  | .windowOpen d w => Sys2Proof.Machine.execWindowOpen d w s
  | .windowSeal d w => Sys2Proof.Machine.execWindowSeal d w s
  | .ringStart d e => Sys2Proof.Machine.execRingStart d e s
  | .ringBlockReceive d e => Sys2Proof.Machine.execRingBlockReceive d e s
  | .gleanCompare d owner w k => Sys2Proof.Machine.execGleanCompare d owner w k s
  | .hbmAccess die iss off data upset => Sys2Proof.Machine.execHbmAccess die iss off data upset s
  | .sharedCacheAccess die iss off data upset => Sys2Proof.Machine.execSharedCacheAccess die iss off data upset s
  | .refreshStep => Sys2Proof.Machine.execRefreshStep s
  | .hbmTempReading die reading => Sys2Proof.Machine.execHbmTempReading die reading s
  | .patrolScrub die upset => Sys2Proof.Machine.execPatrolScrub die upset s
  | .phyCalibration die fails => Sys2Proof.Machine.execPhyCalibration die fails s
  | .retirementCopy die upset => Sys2Proof.Machine.execRetirementCopy die upset s
  | .retireCopyDone die => Sys2Proof.Machine.execRetireCopyDone die s
  | .dieTempReading die readings => Sys2Proof.Machine.execDieTempReading die readings s
  | .droopTrip rid after => Sys2Proof.Machine.execDroopTrip rid after s
  | .droopRelease rid => Sys2Proof.Machine.execDroopRelease rid s
  | .energyPeriod dom input => Sys2Proof.Machine.execEnergyPeriod dom input s
  | .furrowBoundary => Sys2Proof.Machine.execFurrowBoundary s
  | .stepBoundary p => Sys2Proof.Machine.execStepBoundary p s
  | .spareBankLoad lu => Sys2Proof.Machine.execSpareBankLoad lu s
  | .verdictTick p => Sys2Proof.Machine.execVerdictTick p s
  | .commitTick p => Sys2Proof.Machine.execCommitTick p s
  | .suspectEventArrive n => Sys2Proof.Machine.execSuspectEventArrive n s
  | .slotSend port lane => Sys2Proof.Machine.execSlotSend port lane s
  | .slotReceive port lane x => Sys2Proof.Machine.execSlotReceive port lane x s
  | .accumSlotReceive port lane x => Sys2Proof.Machine.execAccumSlotReceive port lane x s
  | .capacitySlotReceive port lane x => Sys2Proof.Machine.execCapacitySlotReceive port lane x s
  | .fabricSlot slot line => Sys2Proof.Machine.execFabricSlot slot line s
  | .codewordReceive lane c => Sys2Proof.Machine.execCodewordReceive lane c s
  | .tramlineSend port => Sys2Proof.Machine.execTramlineSend port s
  | .tramlineReceive port lane x => Sys2Proof.Machine.execTramlineReceive port lane x s
  | .heartbeatMissing => Sys2Proof.Machine.execHeartbeatMissing s
  | .laneFailure lane => Sys2Proof.Machine.execLaneFailure lane s
  | .laneTrained lane delay => Sys2Proof.Machine.execLaneTrained lane delay s
  | .trainTimeout lane => Sys2Proof.Machine.execTrainTimeout lane s
  | .failedRetry lane => Sys2Proof.Machine.execFailedRetry lane s
  | .lossOfSignal lane => Sys2Proof.Machine.execLossOfSignal lane s
  | .epochFrame pulses => Sys2Proof.Machine.execEpochFrame pulses s
  | .referenceLoss l => Sys2Proof.Machine.execReferenceLoss l s
  | .holdoverTimeout => Sys2Proof.Machine.execHoldoverTimeout s
  | .lostToAcquire => Sys2Proof.Machine.execLostToAcquire s
  | .runStart p => Sys2Proof.Machine.execRunStart p s
  | .formeHalt p => Sys2Proof.Machine.execFormeHalt p s
  | .gearVoltageRise p => Sys2Proof.Machine.execGearVoltageRise p s
  | .gearSwitch p => Sys2Proof.Machine.execGearSwitch p s
  | .gearVoltageFall p => Sys2Proof.Machine.execGearVoltageFall p s
  | .regionPowerOn rid => Sys2Proof.Machine.execRegionPowerOn rid s
  | .replayMailbox rid => Sys2Proof.Machine.execReplayMailbox rid s
  | .replayStart rid second => Sys2Proof.Machine.execReplayStart rid second s
  | .twinReplayRequest rid line => Sys2Proof.Machine.execTwinReplayRequest rid line s
  | .automaticFieldProofEnd p fails => Sys2Proof.Machine.execAutomaticFieldProofEnd p fails s
  | .fieldProofEnd fails => Sys2Proof.Machine.execFieldProofEnd fails s
  | .blockProofEnd fails => Sys2Proof.Machine.execBlockProofEnd fails s
  | .clockLockLoss c => Sys2Proof.Machine.execClockLockLoss c s
  | .clockLockReturn c => Sys2Proof.Machine.execClockLockReturn c s
  | .coldReset st => Sys2Proof.Machine.execColdReset st s
  | .bootStageTimeout => Sys2Proof.Machine.execBootStageTimeout s
  | .fundamentalReset => Sys2Proof.Machine.execFundamentalReset s
  | .watchdogExpiry digestOk refreshed => Sys2Proof.Machine.execWatchdogExpiry digestOk refreshed s
  | .brownOut => Sys2Proof.Machine.execBrownOut s
  | .supplyRemoval => Sys2Proof.Machine.execSupplyRemoval s
  | .inputLevelChange volts => Sys2Proof.Machine.execInputLevelChange volts s
  | .overvolt => Sys2Proof.Machine.execOvervolt s
  | .pcFault k => Sys2Proof.Machine.execPcFault k s
  | .fuseIntegrityFail => Sys2Proof.Machine.execFuseIntegrityFail s
  | .tamper => Sys2Proof.Machine.execTamper s
  | .latchPowerOff => Sys2Proof.Machine.execLatchPowerOff s
  | .fwStageCheckDone iv => Sys2Proof.Machine.execFwStageCheckDone iv s
  | .fwTrialConfirm format => Sys2Proof.Machine.execFwTrialConfirm format s
  | .fwTrialTimeout => Sys2Proof.Machine.execFwTrialTimeout s
  | .romLoader q c format => Sys2Proof.Machine.execRomLoader q c format s
  | .perstRelease st => Sys2Proof.Machine.execPerstRelease st s
  | .hallRefReturn within_ => Sys2Proof.Machine.execHallRefReturn within_ s
  | .linkDieOvertemp k => Sys2Proof.Machine.execLinkDieOvertemp k s
  | .controlDieOvertemp => Sys2Proof.Machine.execControlDieOvertemp s
  | .dmaTransferDone src r => Sys2Proof.Machine.execDmaTransferDone src r s
  | .dynamicAddressAssigned a => Sys2Proof.Machine.execDynamicAddressAssigned a s
  | .doeDiscovery index => Sys2Proof.Machine.execDoeDiscovery index s
  | .undefinedOpcode u sl => Sys2Proof.Machine.execUndefinedOpcode u sl s

end Sys2Proof.Machine
end

