-- ==== Sys2Proof/Machine/Tick.lean ====
section
/-!
DEFINITION. What the package does by itself in a step on an empty queue: a tick (02_hall_time.md R54; notes/assumptions
2), or while the boot sequence runs one of its stages (16_reset_boot_firmware.md R608; notes/assumptions 3).
-/
namespace Sys2Proof.Machine

open Sys2Proof

/-- A tick of the compute dies: what their engines have sent arrives, the regions make their core cycles, the adders apply
what is in (R336, R338), bulk data move in host slots (R18); the cache banks are free again. -/
def State.dieTick (s : State) : State :=
  let s := s.clusters.entries.foldl (fun s e => if e.2.fly.isEmpty then s else s.flyTick e.1) s
  let s := s.unitTick
  let s := (allDies.foldl (fun s d => s.adderTick d) s).streamTick
  { s with dies := s.dies.mapVals fun _ x => { x with banks := [] } }

/-- One tick: the compute dies where they have power and clocks, suspect events that are in flight, the Hall Time count, a
warm reset under way, the end of an activation pause. In a JTAG scan every clock that this needs stands still (R651). -/
def State.tick (s : State) : State :=
  if s.rdBit (xreg .secState) 4 then s else
  let s := if s.powered then s.domainsDue.dieTick else s
  s.arriveDue.tickHall.warmTick.pauseEnd

/-- A step with no command waiting. -/
def State.idle (s : State) : State := if s.booting then s.bootStep else s.tick

end Sys2Proof.Machine
end

