-- ==== Sys2Proof/Machine/Pins.lean ====
section
/-!
DEFINITION. The contacts of the package and what it drives on them (19_electrical_mechanical.md R674, R677 to R680;
16_reset_boot_firmware.md R607).
-/
namespace Sys2Proof.Machine

open Sys2Proof

/-- A signal at a contact; of a differential pair `p` says which leg. -/
inductive Signal where
  | v72 | rtn72 | gnd
  | laneTx (l : Lane) (p : Bool) | laneRx (l : Lane) (p : Bool)
  | pcieTx (i : Fin 16) (p : Bool) | pcieRx (i : Fin 16) (p : Bool) | pcieRef (p : Bool)
  | hallRef (p : Bool) | hallEpoch | perst | faultN | replaceN | bootSrc (i : Fin 2) | clkMode (i : Fin 2)
  | monTx | monRx | i3cScl | i3cSda | jtagTck | jtagTms | jtagTdi | jtagTdo | jtagTrst
  | flashSck | flashCsN | flashDqs | flashReset | flashDq (i : Fin 8)
  deriving DecidableEq, Repr

/-- The contacts named one by one (R679, and the reference clock of R678). -/
def namedContacts : List (Nat × Nat × Signal) :=
  [(74, 126, .pcieRef true), (75, 126, .pcieRef false), (80, 126, .hallRef true), (81, 126, .hallRef false),
    (83, 126, .hallEpoch), (90, 130, .perst), (91, 130, .faultN), (92, 130, .replaceN), (93, 130, .bootSrc 0),
    (94, 130, .bootSrc 1), (95, 130, .clkMode 0), (96, 130, .clkMode 1), (97, 130, .monTx)]
  ++ [(98, 130, .monRx), (99, 130, .i3cScl), (100, 130, .i3cSda), (101, 130, .jtagTck), (102, 130, .jtagTms),
    (103, 130, .jtagTdi), (104, 130, .jtagTdo), (105, 130, .jtagTrst), (90, 132, .flashSck), (91, 132, .flashCsN),
    (92, 132, .flashDqs), (101, 132, .flashReset)]
  ++ (List.finRange 8).map fun i => (93 + i.val, 132, Signal.flashDq i)

/-- A contact of the lane rows (R678). -/
def laneContact (col row : Nat) : Option Signal :=
  if col < 10 ∨ 110 ≤ col ∨ row < 20 ∨ 140 ≤ row then none else
  let k : LinkDie := ⟨(row - 20) / 30 % 4, by omega⟩
  let l : Lane := ⟨k, ⟨(col - 10) / 2 % 50, by omega⟩⟩
  let p := col % 2 == 0
  if (row - 20) % 30 = 0 then some (.laneTx l p) else if (row - 20) % 30 = 2 then some (.laneRx l p) else none

/-- A contact of the PCIe rows (R678). -/
def pcieContact (col row : Nat) : Option Signal :=
  if col < 40 ∨ 72 ≤ col then none else
  let i : Fin 16 := ⟨(col - 40) / 2 % 16, by omega⟩
  let p := col % 2 == 0
  if row = 126 then some (.pcieTx i p) else if row = 128 then some (.pcieRx i p) else none

/-- A contact of the supply (R674). -/
def supplyContact (col row : Nat) : Option Signal :=
  if col < 120 ∨ 136 ≤ col then none
  else if row < 8 then some .v72 else if row < 16 then some .rtn72 else none

/-- The signal of a contact of the 140 by 140 grid; what is not named is GND (R674). -/
def contact (col row : Nat) : Option Signal :=
  if 140 ≤ col ∨ 140 ≤ row then none else
  match namedContacts.find? fun e => e.1 == col && e.2.1 == row with
  | some e => some e.2.2
  | none => some (((laneContact col row).or ((pcieContact col row).or (supplyContact col row))).getD .gnd)

/-- An open strap reads 0 (R677). -/
def strapLevel (driven : Option Bool) : Bool := driven.getD false

/-- What the package does to a contact: nothing, a level, or the traffic of its protocol. -/
inductive Drive where
  | released | level (high : Bool) | traffic
  deriving DecidableEq, Repr

/-- FLASH_CS_N stays high, and FLASH_RESET_N low, until the enclave reads the flash in a reset (R608, R680). -/
def State.flashHeld (s : State) : Bool :=
  s.power.mode == .standby && (match s.power.stage with
    | .perst | .rom | .selftest => true
    | _ => false)

/-- Whether FLASH_CS_N is high throughout: in Standby and Latched but for the enclave's own read, and in a warm reset until the
image check (R680). -/
def State.flashIdle (s : State) : Bool :=
  s.flashHeld || s.power.mode == .latched || (s.power.mode == .standby && s.power.stage == .failed)
    || (match s.fw.warm with
      | some w => !w.verified
      | none => false)

/-- The state of an output contact (R607, R680); with 72 V absent every output is high impedance. -/
def State.drive (s : State) (x : Signal) : Drive :=
  if s.power.mode = .off then .released else
  match x with
  | .faultN => if s.faultPin then .level false else .released
  | .replaceN => if s.replacePin then .level false else .released
  | .monTx => if s.mon.waiting then .traffic else .level true
  | .i3cSda => if s.sb.addr.isSome then .traffic else .released
  | .jtagTdo => if s.sec.tapReset then .released else .traffic
  | .flashCsN => if s.flashIdle then .level true else .traffic
  | .flashReset => .level (!s.flashHeld)
  | .flashSck | .flashDqs | .flashDq _ => if s.flashIdle then .released else .traffic
  | .pcieTx _ _ => if s.power.mode = .on then .traffic else .released
  | .laneTx l _ => if s.powered && !s.linkDead l.ld then .traffic else .released
  | _ => .released

end Sys2Proof.Machine
end

