-- ==== Sys2Proof/Safety.lean ====
section
/-!
DEFINITION. What counts as a safe run, and the terms the statements use: an operation that has issued, a state that
differs in one part only, memories in canonical form.
-/
namespace Sys2Proof.Machine

open Sys2Proof

/-- A step that neither faults nor refuses. -/
def Completes (s : State) : Prop := ∃ t, step s = .next t

/-- A unit after an operation has issued in a slot in this cycle, before the operation's own effect (R225). -/
def UnitS.mark (x : UnitS) (sl : Slot) : UnitS := { x with ctl := { x.ctl with issued := sl :: x.ctl.issued } }

/-- The state after an operation has issued in a slot of the unit at `p`, before the operation's own effect. -/
def State.marked (s : State) (p : PU) (sl : Slot) : State := s.setUnit p ((s.unit p).mark sl)

/-- The operation that the M, W, V or X slot launched last. -/
def UnitS.newest (x : UnitS) : Option Flight := x.flights.getLast?

/-- The host commands as they arrive: the request, and the opcode with its parameters (R560). -/
def hostCommand : Instr → Option (Req × Cmd)
  | .formeLoad q r => some (q, .formeLoad r)
  | .formeArm q start cold => some (q, .formeArm start cold)
  | .formeDisarm q => some (q, .formeDisarm)
  | .runAt q => some (q, .runAt)
  | .haltAt q => some (q, .haltAt)
  | .gearAt q g => some (q, .gearAt g)
  | .cancel q slot tag => some (q, .cancel slot tag)
  | .snapshot q step v ship stream ports => some (q, .snapshot step v ship stream ports)
  | .pageRetire q d p => some (q, .pageRetire d p)
  | .dmaRead q p => some (q, .dmaRead p)
  | .dmaWrite q p => some (q, .dmaWrite p)
  | .streamOpen q p => some (q, .streamOpen p)
  | .streamClose q id => some (q, .streamClose id)
  | .fieldProof q m => some (q, .fieldProof m)
  | .proofRun q p d => some (q, .proofRun p d)
  | .fence q l d r p => some (q, .fence l d r p)
  | .capSet q w => some (q, .capSet w)
  | .energyRead q => some (q, .energyRead)
  | .twinMode q m => some (q, .twinMode m)
  | .twinDetach q => some (q, .twinDetach)
  | .fwStage q src last off d => some (q, .fwStage src last off d)
  | .fwActivate q => some (q, .fwActivate)
  | .settingsGet q k => some (q, .settingsGet k)
  | .settingsSet q k v => some (q, .settingsSet k v)
  | .warmReset q => some (q, .warmReset)
  | .blockReset q l t => some (q, .blockReset l t)
  | .attest q n m => some (q, .attest n m)
  | .secTransition q t k g => some (q, .secTransition t k g)
  | .trafficGen q p => some (q, .trafficGen p)
  | .telemetryRead q sel i n h => some (q, .telemetryRead sel i n h)
  | _ => none

/-- A command slot as collection leaves it (R554): its state TAKEN, the command counted. -/
def State.taken (s : State) (q : Req) : State := (s.take q.src).count (xreg .cmdCount) 1

/-- The commands of a host slot are collected here, and `u` is the state they are judged in. -/
def State.collects (s : State) (q : Req) (u : State) : Prop :=
  ∃ t, s.opens = some t ∧ u = t.taken q ∧ q.src.isSideband = false ∧ u.rdBit (xreg .secState) 4 = false

end Sys2Proof.Machine
end

