-- ==== Sys2Proof/WellFormed.lean ====
section
/-!
DEFINITION. Well-formed commands: what a command's operands must be for it to stand for anything the spec describes.
-/
namespace Sys2Proof

open Sys2Proof.Machine

/-- A received slot: its start tick is that of a slot position, its header 32 bytes, its payload 2,560 (11_links_and_twin.md
R431, R435). -/
def Machine.RxSlot.wf (x : RxSlot) : Bool := x.tick % 128 == 0 && x.head.length == 32 && x.payload.length == 2560

/-- A received tramline slot (11_links_and_twin.md R435, R443). -/
def Machine.RxTram.wf (x : RxTram) : Bool := x.head.length == 32 && x.payload.length == 2560

/-- Well-formed commands: a packet carries its own opcode (14_host_and_management.md R560), data have the length of
their access (10_memory_system.md R405, R416), addresses lie in their window (R548, R594). -/
def Instr.wf (i : Instr) : Bool :=
  match i with
  | .formeLoad q _ => q.op == 0x0101
  | .formeArm q _ _ => q.op == 0x0102
  | .formeDisarm q => q.op == 0x0103
  | .runAt q => q.op == 0x0201
  | .haltAt q => q.op == 0x0202
  | .gearAt q _ => q.op == 0x0203
  | .cancel q _ _ => q.op == 0x0204
  | .snapshot q _ _ _ _ _ => q.op == 0x0301
  | .pageRetire q _ _ => q.op == 0x0302
  | .dmaRead q _ => q.op == 0x0303
  | .dmaWrite q _ => q.op == 0x0304
  | .streamOpen q _ => q.op == 0x0305
  | .streamClose q _ => q.op == 0x0306
  | .fieldProof q _ => q.op == 0x0401
  | .proofRun q _ _ => q.op == 0x0402
  | .fence q _ _ _ _ => q.op == 0x0403
  | .capSet q _ => q.op == 0x0501
  | .energyRead q => q.op == 0x0502
  | .twinMode q _ => q.op == 0x0601
  | .twinDetach q => q.op == 0x0602
  | .fwStage q _ _ _ _ => q.op == 0x0701
  | .fwActivate q => q.op == 0x0702
  | .settingsGet q _ => q.op == 0x0703
  | .settingsSet q _ _ => q.op == 0x0704
  | .warmReset q => q.op == 0x0705
  | .blockReset q _ _ => q.op == 0x0706
  | .attest q nonce _ => q.op == 0x0801 && nonce.length == 32
  | .secTransition q _ key sig => q.op == 0x0802 && key.length == 133 && sig.length == 132
  | .trafficGen q _ => q.op == 0x0901
  | .telemetryRead q _ _ _ _ => q.op == 0x0902
  | .hostSlotWrite addr bytes => decide (addr + bytes.length ≤ 0x100000)
  | .commandCollection _ => true
  | .pendingCommandDue _ => true
  | .sidebandMessage _ bytes => decide (64 ≤ bytes.length)
  | .sidebandFreeCollection => true
  | .mctpControl _ => true
  | .getVersion _ => true
  | .getCapabilities _ => true
  | .negotiateAlgorithms _ _ _ => true
  | .getDigests _ => true
  | .getCertificate _ _ _ _ => true
  | .challenge _ _ nonce => nonce.length == 32
  | .getMeasurements _ _ _ nonce => nonce.length == 32
  | .sidebandPrivateWrite offset _ => decide (offset < 0x4000000)
  | .sidebandPrivateRead => true
  | .monitorLine line => line.all fun b => b != 10 && b != 13
  | .help => true
  | .peek addr _ => decide (addr < 0x4000000)
  | .poke addr _ => decide (addr < 0x4000000)
  | .sticky _ => true
  | .faults _ => true
  | .time => true
  | .tg _ _ _ _ _ _ _ => true
  | .audit _ _ _ => true
  | .colophon => true
  | .bootlog => true
  | .jtagIdcode => true
  | .jtagAccess addr _ => decide (addr < 0x4000000)
  | .jtagScan => true
  | .registerWrite _ addr _ _ => decide (addr < 0x4000000)
  | .registerReadClear _ addr => decide (addr < 0x4000000)
  | .shadowLoRead _ addr => decide (addr < 0x4000000)
  | .hiRead _ addr => decide (addr < 0x4000000)
  | .debugRead _ addr => decide (addr < 0x4000000)
  | .htSetLoWrite _ _ => true
  | .htConfigWrite _ _ => true
  | .htNodeIdWrite _ _ => true
  | .cdPartitionWrite _ _ _ => true
  | .tuImposeWrite _ _ _ => true
  | .pwrVtabWrite _ _ _ _ => true
  | .secQuoinWrite _ _ => true
  | .secDebugCtlWrite _ _ => true
  | .ldSpareWrite _ _ _ _ => true
  | .hbmCfgWrite _ _ _ => true
  | .hbmUeAddrHiRead _ _ => true
  | .secAccessAddrRead _ => true
  | .tgStart _ _ _ _ => true
  | .tgStop _ _ _ _ _ => true
  | .tgRunDone _ _ => true
  | .fuseProg _ _ => true
  | .fuseProgDone _ => true
  | .mMma _ _ => true
  | .grpOpen _ _ => true
  | .grpClose _ _ => true
  | .runPromotion _ upsets => upsets.all fun e => decide (e.1 < 4096)
  | .checksumComparison _ => true
  | .proofResult _ => true
  | .wWrite _ _ => true
  | .wWriteComplete _ => true
  | .vAdd _ _ _ _ => true
  | .vSub _ _ _ _ => true
  | .vMul _ _ _ _ => true
  | .vFma _ _ _ _ _ => true
  | .vRcp _ _ _ => true
  | .vRsq _ _ _ => true
  | .vExp _ _ _ => true
  | .vSum _ _ _ => true
  | .vLd _ _ _ _ => true
  | .vSt _ _ _ _ => true
  | .vLdg _ _ _ _ _ => true
  | .vSplat _ _ _ => true
  | .xLd _ _ => true
  | .xSt _ _ => true
  | .xSend _ _ => true
  | .xRecv _ _ => true
  | .xPush _ _ => true
  | .xPop _ _ => true
  | .xRacc _ _ => true
  | .xIload _ _ => true
  | .xWtbl _ _ => true
  | .xDtbl _ _ => true
  | .xEng _ _ => true
  | .xMon _ _ => true
  | .moveLineLand _ _ _ => true
  | .galleyPushLand _ _ => true
  | .aAdd _ _ _ _ => true
  | .aSub _ _ _ _ => true
  | .aAnd _ _ _ _ => true
  | .aShl _ _ _ _ => true
  | .aShr _ _ _ _ => true
  | .aAddi _ _ _ _ => true
  | .aAndi _ _ _ _ => true
  | .aShli _ _ _ _ => true
  | .aShri _ _ _ _ => true
  | .lLoop _ _ _ => true
  | .lWait _ _ => true
  | .lWaitExpiry _ => true
  | .lIdle _ _ => true
  | .lIdleExpiry _ => true
  | .lArm _ => true
  | .lEntry _ _ => true
  | .lHalt _ => true
  | .lSkip _ _ _ _ => true
  | .engineBlockArrive _ _ => true
  | .sow _ => true
  | .pack _ => true
  | .drain _ => true
  | .gather _ => true
  | .pick _ => true
  | .engineCommandDone _ _ => true
  | .updateInvocationStart _ => true
  | .updateInvocationEnd _ => true
  | .uAdd _ _ _ _ => true
  | .uSub _ _ _ _ => true
  | .uMul _ _ _ _ => true
  | .uFma _ _ _ _ _ => true
  | .uDiv _ _ _ _ => true
  | .uSqrt _ _ _ => true
  | .uRsq _ _ _ => true
  | .uSign _ _ _ => true
  | .uAbs _ _ _ => true
  | .uClamp _ _ _ _ _ => true
  | .uLd _ _ _ => true
  | .uSt _ _ _ => true
  | .uStw _ _ _ _ => true
  | .uEnd _ => true
  | .accumulateArrive x => decide (x.window < 256) && decide (x.scales ≤ x.bytes.length)
  | .windowOpen _ _ => true
  | .windowSeal _ _ => true
  | .ringStart _ _ => true
  | .ringBlockReceive _ _ => true
  | .gleanCompare _ _ _ _ => true
  | .hbmAccess _ _ _ data _ => data.all fun b => b.length == 64
  | .sharedCacheAccess _ _ _ data _ => data.all fun b => b.length == 128
  | .refreshStep => true
  | .hbmTempReading _ _ => true
  | .patrolScrub _ _ => true
  | .phyCalibration _ _ => true
  | .retirementCopy _ _ => true
  | .retireCopyDone _ => true
  | .dieTempReading _ _ => true
  | .droopTrip _ _ => true
  | .droopRelease _ => true
  | .energyPeriod dom _ => dom.length == 96
  | .furrowBoundary => true
  | .stepBoundary _ => true
  | .spareBankLoad _ => true
  | .verdictTick _ => true
  | .commitTick _ => true
  | .suspectEventArrive _ => true
  | .slotSend port lane => decide (lane.val < portLanes port)
  | .slotReceive port lane x => x.wf && decide (lane.val < portLanes port)
  | .accumSlotReceive port lane x => x.wf && decide (lane.val < portLanes port)
  | .capacitySlotReceive port lane x => x.wf && decide (lane.val < portLanes port)
  | .fabricSlot _ line => line.all fun b => decide (b.length ≤ 2048)
  | .codewordReceive _ _ => true
  | .tramlineSend _ => true
  | .tramlineReceive port lane x => x.wf && decide (lane.val < portLanes port)
  | .heartbeatMissing => true
  | .laneFailure _ => true
  | .laneTrained _ _ => true
  | .trainTimeout _ => true
  | .failedRetry _ => true
  | .lossOfSignal _ => true
  | .epochFrame pulses => decide ((pulses.map (·.rise)).Pairwise (· < ·))
  | .referenceLoss _ => true
  | .holdoverTimeout => true
  | .lostToAcquire => true
  | .runStart _ => true
  | .formeHalt _ => true
  | .gearVoltageRise _ => true
  | .gearSwitch _ => true
  | .gearVoltageFall _ => true
  | .regionPowerOn _ => true
  | .replayMailbox _ => true
  | .replayStart _ _ => true
  | .twinReplayRequest _ line => line.length == 128
  | .automaticFieldProofEnd _ _ => true
  | .fieldProofEnd _ => true
  | .blockProofEnd _ => true
  | .clockLockLoss _ => true
  | .clockLockReturn _ => true
  | .coldReset _ => true
  | .bootStageTimeout => true
  | .fundamentalReset => true
  | .watchdogExpiry _ _ => true
  | .brownOut => true
  | .supplyRemoval => true
  | .inputLevelChange _ => true
  | .overvolt => true
  | .pcFault _ => true
  | .fuseIntegrityFail => true
  | .tamper => true
  | .latchPowerOff => true
  | .fwStageCheckDone iv => iv.length == 12
  | .fwTrialConfirm _ => true
  | .fwTrialTimeout => true
  | .romLoader _ _ _ => true
  | .perstRelease _ => true
  | .hallRefReturn _ => true
  | .linkDieOvertemp _ => true
  | .controlDieOvertemp => true
  | .dmaTransferDone _ _ => true
  | .dynamicAddressAssigned _ => true
  | .doeDiscovery _ => true
  | .undefinedOpcode _ _ => true

end Sys2Proof
end

