-- ==== Sys2Proof/Certificates/Slice0/Obligations.lean ====
section
/-!
DEFINITION. The statements. Each names the rules of spec/ it formalises; what a statement leaves out is unchanged where
it gives the next state by an equation, and is not claimed where it gives parts of it only.
-/

open Sys2Proof
open Sys2Proof.Machine

/-! ### The machine -/

/-- A step runs the command at the front of the queue on the state with the queue's rest. -/
def Obligations.StepRunsFront : Prop :=
  ∀ (c : Instr) (rest : List Instr) (s : State),
    Machine.step { s with pending := c :: rest } = Machine.exec c { s with pending := rest }

/-- On an empty queue a step always answers a next state, with the queue still empty (log 2, DESIGN CHOICE: the passing
of time is no command). While the package boots that is the next boot stage, else one tick. -/
def Obligations.StepIdles : Prop :=
  ∀ s : State, s.pending = [] → ∃ t, Machine.step s = .next t ∧ t.pending = []

/-- Commands leave one after another, first in, first out, and no command is lost or added: a step takes the front
command away and leaves exactly the others, whatever the command and the state, and it always answers a next state:
every command of the table completes, from every state and with every operand. -/
def Obligations.QueueFifo : Prop :=
  ∀ (c : Instr) (rest : List Instr) (s t : State), (∃ u, Machine.exec c s = .next u)
    ∧ (s.pending = c :: rest → (∃ u, Machine.step s = .next u) ∧ (Machine.step s = .next t → t.pending = rest))

/-- What the enclave holds only moves forward (R638, R644, R646, R658): whatever the command and the state, a fuse bit
that reads 1 still reads 1 after a step, the fused security state has lost no bit, the tamper latch and the revocation
of the owner key stay, and IDK does not come back. -/
def Obligations.FusesNeverReturn : Prop :=
  ∀ (s t : State), Machine.step s = .next t →
    (∀ a b, (s.fuse a).getLsbD b = true → (t.fuse a).getLsbD b = true)
    ∧ (∀ b, s.sec.fused.getLsbD b = true → t.sec.fused.getLsbD b = true)
    ∧ (s.sec.tampered = true → t.sec.tampered = true) ∧ (s.sec.revoked = true → t.sec.revoked = true)
    ∧ (s.sec.idkGone = true → t.sec.idkGone = true)

/-- The fallow state stays (R32, R603): whatever the state, no command makes a fallow unit, region, die or link die
serve again but BLOCK_PROOF_END, and the resets that take the fallow state anew from flash (R621). -/
def Obligations.FallowStays : Prop :=
  ∀ (c : Instr) (s t : State), Machine.exec c s = .next t → (∀ f, c ≠ .blockProofEnd f) →
    (∀ st, c ≠ .coldReset st) → c ≠ .fundamentalReset → c ≠ .supplyRemoval →
    (∀ u ∈ s.fen.units, u ∈ t.fen.units) ∧ (∀ r ∈ s.fen.regions, r ∈ t.fen.regions)
    ∧ (∀ d ∈ s.fen.dies, d ∈ t.fen.dies) ∧ (∀ k ∈ s.fen.lds, k ∈ t.fen.lds)

/-- The machine after reset (R580, R591, R602, R608, R637): Standby, its boot sequence to run; no forme loaded or
armed, no command waiting; quoins clear, every lane-sparing bit 0; nothing fallow; its memories empty. The memories'
contents and what the flash holds are the model's choice (logs 4 and 12). The contacts (R674, R678, R679): each leg of
each lane at its column and row, the low-speed signals, the supply; and what the package drives (R607, R680): nothing
with 72 V absent, FAULT_N low while the pin is asserted, a dead link die's lanes quiet. -/
def Obligations.ResetLeaves : Prop :=
  (
        let s := State.reset
        s.pending = [] ∧ s.power.mode = .standby ∧ s.power.stage = .rom ∧ s.powerState = 0 ∧ s.booting = true
        ∧ (∀ p, (s.part p).forme = none ∧ (s.part p).armed = false ∧ (s.part p).running = false)
        ∧ s.host.jobs = [] ∧ (∀ i, s.slotState i = 0 ∧ s.replyEmpty i = true)
        ∧ s.rd (xreg .secQuoin) = 0 ∧ s.rd (xreg .htSlipCnt) = 0 ∧ s.rd (xreg .rstCause) = 0
        ∧ (∀ k : LinkDie, s.rd ⟨.ldSpareLo, k.val, 0, 0⟩ = 0) ∧ (∀ d : Die, s.rd (dreg .cdStep d) = 0 ∧ s.rd (dreg .cdPage d) = 0)
        ∧ s.fen = FenceS.reset ∧ s.faultPin = false ∧ s.replacePin = false
        ∧ (∀ d a, (s.die d).cache.byte a = 0) ∧ s.replays = [] ∧ s.links.queue = [])
  ∧ ((∀ (k : LinkDie) (n : Fin 50), let l : Lane := ⟨k, n⟩
      contact (10 + 2 * n.val) (20 + 30 * k.val) = some (.laneTx l true)
      ∧ contact (11 + 2 * n.val) (20 + 30 * k.val) = some (.laneTx l false)
      ∧ contact (10 + 2 * n.val) (22 + 30 * k.val) = some (.laneRx l true)
      ∧ contact (11 + 2 * n.val) (22 + 30 * k.val) = some (.laneRx l false)
      ∧ contact (10 + 2 * n.val) (21 + 30 * k.val) = some .gnd)
    ∧ contact 47 112 = some (.laneRx ⟨3, 18⟩ false) ∧ portOfLane ⟨3, 18⟩ = (40, 2)
    ∧ contact 90 130 = some .perst ∧ contact 91 130 = some .faultN ∧ contact 83 126 = some .hallEpoch
    ∧ (∀ i : Fin 8, contact (93 + i.val) 132 = some (.flashDq i))
    ∧ (∀ c r, 120 ≤ c → c < 136 → r < 8 → contact c r = some .v72 ∧ contact c (r + 8) = some .rtn72)
    ∧ (∀ c r, 140 ≤ c → contact c r = none ∧ contact r c = none)
    ∧ ∀ (s : State) (x : Signal) (l : Lane) (p : Bool), (s.power.mode = .off → s.drive x = .released)
      ∧ (s.power.mode ≠ .off → s.drive .faultN = if s.faultPin then .level false else .released)
      ∧ (s.linkDead l.ld = true → s.drive (.laneTx l p) = .released))

/-- The counters of memory, of lanes and of reductions (R367, R423, R460), and of droop and cap cycles: they are 32
bits that no write changes, read 0 at reset, and hold at 0xFFFF_FFFF; a cold and a fundamental reset clear them,
FORME_LOAD clears those of the reductions, a warm reset keeps them all, and so does a block reset of a link die its
lanes' counters. That a reset of the other blocks keeps theirs is read from the table of R667 (DEDUCED, log 25). -/
def Obligations.CountersAreKept : Prop :=
  ∀ (s : State) (q : Req) (r : Reg) (n : Nat) (v : Word) (who : Requester) (w : WarmRun) (k : Keeps) (g : BootStage)
    (p : Part) (f : Forme) (d : Die),
    let lanes := [RegName.ldLaneCw, .ldLaneUcw, .ldLaneBlank]
    let sums := [RegName.cdRedExhCnt, .cdRedGleanCnt, .cdRedMismCnt, .cdRedNanCnt, .cdRedUnfCnt]
    let droops := [RegName.pwrDroopCyc, .pwrCapCyc, .pwrDroopEv]
    r.name ∈ [RegName.hbmCeCnt, .hbmUeCnt, .hbmRefuseCnt, .hbmScrubPass, .scCeCnt] ++ lanes ++ sums ++ droops →
    (s.ownWrite who r v).rd r = s.rd r
    ∧ State.reset.rd r = 0
    ∧ ((s.count r n).rd r).toNat = min ((s.rd r).toNat + n) 0xFFFFFFFF
    ∧ (s.afterReset k g).rd r = 0
    ∧ (s.warmReset q).rd r = s.rd r ∧ (s.warmBlocks w).rd r = s.rd r ∧ s.warmEnd.rd r = s.rd r
    ∧ (∀ level target, (s.resetBlock level target).rd r = s.rd r)
    ∧ (d ∈ s.partDies p → ∀ m ∈ sums, (s.loadForme p f).rd (dreg m d) = 0)

/-- Element codes (R121, R124): the ternary codes, and an element under the scale code of its block. -/
def Obligations.ElementsDecode : Prop :=
  (Elem.t2.decode 0 = .zero false ∧ Elem.t2.decode 1 = .ofInt 1 0 ∧ Elem.t2.decode 3 = .ofInt (-1) 0
    ∧ Elem.t2.decode 2 = .zero false)
  ∧ ∀ (t : Elem) (s c : Nat), s ≤ 255 →
    (s = 255 → decodeScaled t s c = .nan)
    ∧ (∀ n m e, s < 255 → t.decode c = .fin n m e → decodeScaled t s c = .fin n m (e + ((s : Int) - 127)))
    ∧ (s < 255 → (t.decode c = .nan ∨ ∃ n, t.decode c = .inf n) → decodeScaled t s c = t.decode c)

/-! ### The tensor unit -/

/-- Every A-slot operation whose slot may issue completes with its result on the way to its register; a0 takes none
(R246); a shift whose immediate has a bit above its five is a NOP that raises OP_BAD (R224). Nothing but the unit's own
slot mark and pending result changes. a0 reads 0 whatever the register file holds (R246). -/
def Obligations.ASlotResults : Prop :=
  (∀ (s : State) (u : LU) (p : PU) (d a b : Fin 16) (imm : Half), s.issuer u .a = some p →
      let x := s.unit p
      let out := fun (v : Word) => Host.Outcome.next (s.setUnit p
        (if d = 0 then x.mark .a else { x.mark .a with apend := x.apend ++ [(d, v)] }))
      let imm12 := BitVec.ofNat 12 imm.toNat
      Machine.exec (.aAdd u d a b) s = out (x.areg a + x.areg b)
      ∧ Machine.exec (.aSub u d a b) s = out (x.areg a - x.areg b)
      ∧ Machine.exec (.aAnd u d a b) s = out (x.areg a &&& x.areg b)
      ∧ Machine.exec (.aShl u d a b) s = out (x.areg a <<< ((x.areg b).toNat % 32))
      ∧ Machine.exec (.aShr u d a b) s = out (x.areg a >>> ((x.areg b).toNat % 32))
      ∧ Machine.exec (.aAddi u d a imm) s = out (x.areg a + imm12.signExtend 32)
      ∧ Machine.exec (.aAndi u d a imm) s = out (x.areg a &&& imm12.setWidth 32)
      ∧ (imm12.toNat < 32 → Machine.exec (.aShli u d a imm) s = out (x.areg a <<< imm12.toNat)
        ∧ Machine.exec (.aShri u d a imm) s = out (x.areg a >>> imm12.toNat))
      ∧ (32 ≤ imm12.toNat → Machine.exec (.aShli u d a imm) s = .next ((s.marked p .a).tuFlag u tuOpBad)
        ∧ Machine.exec (.aShri u d a imm) s = .next ((s.marked p .a).tuFlag u tuOpBad)))
  ∧ (∀ x : UnitS, x.areg 0 = 0)

/-- Every L-slot operation whose slot may issue completes, and changes the sequencer as R247 to R255 say; an L.WAIT
whose tick has come and a taken test of a flag against itself hold nothing. An L.LOOP or L.IDLE of count 0, an L.SKIP
before SEG_END, and a slot whose opcode the tables do not list act as a NOP that raises OP_BAD; a fifth loop or one
that leaves its body raises LOOP_BAD (R224, R248, R250, R252). A wait ends in the cycle its tick, or its count, has
come, and only the hold changes (R248, R251). -/
def Obligations.LSlotRuns : Prop :=
  (∀ (s : State) (u : LU) (p : PU) (c : Fin 16) (len skip entry : Fin 1024) (t n : Fin 16384) (flag : Fin 16)
      (sense : Bool), s.issuer u .l = some p →
      let x := (s.unit p).mark .l
      let out := fun (k : Ctl) => Host.Outcome.next (s.setUnit p { x with ctl := k })
      Machine.exec (.lArm u) s = out { x.ctl with armed := true }
      ∧ Machine.exec (.lEntry u entry) s = out { x.ctl with entry := entry.val }
      ∧ Machine.exec (.lHalt u) s = out { x.ctl with newHold := .halted }
      ∧ (s.tickIn < s.waitEnd u.region t.val →
          Machine.exec (.lWait u t) s = out { x.ctl with newHold := .untilTick t.val })
      ∧ (s.waitEnd u.region t.val ≤ s.tickIn → Machine.exec (.lWait u t) s = out x.ctl)
      ∧ (n.val ≠ 0 →
          Machine.exec (.lIdle u n) s = out { x.ctl with newHold := .untilCycle (s.cycle u.region + 1 + n.val) })
      ∧ (len.val ≠ 0 → x.ctl.loopBad len.val = false →
          Machine.exec (.lLoop u c len) s = out { x.ctl with newLoop := some (len.val, (x.areg c).toNat) })
      ∧ (x.ctl.segEnd = true → (s.marked p .l).skipFlag u x flag.val = sense →
          Machine.exec (.lSkip u flag sense skip) s = out { x.ctl with skip := skip.val })
      ∧ (x.ctl.segEnd = true → (s.marked p .l).skipFlag u x flag.val ≠ sense →
          Machine.exec (.lSkip u flag sense skip) s = out x.ctl))
  ∧ (∀ (s : State) (u : LU) (p : PU) (c : Fin 16) (len skip : Fin 1024) (flag : Fin 16) (sense : Bool) (sl : Slot),
      (s.issuer u .l = some p →
        let x := (s.unit p).mark .l
        Machine.exec (.lIdle u 0) s = .next ((s.marked p .l).tuFlag u tuOpBad)
        ∧ Machine.exec (.lLoop u c 0) s = .next ((s.marked p .l).tuFlag u tuOpBad)
        ∧ (len.val ≠ 0 → x.ctl.loopBad len.val = true →
            Machine.exec (.lLoop u c len) s = .next ((s.marked p .l).tuFlag u tuLoopBad))
        ∧ (x.ctl.segEnd = false →
            Machine.exec (.lSkip u flag sense skip) s = .next ((s.marked p .l).tuFlag u tuOpBad)))
      ∧ (s.issuer u sl = some p →
        Machine.exec (.undefinedOpcode u sl) s = .next ((s.marked p sl).tuFlag u tuOpBad)))
  ∧ (∀ (s : State) (u : LU) (p : PU), s.carrier u = some p → s.regionIssues u.region = true →
      let x := s.unit p
      let free := Host.Outcome.next (s.setUnit p { x with ctl := { x.ctl with hold := .none } })
      (∀ t, x.ctl.hold = .untilTick t → s.waitEnd u.region t ≤ s.tickIn → Machine.exec (.lWaitExpiry u) s = free)
      ∧ (∀ c, x.ctl.hold = .untilCycle c → c ≤ s.cycle u.region → Machine.exec (.lIdleExpiry u) s = free))

/-- Every V-slot operation on registers whose slot may issue completes: its 64 lanes are on their way to the register
and land after the latency of R258; nothing else of the state changes (R222, R241, R242). A V.LDG of a SHUT group reads
the row that its immediate and its register name, each pair rounded once; of an open group it raises GRP_OPEN_RD
besides (R147, R204, R242). V.LD and V.ST of a local operand outside the galleys in a format they take launch one
flight with their line accesses, and only the unit changes (R241, R257). -/
def Obligations.VSlotRuns : Prop :=
  (∀ (s : State) (u : LU) (p : PU) (vd va vb vc : Fin 16) (imm : Half), s.issuer u .v = some p →
      let x := s.unit p
      let c := s.cycle u.region
      let out := fun (lat : Nat) (v : List Word) => Host.Outcome.next (s.setUnit p
        { x.mark .v with vpend := x.vpend ++ [⟨c + lat, x.nextId, vd, v⟩], nextId := x.nextId + 1 })
      Machine.exec (.vAdd u vd va vb) s = out 4 (List.zipWith fAdd (x.vreg va) (x.vreg vb))
      ∧ Machine.exec (.vSub u vd va vb) s = out 4 (List.zipWith fSub (x.vreg va) (x.vreg vb))
      ∧ Machine.exec (.vMul u vd va vb) s = out 4 (List.zipWith fMul (x.vreg va) (x.vreg vb))
      ∧ Machine.exec (.vFma u vd va vb vc) s =
          out 4 (List.zipWith (fun e c => fFma e.1 e.2 c) ((x.vreg va).zip (x.vreg vb)) (x.vreg vc))
      ∧ Machine.exec (.vRcp u vd va) s = out 8 ((x.vreg va).map vRcp)
      ∧ Machine.exec (.vRsq u vd va) s = out 8 ((x.vreg va).map vRsq)
      ∧ Machine.exec (.vExp u vd va) s = out 12 ((x.vreg va).map vExp)
      ∧ Machine.exec (.vSum u vd va) s = out 8 (List.replicate 64 (treeSum (x.vreg va)))
      ∧ Machine.exec (.vSplat u vd imm) s = out 1 (List.replicate 64 (toF32 (bf16 imm))))
  ∧ (∀ (s : State) (u : LU) (p : PU) (vd : Fin 16) (g : Fin 4) (imm : Fin 64) (reg : Fin 16), s.issuer u .v = some p →
      let x := s.unit p
      let row := (imm.val + (x.areg reg).toNat) % 64
      let lanes := (List.range 64).map fun j => toF32 ((((x.group g).cells[64 * row + j]?).getD .zero).value)
      let t := s.setUnit p { x.mark .v with
        vpend := x.vpend ++ [⟨s.cycle u.region + 5, x.nextId, vd, lanes⟩], nextId := x.nextId + 1 }
      ((x.group g).st = .shut → Machine.exec (.vLdg u vd g imm reg) s = .next t)
      ∧ ((x.group g).st ≠ .shut → Machine.exec (.vLdg u vd g imm reg) s = .next (t.accFlag u accOpenRd)))
  ∧ (∀ (s : State) (u : LU) (p : PU) (v : Fin 16) (desc : Fin 64) (reg : Fin 16), s.issuer u .v = some p →
      let x := s.unit p
      let o := x.opnd desc (x.areg reg)
      let launched := fun (accs : List LineAcc) (k : FlightKind) => Host.Outcome.next (s.setUnit p { x.mark .v with
        flights := x.flights ++ [⟨x.nextId, .v, s.cycle u.region, x.ctl.fetch, x.ctl.verso, [], false, accs, [], .start, k⟩]
        nextId := x.nextId + 1 })
      x.isFar desc = false → o.gal = none →
      (∀ f, o.fmt = some f → f.vectorReads = true → Machine.exec (.vLd u v desc reg) s =
        launched ((o.vLines f).zipIdx.map fun e => ⟨s.cycle u.region + 1, e.1, none, 0, e.2, .read⟩) (.vld v o))
      ∧ (∀ f, o.fmt = some f → (f = .bf16 ∨ f = .fp32) → Machine.exec (.vSt u v desc reg) s =
        launched ((linesOf o.eb (vStore f (x.vreg v)).length).zipIdx.map fun e =>
          ⟨s.cycle u.region + 3, e.1, none, 1, e.2, .data (lineOf o.eb (vStore f (x.vreg v)) e.1) false⟩) .vst))

/-- An M.MMA that may issue while the array is free launches one operation in flight with its extent, rate, runs and
occupancy, and holds the array for that long; no accumulation group changes yet (R188, R189, R191, R236, R237).
GRP_OPEN and GRP_CLOSE that may issue leave their effect to the end of the cycle; a GRP_OPEN takes a free proof engine
where it asks for one, and a group that is open already raises GRP_REOPEN; one with LOAD launches the reads of its 64 x
64 FP32 source, two lines a cycle, and one whose source is refused raises FMT_BAD, reads the lines of a local one and
changes no group; a GRP_CLOSE of a SHUT group changes nothing (R116, R200, R202, R216, R258). -/
def Obligations.MatrixLaunches : Prop :=
  (∀ (s : State) (u : LU) (p : PU) (o : MmaOp) (rate : RateClass), s.issuer u .m = some p →
      let x := s.unit p
      let c := s.cycle u.region
      let a := (x.opnd o.adesc (x.areg o.areg)).aligned
      let b := (x.opnd o.bdesc (x.areg o.breg)).aligned
      let k := a.presented.2
      x.mBusy ≤ c → x.isFar o.adesc = false → x.isFar o.bdesc = false → pairRate a b = some rate →
      extentsOk a b = true → (x.group o.group).st ≠ .shut →
      ∃ (y : UnitS) (accs : List LineAcc) (pops : List PopDue) (m : MmaFlight),
        Machine.exec (.mMma u o) s = .next (s.setUnit p y)
        ∧ y = { x.mark .m with
            flights := x.flights ++ [⟨x.nextId, .m, c, x.ctl.fetch, x.ctl.verso, [], false, accs, pops, .start, .mma m⟩]
            nextId := x.nextId + 1, mBusy := c + m.occ }
        ∧ m.op = o ∧ m.a = a ∧ m.b = b ∧ m.rate = some rate ∧ m.k = k ∧ m.runs = k / m.runLen ∧ m.next = 0
        ∧ m.dead = false ∧ m.late = false ∧ m.proof = ((x.group o.group).st == .proof)
        ∧ m.occ = (if m.proof then 16 else 1)
            * (if o.oga.isSome ∨ o.ogb.isSome then max (rate.cycles k) k else rate.cycles k))
  ∧ (∀ (s : State) (u : LU) (p : PU) (g : Fin 4) (pr : Bool) (desc : Fin 64) (reg : Fin 16), s.issuer u .m = some p →
      let x := s.unit p
      let o : OpenOp := ⟨g, false, pr, desc, reg⟩
      let r := (s.marked p .m).releaseProof u g
      let opened := fun (t : State) (bound : Bool) => t.setUnit p { x.mark .m with mPend := some (.open_ g false bound) }
      ((x.group g).st = .shut → pr = false → Machine.exec (.grpOpen u o) s = .next (opened r false))
      ∧ ((x.group g).st = .shut → pr = true → (r.clusterS u.cluster).proof = none →
          Machine.exec (.grpOpen u o) s = .next (opened (r.modCluster u.cluster fun c =>
            { c with proof := some ⟨u.inCluster, g, List.replicate 4096 .zero, false, false⟩ }) true))
      ∧ ((x.group g).st ≠ .shut → pr = false → Machine.exec (.grpOpen u o) s =
          .next (opened (((s.marked p .m).accFlag u accReopen).releaseProof u g) false))
      ∧ ((x.group g).st = .shut → pr = false → x.loadBusy ≤ s.cycle u.region →
        let src := (x.opnd desc (x.areg reg)).aligned
        let load := Machine.exec (.grpOpen u { o with load := true }) s
        (src.loadable = true → x.isFar desc = false → load = .next (r.setUnit p { x.mark .m with
          mPend := some (.open_ g true false)
          flights := x.flights ++ [⟨x.nextId, .m, s.cycle u.region, x.ctl.fetch, x.ctl.verso, [], false,
            (src.lines.take 128).zipIdx.map fun e => ⟨s.cycle u.region + 1 + e.2 / 2, e.1, none, 0, e.2, .read⟩, [], .start,
            .load g false⟩]
          nextId := x.nextId + 1, loadBusy := s.cycle u.region + 64 }))
        ∧ (x.isFar desc = true → load =
            .next ((s.setUnit p { x.mark .m with loadBusy := s.cycle u.region + 64 }).tuFlag u tuFmtBad))
        ∧ (src.loadable = false → x.isFar desc = false →
          let laid := (x.sized desc (x.areg reg)).aligned
          load = .next ((s.setUnit p { (x.mark .m).readsOnly .m (s.cycle u.region) (loadAccs (s.cycle u.region) laid) []
            with loadBusy := s.cycle u.region + 64 }).tuFlag u tuFmtBad)))
      ∧ ((x.group g).st ≠ .shut → Machine.exec (.grpClose u g) s =
          .next (s.setUnit p { x.mark .m with mPend := some (.close g x.ctl.fetch x.ctl.verso) }))
      ∧ ((x.group g).st = .shut → Machine.exec (.grpClose u g) s = .next (s.marked p .m)))

/-- RUN_PROMOTION adds the next due run of the oldest operation to its OPEN group, raises the flags its promotions
raise, and changes no other group; the run of an operation left behind by its GRP_CLOSE raises ACC_LATE and adds
nothing, that of one issued into a SHUT group adds nothing (R194 to R197, R201, R202, R238); that of one that a step
boundary has crossed leaves its group undefined, which here is free values (R269, log 1). CHECKSUM_COMPARISON of a
closed group whose terms all agree ends the comparison and clears CHK_FAIL; one that mismatches records the lowest row
and column in TU_CHK and counts as an event (R203, R467, R468). PROOF_RESULT rounds the exact accumulators of the
cluster's engine once into the group, with zero compensation, and frees the engine (R218); a group that a step boundary
has crossed is undefined, which here is free values (R269, log 1). In a suppressed cycle neither does anything (R256).
-/
def Obligations.MatrixGroupsFinish : Prop :=
  (∀ (s : State) (u : LU) (p : PU) (ups : List (Nat × Word)) (f : Flight) (m : MmaFlight),
      s.carrier u = some p → (s.region u.region).suppressed = false →
      (s.unit p).nextRun (s.cycle u.region) = some (f, m) →
      let s1 := s.setUnit p ((s.unit p).ranRun f m)
      let g := promoteRun (m.rate.getD .c16) (f.sides m (s.unit p).sp).1 (f.sides m (s.unit p).sp).2 m.runLen m.next ups
        (s1.checksOn u.d) ((s.unit p).group m.op.group)
      (m.late = false → m.dead = false → m.proof = false → m.crossed = false → m.base = none → f.accs = [] →
        m.next + 1 < m.runs → Machine.exec (.runPromotion u ups) s
          = .next ((s1.modUnit p fun y => y.setGroup m.op.group g.1).accFlags u g.2))
      ∧ (m.late = true → m.crossed = false → m.next + 1 < m.runs →
        Machine.exec (.runPromotion u ups) s = .next (s1.accFlag u accLate))
      ∧ (m.late = false → m.dead = true → m.crossed = false → m.next + 1 < m.runs →
        Machine.exec (.runPromotion u ups) s = .next s1)
      ∧ (m.crossed = true → Machine.exec (.runPromotion u ups) s = .next (s1.crossedRun u p m.op.group)))
  ∧ (∀ (s : State) (u : LU) (p : PU) (d : CmpDue), s.carrier u = some p →
      ((s.region u.region).suppressed = true →
        Machine.exec (.checksumComparison u) s = .next s ∧ Machine.exec (.proofResult u) s = .next s)
      ∧ ((s.region u.region).suppressed = false → u.alt = none → (s.unit p).dueCmp false (s.cycle u.region) = some d →
        s.checksOn u.d = true → d.crossed = false →
        let q := compareGroup (s.rdFld (dreg .cdChkCfg u.d) 7 4) d.cells
        (q = (none, none, false) → Machine.exec (.checksumComparison u) s =
          .next ((s.setUnit p ((s.unit p).endCmp d false)).wrBit (ureg .tuStat u) tuChkFail false))
        ∧ (∀ r c, q = (r, c, false) → (r.isSome = true ∨ c.isSome = true) → Machine.exec (.checksumComparison u) s =
          .next ((s.setUnit p ((s.unit p).endCmp d true)).mismatch u d.group r c d.bundle d.verso))))
  ∧ (∀ (s : State) (u : LU) (p : PU) (d : CmpDue) (e : ProofS), s.carrier u = some p →
      (s.region u.region).suppressed = false → (s.unit p).dueCmp true (s.cycle u.region) = some d →
      (s.clusterS u.cluster).proof = some e → e.host = false →
      let x := s.unit p
      let lands := fun (t : State) (cells : List Pair) => Host.Outcome.next ((t.setUnit p ((x.endCmp d false).setGroup d.group
        { x.group d.group with cells := cells })).modCluster u.cluster fun c => { c with proof := none })
      (d.crossed = false → Machine.exec (.proofResult u) s = lands s (e.acc.map fun a => ⟨a.result, 0⟩))
      ∧ (d.crossed = true → Machine.exec (.proofResult u) s = lands { s with free := s.free + 1 } (freeCells s.free)))

/-- The exact accumulator of a proof engine does not depend on the order of what is added (R215, R217): any two orders
of the same values give the same accumulator. -/
def Obligations.ProofSumOrderFree : Prop :=
  ∀ (vs ws : List Val) (a : Exact), vs.Perm ws → vs.foldl Exact.add a = ws.foldl Exact.add a

/-- W.WRITE that may issue while the writer is free and whose profile, source and destination are not refused launches
one operation in flight that latches its profile, mask, limits and source (of a group its pairs, of PAIR those of two),
and is over after its input's 64 elements a cycle, 12 cycles more, and 4 where it rotates (R155, R204, R239, R258).
W_WRITE_COMPLETE adds the counts of the oldest write that is due to the monitor set of its profile, in the live bank,
or in the previous-step bank where a step boundary has crossed it; a guarded profile leaves WTRIP at the operation's
own trips (R178, R180, R182 to R184). -/
def Obligations.WritesRun : Prop :=
  (∀ (s : State) (u : LU) (p : PU) (o : WriteOp), s.issuer u .w = some p →
      let x := s.unit p
      let c := s.cycle u.region
      let pr := Profile.ofWord (x.profileWord o.prof)
      let g : Fin 4 := ⟨o.src.val % 4, Nat.mod_lt _ (by decide)⟩
      let gs := if pr.pair then [g, ⟨(g.val ^^^ 1) % 4, Nat.mod_lt _ (by decide)⟩] else [g]
      let src := (x.opnd o.src (x.areg o.sreg)).aligned
      let dst := (x.opnd o.dst (x.areg o.dreg)).aligned
      let size := if !o.srcg then src.presented else if !pr.pair then (64, 64)
        else if pr.rotCol then (128, 64) else (64, 128)
      x.wBusy ≤ c → x.isFar o.dst = false → pr.refused o.srcg dst.tr size.1 size.2 = false →
      (o.srcg = true → o.src.val < 4 ∧ ∀ k ∈ gs, (x.group k).st = .shut) →
      (o.srcg = false → x.isFar o.src = false ∧ ∃ f, src.fmt = some f ∧ f.writerReads = true) →
      ∃ (y : UnitS) (accs : List LineAcc) (pops : List PopDue) (w : WFlight),
        Machine.exec (.wWrite u o) s = .next (s.setUnit p y)
        ∧ y = { x.mark .w with
            flights := x.flights ++ [⟨x.nextId, .w, c, x.ctl.fetch, x.ctl.verso, [], false, accs, pops, .start, .write w⟩]
            nextId := x.nextId + 1, wBusy := c + max 1 (size.1 * size.2 / 64) }
        ∧ w.profile = x.profileWord o.prof ∧ w.mask = x.signMask pr.rotMask ∧ w.limits = x.tripLimits pr.mon
        ∧ w.cells = (if o.srcg then gs.flatMap fun k => (x.group k).cells else []) ∧ w.src = (if o.srcg then none else some src)
        ∧ w.rows = size.1 ∧ w.cols = size.2 ∧ w.refused = false
        ∧ w.done = c + max 1 (size.1 * size.2 / 64) + 12 + (if pr.rotEn then 4 else 0))
  ∧ (∀ (s : State) (u : LU) (p : PU) (f : Flight) (w : WFlight), s.carrier u = some p →
      (s.region u.region).suppressed = false → (s.unit p).dueWrite (s.cycle u.region) = some (f, w) →
      w.refused = false → w.blank = false →
      let pr := Profile.ofWord w.profile
      let k := (w.output f.caught (s.unit p).sp).counts
      let counted := s.setUnit p { s.unit p with flights := (s.unit p).flights.map fun e =>
        if e.id = f.id then { e with kind := .write { w with counted := true } } else e }
      let add := fun (trip : Bool × Bool) => counted.modLu u fun l =>
        if w.crossed then { l with prev := addSet l.prev pr.mon k trip } else { l with live := addSet l.live pr.mon k trip }
      (pr.guard = false → Machine.exec (.wWriteComplete u) s = .next (add (false, false)))
      ∧ (pr.guard = true → Machine.exec (.wWriteComplete u) s = .next ((add (trips w.limits k)).wrBit
          (ureg .tuStat u) tuWtrip ((trips w.limits k).1 || (trips w.limits k).2))))

/-- X.ST, X.SEND and X.RACC read their source and launch outbound, X.LD, X.RECV and X.ILOAD launch inbound: where the
engine is free, the fields the move does not use are 0, the port cycles are the unit's and the target is its
partition's, one move is in flight afterwards with its lines, its fixed latency and its tag; only the unit changes, and
the fabric slot that the move fills: one that finds none carries nothing (R16, R224, R231, R235, R243 to R245, R265 to
R267). The local moves of the X engine, X.PUSH, X.POP, X.WTBL, X.DTBL and X.MON, and the command block of an X.ENG:
where the engine is free, the fields the move does not use are 0 and the operand has the lines that the operation
takes, one move is in flight afterwards and the engine is held for the operation's cycles (R227, R243, R258, R262,
R372). -/
def Obligations.MovesLaunch : Prop :=
  (∀ (s : State) (u : LU) (p : PU) (o : MoveOp) (f : Far), s.issuer u .x = some p →
      let x := s.unit p
      let c := s.cycle u.region
      let g := (s.region u.region).gear
      let l := x.opnd o.ldesc (x.areg o.lreg)
      let owned := fun (k : MoveKind) (inb : Bool) (e n : Nat) => k.stray o = false
          ∧ x.portHeld g inb e n = false
          ∧ s.portOwned u.cluster (.unit ⟨u.inCluster, Nat.mod_lt _ (by decide)⟩) inb e n = true
      let slotTag := fun (furrow : Nat) => (furrow * 128 + o.slot.val) % 2 ^ 39
      let launched := fun (r : Host.Outcome State Fault Refusal) (k : MoveKind) (lines : List Nat) (accs : List LineAcc)
          (pops : List PopDue) => ∃ m : MoveFlight,
        let fab := (s.marked p .x).fabricTake u.d f (k.inbound == some true)
        r = .next (fab.1.setUnit p { x.mark .x with
          flights := x.flights ++ [⟨x.nextId, .x, c, x.ctl.fetch, x.ctl.verso, [], false, accs, pops, .start, .move m⟩]
          nextId := x.nextId + 1 })
        ∧ m.kind = k ∧ m.lines = lines ∧ m.total = lines.length ∧ m.next = 0 ∧ m.far = some f
        ∧ m.fixed = farTicks u.d f ∧ m.issueTick = s.now ∧ m.dead = !fab.2 ∧ m.carried = fab.2 ∧ m.bank = !x.ctl.verso
        ∧ m.tag = slotTag (if k = .recv then s.now / 16384 - o.fsel.toNat else s.now / 16384 + o.fsel.toNat)
      let out := fun (e : Host.Outcome State Fault Refusal) (k : MoveKind) => launched e k l.moveLines
        (l.moveLines.zipIdx.map fun e => ⟨c + e.2 / 2, e.1, l.gal, 0, e.2, .read⟩) (sourceAccs c l l.moveLines).2
      let n := (l.moveLines.length + 1) / 2
      x.xBusy ≤ c → x.far o.fdesc (x.areg o.freg) = some f → s.farAllowed u.d f = true →
      (l.fmt.isSome = true → x.isFar o.ldesc = false → l.moveLines ≠ [] → l.moveLines.length ≤ 64 →
        ((f.space = .cache ∨ f.space = .hbm) → owned .st false (g.edges s.now) n → out (Machine.exec (.xSt u o) s) .st)
        ∧ (f.space = .send → owned .send false (g.edges s.now) n → out (Machine.exec (.xSend u o) s) .send)
        ∧ (f.space = .red → owned .racc false (g.edges s.now) n → out (Machine.exec (.xRacc u o) s) .racc)
        ∧ ((f.space = .cache ∨ f.space = .hbm) → owned .ld true (g.edges (s.now + farTicks u.d f) + 1) n →
          launched (Machine.exec (.xLd u o) s) .ld l.moveLines [] [])
        ∧ (f.space = .recv → owned .recv true (g.edges (s.now + farTicks u.d f) + 1) n →
          launched (Machine.exec (.xRecv u o) s) .recv l.moveLines [] []))
      ∧ (owned .iload true (g.edges (s.now + farTicks u.d f) + 1) 128 → (f.space = .cache ∨ f.space = .hbm) →
        launched (Machine.exec (.xIload u o) s) .iload (List.range 256) [] []))
  ∧ (∀ (s : State) (u : LU) (p : PU) (o : MoveOp) (l : Opnd), s.issuer u .x = some p →
      let x := s.unit p
      let c := s.cycle u.region
      let g := (s.region u.region).gear
      let reads := l.moveLines.zipIdx.map fun e => (⟨c + e.2 / 2, e.1, l.gal, 0, e.2, .read⟩ : LineAcc)
      let pops := (sourceAccs c l l.moveLines).2
      let launched := fun (e : Host.Outcome State Fault Refusal) (k : MoveKind) (occ : Nat) (accs : List LineAcc)
          (pops : List PopDue) => ∃ m : MoveFlight,
        e = .next (s.setUnit p { x.mark .x with
          xBusy := c + occ
          flights := x.flights ++ [⟨x.nextId, .x, c, x.ctl.fetch, x.ctl.verso, [], false, accs, pops, .start, .move m⟩]
          nextId := x.nextId + 1 })
        ∧ m.kind = k ∧ m.lines = l.moveLines ∧ m.next = 0 ∧ m.opnd = some l
        ∧ (k = .eng → m.tag = s.now / 16384 * 2 + o.slot.val % 2 ∧ m.fixed = (x.areg o.freg).toNat)
      x.xBusy ≤ c → x.xSource o = some l →
      (l.moveLines.length = 16 →
        (MoveKind.push.stray o = false → launched (Machine.exec (.xPush u o) s) .push 8
          (reads ++ (List.range 16).map fun n => ⟨c + n / 2 + 3, n, some o.gal, 1, n, .tile false⟩) pops)
        ∧ (MoveKind.pop.stray o = false → launched (Machine.exec (.xPop u o) s) .pop 8
          ((List.range 16).map fun n => ⟨c + n / 2, n, some o.gal, 0, n, .read⟩) [⟨c, o.gal, 0, 0⟩])
        ∧ (MoveKind.dtbl.stray o = false → launched (Machine.exec (.xDtbl u o) s) .dtbl 8 reads pops)
        ∧ (l.gal = none → MoveKind.mon.stray o = false → launched (Machine.exec (.xMon u o) s) .mon 8
          (l.moveLines.zipIdx.map fun e => ⟨c + e.2 / 2 + 1, e.1, none, 1, e.2, .claim⟩) []))
      ∧ (l.moveLines.length = 2 → MoveKind.wtbl.stray o = false → launched (Machine.exec (.xWtbl u o) s) .wtbl 1 reads pops)
      ∧ (MoveKind.eng.stray o = false → l.gal = none → l.moveLines ≠ [] →
        l.moveLines.length ≤ 64 → x.portHeld g false (g.edges s.now) ((l.moveLines.length + 1) / 2) = false →
        s.portOwned u.cluster (.unit ⟨u.inCluster, Nat.mod_lt _ (by decide)⟩) false (g.edges s.now)
          ((l.moveLines.length + 1) / 2) = true →
        launched (Machine.exec (.xEng u o) s) .eng 2 reads pops))

/-- MOVE_LINE_LAND takes the next line of a move in flight where it goes once its tick has come: a load brings the
bytes of the cache or the stack to the line's access, a receive those of its buffer, an X.ILOAD writes them to the bank
that is not active, a store writes its line to the target, a send puts it in its buffer (R235, R243, R258, R265 to
R267). GALLEY_PUSH_LAND puts the next whole tile of an operation at the end of its galley, where the last of its lines
has its access in this cycle at the cycle's end; a full galley drops it with one suspect event and GALLEY_OVER, a
galley that is switched off drops it too (R260, R262, R264); the tile of a move that a step boundary has crossed leaves
its galley undefined (R269, log 1). -/
def Obligations.MovesLand : Prop :=
  (∀ (s : State) (u : LU) (p : PU) (f : Flight) (m : MoveFlight) (t : Far) (e : LineEcc) (b : List Byte),
      s.carrier u = some p → (s.unit p).flight f.id = some f → f.kind = .move m → m.far = some t → m.next < m.total →
      m.dead = false → u.alt = none → m.landTick (s.region u.region).gear ≤ s.now →
      let n := m.next
      let line := (m.lines[n]?).getD 0
      let read := s.farRead (m.issuer u.d) t (t.addr + 128 * n) e
      let wrote := s.farWrite (m.issuer u.d) t (t.addr + 128 * n) b
      let here := fun (t : State) => (⟨t.cycle u.region, line, none, 1, n, .land (b.map some) false⟩ : LineAcc)
      let r := Machine.exec (.moveLineLand u f.id e) s
      (m.kind = .ld → m.gal = none → m.own = true → read.2 = .data b →
        r = .next (read.1.modUnit p fun x => x.moved f m [here read.1]))
      ∧ (∀ id, m.kind = .recv → m.gal = none → m.own = true → m.checked = true → t.bufId = some id →
        b = ((s.recvBuf id).data.drop (128 * n)).take 128 → b.length = 128 →
        r = .next (s.modUnit p fun x => x.moved f m [here s]))
      ∧ (m.kind = .iload → m.own = true → read.2 = .data b → m.bank = !(read.1.unit p).ctl.verso →
        let x := read.1.unit p
        ∃ y, r = .next (read.1.setUnit p y) ∧ y.sp = x.sp ∧ y.groups = x.groups ∧ y.ctl = x.ctl
          ∧ y.verso = (if m.bank then x.verso.write (128 * n) b else x.verso)
          ∧ y.recto = (if m.bank then x.recto else x.recto.write (128 * n) b))
      ∧ (m.kind = .st → f.caught.lines.get? (0, n) = some b → wrote.2 ≠ .error →
        r = .next (wrote.1.modUnit p fun x => x.moved f m []))
      ∧ (m.kind = .send → f.caught.lines.get? (0, n) = some b →
        r = .next ((s.sendInto m t b f.caught.blank).modUnit p fun x => x.moved f m [])))
  ∧ (∀ (s : State) (u : LU) (p : PU) (f : Flight) (m : MoveFlight) (k : Nat) (g : Fin 8) (b : List Byte),
      s.carrier u = some p → ((s.region u.region).suppressed = false ∨ f.onHall = true) →
      (s.unit p).flight f.id = some f →
      f.kind = .move m → (s.unit p).nextTile f (s.cycle u.region) = some (k, g, b) →
      let x := s.unit p
      let after := s.setUnit p (x.pushedOne f)
      (f.tileAccs k = [] →
        (after.galleyOn u g = true → (x.galley g).count < 16 →
          (m.own = true → Machine.exec (.galleyPushLand u f.id) s =
            .next (after.pushTile u p g (x.tileBytes f g k b) f.caught.blank f.caught k))
          ∧ (m.own = false → Machine.exec (.galleyPushLand u f.id) s =
            .next { after.modUnit p fun y => y.freeGalley s.free g with free := s.free + 1 }))
        ∧ ((after.galleyOn u g = false ∨ 16 ≤ (x.galley g).count) →
          Machine.exec (.galleyPushLand u f.id) s = .next (after.moveSuspect u.d m (ureg .tuStat u) tuGalleyOver)))
      ∧ (f.tileAccs k ≠ [] → Machine.exec (.galleyPushLand u f.id) s =
        .next (s.setUnit p (x.setFlight { f with armed := true }))))

/-! ### The engines of a die -/

/-- ENGINE_BLOCK_ARRIVE hands a whole command block to its engine. A free engine whose block reads as a command runs
it, with its occupancy, and is BUSY; a busy one raises OVERLAP, an ill-formed block CMD_BAD, with one suspect event
each (R373 to R376, R396). PACK, DRAIN, GATHER and PICK begin once, when the engine has started and its clock runs; a
GATHER and a PICK send the request for row j in engine cycle 8 + j·c, a DRAIN places item j there; a command that has
begun does not begin again. ENGINE_COMMAND_DONE frees an engine whose occupancy is over and clears BUSY (R376, R378,
R384, R387, R392, R394, R396). SOW sends the row of item j in its port cycles from engine cycle 8 + j·c on, 256 B in
each, and passes over the items of Index FFFFFFFFH; a row that arrives is contributed to the window at the row that the
item's Index names, or is answered with an error where its die is closed (R376, R379, R380, R617); a line in a port
cycle that is another's is dropped with PORT_COLLIDE (R377). -/
def Obligations.EngineCommandsRun : Prop :=
  (∀ (s : State) (u : LU) (p : PU) (f : Flight) (m : MoveFlight) (q : Part) (b : List Byte),
      s.carrier u = some p → (s.unit p).flight f.id = some f → f.kind = .move m → m.kind = .eng → f.accs = [] →
      f.issue + (m.total + 1) / 2 + 2 ≤ s.cycle u.region → (s.region u.region).suppressed = false →
      s.partOf u.d = some q →
      b = (List.range m.total).flatMap (fun n => f.caught.lines.getD (0, n) zeroLine) →
      let c := u.cluster
      let rake := m.tag % 2 == 1
      let s1 := s.modUnit p fun x => x.dropFlight f.id
      let add := BitVec.ofNat 32 m.fixed
      let ord := (m.who.map (·.2)).getD 0
      let bad := fun (k : Nat) => match m.who with
        | some (q, ord) => (s1.raiseBit (engReg c rake) k true).suspectOrd q ord c.d
        | none => s1.raiseBit (engReg c rake) k true
      (((s.clusterS c).engine rake).isSome = true → Machine.exec (.engineBlockArrive u f.id) s =
        .next (bad (if rake then 1 else 2)))
      ∧ ((s.clusterS c).engine rake = none → parseBlock rake (s.routes c) b add = none →
        Machine.exec (.engineBlockArrive u f.id) s = .next (bad (if rake then 2 else 3)))
      ∧ (∀ e, (s.clusterS c).engine rake = none → parseBlock rake (s.routes c) b add = some e →
        Machine.exec (.engineBlockArrive u f.id) s =
          .next ((s1.modCluster c fun x => x.setEngine rake (some ⟨e, u, p, q, ord, m.who.isNone, m.tag / 2,
            f.issue + (m.total + 1) / 2 + 3, e.occupancy (s.routes c), false, [], none, [], none, []⟩)).setBusy c rake true)))
  ∧ (∀ (s : State) (c : ClusterId) (e : EngRun) (rake : Bool), (s.clusterS c).engine rake = some e →
      let m := e.cmd
      let k := (m.rowBytes + 255) / 256
      let made := s.modCluster c fun x => x.setEngine rake (some { e with made := true })
      let begun := fun (t : State) (plan : List (Nat × EngStep)) =>
        t.modCluster c fun x => x.setEngine rake (some { e with made := true, plan := plan })
      let ready := e.start ≤ s.cycle c.region ∧ (s.region c.region).suppressed = false
        ∧ s.clockOut (.region c.region) = false ∧ e.made = false
      let requests := (List.range m.items.length).flatMap fun j =>
        [(8 + j * k, EngStep.take (.fetch j)), (8 + j * k, .send)]
      (m.op = .pack → rake = false → ready → Machine.exec (.pack c) s = .next (made.pack c { e with made := true }))
      ∧ (m.op = .drain → rake = false → ready → ∃ t, Machine.exec (.drain c) s = .next t
        ∧ ((t.clusterS c).drill.map fun r => r.made) = some true
        ∧ (∀ j < m.items.length, ∃ r, (t.clusterS c).drill = some r ∧ (8 + j * k, EngStep.item j) ∈ r.plan)
        ∧ t.regs = s.regs ∧ t.units = s.units ∧ t.links = s.links ∧ (t.clusterS c).rake = (s.clusterS c).rake)
      ∧ (m.op = .gather → rake = true → ready →
        (((s.tablesOf c).bind fun t => t.tables[m.target]?).isSome = true →
          Machine.exec (.gather c) s = .next (begun s requests))
        ∧ ((s.tablesOf c).bind (fun t => t.tables[m.target]?) = none →
          Machine.exec (.gather c) s = .next (made.engSuspect c true { e with made := true } 2)))
      ∧ (m.op = .pick → rake = true → ready → (s.clusterS c).fly ≠ [] →
        Machine.exec (.pick c) s = .next (begun s requests))
      ∧ (m.op = .pick → rake = true → ready → (s.clusterS c).fly = [] →
        Machine.exec (.pick c) s = .next (begun (s.modCluster c fun x => { x with blankBufs := [] }) requests))
      ∧ (e.made = true → rake = false → Machine.exec (.pack c) s = .next s ∧ Machine.exec (.drain c) s = .next s)
      ∧ (e.made = true → e.start + e.occ ≤ s.cycle c.region → Machine.exec (.engineCommandDone c rake) s =
        .next ((s.modCluster c fun x => x.setEngine rake none).wrBit (engReg c rake) 8 false)))
  ∧ (∀ (s : State) (c : ClusterId) (e : EngRun), (s.clusterS c).drill = some e → e.made = false → e.cmd.op = .sow →
      e.start ≤ s.cycle c.region → (s.region c.region).suppressed = false → s.clockOut (.region c.region) = false →
      let m := e.cmd
      let k := (m.rowBytes + 255) / 256
      let row := fun (i : Item) => (m.rows[i.src]?).getD []
      let sent := fun (i : Item) (j : Nat) => if i.index = 0xFFFFFFFF then [] else
        (8 + j * k, EngStep.take (.sow (s.sowDie c m.target) m.target i.index.toNat m.col0 (row i)))
          :: (List.range k).map (fun n => (8 + j * k + n, EngStep.pair n ((m.rowBytes + 127) / 128)))
          ++ [(8 + j * k + k - 1, .send)]
      Machine.exec (.sow c) s = .next (s.modCluster c fun x => { x with
        drill := some { e with made := true, plan := m.items.zipIdx.flatMap fun q => sent q.1 q.2 } })
      ∧ (∀ (t : State) (at_ row : Nat) (d : Die) (b : List Byte) (lost : List Nat),
        let arrived := t.flyArrives c ⟨at_, e, .sow d m.target row m.col0 b, lost⟩
        (t.dieClosed d = true → arrived = if e.guest then t.raiseBit (dreg .cdIso c.d) 2 true
          else (t.raiseBit (dreg .cdIso c.d) 2 true).suspectOrd e.part e.ord c.d)
        ∧ (t.dieClosed d = false →
          arrived = (t.intake d m.rowBytes).sowRow d c.port m.target row m.col0 m.fmt m.cols b lost))
      ∧ (∀ (t : State) (r : EngRun) (n : Nat), (t.clusterS c).drill = some r → r.cur.isSome = true →
        t.engPort c false false = false → 2 * n + 1 < m.rowLines →
        t.engStep c false (.pair n m.rowLines) = ((t.modCluster c fun x => { x with
          drill := some { r with lost := r.lost ++ [2 * n, 2 * n + 1] } }).engSuspect c false r 4).engSuspect c false r 4))

/-- UPDATE_INVOCATION_START runs the next invocation of the schedule from its START tick on, once its predecessor has
ended: a good one loads its first band, where the forme gives the HBM bytes that it moves any slots (R16), and lasts
the ticks of R301, one whose program or formats are refused sets its bits with one suspect event and only lasts (R292,
R297, R298, R301). UPDATE_INVOCATION_END ends one whose ticks and bands are over (R301). U.END ends the band: its
output streams are written, and the next band is loaded while bands are left (R293, R295). Of an invocation without
outputs the last U.END leaves only the band count and the time of the last write. -/
def Obligations.UpdatesRun : Prop :=
  (∀ (s : State) (d : Die) (p : Part) (fd : FormeDie) (v : Invocation) (r : InvRun), s.running d = some p →
      s.formeDie d = some fd → s.clockOut (.uncore d) = false → s.dieClosed d = false →
      let u := (s.die d).upd
      let begun : InvRun := ⟨u.next, v, s.now, s.now + v.ticks (s.queueRate d fd.queueBytes), s.now / 16384, 0, 0, .empty, .empty, .empty,
        .empty, false⟩
      let bad := v.progBad ((fd.programs[v.prog]?).getD [])
      let fmt := v.streams.all Stream.fmtOk
      let begins := fun (t : State) (r : InvRun) => t.modDie d fun x => { x with
        upd := { x.upd with run := some r, next := x.upd.next + 1 } }
      (u.run = none → fd.schedule[u.next]? = some v → v.start ≤ s.stepTick p → s.invFurrow p v = s.now / 16384 →
        (bad = false → fmt = true → 8 ≤ v.rows →
          (fd.queueBytes ≠ 0 ∨ v.hbmBytes = 0 →
            Machine.exec (.updateInvocationStart d) s = .next ((begins s begun).loadBand d begun))
          ∧ (fd.queueBytes = 0 → v.hbmBytes ≠ 0 →
            Machine.exec (.updateInvocationStart d) s = .next (begins s begun)))
        ∧ ((bad = true ∨ fmt = false) →
          let s1 := if bad = false then s.raiseSuspect (dreg .cdUpdStat d) 1
            else if fmt = true then s.raiseSuspect (dreg .cdUpdStat d) 2
            else (s.raiseSuspect (dreg .cdUpdStat d) 2).raiseBit (dreg .cdUpdStat d) 1 true
          Machine.exec (.updateInvocationStart d) s = .next (begins s1 { begun with
            bad := true, began := s1.now, ends := s1.now + v.ticks (s1.queueRate d fd.queueBytes)
            furrow := s1.now / 16384 })))
      ∧ (u.run = some r → r.ends ≤ s.now → r.inv.rows / 8 ≤ r.band → Machine.exec (.updateInvocationEnd d) s =
        .next (s.modDie d fun x => { x with upd := { x.upd with run := none } })))
  ∧ (∀ (s : State) (die : Die) (r : InvRun), s.uAt die = some (r, uWord 0x3F 0 0 0 0 0 false) →
      Machine.exec (.uEnd die) s = .next (s.endBand die r)
      ∧ ((∀ t ∈ r.inv.streams, t.en = false ∨ t.output = false) → r.inv.rows / 8 ≤ r.band + 1 →
        Machine.exec (.uEnd die) s = .next (s.modDie die fun x => { x with
          upd := { x.upd with wrote := s.now, run := some { r with band := r.band + 1 } } })))

/-- Every program word of the update engine that is at its turn runs on the whole band, element by element in E40, and
leaves its result in its register or stream; nothing else changes but the program's place, and after word 63 the band
ends (R294 to R296, R302, R303). -/
def Obligations.UpdateWordsRun : Prop :=
  ∀ (s : State) (die : Die) (r : InvRun) (x : Word) (d : Fin 16) (a b c : Fin 32) (st : Fin 8),
    s.uAt die = some (r, x) →
    let u := (s.die die).upd
    let o := r.operand u.row
    let set := fun (r' : InvRun) =>
      let r' := { r' with pc := r.pc + 1 }
      let t := s.modDie die fun y => { y with upd := { y.upd with run := some r' } }
      Host.Outcome.next (if r.pc = 63 then t.endBand die r' else t)
    let reg := fun (v : List E40) => set { r with regs := r.regs.set d.val v }
    (x = uWord 1 d a b 0 0 false → Machine.exec (.uAdd die d a b) s = reg (eLift2 Val.add (o a) (o b)))
    ∧ (x = uWord 2 d a b 0 0 false → Machine.exec (.uSub die d a b) s = reg (eLift2 Val.sub (o a) (o b)))
    ∧ (x = uWord 3 d a b 0 0 false → Machine.exec (.uMul die d a b) s = reg (eLift2 Val.mul (o a) (o b)))
    ∧ (x = uWord 4 d a b c 0 false → Machine.exec (.uFma die d a b c) s =
        reg (eLift3 (fun x y z => (x.mul y).add z) (o a) (o b) (o c)))
    ∧ (x = uWord 5 d a b 0 0 false → Machine.exec (.uDiv die d a b) s = reg (eLift2 Val.div (o a) (o b)))
    ∧ (x = uWord 6 d a 0 0 0 false → Machine.exec (.uSqrt die d a) s = reg (eLift1 Val.sqrt (o a)))
    ∧ (x = uWord 7 d a 0 0 0 false → Machine.exec (.uRsq die d a) s = reg ((o a).map uRsqE))
    ∧ (x = uWord 8 d a 0 0 0 false → Machine.exec (.uSign die d a) s = reg (eLift1 uSignVal (o a)))
    ∧ (x = uWord 9 d a 0 0 0 false → Machine.exec (.uAbs die d a) s = reg (eLift1 Val.abs (o a)))
    ∧ (x = uWord 10 d a b c 0 false → Machine.exec (.uClamp die d a b c) s =
        reg (eLift3 uClampVal (o a) (o b) (o c)))
    ∧ (x = uWord 11 d 0 0 0 st false → Machine.exec (.uLd die d st) s = reg (r.ins.getD st.val []))
    ∧ (x = uWord 12 0 a 0 0 st false → Machine.exec (.uSt die a st) s =
        set { r with outs := r.outs.set st.val (o a) })
    ∧ (x = uWord 13 0 a 0 0 st false → Machine.exec (.uStw die a st false) s =
        set { r with words := r.words.set st.val ((o a).map fun y => stwWord y none) })

/-- ACCUMULATE_ARRIVE queues a contribution of a format the window takes, into a window it fits in that is open and
whose SEAL has not come, with its blocks in row order, behind the bytes that came in before it (R330 to R332, R336);
one of another format, or into a window that is not open, adds nothing and is a suspect event. In one tick the adders
take in 1,024 bytes and apply what is in by then (R338). Taking a block claims the banks of its lines, adds each
element, converted to the block's grid, to its line element, raises COUNT by one however many lines of the contribution
it holds, and counts the elements that rounded to zero; a clamped element counts, makes the step suspect and requests a
cold start; a block that has its 256 contributions takes none (R333 to R335), and one whose line is dropped or bad
takes none (R418, R419). -/
def Obligations.ContributionsAdd : Prop :=
  ∀ (s : State) (x : Contribution) (w : RedWindow) (f : Fmt), s.dieClosed x.die = false → Fmt.ofCode x.fmt = some f →
    s.window x.die x.window = some w →
    let d := x.die
    let sown := s.isSown d x.window
    let ok := w.takes sown f = true ∧ x.cols % 64 = 0 ∧ x.cols ≠ 0 ∧ x.rows % f.rowUnit = 0 ∧ x.index % 64 = 0
    let s1 := s.modRed d fun r => { r with owed := r.owed + x.bytes.length }
    let fits := (s.die d).red.opened.contains x.window = true ∧ (∃ p, s.running d = some p ∧ s.stepTick p < w.sealAt)
      ∧ x.rows ≠ 0
      ∧ x.index + (x.rows - 1) * 64 * w.pitch + x.cols ≤ w.blocks * 64
    let rd : Reader := fun v => (x.bytes[v]?).getD 0
    let row := fun (n : Nat) => n / (x.cols / 64)
    let col := fun (n : Nat) => n % (x.cols / 64) * 64
    let block := fun (n : Nat) => (List.range 64).map fun j =>
      (f.rawAt rd 0 x.rows x.cols (row n) (col n + j), f.scaleAt rd x.scales x.rows x.cols (row n) (col n + j))
    let place := fun (n : Nat) => (x.index + row n * 64 * w.pitch + col n) / 64
    let work : AdderWork := ⟨x.port.val, s.now, (s1.die d).red.owed, x.window,
      (List.range (x.rows * (x.cols / 64))).map fun n => (place n, block n)⟩
    (ok → fits → Machine.exec (.accumulateArrive x) s = .next (s1.modRed d fun r => { r with work := work.queue r.work }))
    ∧ (ok → ¬ fits → Machine.exec (.accumulateArrive x) s = .next (s1.redSuspect d 1))
    ∧ (¬ ok → Machine.exec (.accumulateArrive x) s = .next (s1.redSuspect d 2))
    ∧ (∀ (t : State) (y : AdderWork), (t.die d).red.work = [y] → y.behind ≤ 1024 → t.clockOut (.uncore d) = false →
      t.dieClosed d = false → t.window d y.window = some w →
      t.adderTick d = ((y.blocks.map (·.1)).eraseDups).foldl (fun t k =>
          t.takeBlock d y.window w (t.isSown d y.window) k ((y.blocks.filter (·.1 = k)).map (·.2)))
        (t.modRed d fun r => { r with owed := r.owed - 1024, work := [] }))
    ∧ (w.glean = false → ∀ (t : State) (k : Nat) (parts : List (List (Val × Nat))),
      let b := t.redBlock d w k
      let r := b.takeAll w.sp32 sown parts
      let served := t.blockServe d w k .adders
      let added := (served.1.setRedBlock d w k r.1).count (dreg .cdRedUnfCnt d) r.2.1
      let takes := t.takeBlock d x.window w sown k parts
      ((sown = true ∨ b.count < 256) → served.2 = true → r.2.2 = false → takes = added)
      ∧ ((sown = true ∨ b.count < 256) → served.2 = true → r.2.2 = true → takes =
        ((added.count (dreg .cdRedExhCnt d) 1).redSuspect d 5).coldRequest d)
      ∧ ((sown = true ∨ b.count < 256) → served.2 = false → takes = served.1)
      ∧ (sown = false → 256 ≤ b.count → takes = t.redSuspect d 3))
    ∧ (∀ (b : RedBlock) (xs : List (Val × Nat)) (ys : List (List (Val × Nat))),
      let r := b.takeAll w.sp32 sown (xs :: ys)
      r.1.count = if sown then b.count else b.count + 1)

/-- The contributions of an integer window may arrive in any order (R333): whichever of two comes first, every element
of the block reads the same afterwards. -/
def Obligations.ContributionsCommute : Prop :=
  ∀ (b : RedBlock) (xs ys : List (Val × Nat)) (i : Nat), b.lines.length = 64 → xs.length = 64 → ys.length = 64 →
    let both := fun (u v : List (Val × Nat)) => ((b.take false false u).1.take false false v).1
    (both xs ys).value false i = (both ys xs).value false i
    ∧ (both xs ys).count = b.count + 2 ∧ (both xs ys).s = b.s

/-- WINDOW_OPEN makes the window take contributions: every block empty, with the scale that its history agrees on, and
the checker's copies of it gone; its history is read for that; a sown window starts at zeros with COUNT 1; without a
good history an integer window raises a suspect event and a cold-start request (R328, R353, R355, R357, R360, R380). A
window that is open or sealed already is left as it is. WINDOW_SEAL closes an open window to contributions. A window of
a ring whose blocks all have the contributions they expect changes nothing else; a window without a ring is recorded in
its verso history then (R335, R352, R354). GLEAN_COMPARE of a sealed block counts one comparison, once for each block
and step; a copy that is not the owner's block counts a mismatch and makes the step suspect (R359 to R362); without a
fabric slot of the forme between the two dies it is not made (R16). -/
def Obligations.WindowsRun : Prop :=
  (∀ (s : State) (d : Die) (wi : Fin 256) (p : Part) (w : RedWindow), s.running d = some p →
      s.window d wi.val = some w → w.openAt ≤ s.stepTick p → s.clockOut (.uncore d) = false → s.dieClosed d = false →
      let r := (s.die d).red
      let sown := s.isSown d wi.val
      let s0 := s.readHistory d wi.val w
      let cleared := (List.range w.blocks).foldl (fun t k => t.setRedBlock d w k ⟨
        if sown then List.replicate 64 0 else (t.redBlock d w k).lines, t.agreed d wi.val k, false, false,
        if sown then 1 else 0⟩) (s0.intake d (if sown then 256 * w.blocks else 0))
      let opened := (cleared.modRed d fun r => { r with opened := wi.val :: r.opened }).modRed w.checker fun r =>
        { r with copies := r.copies.drop fun e => e.1 = d && e.2.1 == wi.val }
      (r.opened.contains wi.val = false → r.sealedW.contains wi.val = false →
        ((s0.histGood d wi.val = true ∨ w.sp32 = true) → Machine.exec (.windowOpen d wi) s = .next opened)
        ∧ (s0.histGood d wi.val = false → w.sp32 = false → Machine.exec (.windowOpen d wi) s =
          .next ((opened.redSuspect d 7).coldRequest d)))
      ∧ ((r.opened.contains wi.val = true ∨ r.sealedW.contains wi.val = true) →
        Machine.exec (.windowOpen d wi) s = .next s))
  ∧ (∀ (s : State) (d : Die) (wi : Fin 256) (p : Part) (w : RedWindow), s.running d = some p →
      s.window d wi.val = some w → w.sealAt ≤ s.stepTick p → s.clockOut (.uncore d) = false → s.dieClosed d = false →
      (s.die d).red.opened.contains wi.val = true →
      (s.isSown d wi.val = true ∨ ∀ k, k < w.blocks → (s.redBlock d w k).count = w.expected) →
      let shut := s.modRed d fun r => { r with
        opened := r.opened.filter (· ≠ wi.val), sealedW := wi.val :: r.sealedW }
      (w.ring = true → Machine.exec (.windowSeal d wi) s = .next shut)
      ∧ (w.ring = false → (∀ k, k < w.blocks → (s.redBlock d w k).nan = false) →
        Machine.exec (.windowSeal d wi) s =
          .next ((shut.writeHistory d wi.val w fun k => some (none, (List.range 64).map ((shut.redBlock d w k).value w.sp32))).modRed d
            fun r => { r with recorded := wi.val :: r.recorded })))
  ∧ (∀ (s : State) (d owner : Die) (wi : Fin 256) (k : Nat) (p : Part) (w : RedWindow), s.running owner = some p →
      s.window owner wi.val = some w → w.checker = d → s.clockOut (.uncore d) = false → w.glean = true →
      gleaned (s.gleanLog owner) k (s.dieStep owner) = true → k < w.blocks →
      (s.die owner).red.sealedW.contains wi.val = true →
      s.ringAhead owner wi.val k = false → (∀ e ∈ (s.die d).red.ringCopies, e.block ≠ k) →
      (s.redBlock owner w k).count ≠ 0 →
      let copy := (s.die d).red.copies.get? (owner, wi.val, k)
      let way := s.dieWay owner (.die owner) (.die d)
      let counted := (way.1.count (dreg .cdRedGleanCnt d) 1).modRed d fun r => { r with
        compared := (owner, wi.val, k) :: r.compared }
      ((s.die d).red.compared.contains (owner, wi.val, k) = true ∨ way.2 = false →
        Machine.exec (.gleanCompare d owner wi k) s = .next s)
      ∧ ((s.die d).red.compared.contains (owner, wi.val, k) = false → way.2 = true →
        (copy = some (s.redBlock owner w k) → Machine.exec (.gleanCompare d owner wi k) s = .next counted)
        ∧ (∀ c, copy = some c → c ≠ s.redBlock owner w k → Machine.exec (.gleanCompare d owner wi k) s =
          .next ((counted.count (dreg .cdRedMismCnt d) 1).redSuspect d 9))))

/-- RING_START of a one-block entry forms the outgoing CF8 block from the local block alone and fills the entry's send
buffer with it; RING_BLOCK_RECEIVE of a HOP adds the local block to the block that arrived, and of an END stores the
bytes that arrived; each entry runs once, and its block counts as intake: 322 bytes of one that adds, 66 of one that
does not (R338, R341 to R349). What it receives and sends crosses the link-die port in fabric slots of the forme:
without one an END has received nothing, and nothing is sent (R16). -/
def Obligations.RingEntriesRun : Prop :=
  ∀ (s : State) (d : Die) (i : Nat) (p : Part) (e : RingEntry) (w : RedWindow), s.running d = some p →
    s.ringEntry d i = some e → s.window d e.window = some w → s.clockOut (.uncore d) = false → s.dieClosed d = false →
    w.glean = false → e.count = 1 → e.cf16 = false →
    let ag := s.agreed d e.window e.first
    let ran := fun (n : Nat) => (s.modRed d fun r => { r with ringDone := i :: r.ringDone }).intake d n
    let came := (ran e.intake).fabricWay p (.link (portLinkDie e.rxPort e.rxLane)) (.die d)
    let adds := fun (t : State) => t.blockServe d w e.first .adders
    let sent := fun (t : State) (o : RingBlock) =>
      let way := t.fabricWay p (.die d) (.link (portLinkDie e.txPort e.txLane))
      Host.Outcome.next ((if way.2 then way.1.ringTx p e (some o.bytes) else way.1).ringRecord d e.window w)
    (e.action = .end_ → e.intake = 66) ∧ (e.action = .start ∨ e.action = .hop → e.intake = 322) ∧
    ((s.die d).red.ringDone.contains i = true →
      Machine.exec (.ringStart d i) s = .next s ∧ Machine.exec (.ringBlockReceive d i) s = .next s)
    ∧ ((s.die d).red.ringDone.contains i = false → (s.die d).red.sealedW.contains e.window = true →
      (e.action = .start → (adds (ran 322)).2 = true → (formCf8 ag none (s.redBlock d w e.first) w.sp32).2 = false →
        Machine.exec (.ringStart d i) s = sent (adds (ran 322)).1 (formCf8 ag none (s.redBlock d w e.first) w.sp32).1)
      ∧ (∀ pay sc h sat x, s.ringRx p e = some pay → RingBlock.parse false (pay.take 66) = .cf8 sc h sat x →
        (sc = 255 ∨ sc = ag) → came.2 = true →
        (e.action = .hop → (adds came.1).2 = true → (formCf8 ag (some (sc, h, sat, x)) (s.redBlock d w e.first) w.sp32).2 = false →
          Machine.exec (.ringBlockReceive d i) s
            = sent (adds came.1).1 (formCf8 ag (some (sc, h, sat, x)) (s.redBlock d w e.first) w.sp32).1)
        ∧ (e.action = .end_ → Machine.exec (.ringBlockReceive d i) s =
          .next ((came.1.ringStore d e 0 (pay.take 66)).ringRecord d e.window w)))
      ∧ (∀ pay, s.ringRx p e = some pay → e.action = .end_ → came.2 = false →
        Machine.exec (.ringBlockReceive d i) s = .next (came.1.ringRecord d e.window w)))

/-- A carried block is read back from its bytes as it was written, CF8 and CF16 alike (R141 to R144, R343). The bits of
a bundle's slots (R223, R224, R236, R239, R241, R243, R246, R248): the value that a slot's table gives an operation,
with every operand at every value its field admits, spells that operation; a value with a bit set that the operation
does not use, or with an operation code of none, spells none. The bytes 00 11 01 05 begin a bundle with M.MMA on group
1, A from descriptor 4, B from descriptor 5 (R226). -/
def Obligations.CarriedBlocksRoundTrip : Prop :=
  ((∀ (s h : Nat) (sat : Bool) (e : List Int), s < 256 → h < 4 → e.length = 64 → (∀ x ∈ e, -128 ≤ x ∧ x ≤ 127) →
      RingBlock.parse false (RingBlock.cf8 s h sat e).bytes = .cf8 s h sat e)
    ∧ (∀ e : List Half, e.length = 64 → RingBlock.parse true (RingBlock.cf16 e).bytes = .cf16 e))
  ∧ (∀ (u : LU) (d a b c : Fin 16) (g : Fin 4) (n6 : Fin 64) (n10 len : Fin 1024) (t : Fin 16384) (imm : Fin 4096)
      (sh : Fin 32) (h : Half) (f : Bool),
      (∀ (o : MmaOp) (p : OpenOp), let og := fun (e : Option (Fin 8)) => (e.map fun x => x.val + 8).getD 0
        readM u (1 + o.group.val * 2 ^ 4 + o.adesc.val * 2 ^ 6 + o.areg.val * 2 ^ 12 + o.bdesc.val * 2 ^ 16
          + o.breg.val * 2 ^ 22 + og o.oga * 2 ^ 26 + og o.ogb * 2 ^ 30) = .op (.mMma u o)
        ∧ readM u (2 + p.group.val * 2 ^ 4 + p.load.toNat * 2 ^ 6 + p.proof.toNat * 2 ^ 7 + p.desc.val * 2 ^ 8
          + p.areg.val * 2 ^ 14) = .op (.grpOpen u p)
        ∧ readM u (3 + g.val * 2 ^ 4) = .op (.grpClose u g) ∧ readM u (3 + g.val * 2 ^ 4 + 2 ^ 6) = .bad)
      ∧ (∀ o : WriteOp, (o.srcg = true → o.src.val < 4) →
        readW u (1 + o.prof.val * 2 ^ 2 + o.srcg.toNat * 2 ^ 5 + o.src.val * 2 ^ 6 + o.sreg.val * 2 ^ 12
          + o.dst.val * 2 ^ 16 + o.dreg.val * 2 ^ 22 + o.aux.val * 2 ^ 26) = .op (.wWrite u o))
      ∧ (let v2 := fun (op : Nat) => op + d.val * 2 ^ 6 + a.val * 2 ^ 10
        let v3 := fun (op : Nat) => v2 op + b.val * 2 ^ 14
        let mem := fun (op : Nat) => op + n6.val * 2 ^ 22 + c.val * 2 ^ 28
        readV u (v3 1) = .op (.vAdd u d a b) ∧ readV u (v3 2) = .op (.vSub u d a b) ∧ readV u (v3 3) = .op (.vMul u d a b)
        ∧ readV u (v3 4 + c.val * 2 ^ 18) = .op (.vFma u d a b c)
        ∧ readV u (v2 5) = .op (.vRcp u d a) ∧ readV u (v2 6) = .op (.vRsq u d a) ∧ readV u (v2 7) = .op (.vExp u d a)
        ∧ readV u (v2 8) = .op (.vSum u d a)
        ∧ readV u (mem 9 + d.val * 2 ^ 6) = .op (.vLd u d n6 c) ∧ readV u (mem 10 + a.val * 2 ^ 10) = .op (.vSt u a n6 c)
        ∧ readV u (11 + d.val * 2 ^ 6 + g.val * 2 ^ 10 + c.val * 2 ^ 28 + n6.val * 2 ^ 32) = .op (.vLdg u d g n6 c)
        ∧ readV u (12 + d.val * 2 ^ 6 + h.toNat * 2 ^ 32) = .op (.vSplat u d h)
        ∧ readV u (v2 5 + 2 ^ 14) = .bad ∧ readV u 13 = .bad)
      ∧ (∀ o : MoveOp, let x := fun (op : Nat) => op + o.ldesc.val * 2 ^ 5 + o.lreg.val * 2 ^ 11 + o.fdesc.val * 2 ^ 15
          + o.freg.val * 2 ^ 21 + o.slot.val * 2 ^ 25 + o.fsel.toNat * 2 ^ 32 + o.gal.val * 2 ^ 33
        ∀ e ∈ [(1, MoveKind.ld, Instr.xLd u o), (2, .st, .xSt u o), (3, .send, .xSend u o), (4, .recv, .xRecv u o),
            (5, .push, .xPush u o), (6, .pop, .xPop u o), (7, .racc, .xRacc u o), (8, .iload, .xIload u o),
            (9, .wtbl, .xWtbl u o), (10, .dtbl, .xDtbl u o), (11, .eng, .xEng u o), (12, .mon, .xMon u o)],
          (e.2.1.stray o = false → readX u (x e.1) = .op e.2.2) ∧ (e.2.1.stray o = true → readX u (x e.1) = .bad))
      ∧ (let regs := fun (op : Nat) => op + d.val * 2 ^ 4 + a.val * 2 ^ 8
        let r3 := fun (op : Nat) => regs op + b.val * 2 ^ 12
        readA u (r3 1) = .op (.aAdd u d a b) ∧ readA u (r3 2) = .op (.aSub u d a b) ∧ readA u (r3 3) = .op (.aAnd u d a b)
        ∧ readA u (r3 4) = .op (.aShl u d a b) ∧ readA u (r3 5) = .op (.aShr u d a b)
        ∧ readA u (regs 6 + imm.val * 2 ^ 12) = .op (.aAddi u d a (BitVec.ofNat 16 imm.val))
        ∧ readA u (regs 7 + imm.val * 2 ^ 12) = .op (.aAndi u d a (BitVec.ofNat 16 imm.val))
        ∧ readA u (regs 8 + sh.val * 2 ^ 12) = .op (.aShli u d a (BitVec.ofNat 16 sh.val))
        ∧ readA u (regs 9 + sh.val * 2 ^ 12) = .op (.aShri u d a (BitVec.ofNat 16 sh.val))
        ∧ readA u (r3 1 + 2 ^ 16) = .bad ∧ readA u 10 = .bad)
      ∧ ((len ≠ 0 → readL u (1 + c.val * 2 ^ 4 + len.val * 2 ^ 8) = .op (.lLoop u c len))
        ∧ readL u (2 + t.val * 2 ^ 4) = .op (.lWait u t) ∧ (t ≠ 0 → readL u (3 + t.val * 2 ^ 4) = .op (.lIdle u t))
        ∧ readL u 4 = .op (.lArm u) ∧ readL u (5 + n10.val * 2 ^ 4) = .op (.lEntry u n10) ∧ readL u 6 = .op (.lHalt u)
        ∧ readL u (7 + c.val * 2 ^ 4 + f.toNat * 2 ^ 8 + n10.val * 2 ^ 9) = .op (.lSkip u c f n10)
        ∧ readL u (4 + 2 ^ 4) = .bad ∧ readL u 8 = .bad)
      ∧ readSlot u ([0x00, 0x11, 0x01, 0x05] ++ List.replicate 28 0) .m =
        .op (.mMma u ⟨1, 4, 0, 5, 0, none, none⟩)
      ∧ (readM u 0 = .nop ∧ readW u 0 = .nop ∧ readV u 0 = .nop ∧ readX u 0 = .nop ∧ readA u 0 = .nop
        ∧ readL u 0 = .nop))

/-! ### Memory -/

/-- HBM_ACCESS of a die that answers: a write stores its 64 bytes, through the remap table, and a clean read delivers
the bytes that stand there; one bad symbol is corrected and counted, more deliver a blank with its counts, its latched
address and its suspect event; an access in its bank's refresh window is refused (R405, R406, R409, R410).
SHARED_CACHE_ACCESS of a die that answers: the first access of a tick to a bank is served, a write with its bytes, a
read with the bytes that stand there; the second to the same bank is dropped with one suspect event; an offset beyond
the cache reads zeros with a range error (R416, R418, R419). -/
def Obligations.MemoriesAccess : Prop :=
  (∀ (s : State) (d : Die) (i : Issuer) (off a : Nat) (b : List Byte) (upset : Nat), s.powered = true →
      s.dieClosed d = false → s.clockOut (.hbm d) = false → s.resolve d (off / 64 * 64) = some (a, false) →
      let x := s.die d
      let q := x.physical a
      let n := x.symsAt q + upset
      let done := fun (t : State) (r : Delivery) =>
        Host.Outcome.next (t.modDie d fun y => { y with delivered := some r })
      let got := s.modDie d fun y => y.setSyms q n
      let rd := Machine.exec (.hbmAccess d i off none upset) s
      let wrote := if s.inPairs d a then (s.hbmStore d a b).modDie d fun y => { y with
        digest := y.digest + writeDigest d a b } else s.hbmStore d a b
      (s.refuses d a = false →
        (b.length = 64 → Machine.exec (.hbmAccess d i off (some b) upset) s = done wrote (.data b))
        ∧ (n = 0 → rd = done got (.data (x.hbm.bytes q 64)))
        ∧ (n = 1 → rd = done ((got.count (dreg .hbmCeCnt d) 1).raiseBit (dreg .hbmStat d) 5 false a) (.data (x.hbm.bytes q 64)))
        ∧ (2 ≤ n → rd = done ((got.uncorrectable d a 0 6 (i != .host)).chargeAccess i) .blank))
      ∧ (s.refuses d a = true → rd = done (s.refuse d a i) .blank
        ∧ Machine.exec (.hbmAccess d i off (some b) upset) s = done (s.refuse d a i) .blank))
  ∧ (∀ (s : State) (d : Die) (i : Issuer) (off : Nat) (b : List Byte), s.powered = true → s.dieClosed d = false →
      s.clockOut (.uncore d) = false → b.length = 128 →
      let l := off / 128
      let x := s.die d
      let done := fun (t : State) (r : Delivery) =>
        Host.Outcome.next (t.modDie d fun y => { y with delivered := some r })
      let c := i.source d
      let busy := x.banks.any fun e => e.1 == l % 64 && !(c.spread && e.2 == c.rank)
      let claimed := s.modDie d fun y => { y with banks := (l % 64, c.rank) :: y.banks }
      let read := claimed.modDie d fun y => y.setWordBad (l * 16) (y.wordBad (l * 16))
      let bad := (read.die d).lineBad l
      let rd := Machine.exec (.sharedCacheAccess d i off none 0) s
      let wr := Machine.exec (.sharedCacheAccess d i off (some b) 0) s
      (off < 0x10000000 → busy = false →
        wr = done (claimed.modDie d fun y => y.putLine l b) (.data b)
        ∧ (bad = [] → x.blanks.contains l = false → rd = done read (.data (x.cache.bytes (l * 128) 128)))
        ∧ (bad ≠ [] → (∀ e ∈ bad, e.2 < 2) → x.blanks.contains l = false →
          rd = done (read.count (dreg .scCeCnt d) 1) (.data (x.cache.bytes (l * 128) 128)))
        ∧ ((∃ e ∈ bad, 2 ≤ e.2) → ∃ t, rd = done t .blank ∧ t.rdBit (dreg .scStat d) 2 = true))
      ∧ (off < 0x10000000 → busy = true →
        rd = done (s.raiseSuspect (dreg .scStat d) 1 (l * 128)) .blank
          ∧ wr = done (s.raiseSuspect (dreg .scStat d) 1 (l * 128)) .blank)
      ∧ (0x10000000 ≤ off → i = .host →
        rd = done (s.raiseBit (dreg .scStat d) 0 false off) (.data (List.replicate 128 0))))

/-- What a stack access has written, the next read of the same place delivers, whatever the remap table or a page copy
under way do to it (R406, R412, R413). What a cache access has written, the next read of the line delivers in a later
tick (R416, R418). -/
def Obligations.MemoriesReadBack : Prop :=
  (∀ (s t : State) (d : Die) (i j : Issuer) (off a : Nat) (b : List Byte), s.powered = true → s.dieClosed d = false →
      s.clockOut (.hbm d) = false → s.resolve d (off / 64 * 64) = some (a, false) → s.refuses d a = false →
      b.length = 64 → Machine.exec (.hbmAccess d i off (some b) 0) s = .next t →
      ∃ r, Machine.exec (.hbmAccess d j off none 0) t = .next r ∧ (r.die d).delivered = some (.data b))
  ∧ (∀ (s t : State) (d : Die) (i j : Issuer) (off : Nat) (b : List Byte), s.powered = true → s.dieClosed d = false →
      s.clockOut (.uncore d) = false → off < 0x10000000 → b.length = 128 →
      ((s.die d).banks.any fun e => e.1 == off / 128 % 64) = false →
      Machine.exec (.sharedCacheAccess d i off (some b) 0) s = .next t →
      let later := t.modDie d fun x => { x with banks := [] }
      ∃ r, Machine.exec (.sharedCacheAccess d j off none 0) later = .next r ∧ (r.die d).delivered = some (.data b))

/-- The controller's background work. REFRESH_STEP begins the refresh of one bank in every stack of a die that serves
each 64 ticks, and in HOT and FENCED of a second one (R400, R405, R407); PATROL_SCRUB, once a tramline interval in the
first slot of its furrow, reads the next 64 bytes, writes a corrected symbol back, and goes on round all of memory
(R403, R409); PHY_CALIBRATION, in every other tramline interval, recalibrates the next channel (R403; which intervals
those are is the model's choice, log 31). HBM_TEMP_READING at tick 128 of a furrow, the first there, latches the
reading and the highest one, and moves the band: HOT from 96, FENCED from 106, NORMAL again from HOT at 93, and FENCED
only arms its exit, at 100 (R404). RETIREMENT_COPY copies the next 64 bytes of the page to its spare, once in a
tramline interval outside the scrub's slot; RETIRE_COPY_DONE after 1,024 of them puts the page into the remap table and
its flash entry in place, and answers the PAGE_RETIRE, or, while a forme is armed on the die, waits for the step
boundary (R412 to R415). -/
def Obligations.StacksAreKept : Prop :=
  (∀ (s : State) (d : Die),
      (s.powered = true → s.selfRefresh = false → s.now % 64 = 0 → ∃ t, Machine.exec .refreshStep s = .next t ∧ t = { s with dies := t.dies }
        ∧ ∀ e, t.die e = if s.dieClosed e then s.die e else { s.die e with
            refreshed := some (s.now / 64 % 32)
            added := if s.band e = 0 then (s.die e).added else some ((s.now / 64 % 32 + 16) % 32) })
      ∧ (let i := s.rdFld (dreg .hbmScrubPtr d) 29 0
        let x := s.die d
        let q := if i * 64 < spareBase then x.physical (i * 64) else i * 64
        let s1 := s.modDie d fun x => { x with scrubAt := s.interval }
        let on := fun (t : State) => t.wrFld (dreg .hbmScrubPtr d) 29 0 (i + 1)
        s.now / 16384 % (max (s.rdFld (dreg .hbmCfg d) 7 0) 1) = 0 → s.tickIn < 128 →
        s.background d (·.scrubAt) = true →
        (x.symsAt q = 0 → i + 1 < 2 ^ 30 → Machine.exec (.patrolScrub d 0) s = .next (on s1))
        ∧ (x.symsAt q = 0 → i + 1 = 2 ^ 30 →
          Machine.exec (.patrolScrub d 0) s = .next ((on s1).count (dreg .hbmScrubPass d) 1))
        ∧ (x.symsAt q = 0 → i + 1 < 2 ^ 30 → Machine.exec (.patrolScrub d 1) s =
          .next (on (((s1.count (dreg .hbmCeCnt d) 1).raiseBit (dreg .hbmStat d) 5 false (i * 64)).modDie d fun x => x.setSyms q 0))))
      ∧ (∀ n, s.background d (·.calAt) = true → s.interval = some n →
        let cal := s.modDie d fun x => { x with calAt := some n, calCount := n / 2 }
        (n % 2 = 0 → Machine.exec (.phyCalibration d false) s = .next cal
          ∧ Machine.exec (.phyCalibration d true) s = .next (cal.raiseBit (dreg .hbmStat d) 10))
        ∧ (n % 2 = 1 → ∀ b, Machine.exec (.phyCalibration d b) s = .next s)))
  ∧ (∀ (s : State) (d : Die) (t : Nat), s.powered = true → s.tickIn = 128 →
      let m := s.rdFld (dreg .hbmTemp d) 15 8
      let s0 := s.modDie d fun x => { x with tempAt := some s.elapsed }
      let s1 := ((s0.wrFld (dreg .hbmTemp d) 7 0 t).wrFld (dreg .hbmTemp d) 15 8 (max m t)).wrBit (dreg .hbmTemp d) 16 true
      let r := Machine.exec (.hbmTempReading d (some t)) s
      ((s.die d).tempAt = some s.elapsed → r = .next s) ∧ ((s.die d).tempAt ≠ some s.elapsed →
      let goes := fun (b : Nat) => s1.wrFld (dreg .hbmStat d) 1 0 b
      (s.band d = 0 → t < 96 → r = .next s1)
      ∧ (s.band d = 0 → 96 ≤ t → t < 106 → r = .next ((goes 1).raiseBit (dreg .hbmStat d) 2))
      ∧ (s.band d = 0 → 106 ≤ t → r = .next ((goes 2).raiseBit (dreg .hbmStat d) 3))
      ∧ (s.band d = 1 → 93 < t → t < 106 → r = .next s1)
      ∧ (s.band d = 1 → t ≤ 93 → r = .next (goes 0))
      ∧ (s.band d = 1 → 106 ≤ t → r = .next ((goes 2).raiseBit (dreg .hbmStat d) 3))
      ∧ (s.band d = 2 → r = .next (s1.modDie d fun x => { x with exitArmed := decide (t ≤ 100) }))))
  ∧ (∀ (s : State) (d : Die) (c : CopyRun), (s.die d).copy = some c →
      let x := s.die d
      let a := c.page * 65536 + c.done * 64
      let goes := spareBase + c.spare * 65536 + c.done * 64
      (c.done < 1024 → s.scrubWindow d = false → s.background d (·.copyAt) = true → x.symsAt (x.physical a) = 0 → Machine.exec (.retirementCopy d 0) s = .next (s.modDie d fun x =>
        ({ x with
          hbm := x.hbm.write goes (x.hbm.bytes (x.physical a) 64)
          copyAt := s.interval, copy := some { c with done := c.done + 1 } }.setSyms (x.physical a) 0).setSyms goes 0))
      ∧ (1024 ≤ c.done → s.dieArmed d = true → Machine.exec (.retireCopyDone d) s =
        .next (s.modDie d fun x => { x with copy := some { c with waits := true } }))
      ∧ (1024 ≤ c.done → s.dieArmed d = false → x.remap.any (·.1 = c.page) = false →
        let t := s.modDie d fun x => { x with remap := (c.page, c.spare) :: x.remap.filter (·.1 ≠ c.page), copy := none }
        let t := { t with fw := { t.fw with retired := t.fw.retired.filter (fun (e : Die × RetEntry) =>
          !(decide (e.1 = d) && e.2.page == c.page && !e.2.badSpare)) ++ [(d, RetEntry.mk c.page c.spare false)] } }
        Machine.exec (.retireCopyDone d) s = .next ((((t.wrBit (dreg .hbmRetire d) 13 false).wrFld (dreg .hbmRetire d) 12 0
          (t.die d).remap.length).raiseBit (dreg .hbmStat d) 8).endJobs (fun j => j.kind == .pageRetire d) stOk)))

/-! ### Power -/

/-- DROOP_TRIP starts suppression on the core cycle it names, the first after the crossing or one of the next two,
where a cycle that begins with the trip has begun before it, and restarts the count of good cycles of one under way;
DROOP_RELEASE ends it after 8 good cycles, where the caps leave the cycle; only the region changes (R523, R524). A die
temperature reading, taken at tick 12,288 of a furrow, is latched with the highest one and moves the die's own cap: 32
cycles a furrow less at 90 degrees and below, unchanged at 91, 128 more up to 94, all cycles up to 99; at 100 the die
is fenced (R532, R535). LINK_DIE_OVERTEMP fences the link die at once, and REPLACE_N follows its cause (R535, R505).
REGION_POWER_ON turns a wanted domain that is being switched on to its table voltage, at the gear of its die's
partition (R518, R516); INPUT_LEVEL_CHANGE takes the input's voltage and, while the package has its supply, raises
IN_LOW from 64.0 V to below 68.4 V, IN_HIGH above 75.6 V and below 80.0 V (R513, R670); a proof runs a region at one
step below its full-gear entry and leaves it at the entry of the gear in force (R520). -/
def Obligations.DiesAreGuarded : Prop :=
  (∀ (s : State) (r : RegionId) (after : Fin 3) (n : Nat),
      let x := s.region r
      let out := fun (y : RegionS) => Host.Outcome.next { s with regions := s.regions.set r y }
      (x.droop = none → x.droopIn = none → s.edgeNow r = true →
        Machine.exec (.droopTrip r after) s = out { x with droopIn := some (after.val + 1) })
      ∧ (x.droop = none → x.droopIn = none → s.edgeNow r = false →
        (0 < after.val → Machine.exec (.droopTrip r after) s = out { x with droopIn := some after.val })
        ∧ (after = 0 → Machine.exec (.droopTrip r after) s = .next (((s.count (rreg .pwrDroopEv r) 1).raiseBit
          (rreg .pwrRegionStat r) 2).modRegion r fun y => { y with droop := some 0, suppressed := true })))
      ∧ (x.droop = none → x.droopIn ≠ none → Machine.exec (.droopTrip r after) s = .next s)
      ∧ (x.droop = some n → Machine.exec (.droopTrip r after) s = out { x with droop := some 0, droopBad := s.edgeNow r })
      ∧ (x.droop = some n → 8 ≤ n → Machine.exec (.droopRelease r) s =
        out { x with droop := none, suppressed := decide (x.cyc * x.q / x.cm < (x.cyc + 1) * x.q / x.cm) })
      ∧ (x.droop = some n → n < 8 → Machine.exec (.droopRelease r) s = out x))
  ∧ (∀ (s : State) (d : Die) (ts : List Nat), s.tickIn = 12288 →
      let t := ts.foldl max 0
      let q := (s.power.qTemp[d.val]?).getD 0
      let cm := s.cm ⟨d, 0⟩
      let tj := dreg .pwrTj d
      let m := s.rdFld tj 15 8
      let band := s.rdFld tj 27 26
      let set := fun (q' band' : Nat) =>
        let s1 := { s with power := { s.power with qTemp := s.power.qTemp.set d.val q' } }
        (((s1.wrFld tj 7 0 t).wrFld tj 15 8 (max m t)).wrFld tj 24 16 (q' / 32)).wrFld tj 27 26 band'
      let r := Machine.exec (.dieTempReading d (ts.map some)) s
      (t ≤ 90 → q ≤ 32 → r = .next (set 0 0))
      ∧ (t ≤ 90 → 32 < q → r = .next (set (q - 32) 1))
      ∧ (t = 91 → r = .next (set q band))
      ∧ (92 ≤ t → t ≤ 94 → band ≠ 1 → r = .next ((set (min (q + 128) cm) 1).raiseBit (dreg .pwrDieStat d) 0))
      ∧ (92 ≤ t → t ≤ 94 → band = 1 → r = .next (set (min (q + 128) cm) 1))
      ∧ (95 ≤ t → t ≤ 99 → r = .next ((set cm 2).raiseBit (dreg .pwrDieStat d) 1))
      ∧ (100 ≤ t → r = .next
        (((set q 3).raiseAll 16 [⟨dreg .pwrDieStat d, 2, false, false, 0, some 5⟩]).fence (·.fenceDie d))))
  ∧ (∀ (s : State) (k : LinkDie), Machine.exec (.linkDieOvertemp k) s = .next (s.fenceLd k).syncFence
      ∧ (s.fenceLd k).fen.lds.contains k = true)
  ∧ (∀ (s : State) (r : RegionId),
      (s.domainWanted r = true → s.powered = true → (s.region r).onDue.isSome = true →
        let s1 := (s.wrBit (rreg .pwrRegionStat r) 4 true).modRegion r fun x => { x with onDue := none, gear := s.gearFor r }
        Machine.exec (.regionPowerOn r) s = .next (s1.modRegion r fun x => { x with
          rail := s1.rd (vtabReg r (s.gearFor r)), railGear := s.gearFor r }))
      ∧ ((s.domainWanted r = false ∨ s.powered = false ∨ (s.region r).onDue = none) →
        Machine.exec (.regionPowerOn r) s = .next s)
      ∧ (∀ v : Nat, let s1 := { s with power := { s.power with vin := v } }
        (s.power.mode ≠ .off → 6400 ≤ v → v < 6840 → Machine.exec (.inputLevelChange v) s =
          .next (s1.raiseBit (xreg .pwrStatus) 8))
        ∧ (s.power.mode ≠ .off → 7560 < v → v < 8000 → Machine.exec (.inputLevelChange v) s =
          .next (s1.raiseBit (xreg .pwrStatus) 9))
        ∧ ((s.power.mode = .off ∨ v < 6400 ∨ (6840 ≤ v ∧ v ≤ 7560) ∨ 8000 ≤ v) →
          Machine.exec (.inputLevelChange v) s = .next s1))
      ∧ (let v := s.rd (vtabReg r .full)
        let x := (s.proofOn r).region r
        x.proving = true ∧ x.gear = .full ∧ fld x.rail 15 8 = fld v 15 8
          ∧ (0 < fld v 7 0 → fld x.rail 7 0 = fld v 7 0 - 1)
          ∧ (∀ p, s.partOf r.d = some p →
            let y := ((s.proofOn r).proofOff r).region r
            y.proving = false ∧ y.gear = s.gearOf p ∧ y.rail = s.rd (vtabReg r (s.gearOf p)))))

/-- ENERGY_PERIOD, each 64 ticks, adds its energies to the accounts: each domain's own, each partition's dies with a
sixteenth of the shared domains for each die, the package input, and what no partition bears; no other state changes
(R536, R537). -/
def Obligations.EnergyAccounts : Prop :=
  ∀ (s : State) (dom : List Nat) (input : Nat), s.now % 64 = 0 →
    let e := fun (i : Nat) => (dom[i]?).getD 0
    let a := s.power.acc
    let shared : Int := (input : Int) - ((List.range 80).foldl (fun a i => a + e i) 0 : Nat)
    ∃ acc : Accounts, Machine.exec (.energyPeriod dom input) s =
        .next { s with power := { s.power with acc := acc } }
      ∧ acc.input = (a.input + input) % 2 ^ 74
      ∧ (∀ i, i < 96 → (acc.dom[i]?).getD 0 = ((a.dom[i]?).getD 0 + e i) % 2 ^ 74)
      ∧ (∀ p : Part, s.partDies p = [] → (acc.part[p.val]?).getD 0 = (a.part[p.val]?).getD 0 % 2 ^ 74)
      ∧ (∀ (p : Part) (d : Die), s.partDies p = [d] →
        let own := e (4 * d.val) + e (4 * d.val + 1) + e (4 * d.val + 2) + e (4 * d.val + 3) + e (64 + d.val)
        (acc.part[p.val]?).getD 0 = ((((a.part[p.val]?).getD 0 : Int) + (own + shared / 16)) % (2 ^ 74 : Int)).toNat)

/-- The latching sources: overvoltage and a converter fault latch the package and take the power of the compute and
link dies at once, a fuse failure and an overheated control die one furrow later, at LATCH_POWER_OFF. PACKAGE_FAULT
goes up, the latch and its cause can be read, and no command of the host survives (R502, R503, R535). What the loss of
power leaves (R503, R513, R603): LATCH_POWER_OFF one furrow after the latch, and not before, empties the units and
makes free values of the stacks; BROWN_OUT does so at once, halts every forme and leaves Standby; where the halts leave
no fence and no page switch to be made, retained memory, the fuses and the fallow state stay as they are. -/
def Obligations.PowerLatches : Prop :=
  (∀ (s : State) (k : Fin 4), s.power.mode = .on →
      let latched := fun (r : Host.Outcome State Fault Refusal) (b : Nat) (atOnce : Bool) => ∃ t, r = .next t
        ∧ t.power.mode = .latched ∧ t.faultPin = true ∧ t.links.framingOnly = true ∧ t.host.jobs = []
        ∧ t.rdBit (xreg .rstLatch) b = true ∧ t.rdBit (xreg .rstLatch) 7 = true
        ∧ (atOnce = true → t.units = .empty ∧ t.power.latchOff = none)
        ∧ (atOnce = false → t.power.latchOff = some (s.now + 16384))
      latched (Machine.exec .overvolt s) 0 true
      ∧ latched (Machine.exec (.pcFault k) s) (3 + k.val) true
      ∧ latched (Machine.exec .fuseIntegrityFail s) 1 false
      ∧ latched (Machine.exec .controlDieOvertemp s) 2 false)
  ∧ (∀ (s : State) (n : Nat),
      (s.power.latchOff = some n → s.now < n → Machine.exec .latchPowerOff s = .next s)
      ∧ (s.power.latchOff = some n → n ≤ s.now → ∃ t, Machine.exec .latchPowerOff s = .next t ∧ t.units = .empty
        ∧ t.regions = .empty ∧ t.power.latchOff = none ∧ t.power.mode = s.power.mode ∧ t.retained = s.retained
        ∧ t.fen = s.fen ∧ t.sec = s.sec ∧ t.regs = s.regs ∧ t.host = s.host)
      ∧ (s.power.mode = .on → ∃ t, Machine.exec .brownOut s = .next t ∧ t.units = .empty ∧ t.regions = .empty
        ∧ t.power.mode = .standby ∧ t.power.brownOut = true
        ∧ (s.fen.pend = [] → s.fen.pendRegions = [] → (∀ d c, (s.die d).copy = some c → c.waits = false) →
          t.retained = s.retained ∧ t.fen = s.fen ∧ t.sec = s.sec ∧ ∀ p : Part, (t.part p).running = false)))

/-! ### Boundaries and verdicts -/

/-- A furrow boundary. Off a boundary, or without power, nothing happens. At one every region's clock starts at cycle 0
with no lag, suppressed in the first cycle only where a droop or its cap says so, domains that waited for a lock run
again, and the energies of the furrow are closed (R83, R86, R527, R528, R601). STEP_BOUNDARY of a partition whose step
is over commits and ends it, and halts the partition where a halt is due or else begins its next step in the variant
chosen for it; RUN_START begins the first step of an armed forme at its RUN_AT tick, answers the command, and makes the
links speak again (R95 to R98, R269, R314). FORME_HALT at a furrow boundary stops a forme whose HALT_AT is due: its
partition is left loaded, neither running nor armed, its HALT_AT answered with the last step committed; inside a step,
where no fence and no page switch waits for a boundary, memory, units and time are as they were; at the end of a step
that step commits and ends first (R72, R98, R562). -/
def Obligations.BoundariesRun : Prop :=
  (∀ s : State,
      ((s.tickIn ≠ 0 ∨ s.powered = false) → Machine.exec .furrowBoundary s = .next s)
      ∧ (s.tickIn = 0 → s.powered = true → ∃ t, Machine.exec .furrowBoundary s = .next t
        ∧ t.power.clkWait = [] ∧ t.power.atFurrow = t.power.acc
        ∧ ∀ r : RegionId, (t.region r).cyc = 0 ∧ (t.region r).lag = 0
          ∧ (t.region r).suppressed = ((t.region r).droops || (t.region r).capped)))
  ∧ (∀ (s : State) (p : Part) (f : Forme), (s.part p).forme = some f →
      let ps := s.part p
      let c := s.commit p
      let past := s.now = ps.stepStart + f.length * 16384
      ((ps.running = false ∨ ¬ past) → Machine.exec (.stepBoundary p) s = .next s)
      ∧ (ps.running = true → past → ((c.part p).haltOnBoundary = true ∨ c.haltDue p = true) →
        Machine.exec (.stepBoundary p) s = .next ((c.endStep p f false).haltAs p))
      ∧ (ps.running = true → past → (c.part p).haltOnBoundary = false → c.haltDue p = false →
        let v := c.choose p f
        Machine.exec (.stepBoundary p) s = .next ((c.endStep p f v.took).beginStep p f false v))
      ∧ (∀ t, s.runAt? p = some t → s.now = t → ps.armed = true → ps.running = false → s.htState ≠ htLost →
        s.htState ≠ htAcquire →
        let a := s.endJobs (fun j => decide (j.req.part = p) && j.kind == .runAt t) stOk
        let b := a.modLinks fun k => { k with silenced := false }
        let n := b.modPart p fun ps => { ps with
          running := true, firstStep := b.step p, coldNext := ps.coldArm, coldArm := false }
        let v := n.choose p f
        Machine.exec (.runStart p) s = .next ((((n.boundaryWork p).bankMonitors p).unitsStep p f).beginStep p f true v)))
  ∧ (∀ (s : State) (p : Part),
      (s.tickIn ≠ 0 → Machine.exec (.formeHalt p) s = .next s)
      ∧ (∀ f, s.tickIn = 0 → s.haltDue p = true → s.stepEnding p = some f →
        Machine.exec (.formeHalt p) s = .next (((s.commit p).endStep p f false).haltAs p))
      ∧ (s.tickIn = 0 → s.haltDue p = true → s.stepEnding p = none → s.fen.pend = [] → s.fen.pendRegions = [] →
        (∀ d c, (s.die d).copy = some c → c.waits = false) → ∃ t, Machine.exec (.formeHalt p) s = .next t
        ∧ (t.part p).running = false ∧ (t.part p).armed = false ∧ (t.part p).forme = (s.part p).forme
        ∧ t.dies = s.dies ∧ t.units = s.units ∧ t.ht = s.ht ∧ t.fen = s.fen ∧ t.sec = s.sec
        ∧ ∀ j ∈ t.host.jobs, ¬ (j.req.part = p ∧ ∃ n, j.kind = .haltAt n ∧ n ≤ s.now)))

/-- VERDICT_TICK closes the step's own record once: the events counted, with the provisional ones that no replay has
withdrawn, the promotion counts and the cold-start request (R308, R357, R473, R475). Before its tick, or a second time,
it changes nothing. COMMIT_TICK of a step whose verdict the hall has returned: a clean one toggles the page and the
history of every die of the partition, sets PAGE_VALID and counts the step; one that is not clean leaves them, and only
under SKIP counts the step; under HALT the forme will halt at the boundary (R313, R314, R317). After a clean one the
fallow watch reads the streaks of the histories that it committed (R364). -/
def Obligations.VerdictsAndCommits : Prop :=
  (∀ (s : State) (p : Part) (f : Forme), (s.part p).forme = some f →
      let ps := s.part p
      let mine := fun (e : ProvEv) => decide (s.partOf e.unit.d = some p)
      ((ps.running = false ∨ ps.vdone = true ∨ s.now < ps.stepStart + f.verdictAt) →
        Machine.exec (.verdictTick p) s = .next s)
      ∧ (ps.running = true → ps.vdone = false → ps.stepStart + f.verdictAt ≤ s.now → f.level = 0 → f.mirror = false →
        (∀ d fd, s.formeDie d = some fd → ∀ w ∈ fd.windows, w.glean = false) →
        ∃ t, Machine.exec (.verdictTick p) s = .next t
          ∧ t.part p = { ps with
              vcount := satAdd32 ps.vcount (s.prov.filter mine).length
              vdone := true
              own := some ⟨satAdd32 ps.vcount (s.prov.filter mine).length, s.promotions f, if ps.coldReq then 1 else 0⟩ }
          ∧ t.prov = s.prov.filter (fun e => !mine e)
          ∧ (∀ q, q ≠ p → t.part q = s.part q) ∧ t.dies = s.dies ∧ t.units = s.units ∧ t.susp = s.susp))
  ∧ (∀ (s : State) (p : Part) (f : Forme) (r : TreeRec), (s.part p).forme = some f → (s.part p).running = true →
      (s.part p).commitDone = false → (s.part p).stepStart + f.commitAt ≤ s.now → (s.part p).vdone = true →
      (s.part p).up.isSome = true → (s.part p).down = some r → f.twinCompared = false → (s.part p).snaps.find? (·.runs) = none →
      let ps := s.part p
      let commits := ps.held && r.sum == 0 && !ps.diverged
      let st := s.stepNo p
      let noted := (s.noteVerdict p f commits).modPart p fun ps => { ps with
        commitDone := true, committedLast := commits, lastStep := st, lastBefore := ps.lastCommit
        lastCommit := if commits then st else ps.lastCommit
        haltOnBoundary := ps.haltOnBoundary || (!commits && f.unclean == .halt) }
      let die := fun (t : State) (d : Die) =>
        if commits then
          ((t.modReg (dreg .cdPage d) fun w => setBit (setBit w 0 (!bit w 0)) 2 true).modReg (dreg .cdHist d) fun w =>
            setBit w 0 (!bit w 0)).wr (dreg .cdStep d) (st + 1)
        else
          let t := t.wrBit (dreg .cdPage d) 2 false
          if f.unclean = .skip then t.wr (dreg .cdStep d) (st + 1) else t
      let past := (s.partDies p).foldl die noted
      Machine.exec (.commitTick p) s = .next (if commits then past.fallowWatch p else past))

/-- SUSPECT_EVENT_ARRIVE counts an event of the step that runs; one that comes after the verdict tick of its step is
counted for the next and sets LATE_EVENT on the die that raised it; one of a partition that is armed and not yet
running waits for its first step; an unarmed partition has no events (R34, R476). SPARE_BANK_LOAD puts the program of a
unit that is to be replaced at the step boundary into the spare chosen for it, in both banks, and stops a replay there
(R49, R479). A unit at a step boundary: its address registers are zero, its four groups SHUT, its galleys empty, its
sequencer reset, nothing on its way to an address register, and its instruction banks as they were; scratchpad, vector
registers, tables and what is on its way to a vector register hold free values but for the prologue's two descriptors;
an operation in flight goes on, and what it does to the unit's own state, its groups and galleys among it, is a free
value (R199, R232, R269). -/
def Obligations.EventsAndSpares : Prop :=
  (∀ (s : State) (n : Nat) (e : SuspEv), s.susp[n]? = some e →
      let t := { s with susp := s.susp.eraseIdx n }
      let ps := s.part e.part
      let next := t.modPart e.part fun ps => { ps with vnext := satAdd32 ps.vnext 1 }
      let r := Machine.exec (.suspectEventArrive n) s
      (ps.armed = false → r = .next t)
      ∧ (ps.armed = true → ps.running = false → r = .next next)
      ∧ (ps.armed = true → ps.running = true → e.ord = ps.ord → ps.vdone = false →
        r = .next (t.modPart e.part fun ps => { ps with vcount := satAdd32 ps.vcount 1 }))
      ∧ (ps.armed = true → ps.running = true → ps.ord < e.ord → r = .next next)
      ∧ (ps.armed = true → ps.running = true → e.ord < ps.ord → ps.vdone = false →
        r = .next ((t.modPart e.part fun ps => { ps with vcount := satAdd32 ps.vcount 1 }).raiseAll 16
          [⟨dreg .cdFault e.die, 7, true, true, 0, none⟩]))
      ∧ (ps.armed = true → ps.running = true → e.ord ≤ ps.ord → ps.vdone = true →
        r = .next (next.raiseAll 16 [⟨dreg .cdFault e.die, 7, true, true, 0, none⟩])))
  ∧ (∀ (s : State) (l : LU) (i : Nat) (p : PU) (q : Part) (f : Forme) (v : Variant) (im : BankImage),
      (s.loadingFor l.region).findIdx? (· = l) = some i → (s.freeSpares l.region)[i]? = some p →
      s.partOf l.d = some q → (s.part q).forme = some f → f.variants[(s.part q).variant]? = some v →
      v.images.find? (·.unit = l) = some im →
      Machine.exec (.spareBankLoad l) s = .next ({ s with replays := s.replays.filter (·.spare ≠ p) }.setUnit p
        { s.unit p with recto := Memory.empty.write 0 im.recto, verso := Memory.empty.write 0 im.verso }))
  ∧ (∀ (s : State) (f : Forme) (u : LU) (p : PU),
      let x := s.unit p
      let y := (s.unitStep f u p).unit p
      y.aregs = List.replicate 16 0 ∧ (∀ g : Fin 4, (y.group g).st = .shut) ∧ y.galleys = List.replicate 8 Galley.reset
      ∧ y.ctl = .reset ∧ y.apend = [] ∧ y.mPend = none ∧ (∀ d ∈ y.cmps, d.crossed = true)
      ∧ y.galUndef = x.galUndef ++ x.crossGalleys
      ∧ y.recto = x.recto ∧ y.verso = x.verso
      ∧ ∃ g : Nat, y.vpend = x.crossVectors (g + 4) ∧ y.flights = x.flights.flatMap (Flight.crossStep (g + 4)) ∧ y.sp = ⟨.free g, []⟩ ∧ y.wtab = ⟨.free (g + 3), []⟩
        ∧ y.dtab.bytes 0 1984 = Memory.bytes ⟨.free (g + 2), []⟩ 0 1984)

/-! ### Links -/

/-- SLOT_SEND at the start of a slot sends what its buffer's tag says: the payload where the tag, as it stood 32 ticks
ago, is the slot's; a blank where it is not, or nothing in a conditional slot; the sample clears the tag but for one
set since. A slot that no entry fills, or of a package that keeps silent, is idle, and its payload goes on with the
PRBS31 of the lane (R265, R435, R436). A slot that arrives whole, in its window, from the expected peer, of the job and
the partition, on a lane that is UP of a port that is READY, brings its payload; one whose PCRC fails is a blank and
says so (R79, R430, R437, R439). What the header names is read from its bytes (R435). What a judged slot brings.
SLOT_RECEIVE puts its payload into the receive buffer with the slot's tag, or leaves an empty buffer without one,
counts a blank and makes the slot's step suspect (R79, R437); a data slot where none was to come raises its bit (R439);
ACCUM_SLOT_RECEIVE contributes its payload, which crosses to its die in a fabric slot of the forme or counts as a blank
(R16), to the window its descriptor names (R331); CAPACITY_SLOT_RECEIVE puts a payload that is as its descriptor says
into the buffer (R391). -/
def Obligations.SlotsTravel : Prop :=
  (∀ (s0 : State) (p : Port) (k : Fin 8) (q : Part) (f : Forme) (e : LinkEntry),
      let s := s0.ringLate p k
      let t := s.now / 128 * 128
      let l := laneOf p k.val
      let sent := fun (u : State) (x : SentSlot) => Host.Outcome.next (u.modLane l fun y => { y with sent := some x })
      let base : SentSlot := ⟨t, 0, k.val, slotValue t % 65536, s.rdFld (xreg .htNodeId) 14 0, p.val, 0, 0, []⟩
      let idle := fun (u : State) => Host.Outcome.next (u.modLane l fun y => { y with
        sent := some { base with payload := (prbsBytes 2560 y.prbs).1 }, prbs := (prbsBytes 2560 y.prbs).2 })
      let b : BufId := ⟨p, k, e.tbuf⟩
      let x := s.sendBuf b
      let r := Machine.exec (.slotSend p k) s0
      s.inTramline (t % 16384) = false → s.linkDead l.ld = false →
      ((s.portSilent p = true ∨ s.spared l = true ∨ s.linkOut l.ld = true) → r = idle s)
      ∧ (s.portSilent p = false → s.spared l = false → s.linkOut l.ld = false →
        (s.slotEntry p k t = none → r = idle s)
        ∧ (s.slotEntry p k t = some (q, f, e) → e.send = false → r = idle s)
        ∧ (s.slotEntry p k t = some (q, f, e) → e.send = true →
          let took := s.setSend b (x.afterSample t)
          (x.sampled t = some (slotValue t) → r = sent took
            { base with kind := 1, part := q.val, job := f.job, payload := padTo 2560 x.data })
          ∧ (x.sampled t ≠ some (slotValue t) → e.cond = true → r = idle took)
          ∧ (x.sampled t ≠ some (slotValue t) → e.cond = false →
            r = sent took { base with kind := 2, part := q.val, job := f.job, payload := List.replicate 2560 0 })
          ∧ (∀ v at_, x.tag = some (v, at_) → at_ + 32 < t →
            x.sampled t = some v ∧ (x.afterSample t).tag = none)
          ∧ (∀ v at_, x.tag = some (v, at_) → t < at_ + 32 → (x.afterSample t).tag = some (v, at_))
          ∧ (x.tag = none → x.was = [] → x.sampled t = none))))
  ∧ (∀ (s : State) (p : Port) (k : Fin 8) (x : RxSlot) (q : Part) (f : Forme) (e : LinkEntry) (c : PortClaim),
      let h := SlotHead.read x.head
      x.fec = true → hcrcOk x.head = true → s.slotEntry p k x.tick = some (q, f, e) →
      let s1 := s.header p k.val true h.lane
      let l := laneOf p k.val
      let delay := s1.rdFld (portReg .ldPortDelay p k.val) 23 0
      f.peer p = some c → s1.peerBad p h = false → (s1.port p).lost.contains k.val = false →
      s1.laneState l = lnUp → s1.ready p = true → s1.spared l = false → s1.linkDead l.ld = false →
      s1.links.silenced = false → s1.links.framingOnly = false → s1.linkOut l.ld = false →
      x.tick * 64 + delay ≤ x.arrive → x.arrive < x.tick * 64 + delay + 8 * 64 →
      h.seq = slotValue x.tick % 65536 → h.kind = 1 → h.job = f.job → h.part = e.part.val →
      (pcrcOk x.head x.payload = true → s.judgeSlot p k x = (s1, some (q, f, e, some x.payload)))
      ∧ (pcrcOk x.head x.payload = false → s.judgeSlot p k x =
        (s1.raiseBit (lreg .ldLaneStat l) 9 (e.rkind != .none), some (q, f, e, none))))
  ∧ (∀ (s s1 : State) (p : Port) (k : Fin 8) (x : RxSlot) (q : Part) (f : Forme) (e : LinkEntry)
      (pay : Option (List Byte)), s.judgeSlot p k x = (s1, some (q, f, e, pay)) →
      let id : BufId := ⟨p, k, e.rbuf⟩
      let tag := some (slotValue x.tick, s1.now)
      let blank := (s1.count (lreg .ldLaneBlank (laneOf p k.val)) 1).suspectOrd q (s1.slotOrd q x.tick) (s1.firstDie q)
      let empty := blank.setRecv id ⟨List.replicate 2560 0, none, []⟩
      (e.rkind = .land →
        (∀ b, pay = some b → Machine.exec (.slotReceive p k x) s = .next ((s1.setRecv id ⟨b, tag, []⟩).twinResult q id (x.tick / 128 % 128)))
        ∧ (pay = none → Machine.exec (.slotReceive p k x) s = .next empty))
      ∧ (e.rkind = .none → Machine.exec (.slotReceive p k x) s =
        .next (if x.isData then s1.raiseBit (lreg .ldLaneStat (laneOf p k.val)) 10 else s1))
      ∧ (e.rkind = .accum ∨ e.rkind = .capacity → Machine.exec (.slotReceive p k x) s = .next s)
      ∧ (e.rkind = .accum → ∀ a, f.accums[e.rarg]? = some a → s1.dieClosed a.die = false →
        let way := s1.fabricWay q (.link (portLinkDie p k.val)) (.die a.die)
        (∀ b, pay = some b → way.2 = false → Machine.exec (.accumSlotReceive p k x) s =
          .next ((way.1.count (lreg .ldLaneBlank (laneOf p k.val)) 1).suspectOrd q (way.1.slotOrd q x.tick) (way.1.firstDie q)))
        ∧ (∀ b m, pay = some b → way.2 = true → Fmt.ofCode a.fmt = some m → Machine.exec (.accumSlotReceive p k x) s =
          .next ((way.1.intake a.die 2560).contribute a.die (32 + 8 * p.val + k.val) a.window a.elem m a.rows a.cols fun i j =>
            (m.rawAt (fun v => (b[v]?).getD 0) 0 a.rows a.cols i j, m.scaleAt (fun v => (b[v]?).getD 0)
              ((m.arrayBytes a.rows a.cols + 127) / 128 * 128) a.rows a.cols i j)))
        ∧ (pay = none → Machine.exec (.accumSlotReceive p k x) s = .next blank))
      ∧ (e.rkind = .capacity → ∀ a, f.caps[e.rarg]? = some a → a.sow = false →
        (∀ b, pay = some b → capGood a b = true →
          Machine.exec (.capacitySlotReceive p k x) s = .next (s1.setRecv id ⟨b, tag, []⟩))
        ∧ (∀ b, pay = some b → capGood a b = false → Machine.exec (.capacitySlotReceive p k x) s = .next empty)
        ∧ (pay = none → Machine.exec (.capacitySlotReceive p k x) s = .next empty)))

/-- FABRIC_SLOT at the tick of a slot that a running forme schedules delivers its line at the destination, or a blank
with one suspect event where nothing has filled it, but for a slot out of a receive buffer, whose late read is harmless
(R84); one that a move has taken is that move's; a slot that no forme schedules, or whose tick it is not, carries
nothing (R16). The states of a lane (R434, R447): codewords are counted, the 64th bad one in a row takes the lane down;
TRAIN converges within 40 ms to ALIGN and, with a path too long, on to FAILED; a third time-out of 40 ms fails the
lane; a failed one trains again after 2^27 ticks; loss of signal and LANE_FAILURE take an UP lane to TRAIN with
LANE_DOWN and its switch (R450). -/
def Obligations.LanesAndFabric : Prop :=
  (∀ (s : State) (x : FabricSlot) (p : Part) (d : Die) (b : List Byte),
      let goes := fun (r : Delivery) => s.modDie d fun y => { y with delivered := some r }
      (s.tickIn = x.tick → s.fabricOwner x = some p → x.dst.die? = some d →
        ((s.part p).filled.contains (x, s.now) = false →
          Machine.exec (.fabricSlot x (some b)) s = .next (goes (.data b))
          ∧ (x.src.isLink = false → Machine.exec (.fabricSlot x none) s = .next ((goes .blank).suspect p d))
          ∧ (x.src.isLink = true → Machine.exec (.fabricSlot x none) s = .next s))
        ∧ ((s.part p).filled.contains (x, s.now) = true → Machine.exec (.fabricSlot x none) s =
          .next (s.modPart p fun ps => { ps with filled := ps.filled.filter fun e => decide (s.now < e.2) })))
      ∧ ((s.tickIn ≠ x.tick ∨ s.fabricOwner x = none) → Machine.exec (.fabricSlot x (some b)) s = .next s)
      ∧ (∀ q, s.fabricOwner x = some q → (s.part q).running = true
        ∧ ∃ f, (s.part q).forme = some f ∧ f.fabric.contains x = true))
  ∧ (∀ (s : State) (l : Lane) (delay : Nat),
      let x := s.laneS l
      let st := s.laneState l
      let bad := ((s.count (lreg .ldLaneUcw l) 1).raiseBit (lreg .ldLaneStat l) 8).modLane l fun x =>
        { x with badCw := x.badCw + 1 }
      let down := fun (t : State) => (t.modLane l fun x => { x with badCw := 0, badHdr := 0, goodHdr := 0 })
      let soon := s.elapsed ≤ x.trainAt + 50000000
      let aligned := (s.modLane l fun x => { x with fails := 0, goodHdr := 0, echo := none }).setLane l lnAlign
      Machine.exec (.codewordReceive l .clean) s = .next (s.modLane l fun x => { x with badCw := 0 })
      ∧ Machine.exec (.codewordReceive l .corrected) s =
        .next ((s.count (lreg .ldLaneCw l) 1).modLane l fun x => { x with badCw := 0 })
      ∧ ((bad.laneS l).badCw < 64 → Machine.exec (.codewordReceive l .uncorrectable) s = .next bad)
      ∧ (64 ≤ (bad.laneS l).badCw → Machine.exec (.codewordReceive l .uncorrectable) s = .next (bad.laneDown l))
      ∧ (st = lnTrain → soon → delay ≤ 1536 → Machine.exec (.laneTrained l delay) s = .next aligned)
      ∧ (st = lnTrain → soon → 1536 < delay → Machine.exec (.laneTrained l delay) s =
        .next ((aligned.raiseBit (lreg .ldLaneStat l) 12).failLane l))
      ∧ (st = lnTrain → ¬ soon → Machine.exec (.laneTrained l delay) s = .next s)
      ∧ (st = lnTrain → s.elapsed < x.trainAt + 50000000 → Machine.exec (.trainTimeout l) s = .next s)
      ∧ (st = lnTrain → x.trainAt + 50000000 ≤ s.elapsed → 2 ≤ x.fails → Machine.exec (.trainTimeout l) s = .next (s.failLane l))
      ∧ (st = lnTrain → x.trainAt + 50000000 ≤ s.elapsed → x.fails < 2 → s.ldSpared l = false → Machine.exec (.trainTimeout l) s =
        .next ((down (s.modLane l fun x => { x with fails := x.fails + 1 })).setLane l lnTrain))
      ∧ (st = lnFailed → x.failedAt + 2 ^ 27 ≤ s.elapsed → Machine.exec (.failedRetry l) s = .next (s.setLane l lnTrain))
      ∧ (st = lnUp → s.ldSpared l = false →
        let t := (((down s).setLane l lnTrain).raiseBit (lreg .ldLaneStat l) 13).laneLost l
        Machine.exec (.laneFailure l) s = .next t ∧ Machine.exec (.lossOfSignal l) s = .next t))

/-- TRAMLINE_SEND of a hall port in a tramline sends the time on each lane, the records of the verdict tree that are
due, up to five messages that may go, slips first, and up to 31 acknowledgements, and fills what is left with PRBS31;
each message sent counts one sending. Outside a tramline, or without the links' logic, nothing is sent (R63, R64, R91,
R443 to R445). TRAMLINE_RECEIVE on a hall port other than 0: a slot whose HCRC fails counts against its header, one
that the FEC gives up is lost, and one of another peer than a loaded forme expects only raises PEER_BAD (R430); a sound
one latches the peer, its lane's echo and, on the lane that carries the port's time, the delay; the first lane that
brings a tramline hands on its records, acknowledgements and messages, and the acknowledged messages leave the queue
(R63, R65, R82, R443, R445, R447 to R449). -/
def Obligations.TramlinesTravel : Prop :=
  (∀ (s : State) (p : Port), p.val ≠ 48 →
      ((s.links.framingOnly = true ∨ s.inTramline s.tickIn = false) →
        Machine.exec (.tramlineSend p) s = .next s)
      ∧ (∀ k, s.links.framingOnly = false → s.inTramline s.tickIn = true → k < portLanes p →
        s.linkDead (portLinkDie p k) = false → s.host.streams = [] → s.links.deal = [] → s.fw.pause = none →
        (∀ w ∈ s.links.queue, w.port = p → w.sends < 8) →
        let t := s.now / 128 * 128
        let live := s.links.queue.filter fun w => w.port = p ∧ w.notBefore ≤ t
        let go := (live.filter (·.msg.isSlip) ++ live.filter (fun w => !w.msg.isSlip)).take 5
        let told := allParts.foldl (fun s q => s.treeAdvance q) s
        ∃ (r : State) (o : SentTram), Machine.exec (.tramlineSend p) s = .next r ∧ (r.port p).sent = some o
          ∧ o.tick = t ∧ o.lane = s.tramLane p
          ∧ o.times = (List.range (portLanes p)).map (fun k => s.timeRecord p k t) ∧ o.records = told.treeRecords p t
          ∧ o.msgs = go.map (fun w => (w.seq, w.msg)) ∧ o.acks = (s.links.acks.getD p []).take 31 ∧ o.bulk = []
          ∧ o.fill = (List.range (portLanes p)).map (fun k => (prbsBytes 1520 (s.laneS (laneOf p k)).prbs).1)
          ∧ r.links.queue = s.links.queue.map (fun w => if go.contains w then { w with sends := w.sends + 1 } else w)
          ∧ r.links.acks.getD p [] = (s.links.acks.getD p []).drop 31
          ∧ r.dies = s.dies ∧ r.units = s.units ∧ r.ht = s.ht))
  ∧ (∀ (s : State) (p : Port) (k : Fin 8) (x : RxTram), p.val ≠ 48 → p.val ≠ 0 → s.links.framingOnly = false →
      s.linkDead (laneOf p k.val).ld = false →
      let l := laneOf p k.val
      let h := SlotHead.read x.head
      (x.fec = false → Machine.exec (.tramlineReceive p k x) s = .next s)
      ∧ (x.fec = true → hcrcOk x.head = false → Machine.exec (.tramlineReceive p k x) s =
        .next ((s.header p k.val false h.lane).raiseBit (lreg .ldLaneStat l) 9))
      ∧ (x.fec = true → hcrcOk x.head = true → pcrcOk x.head x.payload = true →
        let s1 := s.header p k.val true h.lane
        s1.peerBad p h = true → Machine.exec (.tramlineReceive p k x) s = .next (s1.raiseBit (lreg .ldLaneStat l) 14))
      ∧ (x.fec = true → hcrcOk x.head = true → pcrcOk x.head x.payload = true → h.kind = 3 →
        readBulk x.payload = none →
        let s1 := s.header p k.val true h.lane
        s1.peerBad p h = false → s1.carriesTram l = true → s1.linkDead l.ld = false →
        let r := portReg .ldPortPeer p k.val
        let t := TimeRecord.read x.payload
        let t2 := s1.now * 64 + x.frac.val
        let s2 := ((s1.wrFld r 14 0 h.node).wrFld r 21 16 h.port).wrBit r 31 true
        let s3 := if k.val = s.tramLane p then s2.portDelay p t t2 else s2
        let s4 := (s3.modLane l fun y => { y with echo := some (t.sendT, t2) }).modPort p fun y =>
          { y with peerTimed := t.locked || t.free }
        ((s4.port p).taken ≠ some h.seq → Machine.exec (.tramlineReceive p k x) s =
          .next ((((s4.recordLane p k.val).modPort p fun y => { y with taken := some h.seq }).tramRecords p
            x.payload).syncPort p))
        ∧ ((s4.port p).taken = some h.seq → k.val = 0 → Machine.exec (.tramlineReceive p k x) s =
          .next ((s4.recordLane p 0).syncPort p)))
      ∧ (∀ u : State, readTree x.payload = [] → readMsgs x.payload = [] →
        u.tramRecords p x.payload = u.modLinks fun q => { q with
          queue := q.queue.filter fun w => !(decide (w.port = p) && (readAcks x.payload).contains w.seq && decide (0 < w.sends)) }))

/-- A management message is taken once: one whose number has been accepted before is acknowledged again and does
nothing else; the twin's digest is kept by its partition (R445, R456), but for one that comes in mirror mode after a
conflict of modes (R454). HEARTBEAT_MISSING counts, and the fourth in a row loses the twin; of a lost twin none is
expected (R454). -/
def Obligations.MessagesOnce : Prop :=
  ∀ (s : State) (p : Port) (seq : Half) (m : Msg), (∀ a b c d, m.body ≠ .heartbeat a b c d) →
    let acked := s.modLinks fun k => { k with acks := k.acks.set p (k.acks.getD p [] ++ [seq]) }
    let missed := s.modTwin fun t => { t with missing := t.missing + 1 }
    ((s.links.accepted.getD p []).contains seq = true → s.message p seq m = acked)
    ∧ (∀ job step d, (s.links.accepted.getD 48 []).contains seq = false → m.body = .digest job step d → p = 48 →
      s.links.twin.conflict = true → s.twinModeBit = true → s.message p seq m = acked.modLinks fun k => { k with
        accepted := k.accepted.set p ((seq :: k.accepted.getD p []).take 64) })
    ∧ (∀ job step d, (s.links.accepted.getD 48 []).contains seq = false → m.body = .digest job step d → p = 48 →
      (s.links.twin.conflict = false ∨ s.twinModeBit = false) → s.message p seq m = acked.modLinks fun k => { k with
        accepted := k.accepted.set p ((seq :: k.accepted.getD p []).take 64)
        twin := { k.twin with twinDigests :=
          (m.part, job, step, d) :: k.twin.twinDigests.filter fun e => e.1 ≠ m.part } })
    ∧ (s.rdFld (xreg .twStatus) 2 0 = 3 → Machine.exec .heartbeatMissing s = .next s)
    ∧ (s.rdFld (xreg .twStatus) 2 0 ≠ 3 → s.links.twin.missing + 1 ≠ 4 → Machine.exec .heartbeatMissing s = .next missed)
    ∧ (s.rdFld (xreg .twStatus) 2 0 ≠ 3 → s.links.twin.missing + 1 = 4 → Machine.exec .heartbeatMissing s = .next (missed.twinLost 6))

/-! ### Hall Time and clocks -/

/-- The states of the Hall Time base at an edge node (R58 to R61, R68): in ACQUIRE two good frames that follow each
other set the count to the marker's tick and lock; an ill-formed frame forgets the last and sets EPOCH_ERR; in LOCKED
the pulses since the last were read must rise at the furrow boundaries, each with the symbol the count implies, else
the reference is lost; in HOLDOVER four consecutive furrows inside 0.5 ns lock again and one outside loses the count;
HOLDOVER ends in LOST after 64 furrows, and LOST turns to ACQUIRE after one. LOST cancels what was set for a time:
FAULT_N goes up, no RUN_AT or GEAR_AT is left, no partition stays armed that does not run, and the running formes will
halt at the next furrow boundary (R72). -/
def Obligations.HallTimeStates : Prop :=
  (∀ (s : State) (v : Nat) (f : List EpochPulse), s.edgeNode = true →
      let st := s.htState
      let fr := epochSyms f
      (st = htAcquire → frameOf fr = none → Machine.exec (.epochFrame f) s =
        .next ((s.modHt fun h => { h with frame := none }).raiseBit (xreg .htStatus) 14))
      ∧ (st = htAcquire → frameOf fr = some v → s.ht.frame = none → Machine.exec (.epochFrame f) s =
        .next (s.modHt fun h => { h with frame := some (BitVec.ofNat 44 v) }))
      ∧ (∀ p : BitVec 44, st = htAcquire → frameOf fr = some (p.toNat + 1) → s.ht.frame = some p →
        Machine.exec (.epochFrame f) s = .next ((s.modHt fun h => { h with
          frame := some (BitVec.ofNat 44 (p.toNat + 1)), now := BitVec.ofNat 64 ((p.toNat + 2) * 2 ^ 20)
          running := true }).enterLocked 0))
      ∧ (st = htLocked → f.map (·.rise) = boundariesIn s.ht.seen s.now →
        (∀ x ∈ f, x.sym = epochSymAt x.rise) → ∃ t, Machine.exec (.epochFrame f) s = .next t
          ∧ t.ht.seen = s.now ∧ t.htState = htLocked ∧ t.regs = s.regs)
      ∧ (st = htLocked → (f.map (·.rise) ≠ boundariesIn s.ht.seen s.now ∨ ∃ x ∈ f, x.sym ≠ epochSymAt x.rise) →
        Machine.exec (.epochFrame f) s = .next s.enterHoldover)
      ∧ (st = htLocked → Machine.exec (.referenceLoss .edges) s = .next s.enterHoldover)
      ∧ (st = htHoldover → Machine.exec (.hallRefReturn false) s = .next s.enterLost)
      ∧ (st = htHoldover → s.ht.lastFurrow = some s.furrow → Machine.exec (.hallRefReturn true) s = .next s)
      ∧ (∀ l, st = htHoldover → s.ht.lastFurrow = some l → l + 1 = s.furrow → s.ht.returnRun < 3 →
        Machine.exec (.hallRefReturn true) s = .next (s.modHt fun h => { h with
          returnRun := h.returnRun + 1, returning := true, lastFurrow := some s.furrow }))
      ∧ (∀ l, st = htHoldover → s.ht.lastFurrow = some l → l + 1 = s.furrow → 3 ≤ s.ht.returnRun →
        Machine.exec (.hallRefReturn true) s = .next (s.enterLocked (s.rdFld (xreg .htStatus) 10 7)))
      ∧ (st = htHoldover → s.ht.lastFurrow ≠ some s.furrow → (∀ l, s.ht.lastFurrow = some l → l + 1 ≠ s.furrow) →
        Machine.exec (.hallRefReturn true) s = .next (s.modHt fun h => { h with
          returnRun := 1, returning := true, lastFurrow := some s.furrow }))
      ∧ (st = htHoldover → s.ht.since + 64 * 16384 ≤ s.now → Machine.exec .holdoverTimeout s = .next s.enterLost)
      ∧ (st = htLost → s.ht.since + 16384 ≤ s.now → Machine.exec .lostToAcquire s =
        .next ((s.setHtState htAcquire).modHt fun h => { h with
          frame := none, lockRun := 0, missRun := 0, offRun := 0, lastFurrow := none, upstreamFree := false })))
  ∧ (∀ s : State, s.htState = htHoldover → s.ht.since + 64 * 16384 ≤ s.now →
      ∃ t, Machine.exec .holdoverTimeout s = .next t ∧ t.faultPin = true ∧ t.ht.haltPending = true
        ∧ (∀ j ∈ t.host.jobs, ∀ n g, j.kind ≠ .runAt n ∧ j.kind ≠ .gearAt n g)
        ∧ (∀ p : Part, (t.part p).armed = true → (t.part p).running = true))

/-- A frame sent for a count reads back as that count: the 44 bits of Hall Time above a furrow group, under their CRC
(R58, R59). The records of a delta, executed in order on the active image (R627): COPY takes bytes of it, DATA brings
its own, END leaves what was written. The 32 bytes of a window (R326) and the 4 of a buffer record (R381), with every
field at every value of its range, read as what they spell. -/
def Obligations.FramesRoundTrip : Prop :=
  (∀ t : Nat, frameOf (frameFor t) = some (t / 2 ^ 20 % 2 ^ 44))
  ∧ (∀ (src out rest d : List Byte) (n off len : Nat), off < 2 ^ 32 → len < 2 ^ 32 → d.length < 2 ^ 32 →
      (off + len ≤ src.length → runDelta src (n + 1) (1 :: (natLe 4 off ++ natLe 4 len ++ rest)) out =
        runDelta src n rest (out ++ (src.drop off).take len))
      ∧ runDelta src (n + 1) (2 :: (natLe 4 d.length ++ (d ++ rest))) out = runDelta src n rest (out ++ d)
      ∧ runDelta src (n + 1) (0 :: rest) out = some out)
  ∧ ((∀ w : RedWindow, w.lines < 2 ^ 32 → w.lines % 256 = 0 → 1 ≤ w.blocks → w.blocks ≤ 2 ^ 20 → w.pitch < 2 ^ 16 →
      w.tensor < 2 ^ 16 → 1 ≤ w.expected → w.expected ≤ 256 → w.openAt < w.sealAt → w.sealAt < 2 ^ 32 → w.hist < 2 ^ 32 →
      w.floor ≤ 0xFE →
      RedWindow.ofBytes (natLe 4 w.lines ++ natLe 4 w.blocks ++ natLe 2 w.pitch ++ natLe 2 w.tensor
        ++ natLe 1 (w.sp32.toNat + 2 * w.ring.toNat + 4 * w.glean.toNat) ++ natLe 1 w.checker.val ++ natLe 2 w.expected
        ++ natLe 4 w.openAt ++ natLe 4 w.sealAt ++ natLe 4 w.hist ++ natLe 1 w.floor ++ [0, 0, 0]) = some w)
    ∧ ∀ r : BufRec, r.port.val ≤ 48 → r.lane.val < (if r.port.val = 48 then 8 else 4) →
      BufRec.ofBytes (natLe 4 (r.port.val + 64 * r.lane.val + 512 * r.buf.val + 4096 * r.slot.val + 2 ^ 19 * r.fsel.toNat)) =
        some r)

/-- A gear change (R100 to R102, R311): one furrow before an upward one the voltages rise; at its tick, where its
variant is there, the clocks of the partition's regions switch and the command is answered, else it is put off to the
next step boundary; one furrow after a downward one, and only then, the voltages fall; before its time nothing happens.
CLOCK_LOCK_LOSS takes a domain out of lock and latches the loss; CLOCK_LOCK_RETURN lets it wait for the next furrow
boundary, until which it is still out (R601). -/
def Obligations.GearsAndClocks : Prop :=
  (∀ (s : State) (p : Part) (t : Nat) (g : Gear), s.nextGear p = some (t, g) →
      let up : Bool := decide (g.code < (s.gearOf p).code)
      let rails := fun (s : State) (g : Gear) => (s.partRegions p).foldl (fun s r =>
        if (s.region r).proving then s else s.modRegion r fun x => { x with rail := s.rd (vtabReg r g), railGear := g }) s
      let s1 := (if up then rails s g else s).wrFld (preg .htGear p) 1 0 g.code
      let s2 := (s1.partRegions p).foldl (fun s r => s.modRegion r fun x => { x with gear := if x.proving then x.gear else g }) s1
      (t ≤ s.now + 16384 → up = true → Machine.exec (.gearVoltageRise p) s =
        .next ((rails s g).modPart p fun ps => { ps with gearDown := false }))
      ∧ ((s.now + 16384 < t ∨ up = false) → Machine.exec (.gearVoltageRise p) s = .next s)
      ∧ (t ≤ s.now → s.gearHasVariant p g = true → Machine.exec (.gearSwitch p) s = .next
        (((s2.modPart p fun ps => { ps with gearAt := s2.now, gearDown := !up }).endJobs
          (fun j => decide (j.req.part = p) && j.kind == .gearAt t g) stOk).syncGear p))
      ∧ (∀ f, t ≤ s.now → (s.part p).running = true → (s.part p).forme = some f → f.follow g (s.part p).promos = none →
        let later := s.host.jobs.map fun j =>
          if j.req.part = p ∧ j.kind = .gearAt t g then { j with kind := .gearAt (t + f.length * 16384) g } else j
        Machine.exec (.gearSwitch p) s = .next { s with host := { s.host with jobs := later } })
      ∧ (s.now < t → Machine.exec (.gearSwitch p) s = .next s)
      ∧ ((s.part p).gearDown = true → (s.part p).gearAt + 16384 ≤ s.now → Machine.exec (.gearVoltageFall p) s =
        .next ((rails s (s.gearOf p)).modPart p fun ps => { ps with gearDown := false }))
      ∧ (((s.part p).gearDown = false ∨ s.now < (s.part p).gearAt + 16384) →
        Machine.exec (.gearVoltageFall p) s = .next s))
  ∧ (∀ (s : State) (c : ClkDom),
      let lost := s.power.clkLost
      let wait := s.power.clkWait
      (lost.contains c = false → Machine.exec (.clockLockLoss c) s = .next
        { s.wrBit (xreg .clkStat) 28 true with power := { s.power with
          clkLost := c :: lost, clkWait := wait.filter (· ≠ c) } })
      ∧ (lost.contains c = true → Machine.exec (.clockLockLoss c) s = .next s)
      ∧ (lost.contains c = true → ∃ t, Machine.exec (.clockLockReturn c) s = .next t ∧ t.clockOut c = true
        ∧ t.power.clkLost = lost.filter (· ≠ c) ∧ t = { s with power := t.power })
      ∧ (lost.contains c = false → Machine.exec (.clockLockReturn c) s = .next s))

/-! ### Replays and proofs -/

/-- REPLAY_MAILBOX takes a request whose entry covers a standing provisional event of the unit it names: the entry's
landing area becomes blank, and the lowest idle spare is to start 4 cycles later, or, with none, REPLAY_LOST says so; a
request that covers none is dropped (R480, R482). REPLAY_START begins the entry's program on its spare once its cycle
has come in a cycle that issues (R480); a request from the twin for a guest region is taken by an idle spare without a
provisional event, and dropped where none is idle (R486, R487). -/
def Obligations.ReplaysRun : Prop :=
  (∀ (s : State) (r : RegionId) (p : Part) (f : Forme) (off n k : Nat) (e : ReplayEntry), s.running r.d = some p →
      s.formeOn r.d = some f → f.mailbox.find? (·.1 = r) = some (r, off) →
      replayRequest ((s.die r.d).cache.bytes (off / 128 * 128) 128) = (n, k) →
      (s.die r.d).blanks.contains (off / 128) = false → (f.replayOf r)[k]? = some e → e.unit.n.val = n →
      e.twin = false →
      let mine := fun (v : ProvEv) => decide (v.unit = e.unit) && v.bundle == e.bundle && v.verso == e.verso
      let blanked := s.modDie r.d fun x => { x with
        blanks := ((List.range e.lines).map (e.area / 128 + ·) ++ x.blanks).eraseDups }
      let noted := blanked.wrFld (rreg .tuRegionRpl r) 13 8 n
      let m := Machine.exec (.replayMailbox r) s
      (s.prov.any mine = false → m = .next s)
      ∧ (s.prov.any mine = true → (s.prov.filter mine).any (·.failed) = false →
        (∀ q qs, blanked.idleSpares r = q :: qs → m = .next { noted with
          replays := noted.replays.filter (·.spare ≠ q) ++ [⟨q, e, e.unit, s.cycle r + 4, false, false, false⟩] })
        ∧ (blanked.idleSpares r = [] → m = .next (noted.raiseBit (ureg .tuChk e.unit) 5))))
  ∧ (∀ (s : State) (r : RegionId) (second : Bool) (e : ReplayRun) (line : List Byte),
      let p : PU := ⟨r.d, r.r, if second then 65 else 64⟩
      (s.replays.find? (fun e => e.spare = p && !e.running) = some e → s.regionIssues r = true → e.due ≤ s.cycle r →
        Machine.exec (.replayStart r second) s = .next ({ s with
          replays := s.replays.map fun x => if x = e then { x with running := true } else x }.setUnit p
            { s.unit p with ctl := { Ctl.reset with fetch := e.entry.prog % 1024 }, badCmp := [], cmps := [] }))
      ∧ (∀ q f n k t, s.running r.d = some q → s.formeOn r.d = some f → f.guests.contains r = true →
        replayRequest line = (n, k) → (f.replayOf r)[k]? = some t → ∀ h : n < 64,
        let noted := s.wrFld (rreg .tuRegionRpl r) 13 8 n
        (∀ x xs, s.idleSpares r = x :: xs → Machine.exec (.twinReplayRequest r line) s = .next { noted with
          replays := noted.replays.filter (·.spare ≠ x)
            ++ [⟨x, t, ⟨r.d, r.r, ⟨n, h⟩, none⟩, s.cycle r + 4, false, false, true⟩] })
        ∧ (s.idleSpares r = [] → Machine.exec (.twinReplayRequest r line) s = .next s)))

/-- The proofs end once their 64 furrows are over. A FORME_ARM whose automatic proof finds no failure and whose forme
fits is answered OK, its regions back at their gear and voltage; a FIELD_PROOF whose tested spares all passed is
answered with a byte for each region, the spares that were free when it began tested, its reply posted and nothing
fenced; a block that passed its proof leaves the fallow state and its command is answered OK (R489 to R491, R564, R619
to R621). -/
def Obligations.ProofsEnd : Prop :=
  ∀ (s : State) (p : Part) (f : Forme) (t : Nat) (q : Req) (mask : Half) (at_ : Nat) (k : LinkDie) (spares : List PU),
    let un := (s.modPart p fun ps => { ps with proofUntil := none }).endProof p
    ((s.part p).proofUntil = some t → (s.part p).forme = some f → s.now < t →
      Machine.exec (.automaticFieldProofEnd p []) s = .next s)
    ∧ ((s.part p).proofUntil = some t → (s.part p).forme = some f → t ≤ s.now → un.fits f = true →
      Machine.exec (.automaticFieldProofEnd p []) s = .next (un.endJobs (fun j => decide (j.req.part = p) &&
        (match j.kind with
          | .arm _ => true
          | _ => false)) stOk))
    ∧ ((s.part p).proofUntil = some t → (s.part p).forme = some f → t ≤ s.now → un.fits f = false →
      ∃ u, Machine.exec (.automaticFieldProofEnd p []) s = .next u ∧ (u.part p).armed = false
        ∧ (u.part p).proofUntil = none)
    ∧ (s.host.jobs = [⟨q, .fieldProof mask t spares, at_⟩] → t ≤ s.elapsed → Machine.exec (.fieldProofEnd []) s =
      .next ({ s with host := { s.host with jobs := [] } }.replyAt q at_ stOk 0
        (proofBytes mask spares [])))
    ∧ (s.host.jobs = [⟨q, .fieldProof mask t spares, at_⟩] → s.elapsed < t → Machine.exec (.fieldProofEnd []) s = .next s)
    ∧ (∀ b, s.fw.block = some b → b.level = 2 → b.target = k.val → b.start + 64 * 16384 ≤ s.elapsed →
      let free := ((({ s with fw := { s.fw with block := none } }).wr (xreg .rstBlock) 0).wrBit
        (dreg .cdIso ⟨k.val, by omega⟩) 3 false)
      let out := { free with fen := { free.fen with lds := free.fen.lds.filter (· ≠ k) } }
      Machine.exec (.blockProofEnd []) s = .next (((out.wr (xreg .rstReplace)
        (out.rd (xreg .rstReplace) &&& 0xFFFFFFEF)).syncFence).endJobs (fun (j : Job) => j.kind == JobKind.block)
          stOk 0))

/-! ### Registers -/

/-- A register write. A requester whose grade or the power state does not allow it is refused, so is a partial write
and one where no register stands; a write under a latched quoin is dropped and noted; any other takes effect by the
register's own rules (R581, R592, R600, R647 to R649). A register without write rules of its own takes the written
value in its writable bits and keeps the others, and nothing else in the machine changes (R579). -/
def Obligations.RegisterWrites : Prop :=
  (∀ (s : State) (who : Requester) (a : Nat) (v : Word) (r : Reg), s.busDead who = false →
      let w := fun (whole : Bool) => Machine.exec (.registerWrite who a whole v) s
      let s1 := s.noteDebug who true
      (s.allows who a true = false → w true = .next (s.refused who a 0))
      ∧ (s.allows who a true = true → w false = .next (s1.refused who a 1))
      ∧ (s.allows who a true = true → regAt (a / 4 * 4) = none → w true = .next (s1.refused who a 0))
      ∧ (s.allows who a true = true → regAt (a / 4 * 4) = some r → hostWords r = true →
        (r.name.info.wq ≠ 0 → s1.rdBit (xreg .secQuoin) r.name.info.quoin = true → w true = .next (s1.refused who r.addr 2))
        ∧ ((r.name.info.wq = 0 ∨ s1.rdBit (xreg .secQuoin) r.name.info.quoin = false) →
          w true = .next (s1.ownWrite who r v))))
  ∧ (∀ (s : State) (who : Requester) (r : Reg) (v : Word),
      r.name ∈ [RegName.cdReact, .htSetHi, .cdStep, .cdPageALo, .cdRedCfg, .hbmTiming, .tgBase, .tgSeed, .secFuseData] →
      let m := r.name.info.rw ||| r.name.info.wq
      let t := s.ownWrite who r v
      t.rd r = (v &&& m) ||| (s.rd r &&& ~~~m) ∧ t = { s with regs := t.regs } ∧ ∀ q, q ≠ r → t.rd q = s.rd q)

/-- A register read delivers what the register shows and clears the read-clear bits that it returned as 1; a read of a
pair's low half keeps the high half for that requester, whose next read of the high half delivers it, once; a debug
read changes no register; a read by a requester whom the grade refuses delivers 0 (R586 to R590, R649). What a read
clears: exactly the read-clear bits that it returned as 1; the two temperature registers' highest reading falls back to
the last (R404, R532, R586). The two latched addresses read as any register does: HBM_UE_ADDR_HI and SEC_ACCESS_ADDR
deliver what they show, and clear their VALID where it was set (R425, R586, R600). -/
def Obligations.RegisterReads : Prop :=
  (∀ (s : State) (who : Requester) (a : Nat) (r : Reg), s.busDead who = false → regAt (a / 4 * 4) = some r →
      let s1 := s.noteDebug who false
      let rd := Machine.exec (.registerReadClear who a) s
      let out := fun (t : State) (v : Word) => Host.Outcome.next { t with busOut := v }
      (s.allows who a false = false → rd = out (s.refused who a 0) 0)
      ∧ (s.allows who a false = true →
        (r.name.high = none → r.name.isHigh = false → rd = out (s1.clearRead r (s1.view r)) (s1.view r))
        ∧ (∀ h, r.name.high = some h →
          let hi : Reg := { r with name := h }
          let t := (s1.setShadow who hi.addr (some (s1.view hi))).clearRead r (s1.view r)
          Machine.exec (.shadowLoRead who a) s = out t (s1.view r) ∧ rd = out t (s1.view r))
        ∧ (r.name.high = none → r.name.isHigh = true →
          (∀ v, s1.shadow who r.addr = some v → Machine.exec (.hiRead who a) s =
            out ((s1.setShadow who r.addr none).clearRead r v) v)
          ∧ (s1.shadow who r.addr = none → Machine.exec (.hiRead who a) s = out (s1.clearRead r (s1.view r)) (s1.view r)))
        ∧ ((who = .firmware ∨ who = .monitor ∨ who = .jtag) → Machine.exec (.debugRead who a) s = out s1 (s1.view r))
        ∧ ((who = .host ∨ who = .sideband) → Machine.exec (.debugRead who a) s = out (s.refused who a 0) 0)))
  ∧ (∀ (s : State) (r : Reg) (v : Word),
      let t := s.clearRead r v
      t = { s with regs := t.regs } ∧ (∀ q, q ≠ r → t.rd q = s.rd q)
      ∧ (r.name ≠ .pwrTj → r.name ≠ .hbmTemp → t.rd r = s.rd r &&& ~~~(v &&& r.name.info.rc))
      ∧ ((r.name = .pwrTj ∨ r.name = .hbmTemp) → t.rdFld r 15 8 = s.rdFld r 7 0 ∧ t.rdFld r 7 0 = s.rdFld r 7 0))
  ∧ (∀ (s : State) (who : Requester) (d : Die), s.busDead who = false →
      let s1 := s.noteDebug who false
      let h := dreg .hbmUeAddrHi d
      let a := xreg .secAccessAddr
      (s.allows who h.addr false = true → s1.shadow who h.addr = none → Machine.exec (.hbmUeAddrHiRead who d) s =
        .next { s1.clearRead h (s1.view h) with busOut := s1.view h })
      ∧ (s.allows who a.addr false = true → Machine.exec (.secAccessAddrRead who) s =
        .next { s1.clearRead a (s1.view a) with busOut := s1.view a }))

/-- The registers with write rules of their own (R42, R43, R46, R104, R108, R425, R426, R452, R521, R591): a write that
the access rules and quoins let through has the effect the register's table gives it. -/
def Obligations.TypedWrites : Prop :=
  ∀ (s : State) (who : Requester) (v : Word) (d : Die) (lu : LU) (rid : RegionId) (k : LinkDie) (high : Bool)
    (g : Fin 3) (c : Fin 32), s.busDead who = false →
    let s1 := s.noteDebug who true
    let passes := fun (r : Reg) => s.allows who r.addr true = true ∧ regAt (r.addr / 4 * 4) = some r
      ∧ (r.name.info.wq = 0 ∨ s1.rdBit (xreg .secQuoin) r.name.info.quoin = false)
    let bad := fun (r : Reg) (b : Nat) => Host.Outcome.next (s1.raiseBit r b)
    let kept := fun (r : Reg) => Host.Outcome.next (s1.storeReg r v)
    (passes (xreg .htSetLo) →
      (s1.htState = htFree → s1.anyArmed = false → Machine.exec (.htSetLoWrite who v) s =
        .next ((s1.storeReg (xreg .htSetLo) v).modHt fun h => { h with
          set := some (BitVec.ofNat 64 (v.toNat + 2 ^ 32 * (s1.rd (xreg .htSetHi)).toNat)) }))
      ∧ (s1.htState ≠ htFree → Machine.exec (.htSetLoWrite who v) s =
        .next ((s1.storeReg (xreg .htSetLo) v).raiseBit (xreg .htStatus) 11)))
    ∧ (passes (xreg .htConfig) →
      (s1.anyArmed = false → fld v 1 0 ≠ 3 → Machine.exec (.htConfigWrite who v) s = kept (xreg .htConfig))
      ∧ ((s1.anyArmed = true ∨ fld v 1 0 = 3) → Machine.exec (.htConfigWrite who v) s = bad (xreg .htStatus) 11))
    ∧ (passes (xreg .htNodeId) →
      (s1.anyArmed = false → Machine.exec (.htNodeIdWrite who v) s = kept (xreg .htNodeId))
      ∧ (s1.anyArmed = true → Machine.exec (.htNodeIdWrite who v) s = .next s1))
    ∧ (passes (dreg .cdPartition d) →
      (s1.dieArmed d = false → Machine.exec (.cdPartitionWrite who d v) s =
        .next (((s1.storeReg (dreg .cdPartition d) v).syncDomains d).syncRegionGear d))
      ∧ (s1.dieArmed d = true → Machine.exec (.cdPartitionWrite who d v) s = bad (dreg .cdPartition d) 5))
    ∧ (passes (ureg .tuImpose lu) → lu.alt = none →
      (s1.dieArmed lu.d = true → Machine.exec (.tuImposeWrite who lu v) s = bad (rreg .tuRegionStat lu.region) 10)
      ∧ (s1.dieArmed lu.d = false → fld v 6 0 = 127 → Machine.exec (.tuImposeWrite who lu v) s =
        .next (s1.storeReg (ureg .tuImpose lu) v).syncFence)
      ∧ (∀ h : fld v 6 0 < 66, s1.dieArmed lu.d = false → s1.unitFallow ⟨lu.d, lu.r, ⟨fld v 6 0, h⟩⟩ = false →
        (s1.carried ⟨lu.d, lu.r, ⟨fld v 6 0, h⟩⟩ = none ∨ s1.carried ⟨lu.d, lu.r, ⟨fld v 6 0, h⟩⟩ = some lu) →
        Machine.exec (.tuImposeWrite who lu v) s = .next (s1.storeReg (ureg .tuImpose lu) v).syncFence)
      ∧ (s1.dieArmed lu.d = false → 66 ≤ fld v 6 0 → fld v 6 0 ≠ 127 → Machine.exec (.tuImposeWrite who lu v) s =
        bad (rreg .tuRegionStat lu.region) 9))
    ∧ (passes (vtabReg rid (Gear.ofCode g.val)) →
      (fld v 7 0 ≤ fld v 15 8 → Machine.exec (.pwrVtabWrite who rid g v) s = bad (rreg .pwrRegionStat rid) 3)
      ∧ (fld v 15 8 < fld v 7 0 → Machine.exec (.pwrVtabWrite who rid g v) s =
        .next (s1.modRegion rid fun x => { x with vtab := x.vtab ++ [(g.val, v)] })))
    ∧ (passes (xreg .secQuoin) → Machine.exec (.secQuoinWrite who v) s =
      .next (s1.modReg (xreg .secQuoin) fun w => (w ||| (v &&& 0x7F)) &&& 0x7F ||| (v &&& ~~~(0x7F : Word))))
    ∧ (passes (xreg .secDebugCtl) → Machine.exec (.secDebugCtlWrite who v) s = kept (xreg .secDebugCtl))
    ∧ (let r : Reg := ⟨if high then .ldSpareHi else .ldSpareLo, k.val, 0, 0⟩
      passes r → (high = true → Machine.exec (.ldSpareWrite who k true v) s = .next (s1.modLinks fun x =>
          { x with spareHeld := x.spareHeld.set k v }))
        ∧ (high = false → Machine.exec (.ldSpareWrite who k false v) s =
          .next ((s1.ldSpareSet k false v).ldSpareSet k true (s1.links.spareHeld.get k))))
    ∧ (passes (dreg .hbmCfg d) →
      (fld v 7 0 ≠ 0 → Machine.exec (.hbmCfgWrite who d v) s = kept (dreg .hbmCfg d))
      ∧ (fld v 7 0 = 0 → Machine.exec (.hbmCfgWrite who d v) s = .next s1))
    ∧ (let ctl := tgReg .tgCtl d c
      let w := setBit v 6 true
      passes ctl → bit w 7 = false → s1.rdBit ctl 9 = false → s1.dieClosed d = false → s1.dieArmed d = false →
      fld w 4 2 < 5 →
      0 < s1.rdFld (tgReg .tgLen d c) 25 0 → s1.rdFld (tgReg .tgLen d c) 25 0 ≤ 2 ^ 25 →
      Machine.exec (.tgStart who d c v) s = .next (((((s1.storeReg ctl (w &&& ~~~(0xC0 : Word))).wrBit ctl 9 true).wr
        (tgReg .tgErr d c) 0).wr (tgReg .tgPass d c) 0).modReg (tgReg .tgFirst d c) fun w => setBit (setFld w 24 0 0) 31 false))

/-- A traffic generator's run. TG_RUN_DONE makes the accesses of its pass and ends it with DONE, but in MODE 0b11,
where it counts the pass and goes on; TG_STOP makes the accesses up to the stop and ends it; a generator that does not
run makes none, nor does one at a die with a forme armed (R420, R426). Fuses (R658). FUSE_PROG in Manufacturing, with
no programming under way, starts to burn the data register's word at the address; elsewhere it is refused.
FUSE_PROG_DONE of a word that verified burns its bits into what stood there. -/
def Obligations.GeneratorsAndFuses : Prop :=
  (∀ (s : State) (who : Requester) (d : Die) (c : Fin 32) (v : Word) (n : Nat),
      let ctl := tgReg .tgCtl d c
      let len := s.rdFld (tgReg .tgLen d c) 25 0
      let pass := s.tgPass d c len
      (s.rdBit ctl 9 = false → Machine.exec (.tgRunDone d c) s = .next s)
      ∧ (s.dieArmed d = true → Machine.exec (.tgRunDone d c) s = .next s)
      ∧ (s.rdBit ctl 9 = true → s.dieArmed d = false → pass.rdFld ctl 1 0 = 3 → Machine.exec (.tgRunDone d c) s =
        .next (pass.count (tgReg .tgPass d c) 1))
      ∧ (s.rdBit ctl 9 = true → s.dieArmed d = false → pass.rdFld ctl 1 0 ≠ 3 → Machine.exec (.tgRunDone d c) s =
        .next (pass.tgEnd d c))
      ∧ (s.allows who ctl.addr true = true → s.busDead who = false →
        let s1 := s.noteDebug who true
        s1.rdBit ctl 9 = true → Machine.exec (.tgStop who d c v n) s =
        .next (((s1.tgPass d c (min n (s1.rdFld (tgReg .tgLen d c) 25 0))).tgEnd d c).storeReg ctl (v &&& ~~~(0xC0 : Word)))))
  ∧ (∀ (s : State) (who : Requester) (v : Word) (a : Nat) (w : Word), s.busDead who = false →
      let r := xreg .secFuseCtl
      let s1 := s.noteDebug who true
      (s.allows who r.addr true = true → s1.rdBit (xreg .secQuoin) r.name.info.quoin = false →
        (s1.secState = 0 → s1.rdBit r 13 = false → ∃ t, Machine.exec (.fuseProg who v) s = .next t
          ∧ t.sec.progDue = some (fld (setBit v 12 true) 11 0, s1.rd (xreg .secFuseData)) ∧ t.rdBit r 13 = true
          ∧ t.sec.burnt = s.sec.burnt ∧ t.dies = s.dies)
        ∧ (s1.secState ≠ 0 → Machine.exec (.fuseProg who v) s = .next (s1.refused who r.addr 0)))
      ∧ (s.sec.progDue = some (a, w) → ∃ t, Machine.exec (.fuseProgDone true) s = .next t ∧ t.fuse a = s.fuse a ||| w
        ∧ t.sec.progDue = none ∧ ∀ b, b ≠ a → t.fuse b = s.fuse b)
      ∧ (s.sec.progDue = none → Machine.exec (.fuseProgDone true) s = .next s))

/-! ### Resets and firmware -/

/-- The resets of the whole package (R602, R603, R606, R608, R671). A fundamental reset of a package that is on or in
Standby leaves no forme loaded, no command waiting in a slot, the quoins clear, the retained memory and RST_BACKUP as
they were, and the cause in RST_CAUSE; the straps are sampled at its release. Of a package that stopped in Standby
PERST# is ignored (R680). A cold reset after a brown-out keeps retained memory, one from off clears it, and only the
fundamental reset keeps RST_FAULT_CNT (R667). The removal of the supply leaves nothing but fuses and flash. -/
def Obligations.ResetsTake : Prop :=
  ∀ (s : State) (st : Straps),
    let fuses := fun (t : State) => t.sec.fused = s.sec.fused ∧ t.sec.burnt = s.sec.burnt
      ∧ t.fw.versions = s.fw.versions ∧ t.fw.settings = s.fw.settings ∧ t.fw.retired = s.fw.retired
      ∧ t.fw.fallow = s.fw.fallow
    let bare := fun (t : State) => (∀ p, (t.part p).forme = none ∧ (t.part p).armed = false ∧ (t.part p).running = false)
      ∧ t.ht = HtS.reset ∧ (∀ i < 64, t.slotState i = 0 ∧ t.replyEmpty i = true) ∧ t.rd (xreg .secQuoin) = 0
      ∧ t.power.mode = .standby ∧ fuses t
    ((s.power.mode = .on ∨ s.power.mode = .standby) →
      (s.power.mode = .standby → s.power.stage ≠ .failed) → s.power.brownOut = false → ∃ t, Machine.exec .fundamentalReset s = .next t ∧ bare t ∧ t.power.stage = .perst
        ∧ t.retained = s.retained ∧ t.rdFld (xreg .rstCause) 2 0 = 1 ∧ t.rd (xreg .rstFaultCnt) = s.rd (xreg .rstFaultCnt)
        ∧ ∀ i, t.rd ⟨.rstBackup, 0, i, 0⟩ = s.rd ⟨.rstBackup, 0, i, 0⟩)
    ∧ (s.power.mode = .standby → s.power.stage = .failed → Machine.exec .fundamentalReset s = .next s)
    ∧ (s.power.mode = .standby → s.power.stage = .perst → Machine.exec (.perstRelease st) s =
      .next { s with straps := st, power := { s.power with stage := .rom } })
    ∧ (s.power.mode = .off → ∃ t, Machine.exec (.coldReset st) s = .next t ∧ bare t ∧ t.power.stage = .rom
        ∧ t.straps = st ∧ t.retained = .empty ∧ t.rdFld (xreg .rstCause) 2 0 = 0)
    ∧ (s.power.mode = .standby → s.power.brownOut = true → ∃ t, Machine.exec (.coldReset st) s = .next t ∧ bare t
        ∧ t.power.stage = .rom ∧ t.straps = st ∧ t.retained = s.retained ∧ t.rdBit (xreg .rstCause) 3 = true
        ∧ t.rd (xreg .rstFaultCnt) = 0)
    ∧ (∃ t, Machine.exec .supplyRemoval s = .next t ∧ t.power.mode = .off ∧ fuses t ∧ t.retained = .empty
        ∧ (∀ r, r.name ≠ .secState → t.rd r = State.reset.rd r)
        ∧ t.sec.owner = false ∧ t.fw.boots = s.fw.boots)

/-- The boot sequence (R608, R610). A stage that does not complete in its time stops it, in Standby with BOOT_FAIL set.
The firmware row boots the active slot where it passes its checks, else the other slot with SLOT_FAIL set, else goes to
the ROM loader with BOOT_FAIL set. That each stage takes one step on an empty queue is the model's choice (log 3). The
ROM loader (R609) answers a staging, checks the image at its LAST, starts a checked image on an FW_ACTIVATE without AT,
and answers every other opcode with BUSY. -/
def Obligations.BootRuns : Prop :=
  (∀ s : State, s.booting = true →
      let a := s.fw.active
      (∃ t, Machine.exec .bootStageTimeout s = .next t ∧ t.power.mode = .standby ∧ t.power.stage = .failed
        ∧ t.rdBit (xreg .rstFw) 6 = true)
      ∧ (s.pending = [] → s.power.stage = .firmware → s.straps.bootSrc ≠ 1 → s.straps.bootSrc ≠ 2 →
        ∃ t, Machine.step s = .next t
        ∧ (s.fw.slotOk a = true → t.power.stage = .domains ∧ t.fw.active = a)
        ∧ (s.fw.slotOk a = false → s.fw.slotOk (!a) = true → t.power.stage = .domains ∧ t.fw.active = !a
          ∧ t.rdBit (xreg .rstFw) 5 = true)
        ∧ (s.fw.slotOk a = false → s.fw.slotOk (!a) = false → t.power.stage = .loader
          ∧ t.rdBit (xreg .rstFw) 5 = true ∧ t.rdBit (xreg .rstFw) 6 = true))
      ∧ (s.pending = [] → s.power.stage = .quoins → ∃ t, Machine.step s = .next t ∧ t.power.mode = .on
        ∧ t.power.stage = .done ∧ t.rd (xreg .secQuoin) = bootQuoins s.secState))
  ∧ (∀ (s : State) (q : Req) (o format : Nat) (b : List Byte), s.power.stage = .loader →
      s.power.mode = .standby → s.loaderHears q.src = true → q.src.isSideband = false →
      let run := fun (c : Cmd) => Machine.exec (.romLoader q c format) s
      (o + b.length ≤ 2 ^ 24 →
        run (.fwStage 0 false o (.bytes b)) = .next ((s.stage o b).reply q stOk)
        ∧ (∀ v, (s.stage o b).imageCheck = .passes v → ∃ t, run (.fwStage 0 true o (.bytes b)) = .next t
          ∧ t.rdBit (xreg .rstFw) 2 = true ∧ t.fw.loaded = v ∧ t.fw.images = s.fw.images)
        ∧ (∀ d, (s.stage o b).imageCheck = .fails d →
          run (.fwStage 0 true o (.bytes b)) = .next ((s.stage o b).reply q stFwBad d)))
      ∧ (q.at_ = none → s.rdBit (xreg .rstFw) 2 = true → ∃ t, run .fwActivate = .next t ∧ t.power.stage = .domains
        ∧ t.fw.loaderImage = true ∧ t.fw.ownFormat = format ∧ t.fw.versions = s.fw.versions
        ∧ t.rdBit (xreg .rstFw) 2 = false)
      ∧ (q.at_ = none → s.rdBit (xreg .rstFw) 2 = false → run .fwActivate = .next (s.reply q stFwBad 8))
      ∧ run .energyRead = .next (s.reply q stBusy) ∧ run .formeDisarm = .next (s.reply q stBusy))

/-- The firmware's commands and the warm reset (R604, R611, R629, R630). FW_STAGE puts its data at its offset, and at
LAST starts the checks; FW_ACTIVATE begins the pause with the staged slot on trial; both are refused as R629 and R630
say. WARM_RESET is BUSY while an activation pauses the package or comes due and while a block is reset; it halts and
unloads every forme, and keeps Hall Time, the memories, their remap tables and the fallow state. The image checks end
(R628, R629): an image that passes is stored in the inactive slot under the fresh IV that the generator gives and
STAGED is set; one that fails, its DETAIL naming the first check that does, leaves the slots alone; either way STAGING
is clear and no check waits. The boundary of an activation is its trial's: a confirmation within 250,000,000 ticks
clears TRIAL and answers OK, none by then is a watchdog reset that returns the slot state to the previous slot and
answers FW_BAD with DETAIL 7 (R630 to R632). The watchdog and warm resets (R604, R605, R611, R612, R615).
WATCHDOG_EXPIRY counts, answers what is TAKEN or pending, and with a right digest restarts from memory with nothing
else changed: formes and their partitions go on. With a wrong one the image comes from flash again: of the active slot
where it passes its checks, else of the other (R610). In an activation pause the watchdog fires only once the new
firmware has refreshed it (R615). -/
def Obligations.FirmwareRestarts : Prop :=
  (∀ (s u : State) (q : Req) (last : Bool) (o : Nat) (b : List Byte), s.collects q u → q.at_ = none →
      let put := Machine.exec (.fwStage q 0 last o (.bytes b)) s
      let act := Machine.exec (.fwActivate q) s
      ((u.rdBit (xreg .rstFw) 3 = true ∨ u.activating = true) → put = .next (u.reply q stBusy))
      ∧ (u.rdBit (xreg .rstFw) 3 = false → u.activating = false → o + b.length ≤ 2 ^ 24 →
        (last = false → put = .next ((u.stage o b).reply q stOk))
        ∧ (last = true → put = .next (((u.stage o b).wrBit (xreg .rstFw) 3 true).addJob q .fwCheck)))
      ∧ (u.rdBit (xreg .rstFw) 2 = false → act = .next (u.reply q stFwBad 8))
      ∧ (u.rdBit (xreg .rstFw) 2 = true → u.activating = true → act = .next (u.reply q stBusy))
      ∧ (u.rdBit (xreg .rstFw) 2 = true → u.activating = false → ∃ t, act = .next t ∧ t.fw.active = !u.fw.active
        ∧ t.fw.trial = true ∧ t.fw.pause = some u.now ∧ t.fw.trialFrom = some u.elapsed ∧ t.rdBit (xreg .rstFw) 2 = false
        ∧ t.host.jobs = u.host.jobs ++ [⟨q, .fwActivate, u.now⟩] ∧ t.parts = u.parts ∧ t.ht = u.ht)
      ∧ ((u.fw.pause.isSome = true ∨ u.fw.comesDue = true ∨ u.fw.block.isSome = true) → Machine.exec (.warmReset q) s = .next (u.reply q stBusy))
      ∧ (u.fw.pause = none → u.fw.comesDue = false → u.fw.block = none → ∃ t, Machine.exec (.warmReset q) s = .next t
        ∧ (∀ p, (t.part p).forme = none ∧ (t.part p).armed = false ∧ (t.part p).running = false)
        ∧ t.fw.warm = some ⟨u.elapsed, false, false⟩ ∧ t.links.silenced = true ∧ t.ht = u.ht
        ∧ (∀ x ∈ u.fen.units, x ∈ t.fen.units) ∧ (∀ x ∈ u.fen.regions, x ∈ t.fen.regions)
        ∧ (∀ x ∈ u.fen.dies, x ∈ t.fen.dies) ∧ (∀ x ∈ u.fen.lds, x ∈ t.fen.lds)
        ∧ (∀ d, (t.die d).remap = (u.die d).remap ∧ (t.die d).hbm = (u.die d).hbm)
        ∧ t.rd (xreg .secQuoin) = u.rd (xreg .secQuoin)))
  ∧ (∀ (s : State) (format n : Nat) (iv : List Byte), s.power.mode = .on →
      let quiet := fun (t : State) (k : JobKind) => ∀ j ∈ t.host.jobs, j.kind ≠ k
      (s.rdBit (xreg .rstFw) 3 = true → s.fw.warm = none → ∃ t, Machine.exec (.fwStageCheckDone iv) s = .next t
        ∧ t.rdBit (xreg .rstFw) 3 = false ∧ quiet t .fwCheck
        ∧ (∀ b, s.imageCheck = .passes b → t.rdBit (xreg .rstFw) 2 = true
          ∧ t.fw.versions = s.fw.versions.set (1 - s.fw.active.toNat) (imageVersion b)
          ∧ t.fw.images = s.fw.images.set (1 - s.fw.active.toNat) b
          ∧ t.fw.ivs = s.fw.ivs.set (1 - s.fw.active.toNat) iv)
        ∧ (∀ d, s.imageCheck = .fails d → t.fw.versions = s.fw.versions ∧ t.fw.images = s.fw.images))
      ∧ (s.rdBit (xreg .rstFw) 3 = false → Machine.exec (.fwStageCheckDone iv) s = .next s)
      ∧ (let f := s.fw
        (f.containerOk = false → s.imageCheck = .fails 5)
        ∧ (f.containerOk = true → f.opened = none → s.imageCheck = .fails 1)
        ∧ (∀ body, f.containerOk = true → f.opened = some body → f.deltaBase = none → imageFault body = none →
          s.imageCheck = .passes body)
        ∧ (∀ body base, f.containerOk = true → f.opened = some body → f.deltaBase = some base →
          base ≠ padTo 16 s.activeVersion → s.imageCheck = .fails 2)
        ∧ (∀ body img, f.containerOk = true → f.opened = some body → f.deltaBase = some (padTo 16 s.activeVersion) →
          rebuilt f.running body = some img → imageFault img = none → s.imageCheck = .passes img))
      ∧ (s.fw.trialFrom = some n → s.fw.trial = true →
        (s.elapsed < n + 250000000 → Machine.exec .fwTrialTimeout s = .next s ∧
          ∃ t, Machine.exec (.fwTrialConfirm format) s = .next t ∧ t.fw.trial = false ∧ t.fw.trialFrom = none
            ∧ t.fw.active = s.fw.active ∧ t.rdBit (xreg .rstFw) 1 = false ∧ quiet t .fwActivate
            ∧ (s.fw.format = format → t.fw.settings = s.fw.settings)
            ∧ (s.fw.format ≠ format → ∀ k v, settingDefault k = some v → t.setting k = v))
        ∧ (n + 250000000 ≤ s.elapsed → Machine.exec (.fwTrialConfirm format) s = .next s ∧
          ∃ t, Machine.exec .fwTrialTimeout s = .next t ∧ t.fw.trial = false ∧ t.fw.active = !s.fw.active
            ∧ t.fw.settings = s.fw.settings ∧ t.rdFld (xreg .rstCause) 2 0 = 6 ∧ t.host.jobs = []
            ∧ t.rdFld (xreg .rstWdogCnt) 31 0 = min (s.rdFld (xreg .rstWdogCnt) 31 0 + 1) (2 ^ 32 - 1))))
  ∧ (∀ (s : State) (r : Bool), s.power.mode = .on → s.fw.warm = none →
      (s.fw.pause.isSome = true → r = false → ∀ ok, Machine.exec (.watchdogExpiry ok r) s = .next s)
      ∧ ((s.fw.pause = none ∨ r = true) → ∃ t, Machine.exec (.watchdogExpiry true r) s = .next t
        ∧ t.rdFld (xreg .rstWdogCnt) 31 0 = min (s.rdFld (xreg .rstWdogCnt) 31 0 + 1) (2 ^ 32 - 1)
        ∧ t.rdFld (xreg .rstCause) 2 0 = 4 ∧ t.host.jobs = [] ∧ t.parts = s.parts ∧ t.ht = s.ht ∧ t.fw.active = s.fw.active
        ∧ t.retained = s.retained)
      ∧ ((s.fw.pause = none ∨ r = true) → ∃ t, Machine.exec (.watchdogExpiry false r) s = .next t ∧ t.host.jobs = [] ∧ t.parts = s.parts ∧ t.ht = s.ht
        ∧ (s.fw.slotOk s.fw.active = true → t.fw.active = s.fw.active ∧ t.fw.loaderImage = false)
        ∧ (s.fw.slotOk s.fw.active = false → s.fw.slotOk (!s.fw.active) = true → t.fw.active = !s.fw.active
          ∧ t.fw.trial = false ∧ t.rdBit (xreg .rstFw) 5 = true)
        ∧ (s.fw.slotOk s.fw.active = false → s.fw.slotOk (!s.fw.active) = false → t.power.stage = .loader
          ∧ t.rdBit (xreg .rstFw) 6 = true)))

/-! ### Host commands -/

/-- Every host command, handled where commands are collected (R554, R556, R573, R651): FORME_LOAD, FORME_ARM,
FORME_DISARM, RUN_AT, HALT_AT, GEAR_AT, CANCEL, SNAPSHOT, PAGE_RETIRE, DMA_READ, DMA_WRITE, STREAM_OPEN, STREAM_CLOSE,
FIELD_PROOF, PROOF_RUN, FENCE, CAP_SET, ENERGY_READ, TWIN_MODE, TWIN_DETACH, FW_STAGE, FW_ACTIVATE, SETTINGS_GET,
SETTINGS_SET, WARM_RESET, BLOCK_RESET, ATTEST, SEC_TRANSITION, TRAFFIC_GEN, TELEMETRY_READ. Collection notes the
boundary and takes the slot; a command counts once it is handled (R577). One of the sideband that its grade of opcodes
does not hold is DENIED_SIDEBAND; one that needs clocks is BUSY in a scan (a refused SEC_TRANSITION draws a new
challenge all the same, R642); one of the time group whose AT bit is wrong is BAD_PARAM; one outside that group whose
AT is still to come is held; each other is carried out at once. Where commands are not collected nothing changes (log
6). The replies (R557, R558): a reply to a host slot leaves the reply slot POSTED with the echo of opcode and TAG, the
status and the DETAIL in its header, and the command slot FREE; on the sideband it leaves as a message to the endpoint
that asked, and frees the slot. -/
def Obligations.CommandsAreJudged : Prop :=
  (∀ (i : Instr) (q : Req) (c : Cmd) (s : State), hostCommand i = some (q, c) →
      let r := Machine.exec i s
      (s.opens = none → s.lowPower = false → r = .next s)
      ∧ ∀ t, s.opens = some t →
        let u := t.taken q
        let denied := q.src.isSideband && !(c.onSideband q.op && c.sidebandOk)
        (denied = true → r = .next (u.reply q stDeniedSideband))
        ∧ (denied = false → u.rdBit (xreg .secState) 4 = true → c.inScan = false → r = .next (u.turnAway q c stBusy))
        ∧ (denied = false → u.rdBit (xreg .secState) 4 = false → c.timeOk q = false → r = .next (u.reply q stBadParam))
        ∧ (∀ d, denied = false → u.rdBit (xreg .secState) 4 = false → c.timed = false → c ≠ .fwActivate →
          q.at_ = some d → u.now < d → r = .next ((t.take q.src).addJob q (.held c d)))
        ∧ (∀ d, denied = false → u.rdBit (xreg .secState) 4 = false → c.timed = false → c.timeOk q = true → q.at_ = some d →
                  d ≤ u.now → r = .next (u.perform q c))
        ∧ (denied = false → (u.rdBit (xreg .secState) 4 = true → c.inScan = true) → c.timed = false → q.at_ = none →
          r = .next (u.perform q c))
        ∧ (denied = false → u.rdBit (xreg .secState) 4 = false → c.timed = true → c.timeOk q = true →
          r = .next (u.perform q c)))
  ∧ (∀ (s : State) (q : Req) (status detail : Nat) (b : List Byte), status < 2 ^ 16 → detail < 2 ^ 16 →
      b.length ≤ 4096 →
      let t := s.reply q status detail b
      (∀ i, q.src = .host i →
        let r := replySlot i.val
        t.host.window.word (r + 60) = 1 ∧ t.host.window.word (r + 20) = BitVec.ofNat 32 (status + 65536 * detail)
        ∧ t.host.window.word r = BitVec.ofNat 32 (q.op.toNat + 65536 * q.tag.toNat)
        ∧ t.host.window.word (r + 4) = BitVec.ofNat 32 b.length ∧ t.host.window.bytes (r + 64) b.length = b
        ∧ t.slotState i.val = 0 ∧ (q.irq = true → t.host.vectors.getLsbD (192 + q.vec.val) = true)
        ∧ t = { s with host := t.host })
      ∧ (∀ j m, q.src = .sideband j → s.sb.slots[j.val]? = some (some m) → ∃ h, t.sb.out =
          s.sb.out ++ [.reply m.eid (h ++ natLe 4 1 ++ b)] ∧ h.length = 60 ∧ t.sb.slots[j.val]? = some none
          ∧ t = { s with sb := t.sb }))

/-- The formes (R562, R603, R687): FORME_LOAD checks the image, the layouts of its tables first, and loads, FORME_ARM
arms, FORME_DISARM disarms, at the tick of a RUN_AT no longer (R555). -/
def Obligations.FormesAreLoaded : Prop :=
  ∀ (s u : State) (q : Req) (r : FormeRead) (f0 f : Forme) (tb : TableImage) (start : Word) (cold : Bool), s.collects q u → q.at_ = none →
    let p := q.part
    let un := u.unload p
    let load := Machine.exec (.formeLoad q r) s
    let arm := Machine.exec (.formeArm q start cold) s
    let disarm := Machine.exec (.formeDisarm q) s
    (u.partDies p = [] → load = .next (u.reply q stBadPart) ∧ arm = .next (u.reply q stBadPart)
      ∧ disarm = .next (u.reply q stBadPart))
    ∧ (u.partDies p ≠ [] →
      ((u.partDies p).any u.dieArmed = true → load = .next (u.reply q stFormeArmed))
      ∧ ((u.partDies p).any u.dieArmed = false →
        (r = .dmaError → load = .next (un.reply q stDmaFault))
        ∧ (r = .badDigest → load = .next (un.reply q stFormeBad 1))
        ∧ (r = .badFormat → load = .next (un.reply q stFormeBad 2))
        ∧ (r = .ok f0 tb → f0.withTables tb = none → load = .next (un.reply q stFormeBad 2))
        ∧ (∀ e, r = .ok f0 tb → f0.withTables tb = some f → un.loadCheck p f = some e → load = .next (un.reply q e.1 e.2))
        ∧ (r = .ok f0 tb → f0.withTables tb = some f → un.loadCheck p f = none → let t := un.loadForme p f
          load = .next (t.reply q stOk 0 (natLe 2 (t.mappedUnits p) ++ natLe 2 f.needs.length))))
      ∧ ((u.part p).forme = none → arm = .next (u.reply q stNotArmed))
      ∧ ((u.part p).forme = some f →
        ((u.part p).armed = true → arm = .next (u.reply q stFormeArmed))
        ∧ ((u.part p).armed = false → (u.partRegions p).any (fun r => !u.regionFallow r
            && !u.rdBit (rreg .pwrRegionStat r) 4) = true → arm = .next (u.reply q stBusy))
        ∧ ((u.part p).armed = false → (u.partRegions p).any (fun r => !u.regionFallow r
            && !u.rdBit (rreg .pwrRegionStat r) 4) = false →
          (u.timed = false → arm = .next (u.reply q stTimeState))
          ∧ (u.timed = true → ∃ t, arm = .next t ∧ (t.part p).armed = true ∧ (t.part p).coldArm = cold
            ∧ (t.part p).forme = some f ∧ (∀ d ∈ u.partDies p, t.rd (dreg .cdStep d) = start)
            ∧ (64 < f.tree.packages → (t.part p).proofUntil = none)
            ∧ (f.tree.packages ≤ 64 → (t.part p).proofUntil = some (u.now + 192 * 16384)
              ∧ ⟨q, .arm (u.now + 192 * 16384), u.now⟩ ∈ t.host.jobs))))
      ∧ (((u.part p).running = true ∨ (u.part p).armed = true ∧ u.runAt? p = some u.now) →
        disarm = .next (u.reply q stFormeArmed))
      ∧ ((u.part p).running = false → (u.part p).armed = false → disarm = .next (u.reply q stNotArmed))
      ∧ ((u.part p).running = false → (u.part p).armed = true → u.runAt? p ≠ some u.now → ∃ t, disarm = .next t
        ∧ (t.part p).armed = false ∧ t.runAt? p = none ∧ (t.part p).forme = (u.part p).forme))

/-- The time group (R95, R98, R100, R563): an accepted command waits for its tick with its slot TAKEN; the refusals are
judged in the order given. CANCEL answers the command it names with CANCELLED. -/
def Obligations.TimesAreSet : Prop :=
  ∀ (s u : State) (q : Req) (t gear slot : Nat) (tag : Half), s.collects q u →
    let p := q.part
    let ps := u.part p
    let run := Machine.exec (.runAt q) s
    let halt := Machine.exec (.haltAt q) s
    let shift := Machine.exec (.gearAt q gear) s
    (q.at_ = some t → u.partDies p ≠ [] →
      (ps.armed = false → ps.running = false → run = .next (u.reply q stNotArmed))
      ∧ (ps.armed = true → ps.running = false → u.runAt? p = none →
        (t % 16384 ≠ 0 → run = .next (u.reply q stTimeNotBoundary))
        ∧ (t % 16384 = 0 → t < u.now + 65536 → run = .next (u.reply q stTimeTooSoon))
        ∧ (t % 16384 = 0 → u.now + 65536 ≤ t → u.htState ≠ htLocked → u.htState ≠ htFree →
          run = .next (u.reply q stTimeState))
        ∧ (t % 16384 = 0 → u.now + 65536 ≤ t → (u.htState = htLocked ∨ u.htState = htFree) →
          (∀ e, ps.proofUntil = some e → e ≤ t) → run = .next (u.addJob q (.runAt t))))
      ∧ (t % 16384 = 0 → (ps.armed = true ∨ ps.running = true) →
        (u.now < t → halt = .next (u.addJob q (.haltAt t)))
        ∧ (t ≤ u.now → halt = .next (u.reply q stTimeTooSoon)))
      ∧ (t % 16384 ≠ 0 → halt = .next (u.reply q stTimeNotBoundary))
      ∧ (2 < gear → shift = .next (u.reply q stBadParam))
      ∧ (gear ≤ 2 → u.gearBoundary p t = false → shift = .next (u.reply q stTimeNotBoundary))
      ∧ (gear ≤ 2 → u.gearBoundary p t = true → (∀ f, ps.forme = some f → f.hasGear (Gear.ofCode gear) = true) →
        u.now + 65536 ≤ t →
        ((u.gearAts p).any (fun e => decide (e.1 < t + 32768 ∧ t < e.1 + 32768)) = true →
          shift = .next (u.reply q stTimeConflict))
        ∧ ((u.gearAts p).any (fun e => decide (e.1 < t + 32768 ∧ t < e.1 + 32768)) = false →
          shift = .next ((u.addJob q (.gearAt t (Gear.ofCode gear))).syncGear p))))
    ∧ (q.at_ = none →
      let hit : Job → Bool := fun j => j.pending && q.src.slotIs j.req.src slot && j.req.tag == tag && decide (u.now < j.due)
      (slot < 64 → u.host.jobs.find? hit = none → Machine.exec (.cancel q slot tag) s = .next (u.reply q stNotPending))
      ∧ (∀ j, slot < 64 → u.host.jobs.find? hit = some j → Machine.exec (.cancel q slot tag) s =
        .next (((u.endJobs hit stCancelled).syncGear j.req.part).reply q stOk))
      ∧ (64 ≤ slot → Machine.exec (.cancel q slot tag) s = .next (u.reply q stBadParam)))

/-- The data commands (R549, R567, R569): a DMA waits for its transfer, what the transfer brings is stored, what it
takes goes to host memory, and its reply tells the first status bit that a refused access set; at a die with a forme
armed only in a slot that the forme reserves (R18). A stream is opened and closed. A transfer ends (R549, R567). -/
def Obligations.DataMoves : Prop :=
  (∀ (s u : State) (q : Req) (p : DmaParams) (t : StreamParams) (id : Half), s.collects q u → q.at_ = none →
      let d : Die := die4 p.die
      (p.ok = true →
        (u.noHostSlots d = true → Machine.exec (.dmaRead q p) s = .next (u.reply q stBusy)
          ∧ Machine.exec (.dmaWrite q p) s = .next (u.reply q stBusy))
        ∧ (u.noHostSlots d = false → Machine.exec (.dmaWrite q p) s = .next (u.addJob q (.dmaWrite p))
          ∧ (u.hostOpen d = true → Machine.exec (.dmaRead q p) s = .next ((u.dmaTake d p).1.addJob q
            (.dmaRead p (some (u.dmaTake d p).2) (u.dmaDetail d p))))
          ∧ (u.hostOpen d = false → Machine.exec (.dmaRead q p) s = .next (u.addJob q (.dmaRead p none none)))))
      ∧ (p.ok = false → Machine.exec (.dmaRead q p) s = .next (u.reply q stBadParam)
        ∧ Machine.exec (.dmaWrite q p) s = .next (u.reply q stBadParam))
      ∧ (t.dir ≤ 1 → t.die < 16 → t.target ≤ 1 → t.ports < 2 ^ 49 →
        (u.host.streams.any (·.id = t.id) = false → u.host.streams.length < 16 → ∃ x,
          Machine.exec (.streamOpen q t) s = .next ({ u with host := { u.host with
            streams := u.host.streams ++ [x] } }.reply q stOk) ∧ x.id = t.id ∧ x.send = (t.dir == 1) ∧ x.moved = 0
            ∧ x.addr = t.addr ∧ x.length = t.length)
        ∧ (16 ≤ u.host.streams.length → Machine.exec (.streamOpen q t) s = .next (u.reply q stBusy)))
      ∧ (∀ x, u.host.streams.find? (·.id = id) = some x → Machine.exec (.streamClose q id) s =
        .next ({ u with host := { u.host with streams := u.host.streams.filter (·.id ≠ id) } }.reply q stOk 0
          (natLe 8 x.moved ++ natLe 8 x.highest)))
      ∧ (u.host.streams.find? (·.id = id) = none → Machine.exec (.streamClose q id) s = .next (u.reply q stBadParam)))
  ∧ (∀ (s : State) (j : Job) (p : DmaParams) (b data : List Byte) (e : Option Nat), s.host.jobs = [j] →
      let t := { s with host := { s.host with jobs := [] } }
      let fin := fun (x : State) => match e with
        | some n => x.replyAt j.req j.at_ stRefused n []
        | none => x.replyAt j.req j.at_ stOk 0 []
      let run := fun (r : HostRead) => Machine.exec (.dmaTransferDone j.req.src r) s
      let d : Die := die4 p.die
      let took := s.dmaTake d p
      let ends := fun (x : State) => match s.dmaDetail d p with
        | some n => x.endJobs (· = j) stRefused n
        | none => x.endJobs (· = j) stOk
      (s.host.d3hot = true → ∀ r, run r = .next s)
      ∧ (s.host.d3hot = false →
        (j.kind = .dmaRead p (some b) e → run (.bytes data) = .next (fin (t.toHost p.host b))
          ∧ run .fault = .next (t.replyAt j.req j.at_ stDmaFault 0 []))
        ∧ (j.kind = .dmaRead p none e →
          (s.hostOpen d = true → run (.bytes data) = .next (ends (took.1.toHost p.host took.2)))
          ∧ (s.hostOpen d = false → run (.bytes data) = .next s)
          ∧ run .fault = .next (t.replyAt j.req j.at_ stDmaFault 0 []))
        ∧ (j.kind = .dmaWrite p →
          (s.hostOpen d = true → run (.bytes data) = .next (ends (s.dmaPut d p data)))
          ∧ (s.hostOpen d = false → run (.bytes data) = .next s)
          ∧ run .fault = .next (t.replyAt j.req j.at_ stDmaFault 0 []))))

/-- The proof commands (R565, R491): FIELD_PROOF runs for 64 furrows before it answers; PROOF_RUN is refused on an
armed die, a unit that no position carries or a region without power; the result of the unit's operation waits to be
written, UNPROVED where the engine of the cluster is bound; one that is proved holds the engine until its transfer has
ended, and one whose operands the array refuses is REFUSED with the bit of FMT_BAD (R216, R237). FENCE (R498, R500,
R566) of a block that is not fallow makes it fallow, one of a fallow block changes nothing; both write their record and
answer OK. PAGE_RETIRE starts a copy and answers when it ends, or is refused (R413, R414). BLOCK_RESET is refused on an
armed block, while another runs, while an activation pauses the package or comes due, and above 90 degrees; accepted,
it isolates the block and runs its proof, a block's regions one voltage step below nominal (R520, R619, R620). -/
def Obligations.BlocksAreCommanded : Prop :=
  (∀ (s u : State) (q : Req) (mask : Half) (p : ProofParams) (l : LU) (x : PU) (data : List Byte), s.collects q u →
      q.at_ = none →
      let run := Machine.exec (.proofRun q p (.bytes data)) s
      let bound := (u.clusterS l.cluster).proof.isSome
      Machine.exec (.fieldProof q mask) s = .next (u.addJob q (.fieldProof mask (u.elapsed + 64 * 16384) ((allRegions.filter fun r =>
          mask.toNat.testBit r.d.val).flatMap u.freeSpares)))
      ∧ (p.die = l.d.val → p.region = l.r.val → p.cluster < 8 → p.unit < 8 → 8 * p.cluster + p.unit = l.n.val →
        l.alt = none → 64 ≤ p.k → p.k ≤ 4096 →
        (u.dieArmed l.d = true → run = .next (u.reply q stFormeArmed))
        ∧ (u.dieArmed l.d = false → u.carrier l = none → run = .next (u.reply q stNoFit))
        ∧ (u.dieArmed l.d = false → u.carrier l = some x → u.unitFallow x = false →
          (u.rdBit (rreg .pwrRegionStat l.region) 4 = false → run = .next (u.reply q stBusy))
          ∧ (u.rdBit (rreg .pwrRegionStat l.region) 4 = true → ∀ ws fl bad,
            proofRunOp p data (!bound) = some (ws, fl, bad) → ∃ t, run = .next t
            ∧ (∃ at_, t.host.jobs.getLast? = some ⟨q, .proof l.cluster (BitVec.ofNat 16 (if bound then stUnproved else stOk))
              p.host (ws.flatMap fun w => natLe 4 w.toNat), at_⟩)
            ∧ (t.unit x).groups = (u.unit x).groups.set 0 ⟨.shut, ws.map fun w => ⟨w, 0⟩, List.replicate 4096 .zero⟩
            ∧ (bound = false → (t.clusterS l.cluster).proof = some ⟨l.inCluster, 0, [], false, true⟩)
            ∧ (bound = true → (t.clusterS l.cluster).proof = (u.clusterS l.cluster).proof
              ∧ t.rdBit (creg .cdProofStat l.cluster) 8 = true))
          ∧ (u.rdBit (rreg .pwrRegionStat l.region) 4 = true → proofRunOp p data (!bound) = none →
            ∃ t : State, run = .next (t.reply q stRefused tuFmtBad) ∧ t.host.jobs = u.host.jobs ∧ t.clusters = u.clusters)))
      ∧ ((p.k < 64 ∨ 4096 < p.k ∨ 16 ≤ p.die ∨ 4 ≤ p.region ∨ 8 ≤ p.cluster ∨ 8 ≤ p.unit) →
        run = .next (u.reply q stBadParam)))
  ∧ (∀ (s u : State) (q : Req) (d : Die) (r : Fin 4) (pos : Fin 66) (k : LinkDie) (n page level target : Nat),
      s.collects q u → q.at_ = none →
      let fence := fun (l d r p : Nat) => Machine.exec (.fence q l d r p) s
      let x : PU := ⟨d, r, pos⟩
      let noted := fun (t : State) (react region index : Nat) => Host.Outcome.next ((t.record ⟨d.val, 0x23, 0, react, region,
        index, u.partOf d, decide (u.susp.length < t.susp.length), false, 0⟩).reply q stOk)
      (u.unitFallow x = true → fence 0 d.val r.val pos.val = noted u 1 r.val pos.val)
      ∧ (u.regionFallow ⟨d, r⟩ = true → fence 1 d.val r.val n = noted u 2 r.val 0xFF)
      ∧ (u.fen.dies.contains d = true → fence 2 d.val n page = noted u 3 0xFF 0xFF)
      ∧ (u.unitFallow x = false → fence 0 d.val r.val pos.val = noted (u.fence (·.fenceUnit x)) 1 r.val pos.val
        ∧ (u.fenceUnit x).1.unitFallow x = true)
      ∧ (u.regionFallow ⟨d, r⟩ = false → fence 1 d.val r.val n = noted (u.fence (·.fenceRegion ⟨d, r⟩)) 2 r.val 0xFF
        ∧ (u.fenceRegion ⟨d, r⟩).1.regionFallow ⟨d, r⟩ = true)
      ∧ (u.fen.dies.contains d = false → fence 2 d.val n page = noted (u.fence (·.fenceDie d)) 3 0xFF 0xFF
        ∧ (u.fenceDie d).1.fen.dies.contains d = true)
      ∧ (∃ t, fence 3 k.val n page = .next t ∧ t.fen.lds.contains k = true
        ∧ t.fen.dies = u.fen.dies ∧ t.fen.regions = u.fen.regions ∧ t.fen.units = u.fen.units
        ∧ (u.fen.lds.contains k = true → t.fen = u.fen))
      ∧ (3 < level → fence level d.val n page = .next (u.reply q stBadParam))
      ∧ (page < 0xFF000 →
        ((u.die d).retireRefused page = true → Machine.exec (.pageRetire q d.val page) s =
          .next ((u.raiseBit (dreg .hbmStat d) 9).reply q stRefused 9))
        ∧ ((u.die d).retireRefused page = false → Machine.exec (.pageRetire q d.val page) s =
          .next ((u.startCopy d page).addJob q (.pageRetire d))))
      ∧ ((2 < level ∨ (level = 0 ∧ 64 ≤ target) ∨ (level = 1 ∧ 16 ≤ target) ∨ (level = 2 ∧ 4 ≤ target)) →
        Machine.exec (.blockReset q level target) s = .next (u.reply q stBadParam))
      ∧ (((level = 0 ∧ target < 64) ∨ (level = 1 ∧ target < 16) ∨ (level = 2 ∧ target < 4)) →
        (u.blockArmed level target = true → Machine.exec (.blockReset q level target) s = .next (u.reply q stFormeArmed))
        ∧ (u.blockArmed level target = false →
          ((u.fw.block.isSome = true ∨ u.fw.pause.isSome = true ∨ u.fw.comesDue = true) →
            Machine.exec (.blockReset q level target) s = .next (u.reply q stBusy))
          ∧ (u.fw.block = none → u.fw.pause = none → u.fw.comesDue = false → u.power.mode ≠ .latched →
            (∃ e ∈ blockDies level target, 90 < u.rdFld (dreg .pwrTj e) 7 0) →
            Machine.exec (.blockReset q level target) s = .next (u.reply q stRefused 2))
          ∧ (u.fw.block = none → u.fw.pause = none → u.fw.comesDue = false → u.power.mode ≠ .latched →
            (∀ e ∈ blockDies level target, u.rdFld (dreg .pwrTj e) 7 0 ≤ 90) → ∃ t,
            Machine.exec (.blockReset q level target) s = .next t ∧ t.fw.block = some ⟨level, target, u.elapsed⟩
            ∧ t.host.jobs = u.host.jobs ++ [⟨q, .block, u.now⟩] ∧ t.parts = u.parts ∧ t.ht = u.ht
            ∧ (∀ e, e ∉ blockDies level target → t.die e = u.die e)
            ∧ (∀ e ∈ blockRegions level target, (t.region e).proving = true ∧ (t.region e).gear = .full)))))

/-- The commands on power and the twin, the settings and telemetry (R453, R458, R530, R567, R568, R570). SNAPSHOT waits
for its step where the armed forme has the variant, whatever else waits, and is BUSY while its buffer is still being
shipped (R317); TRAFFIC_GEN starts its channels and waits for them, or stops them and answers (R420, R426). -/
def Obligations.PackageCommands : Prop :=
  (∀ (s u : State) (q : Req) (w mode : Nat) (key : Half) (v : Word) (sel i n host : Nat), s.collects q u → q.at_ = none →
      let p := q.part
      let cap := Machine.exec (.capSet q w) s
      let tele := Machine.exec (.telemetryRead q sel i n host) s
      ((w ≠ 0 ∧ (w < 200 ∨ 4000 < w)) → cap = .next (u.reply q stBadParam))
      ∧ ((w = 0 ∨ (200 ≤ w ∧ w ≤ 4000)) → u.partDies p = [] → cap = .next (u.reply q stBadPart))
      ∧ ((w = 0 ∨ (200 ≤ w ∧ w ≤ 4000)) → u.partDies p ≠ [] → ∃ t, cap = .next t
        ∧ t.rdFld (preg .pwrCap p) 28 16 = w ∧ t.rdFld (preg .pwrCap p) 15 0 = u.rdFld (preg .pwrCap p) 15 0
        ∧ t.host.jobs.getLast? = some ⟨q, .cap w, u.now⟩
        ∧ (t.host.jobs.filter fun (j : Job) => decide (j.req.part = p) && (match j.kind with
          | .cap _ => true
          | _ => false)).length = 1)
      ∧ Machine.exec (.energyRead q) s = .next (u.reply q stOk 0 u.energyBytes)
      ∧ (u.anyArmed = true → mode ≤ 1 → Machine.exec (.twinMode q mode) s = .next (u.reply q stFormeArmed))
      ∧ (u.anyArmed = false → mode ≤ 1 → Machine.exec (.twinMode q mode) s =
        .next ((u.wrBit (xreg .twCfg) 0 (mode == 1)).reply q stOk))
      ∧ (1 < mode → Machine.exec (.twinMode q mode) s = .next (u.reply q stBadParam))
      ∧ Machine.exec (.twinDetach q) s = .next ((u.sendMsg [48] 0 0 (.detach true)).addJob q .detach)
      ∧ (∀ e, settingDefault key = some e → Machine.exec (.settingsGet q key) s =
        .next (u.reply q stOk 0 (natLe 4 (u.setting key).toNat ++ natLe 4 e.toNat)))
      ∧ (settingDefault key = none → Machine.exec (.settingsGet q key) s = .next (u.reply q stBadParam)
        ∧ Machine.exec (.settingsSet q key v) s = .next (u.reply q stBadParam))
      ∧ (settingOk key v = true → ∃ t, Machine.exec (.settingsSet q key v) s = .next t ∧ t.setting key = v
        ∧ ∀ k, k ≠ key → t.setting k = u.setting k)
      ∧ (settingOk key v = false → Machine.exec (.settingsSet q key v) s = .next (u.reply q stBadParam))
      ∧ (sel = 3 ∨ sel = 5 ∨ (sel = 2 ∧ i < 256 ∧ n ≤ 256) ∨ ((sel = 0 ∨ sel = 1 ∨ sel = 4) ∧ u.partDies p ≠ []) →
        let b := u.telemetry p sel i n
        (host = 0 → tele = .next (u.reply q stOk (if 4096 < b.length then 1 else 0) (b.take 4096)))
        ∧ (host ≠ 0 → tele = .next (u.addJob q (.hostWrite 0 0 host b))))
      ∧ (5 < sel → tele = .next (u.reply q stBadParam)))
  ∧ (∀ (s u : State) (q : Req) (f : Forme) (v : Variant) (b : SnapBuf) (step : Word) (var ports : Nat) (ship : Bool)
      (id : Half) (d : Die) (g : TgParams), s.collects q u → q.at_ = none →
      let p := q.part
      let snap := Machine.exec (.snapshot q step var ship id ports) s
      let ran := ((List.finRange 32).filter fun c => bit g.channels c.val).foldl (fun s c =>
          (((s.storeReg (tgReg .tgBase d c) g.base).storeReg (tgReg .tgLen d c) g.length).storeReg
            (tgReg .tgSeed d c) g.seed).tgStart d c ((g.mode &&& 0x3F).setWidth 32 ||| 0x40)) u
      (u.partDies p ≠ [] → (u.part p).forme = some f → (u.part p).armed = true → f.variants[var]? = some v →
        v.kind = .snapshot → v.snap = some b → (ship = true → ports < 2 ^ 49) →
        (u.shipping p b = false → (ship = true → u.host.streams.any (·.id = id) = false
          ∧ u.host.streams.length < 16) → snap = .next ((u.modPart p fun ps => { ps with
            snaps := ps.snaps ++ [⟨q, step, var, ship, id, ports, u.now, false, false⟩] }).addJob q .snapshot))
        ∧ (u.shipping p b = true → snap = .next (u.reply q stBusy)))
      ∧ (u.partDies p ≠ [] → (ship = true → ports < 2 ^ 49) → ((u.part p).forme = none
          ∨ ((u.part p).armed = false ∧ (u.part p).running = false)) → snap = .next (u.reply q stNotArmed))
      ∧ (u.partDies p ≠ [] → (u.part p).forme = some f → (u.part p).armed = true → f.variants[var]? = none →
        (ship = true → ports < 2 ^ 49) → snap = .next (u.reply q stNoVariant))
      ∧ (g.die = d.val → g.stop = false → g.channels ≠ 0 →
        ((∀ c : Fin 32, g.channels.getLsbD c.val = true → ran.rdBit (tgReg .tgCtl d c) 9 = true) →
          Machine.exec (.trafficGen q g) s = .next (ran.addJob q (.traffic d g.channels)))
        ∧ ((∃ c : Fin 32, g.channels.getLsbD c.val = true ∧ ran.rdBit (tgReg .tgCtl d c) 9 = false) →
          Machine.exec (.trafficGen q g) s = .next (ran.reply q stRefused 10)))
      ∧ (g.die = d.val → g.stop = true →
        let halted := { ((List.finRange 32).filter fun c => bit g.channels c.val).foldl (fun s c => s.tgStopFree d c) u with
          free := u.free + 1 }
        Machine.exec (.trafficGen q g) s = .next (halted.reply q stOk 0 (halted.tgResults d)))
      ∧ (16 ≤ g.die → Machine.exec (.trafficGen q g) s = .next (u.reply q stBadParam)))

/-- What reaches the slots (R553, R558, R572). A host write to a command slot is applied whole where the slot is not
TAKEN, its tick noted, and dropped with SLOT_BUSY where it is; a sideband message takes the lowest free slot, and with
none free is discarded with SB_FULL. Collection (R554 to R556, R572). At a furrow boundary a host slot READY before the
boundary's tick whose reply slot is EMPTY is handled, one whose reply slot is POSTED stays READY and sets REPLY_FULL; a
held command is carried out once its AT has come; in Standby and Latched the sideband's slots are answered, with
TIME_STATE where a command carries an AT or is of the time group. Stated of a state in which one slot waits and its
command leaves the sideband alone. -/
def Obligations.CommandsAreCollected : Prop :=
  (∀ (s : State) (i : Fin 64) (o : Nat) (b : List Byte) (eid : Byte) (j : Nat), o + b.length ≤ 0x2000 → 0 < b.length →
      (s.hostUp = true → s.slotState i.val = 2 →
        Machine.exec (.hostSlotWrite (cmdSlot i.val + o) b) s = .next (s.raiseBit (xreg .cmdStat) 0))
      ∧ (s.hostUp = true → s.slotState i.val ≠ 2 →
        Machine.exec (.hostSlotWrite (cmdSlot i.val + o) b) s = .next ({ s with host := { s.host with
          wroteAt := s.host.wroteAt.set i.val s.elapsed } }.winWrite (cmdSlot i.val + o) b))
      ∧ (s.hostUp = true →
        ((64 ≤ o ∨ o + b.length ≤ 60) →
          Machine.exec (.hostSlotWrite (replySlot i.val + o) b) s = .next (s.winWrite (replySlot i.val + o) b))
        ∧ (o < 64 → 60 < o + b.length →
          Machine.exec (.hostSlotWrite (replySlot i.val + o) b) s = .next ({ s with host := { s.host with
            wroteAt := s.host.wroteAt.set (64 + i.val) s.elapsed } }.winWrite (replySlot i.val + o) b)))
      ∧ (s.sidebandUp = true → s.sb.slots.findIdx? Option.isNone = some j →
        Machine.exec (.sidebandMessage eid b) s =
          .next { s with sb := { s.sb with slots := s.sb.slots.set j (some ⟨eid, b, false⟩) } })
      ∧ (s.sidebandUp = true → s.sb.slots.findIdx? Option.isNone = none →
        Machine.exec (.sidebandMessage eid b) s = .next (s.raiseBit (xreg .cmdStat) 4)))
  ∧ (∀ (s u : State) (i : Fin 64) (j : Fin 8) (m : SbMsg) (r : HostRead) (c : Cmd) (q : Req) (d k : Nat),
      let p := (readPacket (.host i) (u.host.window.bytes (cmdSlot i.val) 0x2000) r)
      let e := readPacket (.sideband j) m.bytes (.bytes [])
      let alone := (∀ n : Nat, u.sb.slots[n]? = some none ∨ u.sb.slots[n]? = none) ∧ u.host.jobs = []
        ∧ ∀ n : Fin 64, n ≠ i → u.slotReady n.val = false
      let note := fun (t : State) (b : Bool) => t.modFw fun f => { f with comesDue := b }
      let v := note u (u.activates [i])
      (s.opens = some u → alone → u.slotReady i.val = true →
        (u.slotEmpty i.val = true → u.fw.warm = none → (v.handle p.1 p.2).sb = u.sb →
          Machine.exec (.commandCollection [(i, r)]) s = .next (note (v.handle p.1 p.2) false))
        ∧ (u.slotEmpty i.val = false →
          Machine.exec (.commandCollection [(i, r)]) s = .next (note (v.raiseBit (xreg .cmdStat) 1) false)))
      ∧ (s.opens = some u → alone → u.slotReady i.val = false →
        Machine.exec (.commandCollection [(i, r)]) s = .next (note u false))
      ∧ (s.opens = some u → u.host.jobs = [⟨q, .held c d, k⟩] →
        let free := { u with host := { u.host with jobs := [] } }
        (d ≤ u.now → Machine.exec (.pendingCommandDue q.src) s =
          .next ((if c = .fwActivate then free else free.count (xreg .cmdCount) 1).perform q c))
        ∧ (u.now < d → Machine.exec (.pendingCommandDue q.src) s = .next u))
      ∧ (s.lowPower = true → s.sidebandUp = true → s.power.stage ≠ .loader → m.taken = false →
        s.sb.slots[j.val]? = some (some m) → (∀ n : Fin 8, n ≠ j → s.sb.slots[n.val]? = some none) →
        (e.2.onSideband e.1.op && e.2.sidebandOk) = true → (∀ n, e.2 ≠ .bad n) →
        let t := s.taken e.1
        let anywhere := e.2.anywhere (s.power.mode == .latched)
        ((e.1.at_.isSome = true ∨ e.2.timed = true) →
          Machine.exec .sidebandFreeCollection s = .next (t.turnAway e.1 e.2 stTimeState))
        ∧ (e.1.at_ = none → e.2.timed = false → anywhere = true →
          Machine.exec .sidebandFreeCollection s = .next (t.perform e.1 e.2))
        ∧ (e.1.at_ = none → e.2.timed = false → anywhere = false →
          Machine.exec .sidebandFreeCollection s = .next (t.turnAway e.1 e.2 stBusy))))

/-! ### Security and management -/

/-- SEC_TRANSITION (R640 to R643, R646). It is refused while a partition is armed; any path but those of the table is
DENIED_SECURITY with DETAIL 3; a key whose digest is not the fused one, a revoked owner's key, and any key while no
owner digest is fused in Manufacturing, with DETAIL 2, a signature that does not verify with DETAIL 1. One that its key
authorises takes effect, and after each a new challenge is drawn. SEC_STATE then shows the fused state, or Owner-Debug.
ATTEST (R654) returns the colophon, the nonce, the mask, the selected measurements in ascending order and a signature
over their SHA-512, in Vendor-Return zeros with DETAIL 1. The colophon is 256 B (R653). TAMPER (R502, R644): the
package latches with power there for one furrow more, IDK is gone, TAMPERED is set and fused, and the fused state is
Vendor-Return, in which nothing is signed again. -/
def Obligations.SecurityMoves : Prop :=
  (∀ (s u : State) (q : Req) (target : Nat) (key sig : List Byte), s.collects q u → q.at_ = none →
      let run := Machine.exec (.secTransition q target key sig) s
      (u.anyArmed = true → run = .next (u.drawChallenge.reply q stFormeArmed))
      ∧ (u.anyArmed = false → u.powerState ≠ 1 → u.powerState ≠ 3 → run = .next (u.drawChallenge.reply q stBusy))
      ∧ (u.anyArmed = false → (u.powerState = 1 ∨ u.powerState = 3) →
        (secPath u.secState target = none → run = .next (u.drawChallenge.reply q stDeniedSecurity 3))
        ∧ (secPath u.secState target = some none → (∀ x ∈ key ++ sig, x = 0) → ∃ t, run = .next t
          ∧ t.secState = u.sec.fused.toNat ∧ t.sec.owner = false ∧ t.sec.fused = u.sec.fused
          ∧ t.sec.draws = u.sec.draws + 1)
        ∧ (secPath u.secState target = some none → (∃ x ∈ key ++ sig, x ≠ 0) →
          run = .next (u.drawChallenge.reply q stBadParam))
        ∧ (∀ vendor, secPath u.secState target = some (some vendor) →
          ((Config.sha512 key ≠ (if vendor then Config.vendorDigest else Config.ownerDigest u.sec.burnt)
              ∨ (vendor = false ∧ u.sec.revoked = true) ∨ (u.secState = 0 ∧ Config.ownerFused u.sec.burnt = false)) →
            run = .next (u.drawChallenge.reply q stDeniedSecurity 2))
          ∧ (u.secRefusal target key sig vendor = some 1 → run = .next (u.drawChallenge.reply q stDeniedSecurity 1)
            ∧ Config.verifies key (Config.sha512 (u.secMessage target)) sig = false)
          ∧ (u.secRefusal target key sig vendor = none → ∃ t, run = .next t
            ∧ t.secState = (if t.sec.owner then 2 else t.sec.fused.toNat)
            ∧ t.sec.draws = u.sec.draws + 1 ∧ t.rd (xreg .secQuoin) = u.rd (xreg .secQuoin)
            ∧ (target = 1 → t.sec.owner = false ∧ t.sec.fused = u.sec.fused ||| 1) ∧ (target = 2 → t.sec.owner = true)
            ∧ (target = 3 → t.sec.owner = false ∧ t.sec.fused = 3)
            ∧ (target = 3 → t.sec.idkGone = true ∧ t.sec.revoked = true ∧ t.rdBit (xreg .secState) 2 = true
              ∧ ∀ d, (t.die d).hbm = .empty ∧ (t.die d).cache = .empty)))))
  ∧ (∀ (s u : State) (q : Req) (nonce : List Byte) (mask : Word), s.collects q u → q.at_ = none → nonce.length = 32 →
      let ms := (List.range 12).filter mask.toNat.testBit
      let body := u.colophon ++ nonce ++ natLe 4 mask.toNat ++ natLe 4 ms.length
        ++ ms.flatMap fun i => natLe 4 i ++ u.measurement i
      let run := Machine.exec (.attest q nonce mask) s
      (2 ^ 12 ≤ mask.toNat → run = .next (u.reply q stBadParam))
      ∧ (mask.toNat < 2 ^ 12 → ∃ sig, sig.length = 132
        ∧ run = .next ({ u with free := u.free + 1 }.reply q stOk (if u.canSign then 0 else 1) (body ++ sig))
        ∧ (u.canSign = false → sig = List.replicate 132 0))
      ∧ u.colophon.length = 256)
  ∧ (∀ s : State,
      (s.power.mode ≠ .off → ∃ t, Machine.exec .tamper s = .next t ∧ t.power.mode = .latched ∧ t.sec.idkGone = true
        ∧ t.sec.fused = 3 ∧ t.sec.tampered = true ∧ t.canSign = false ∧ t.rdBit (xreg .secState) 3 = true
        ∧ t.rdBit (xreg .rstLatch) 2 = true ∧ (∀ d, (t.die d).cache = .empty)
        ∧ ∀ i : Fin 16, t.rd ⟨.rstBackup, 0, i.val, 0⟩ = 0)
      ∧ (s.power.mode = .off → Machine.exec .tamper s = .next s))

/-- SPDM over the sideband and over DOE (R655). The negotiation comes in its order, and what comes too early is
answered with an error; after it each request is answered with certificate slot 0, or a measurement block, and one that
needs a signature, in Vendor-Return, with Unspecified. Codes and layouts are the model's (log 15). The sideband below
the commands (R547, R571, R647): the bus controller's address, MCTP control, private transfers, DOE discovery. The
control codes and the DOE numbers are the model's (log 15). -/
def Obligations.SidebandAnswers : Prop :=
  (∀ (s : State) (doe p521 sha512 : Bool) (nonce : List Byte) (i : Nat), s.spdmUp doe = true →
      let prints := fun (t : State) (c : Byte) (b : List Byte) => Host.Outcome.next (t.spdmOut (.spdm doe c b))
      let err := fun (n : Nat) => Host.Outcome.next (s.spdmError doe n)
      let digest := padTo 64 (Config.sha512 Config.certChain)
      Machine.exec (.getVersion doe) s = prints (s.setPhase doe 1) 0x04 (natLe 2 0x1300)
      ∧ (1 ≤ s.spdmPhase doe → Machine.exec (.getCapabilities doe) s = prints (s.setPhase doe 2) 0x61 (natLe 4 0x16))
      ∧ (s.spdmPhase doe = 0 → Machine.exec (.getCapabilities doe) s = err spdmUnexpected)
      ∧ (2 ≤ s.spdmPhase doe → ∃ b, Machine.exec (.negotiateAlgorithms doe p521 sha512) s = prints (s.setPhase doe 3) 0x63 b)
      ∧ (s.spdmPhase doe < 3 → Machine.exec (.getDigests doe) s = err spdmUnexpected
        ∧ Machine.exec (.challenge doe 0 nonce) s = err spdmUnexpected)
      ∧ (3 ≤ s.spdmPhase doe →
        Machine.exec (.getDigests doe) s = prints s 0x01 (natLe 1 1 ++ digest)
        ∧ (i ≠ 0 → Machine.exec (.getCertificate doe i 0 64) s = err spdmInvalid
          ∧ Machine.exec (.challenge doe i nonce) s = err spdmInvalid)
        ∧ (∀ o n, o < Config.certChain.length → let b := (Config.certChain.drop o).take n
          Machine.exec (.getCertificate doe 0 o n) s = prints s 0x02 (natLe 1 0 ++ natLe 2 b.length
            ++ natLe 2 (Config.certChain.length - o - b.length) ++ b))
        ∧ (s.canSign = true → ∃ sig, sig.length = 132 ∧ Machine.exec (.challenge doe 0 nonce) s =
          prints { s with free := s.free + 1 } 0x03 (natLe 1 0 ++ digest ++ sig))
        ∧ (s.canSign = false → Machine.exec (.challenge doe 0 nonce) s = err spdmUnspecified
          ∧ Machine.exec (.getMeasurements doe 1 true nonce) s = err spdmUnspecified)
        ∧ (i < 12 → Machine.exec (.getMeasurements doe (i + 1) false nonce) s =
          prints s 0x60 (natLe 1 1 ++ (natLe 1 (i + 1) ++ s.measurement i)))
        ∧ (12 < i → i ≠ 255 → Machine.exec (.getMeasurements doe i false nonce) s = err spdmInvalid)))
  ∧ (∀ (s : State) (a : BitVec 7) (e c : Byte) (o : Nat) (v : Word),
      let at_ := { s with sb := { s.sb with offset := o } }
      let out := fun (t : State) (x : SbOut) => Host.Outcome.next { t with sb := { t.sb with out := t.sb.out ++ [x] } }
      (s.power.mode ≠ .off → Machine.exec (.dynamicAddressAssigned a) s =
        .next { s with sb := { s.sb with addr := some a } })
      ∧ (s.power.mode = .on → Machine.exec (.doeDiscovery 0) s = out s (.doe 1 0 1)
        ∧ Machine.exec (.doeDiscovery 1) s = out s (.doe 1 1 0))
      ∧ (s.sidebandUp = true →
        Machine.exec (.mctpControl (.setEid e)) s = out { s with sb := { s.sb with eid := e } } (.control 1 [0, 0, e, 0])
        ∧ Machine.exec (.mctpControl .getEid) s = out s (.control 2 [0, s.sb.eid, 0, 0])
        ∧ (c ≠ 4 → c ≠ 5 → Machine.exec (.mctpControl (.other c)) s = out s (.control c [5]))
        ∧ Machine.exec (.sidebandPrivateWrite o none) s = .next at_
        ∧ Machine.exec (.sidebandPrivateWrite o (some v)) s = Machine.exec (.registerWrite .sideband o true v) at_
        ∧ ∃ t, Machine.exec (.registerReadClear .sideband s.sb.offset) s = .next t
          ∧ Machine.exec .sidebandPrivateRead s = out t (.word t.busOut))
      ∧ (s.sidebandUp = false → Machine.exec .sidebandPrivateRead s = .next s
        ∧ Machine.exec (.sidebandPrivateWrite o (some v)) s = .next s))

/-- The monitor's commands (R574 to R576, R648, R649). Each prints its output and then "ok"; where its grade does not
run it, "err denied", and in Standby and Latched all but four "err power", and nothing else changes. The words of other
errors are the model's (log 17). A line (R574): one of more than 127 characters is discarded with "err long", an empty
one prints nothing; a line that spells a command runs it; each is echoed where the setting says so, and the prompt
follows (R570). A line that comes while the monitor does not listen is discarded. JTAG (R588, R647 to R649, R651):
IDCODE answers in every grade; an access reads through the debug path or writes under register rules at the grade of
the state; SCAN is entered only in Idle, where the state's grade is SCAN. -/
def Obligations.MonitorAndJtag : Prop :=
  (∀ (s : State) (a n : Nat) (v : Word) (die : Option Nat) (range : Nat × Nat) (l : LU), s.monUp = true →
      let prints := fun (t : State) (o : List MonOut) => Host.Outcome.next { t with mon := { t.mon with out := t.mon.out ++ o } }
      let all := [Instr.peek a n, .poke a v, .sticky die, .tg 0 0 0 0 0 0 0, .audit l.d.val l.r.val l.n.val]
      let low := s.lowPower
      let full := s.allows .monitor 0 true
      (low = true → ∀ c ∈ Instr.time :: all, Machine.exec c s = prints s [.err "power"])
      ∧ (low = false → full = false → ∀ c ∈ all, Machine.exec c s = prints s [.err "denied"])
      ∧ Machine.exec .colophon s = prints s [.bytes s.colophon, .ok]
      ∧ Machine.exec .bootlog s = prints s (s.fw.bootlog.map .bytes ++ [.ok])
      ∧ Machine.exec (.faults (some range)) s = prints s ((List.range range.2).map (fun k =>
          .bytes (s.retained.bytes ((range.1 + k) % 256 * 32) 32)) ++ [.ok])
      ∧ (∃ w, Machine.exec .help s = prints s (w ++ [.ok]))
      ∧ (low = false → ∃ o, Machine.exec .time s = prints s ([.num s.now, .num s.htState] ++ o ++ [.ok]))
      ∧ (low = false → full = true →
        let t := s.noteDebug .monitor true
        Machine.exec (.poke a v) s = prints (t.busWrite .monitor a true v) [.ok]
        ∧ Machine.exec (.peek a 1) s = prints (t.busRead .monitor a) [.reg a (t.busRead .monitor a).busOut, .ok]
        ∧ (∀ d, die = some d → 16 ≤ d → Machine.exec (.sticky die) s = prints t [.err "param"])
        ∧ ((∀ d, die = some d → d < 16) → ∃ o, Machine.exec (.sticky die) s = prints t (o ++ [.ok]))
        ∧ (l.alt = none → ∃ o, o.length = 256 ∧ Machine.exec (.audit l.d.val l.r.val l.n.val) s =
          prints t (o ++ [.num (t.rdFld (ureg .tuAudit l) 31 16), .ok]))
        ∧ (s.power.mode = .on → ∀ (c m p : Nat) (base len seed : Word), c < 32 → m < 4 → p < 8 →
          Machine.exec (.tg l.d.val c m p base len seed) s = .next ({ t with mon := { t.mon with waiting := true } }.trafficGen
            (monReq 0x0901) ⟨l.d.val, BitVec.ofNat 32 (2 ^ c), BitVec.ofNat 8 (4 * p + m), false, base, len, seed⟩))
        ∧ (32 ≤ n → Machine.exec (.tg l.d.val n 0 0 0 0 0) s = prints t [.err "param"])))
  ∧ (∀ (s : State) (line : List Byte),
      let typed := fun (l : List Byte) => { s with mon := { s.mon with
        out := s.mon.out ++ if s.mon.echo then [.echo l] else [] } }
      let shown := fun (t : State) (o : List MonOut) => { t with mon := { t.mon with out := t.mon.out ++ o } }
      let runs := fun (l : List Byte) (c : Instr) => ∃ t, Machine.exec c (typed l) = .next t
        ∧ Machine.exec (.monitorLine l) s = .next (shown t [.prompt])
      (s.monUp = true → 127 < line.length → Machine.exec (.monitorLine line) s =
        .next (shown (typed line) [.err "long", .prompt]))
      ∧ (s.monUp = true → Machine.exec (.monitorLine []) s = .next (shown (typed []) [.prompt])
        ∧ runs (asciiOf "help") .help ∧ runs (asciiOf "peek 0x20 3") (.peek 0x20 3)
        ∧ runs (asciiOf "poke 5_000 ff") (.poke 0x5000 0xFF) ∧ runs (asciiOf "bootlog") .bootlog)
      ∧ (s.monUp = false → Machine.exec (.monitorLine line) s = .next s))
  ∧ (∀ (s : State) (a : Nat) (v : Word), s.power.mode ≠ .off →
      Machine.exec .jtagIdcode s = .next { s with
        busOut := s.view (xreg .secId), sec := { s.sec with tapOut := s.colophon, tapReset := false } }
      ∧ Machine.exec (.jtagAccess a none) s = Machine.exec (.debugRead .jtag a) s
      ∧ Machine.exec (.jtagAccess a (some v)) s = Machine.exec (.registerWrite .jtag a true v) s
      ∧ (let reads := s.noteDebug .jtag false
        let s1 := s.noteDebug .jtag true
        let put := Machine.exec (.jtagAccess a (some v)) s
        (s.allows .jtag a false = true →
          (∀ r, regAt (a / 4 * 4) = some r → Machine.exec (.jtagAccess a none) s = .next { reads with busOut := reads.view r })
          ∧ (regAt (a / 4 * 4) = none → Machine.exec (.jtagAccess a none) s =
            .next { reads.refused .jtag a 0 with busOut := 0 }))
        ∧ (s.allows .jtag a false = false → Machine.exec (.jtagAccess a none) s =
          .next { s.refused .jtag a 0 with busOut := 0 })
        ∧ (s.allows .jtag a true = false → put = .next (s.refused .jtag a 0))
        ∧ (s.allows .jtag a true = true → regAt (a / 4 * 4) = none → put = .next (s1.refused .jtag a 0))
        ∧ (∀ r, s.allows .jtag a true = true → regAt (a / 4 * 4) = some r → hostWords r = true →
          (r.name.info.wq ≠ 0 → s1.rdBit (xreg .secQuoin) r.name.info.quoin = true → put = .next (s1.refused .jtag r.addr 2))
          ∧ ((r.name.info.wq = 0 ∨ s1.rdBit (xreg .secQuoin) r.name.info.quoin = false) →
            put = .next (s1.ownWrite .jtag r v))))
      ∧ ((s.secState = 1 ∨ s.secState = 2) → Machine.exec .jtagScan s = .next s
        ∧ (s.secState = 1 → Machine.exec (.jtagAccess a none) s = .next { s.refused .jtag a 0 with busOut := 0 }))
      ∧ (s.powerState ≠ 1 → Machine.exec .jtagScan s = .next s)
      ∧ (s.powerState = 1 → (s.secState = 0 ∨ s.secState = 3) → s.rdBit (xreg .secDebugCtl) 1 = false →
        Machine.exec .jtagScan s = .next ((s.noteDebug .jtag true).wrBit (xreg .secState) 4 true)))
end

