-- ==== Sys2Proof/Laws/Map.lean ====
section
/-!
SUPPORT. Laws of keyed tables and of memories: what a read gives after a write, and the canonical form that every
memory operation keeps.
-/
namespace Sys2Proof.Machine

/-! ### Keyed tables -/

section Tables

variable {α β : Type} [DecidableEq α]

@[simp] theorem AMap.getD_set_same (m : AMap α β) (k : α) (v d : β) : (m.set k v).getD k d = v := by
  simp [AMap.set, AMap.getD]

theorem AMap.find_filter_ne (l : List (α × β)) (k j : α) (h : j ≠ k) :
    (l.filter fun e => e.1 ≠ k).find? (fun e => e.1 = j) = l.find? fun e => e.1 = j := by
  induction l with
  | nil => rfl
  | cons e l ih =>
    by_cases hk : e.1 = k
    · have hj : ¬ e.1 = j := fun hj => h (hj ▸ hk)
      simpa [List.filter_cons, hk, List.find?_cons, hj, Ne.symm h] using ih
    · by_cases hj : e.1 = j
      · simp [hj, h]
      · simpa [List.filter_cons, hk, List.find?_cons, hj] using ih

theorem AMap.getD_set_ne (m : AMap α β) (k j : α) (v d : β) (h : j ≠ k) :
    (m.set k v).getD j d = m.getD j d := by
  have hk : ¬ k = j := Ne.symm h
  simp only [AMap.set, AMap.getD, List.find?_cons, hk, decide_false, AMap.find_filter_ne _ k j h]

/-- A table set at one key, read at any. -/
theorem AMap.getD_set (m : AMap α β) (k j : α) (v d : β) :
    (m.set k v).getD j d = if j = k then v else m.getD j d := by
  split
  · subst_vars; simp
  · rename_i h; exact AMap.getD_set_ne m k j v d h

@[simp] theorem AMap.get?_set_same (m : AMap α β) (k : α) (v : β) : (m.set k v).get? k = some v := by
  simp [AMap.set, AMap.get?]

theorem AMap.get?_set_ne (m : AMap α β) (k j : α) (v : β) (h : j ≠ k) : (m.set k v).get? j = m.get? j := by
  have hk : ¬ k = j := Ne.symm h
  simp only [AMap.set, AMap.get?, List.find?_cons, hk, decide_false, AMap.find_filter_ne _ k j h]

/-- The later of two settings of one key stands. -/
@[simp] theorem AMap.set_set (m : AMap α β) (k : α) (v w : β) : (m.set k v).set k w = m.set k w := by
  simp [AMap.set]

@[simp] theorem AMap.getD_empty (k : α) (d : β) : (AMap.empty : AMap α β).getD k d = d := rfl

@[simp] theorem AMap.get?_empty (k : α) : (AMap.empty : AMap α β).get? k = none := rfl

theorem AMap.getD_erase_same (m : AMap α β) (k : α) (d : β) : (m.erase k).getD k d = d := by
  have : (m.entries.filter fun e => e.1 ≠ k).find? (fun e => e.1 = k) = none := by
    simp [List.find?_eq_none]
  simp only [AMap.erase, AMap.getD, this]

theorem AMap.getD_erase_ne (m : AMap α β) (k j : α) (d : β) (h : j ≠ k) : (m.erase k).getD j d = m.getD j d := by
  simp only [AMap.erase, AMap.getD, AMap.find_filter_ne _ k j h]

end Tables

/-! ### Memories: reading what was written -/

theorem cellsFrom_ge (f : Fill) (bs : List Byte) (a : Nat) (c : Host.Cell) (h : c ∈ cellsFrom f a bs) :
    a ≤ c.1 ∧ c.1 < a + bs.length := by
  induction bs generalizing a with
  | nil => simp [cellsFrom] at h
  | cons b bs ih =>
    simp only [cellsFrom] at h
    simp only [List.length_cons]
    split at h
    · have := ih (a + 1) h; omega
    · rcases List.mem_cons.1 h with h | h
      · subst h; simp
      · have := ih (a + 1) h; omega

theorem cellsFrom_ne_fill (f : Fill) (bs : List Byte) (a : Nat) (c : Host.Cell) (h : c ∈ cellsFrom f a bs) :
    c.2 ≠ f.byte c.1 := by
  induction bs generalizing a with
  | nil => simp [cellsFrom] at h
  | cons b bs ih =>
    simp only [cellsFrom] at h
    split at h
    · exact ih (a + 1) h
    · rename_i hb
      rcases List.mem_cons.1 h with h | h
      · subst h; exact hb
      · exact ih (a + 1) h

theorem cellsFrom_sorted (f : Fill) (bs : List Byte) (a : Nat) :
    (cellsFrom f a bs).Pairwise fun x y => x.1 < y.1 := by
  induction bs generalizing a with
  | nil => simp [cellsFrom]
  | cons b bs ih =>
    simp only [cellsFrom]
    split
    · exact ih (a + 1)
    · refine List.pairwise_cons.2 ⟨fun c hc => ?_, ih (a + 1)⟩
      have := cellsFrom_ge f bs (a + 1) c hc
      simp; omega

/-- The byte that cells laid from `a` give at an address among them. -/
theorem cellsFrom_find (f : Fill) (bs : List Byte) (a i : Nat) (hi : i < bs.length) :
    ((cellsFrom f a bs).find? fun c => c.1 = a + i) = if bs[i] = f.byte (a + i) then none else some (a + i, bs[i]) := by
  induction bs generalizing a i with
  | nil => simp at hi
  | cons b bs ih =>
    cases i with
    | zero =>
      simp only [cellsFrom, Nat.add_zero, List.getElem_cons_zero]
      split
      · rw [List.find?_eq_none]
        intro c hc
        have := cellsFrom_ge f bs (a + 1) c hc
        simp; omega
      · simp
    | succ i =>
      have hi' : i < bs.length := by simpa using hi
      have e : a + (i + 1) = a + 1 + i := by omega
      simp only [cellsFrom, List.getElem_cons_succ, e]
      split
      · exact ih (a + 1) i hi'
      · have : ¬ a = a + 1 + i := by omega
        rw [List.find?_cons_of_neg (by simpa using this)]
        exact ih (a + 1) i hi'

theorem find_filter_lt (l : List Host.Cell) (a x : Nat) (h : x < a) :
    ((l.filter fun c => c.1 < a).find? fun c => c.1 = x) = l.find? fun c => c.1 = x := by
  induction l with
  | nil => rfl
  | cons c l ih =>
    by_cases hx : c.1 = x
    · simp [hx, h]
    · by_cases ha : c.1 < a
      · simpa [List.filter_cons, ha, hx] using ih
      · simpa [List.filter_cons, ha, hx] using ih

theorem find_filter_ge (l : List Host.Cell) (a x : Nat) (h : a ≤ x) :
    ((l.filter fun c => a ≤ c.1).find? fun c => c.1 = x) = l.find? fun c => c.1 = x := by
  induction l with
  | nil => rfl
  | cons c l ih =>
    by_cases hx : c.1 = x
    · simp [hx, h]
    · by_cases ha : a ≤ c.1
      · simpa [List.filter_cons, ha, hx] using ih
      · simpa [List.filter_cons, ha, hx] using ih

/-- A byte that was written reads as written. -/
theorem Memory.byte_write_in (m : Memory) (a i : Nat) (bs : List Byte) (hi : i < bs.length) :
    (m.write a bs).byte (a + i) = bs[i] := by
  have h1 : ((m.cells.filter fun c => c.1 < a).find? fun c => c.1 = a + i) = none := by
    rw [List.find?_eq_none]; intro c hc; simp at hc ⊢; omega
  have h3 : ((m.cells.filter fun c => a + bs.length ≤ c.1).find? fun c => c.1 = a + i) = none := by
    rw [List.find?_eq_none]; intro c hc; simp at hc ⊢; omega
  simp only [Memory.byte, Memory.write, List.find?_append, h1, h3, cellsFrom_find _ _ _ _ hi, Option.none_or,
    Option.or_none]
  split <;> rename_i hb
  · split at hb <;> simp_all
    have := congrArg Prod.snd hb
    simpa using this.symm
  · split at hb <;> simp_all

/-- A write leaves every other byte as it was. -/
theorem Memory.byte_write_out (m : Memory) (a x : Nat) (bs : List Byte) (h : x < a ∨ a + bs.length ≤ x) :
    (m.write a bs).byte x = m.byte x := by
  have h2 : ((cellsFrom m.fill a bs).find? fun c => c.1 = x) = none := by
    rw [List.find?_eq_none]; intro c hc
    have := cellsFrom_ge _ _ _ _ hc
    simp; omega
  have key : ((m.write a bs).cells.find? fun c => c.1 = x) = m.cells.find? fun c => c.1 = x := by
    simp only [Memory.write, List.find?_append, h2, Option.or_none]
    rcases h with h | h
    · have h3 : ((m.cells.filter fun c => a + bs.length ≤ c.1).find? fun c => c.1 = x) = none := by
        rw [List.find?_eq_none]; intro c hc; simp at hc ⊢; omega
      rw [find_filter_lt _ _ _ h, h3, Option.or_none]
    · have h1 : ((m.cells.filter fun c => c.1 < a).find? fun c => c.1 = x) = none := by
        rw [List.find?_eq_none]; intro c hc; simp at hc ⊢; omega
      rw [h1, Option.none_or, find_filter_ge _ _ _ h]
  have fl : (m.write a bs).fill = m.fill := rfl
  simp only [Memory.byte, key, fl]

@[simp] theorem Memory.byte_empty (a : Nat) : Memory.empty.byte a = 0 := rfl

/-! ### The canonical form -/

/-- The form of `Memory.wf`, as a proposition. -/
theorem Memory.wf_iff (m : Memory) :
    m.wf = true ↔ m.cells.Pairwise (fun x y => x.1 < y.1) ∧ ∀ c ∈ m.cells, c.2 ≠ m.fill.byte c.1 := by
  simp [Memory.wf]

@[simp] theorem Memory.wf_empty : Memory.empty.wf = true := by decide

@[simp] theorem Memory.wf_lost (m : Memory) (g : Nat) : (m.lost g).wf = true := by
  simp [Memory.wf_iff, Memory.lost]

/-- Every write keeps the canonical form. -/
theorem Memory.wf_write (m : Memory) (a : Nat) (bs : List Byte) (h : m.wf = true) : (m.write a bs).wf = true := by
  rw [Memory.wf_iff] at h ⊢
  obtain ⟨hs, hf⟩ := h
  refine ⟨?_, ?_⟩
  · simp only [Memory.write, List.append_assoc]
    rw [List.pairwise_append, List.pairwise_append]
    refine ⟨hs.filter _, ⟨cellsFrom_sorted _ _ _, hs.filter _, ?_⟩, ?_⟩
    · intro x hx y hy
      have := cellsFrom_ge _ _ _ _ hx
      simp at hy; omega
    · intro x hx y hy
      simp at hx
      rcases List.mem_append.1 hy with hy | hy
      · have := cellsFrom_ge _ _ _ _ hy; omega
      · simp at hy; omega
  · intro c hc
    simp only [Memory.write, List.mem_append, List.mem_filter] at hc ⊢
    rcases hc with (hc | hc) | hc
    · exact hf c hc.1
    · exact cellsFrom_ne_fill _ _ _ _ hc
    · exact hf c hc.1

end Sys2Proof.Machine
end

