-- ==== Sys2Proof/Laws/State.lean ====
section
/-!
SUPPORT. Laws of the state's updates: each changes one table and leaves every other field; what a table reads after an
update of it.
-/
namespace Sys2Proof.Machine

/-! ### What an update leaves -/

@[simp] theorem State.setUnit_pending (s : State) (p : PU) (x : UnitS) : (s.setUnit p x).pending = s.pending := by rfl
@[simp] theorem State.setUnit_free (s : State) (p : PU) (x : UnitS) : (s.setUnit p x).free = s.free := by rfl
@[simp] theorem State.setUnit_ht (s : State) (p : PU) (x : UnitS) : (s.setUnit p x).ht = s.ht := by rfl
@[simp] theorem State.setUnit_lus (s : State) (p : PU) (x : UnitS) : (s.setUnit p x).lus = s.lus := by rfl
@[simp] theorem State.setUnit_regions (s : State) (p : PU) (x : UnitS) : (s.setUnit p x).regions = s.regions := by rfl
@[simp] theorem State.setUnit_clusters (s : State) (p : PU) (x : UnitS) : (s.setUnit p x).clusters = s.clusters := by rfl
@[simp] theorem State.setUnit_dies (s : State) (p : PU) (x : UnitS) : (s.setUnit p x).dies = s.dies := by rfl
@[simp] theorem State.setUnit_links (s : State) (p : PU) (x : UnitS) : (s.setUnit p x).links = s.links := by rfl
@[simp] theorem State.setUnit_parts (s : State) (p : PU) (x : UnitS) : (s.setUnit p x).parts = s.parts := by rfl
@[simp] theorem State.setUnit_regs (s : State) (p : PU) (x : UnitS) : (s.setUnit p x).regs = s.regs := by rfl
@[simp] theorem State.setUnit_retained (s : State) (p : PU) (x : UnitS) : (s.setUnit p x).retained = s.retained := by rfl
@[simp] theorem State.setUnit_fen (s : State) (p : PU) (x : UnitS) : (s.setUnit p x).fen = s.fen := by rfl
@[simp] theorem State.setUnit_susp (s : State) (p : PU) (x : UnitS) : (s.setUnit p x).susp = s.susp := by rfl
@[simp] theorem State.setUnit_prov (s : State) (p : PU) (x : UnitS) : (s.setUnit p x).prov = s.prov := by rfl
@[simp] theorem State.setUnit_replays (s : State) (p : PU) (x : UnitS) : (s.setUnit p x).replays = s.replays := by rfl
@[simp] theorem State.setUnit_power (s : State) (p : PU) (x : UnitS) : (s.setUnit p x).power = s.power := by rfl
@[simp] theorem State.setUnit_host (s : State) (p : PU) (x : UnitS) : (s.setUnit p x).host = s.host := by rfl
@[simp] theorem State.setUnit_sb (s : State) (p : PU) (x : UnitS) : (s.setUnit p x).sb = s.sb := by rfl
@[simp] theorem State.setUnit_mon (s : State) (p : PU) (x : UnitS) : (s.setUnit p x).mon = s.mon := by rfl
@[simp] theorem State.setUnit_fw (s : State) (p : PU) (x : UnitS) : (s.setUnit p x).fw = s.fw := by rfl
@[simp] theorem State.setUnit_sec (s : State) (p : PU) (x : UnitS) : (s.setUnit p x).sec = s.sec := by rfl
@[simp] theorem State.setUnit_straps (s : State) (p : PU) (x : UnitS) : (s.setUnit p x).straps = s.straps := by rfl
@[simp] theorem State.setUnit_faultPin (s : State) (p : PU) (x : UnitS) : (s.setUnit p x).faultPin = s.faultPin := by rfl
@[simp] theorem State.setUnit_replacePin (s : State) (p : PU) (x : UnitS) : (s.setUnit p x).replacePin = s.replacePin := by rfl
@[simp] theorem State.setUnit_busOut (s : State) (p : PU) (x : UnitS) : (s.setUnit p x).busOut = s.busOut := by rfl

@[simp] theorem State.modUnit_pending (s : State) (p : PU) (f : UnitS → UnitS) : (s.modUnit p f).pending = s.pending := by rfl
@[simp] theorem State.modUnit_free (s : State) (p : PU) (f : UnitS → UnitS) : (s.modUnit p f).free = s.free := by rfl
@[simp] theorem State.modUnit_ht (s : State) (p : PU) (f : UnitS → UnitS) : (s.modUnit p f).ht = s.ht := by rfl
@[simp] theorem State.modUnit_lus (s : State) (p : PU) (f : UnitS → UnitS) : (s.modUnit p f).lus = s.lus := by rfl
@[simp] theorem State.modUnit_regions (s : State) (p : PU) (f : UnitS → UnitS) : (s.modUnit p f).regions = s.regions := by rfl
@[simp] theorem State.modUnit_clusters (s : State) (p : PU) (f : UnitS → UnitS) : (s.modUnit p f).clusters = s.clusters := by rfl
@[simp] theorem State.modUnit_dies (s : State) (p : PU) (f : UnitS → UnitS) : (s.modUnit p f).dies = s.dies := by rfl
@[simp] theorem State.modUnit_links (s : State) (p : PU) (f : UnitS → UnitS) : (s.modUnit p f).links = s.links := by rfl
@[simp] theorem State.modUnit_parts (s : State) (p : PU) (f : UnitS → UnitS) : (s.modUnit p f).parts = s.parts := by rfl
@[simp] theorem State.modUnit_regs (s : State) (p : PU) (f : UnitS → UnitS) : (s.modUnit p f).regs = s.regs := by rfl
@[simp] theorem State.modUnit_retained (s : State) (p : PU) (f : UnitS → UnitS) : (s.modUnit p f).retained = s.retained := by rfl
@[simp] theorem State.modUnit_fen (s : State) (p : PU) (f : UnitS → UnitS) : (s.modUnit p f).fen = s.fen := by rfl
@[simp] theorem State.modUnit_susp (s : State) (p : PU) (f : UnitS → UnitS) : (s.modUnit p f).susp = s.susp := by rfl
@[simp] theorem State.modUnit_prov (s : State) (p : PU) (f : UnitS → UnitS) : (s.modUnit p f).prov = s.prov := by rfl
@[simp] theorem State.modUnit_replays (s : State) (p : PU) (f : UnitS → UnitS) : (s.modUnit p f).replays = s.replays := by rfl
@[simp] theorem State.modUnit_power (s : State) (p : PU) (f : UnitS → UnitS) : (s.modUnit p f).power = s.power := by rfl
@[simp] theorem State.modUnit_host (s : State) (p : PU) (f : UnitS → UnitS) : (s.modUnit p f).host = s.host := by rfl
@[simp] theorem State.modUnit_sb (s : State) (p : PU) (f : UnitS → UnitS) : (s.modUnit p f).sb = s.sb := by rfl
@[simp] theorem State.modUnit_mon (s : State) (p : PU) (f : UnitS → UnitS) : (s.modUnit p f).mon = s.mon := by rfl
@[simp] theorem State.modUnit_fw (s : State) (p : PU) (f : UnitS → UnitS) : (s.modUnit p f).fw = s.fw := by rfl
@[simp] theorem State.modUnit_sec (s : State) (p : PU) (f : UnitS → UnitS) : (s.modUnit p f).sec = s.sec := by rfl
@[simp] theorem State.modUnit_straps (s : State) (p : PU) (f : UnitS → UnitS) : (s.modUnit p f).straps = s.straps := by rfl
@[simp] theorem State.modUnit_faultPin (s : State) (p : PU) (f : UnitS → UnitS) : (s.modUnit p f).faultPin = s.faultPin := by rfl
@[simp] theorem State.modUnit_replacePin (s : State) (p : PU) (f : UnitS → UnitS) : (s.modUnit p f).replacePin = s.replacePin := by rfl
@[simp] theorem State.modUnit_busOut (s : State) (p : PU) (f : UnitS → UnitS) : (s.modUnit p f).busOut = s.busOut := by rfl

@[simp] theorem State.modLu_pending (s : State) (l : LU) (f : LuS → LuS) : (s.modLu l f).pending = s.pending := by rfl
@[simp] theorem State.modLu_free (s : State) (l : LU) (f : LuS → LuS) : (s.modLu l f).free = s.free := by rfl
@[simp] theorem State.modLu_ht (s : State) (l : LU) (f : LuS → LuS) : (s.modLu l f).ht = s.ht := by rfl
@[simp] theorem State.modLu_units (s : State) (l : LU) (f : LuS → LuS) : (s.modLu l f).units = s.units := by rfl
@[simp] theorem State.modLu_regions (s : State) (l : LU) (f : LuS → LuS) : (s.modLu l f).regions = s.regions := by rfl
@[simp] theorem State.modLu_clusters (s : State) (l : LU) (f : LuS → LuS) : (s.modLu l f).clusters = s.clusters := by rfl
@[simp] theorem State.modLu_dies (s : State) (l : LU) (f : LuS → LuS) : (s.modLu l f).dies = s.dies := by rfl
@[simp] theorem State.modLu_links (s : State) (l : LU) (f : LuS → LuS) : (s.modLu l f).links = s.links := by rfl
@[simp] theorem State.modLu_parts (s : State) (l : LU) (f : LuS → LuS) : (s.modLu l f).parts = s.parts := by rfl
@[simp] theorem State.modLu_regs (s : State) (l : LU) (f : LuS → LuS) : (s.modLu l f).regs = s.regs := by rfl
@[simp] theorem State.modLu_retained (s : State) (l : LU) (f : LuS → LuS) : (s.modLu l f).retained = s.retained := by rfl
@[simp] theorem State.modLu_fen (s : State) (l : LU) (f : LuS → LuS) : (s.modLu l f).fen = s.fen := by rfl
@[simp] theorem State.modLu_susp (s : State) (l : LU) (f : LuS → LuS) : (s.modLu l f).susp = s.susp := by rfl
@[simp] theorem State.modLu_prov (s : State) (l : LU) (f : LuS → LuS) : (s.modLu l f).prov = s.prov := by rfl
@[simp] theorem State.modLu_replays (s : State) (l : LU) (f : LuS → LuS) : (s.modLu l f).replays = s.replays := by rfl
@[simp] theorem State.modLu_power (s : State) (l : LU) (f : LuS → LuS) : (s.modLu l f).power = s.power := by rfl
@[simp] theorem State.modLu_host (s : State) (l : LU) (f : LuS → LuS) : (s.modLu l f).host = s.host := by rfl
@[simp] theorem State.modLu_sb (s : State) (l : LU) (f : LuS → LuS) : (s.modLu l f).sb = s.sb := by rfl
@[simp] theorem State.modLu_mon (s : State) (l : LU) (f : LuS → LuS) : (s.modLu l f).mon = s.mon := by rfl
@[simp] theorem State.modLu_fw (s : State) (l : LU) (f : LuS → LuS) : (s.modLu l f).fw = s.fw := by rfl
@[simp] theorem State.modLu_sec (s : State) (l : LU) (f : LuS → LuS) : (s.modLu l f).sec = s.sec := by rfl
@[simp] theorem State.modLu_straps (s : State) (l : LU) (f : LuS → LuS) : (s.modLu l f).straps = s.straps := by rfl
@[simp] theorem State.modLu_faultPin (s : State) (l : LU) (f : LuS → LuS) : (s.modLu l f).faultPin = s.faultPin := by rfl
@[simp] theorem State.modLu_replacePin (s : State) (l : LU) (f : LuS → LuS) : (s.modLu l f).replacePin = s.replacePin := by rfl
@[simp] theorem State.modLu_busOut (s : State) (l : LU) (f : LuS → LuS) : (s.modLu l f).busOut = s.busOut := by rfl

@[simp] theorem State.modRegion_pending (s : State) (r : RegionId) (f : RegionS → RegionS) : (s.modRegion r f).pending = s.pending := by rfl
@[simp] theorem State.modRegion_free (s : State) (r : RegionId) (f : RegionS → RegionS) : (s.modRegion r f).free = s.free := by rfl
@[simp] theorem State.modRegion_ht (s : State) (r : RegionId) (f : RegionS → RegionS) : (s.modRegion r f).ht = s.ht := by rfl
@[simp] theorem State.modRegion_units (s : State) (r : RegionId) (f : RegionS → RegionS) : (s.modRegion r f).units = s.units := by rfl
@[simp] theorem State.modRegion_lus (s : State) (r : RegionId) (f : RegionS → RegionS) : (s.modRegion r f).lus = s.lus := by rfl
@[simp] theorem State.modRegion_clusters (s : State) (r : RegionId) (f : RegionS → RegionS) : (s.modRegion r f).clusters = s.clusters := by rfl
@[simp] theorem State.modRegion_dies (s : State) (r : RegionId) (f : RegionS → RegionS) : (s.modRegion r f).dies = s.dies := by rfl
@[simp] theorem State.modRegion_links (s : State) (r : RegionId) (f : RegionS → RegionS) : (s.modRegion r f).links = s.links := by rfl
@[simp] theorem State.modRegion_parts (s : State) (r : RegionId) (f : RegionS → RegionS) : (s.modRegion r f).parts = s.parts := by rfl
@[simp] theorem State.modRegion_regs (s : State) (r : RegionId) (f : RegionS → RegionS) : (s.modRegion r f).regs = s.regs := by rfl
@[simp] theorem State.modRegion_retained (s : State) (r : RegionId) (f : RegionS → RegionS) : (s.modRegion r f).retained = s.retained := by rfl
@[simp] theorem State.modRegion_fen (s : State) (r : RegionId) (f : RegionS → RegionS) : (s.modRegion r f).fen = s.fen := by rfl
@[simp] theorem State.modRegion_susp (s : State) (r : RegionId) (f : RegionS → RegionS) : (s.modRegion r f).susp = s.susp := by rfl
@[simp] theorem State.modRegion_prov (s : State) (r : RegionId) (f : RegionS → RegionS) : (s.modRegion r f).prov = s.prov := by rfl
@[simp] theorem State.modRegion_replays (s : State) (r : RegionId) (f : RegionS → RegionS) : (s.modRegion r f).replays = s.replays := by rfl
@[simp] theorem State.modRegion_power (s : State) (r : RegionId) (f : RegionS → RegionS) : (s.modRegion r f).power = s.power := by rfl
@[simp] theorem State.modRegion_host (s : State) (r : RegionId) (f : RegionS → RegionS) : (s.modRegion r f).host = s.host := by rfl
@[simp] theorem State.modRegion_sb (s : State) (r : RegionId) (f : RegionS → RegionS) : (s.modRegion r f).sb = s.sb := by rfl
@[simp] theorem State.modRegion_mon (s : State) (r : RegionId) (f : RegionS → RegionS) : (s.modRegion r f).mon = s.mon := by rfl
@[simp] theorem State.modRegion_fw (s : State) (r : RegionId) (f : RegionS → RegionS) : (s.modRegion r f).fw = s.fw := by rfl
@[simp] theorem State.modRegion_sec (s : State) (r : RegionId) (f : RegionS → RegionS) : (s.modRegion r f).sec = s.sec := by rfl
@[simp] theorem State.modRegion_straps (s : State) (r : RegionId) (f : RegionS → RegionS) : (s.modRegion r f).straps = s.straps := by rfl
@[simp] theorem State.modRegion_faultPin (s : State) (r : RegionId) (f : RegionS → RegionS) : (s.modRegion r f).faultPin = s.faultPin := by rfl
@[simp] theorem State.modRegion_replacePin (s : State) (r : RegionId) (f : RegionS → RegionS) : (s.modRegion r f).replacePin = s.replacePin := by rfl
@[simp] theorem State.modRegion_busOut (s : State) (r : RegionId) (f : RegionS → RegionS) : (s.modRegion r f).busOut = s.busOut := by rfl

@[simp] theorem State.modDie_pending (s : State) (d : Die) (f : DieS → DieS) : (s.modDie d f).pending = s.pending := by rfl
@[simp] theorem State.modDie_free (s : State) (d : Die) (f : DieS → DieS) : (s.modDie d f).free = s.free := by rfl
@[simp] theorem State.modDie_ht (s : State) (d : Die) (f : DieS → DieS) : (s.modDie d f).ht = s.ht := by rfl
@[simp] theorem State.modDie_units (s : State) (d : Die) (f : DieS → DieS) : (s.modDie d f).units = s.units := by rfl
@[simp] theorem State.modDie_lus (s : State) (d : Die) (f : DieS → DieS) : (s.modDie d f).lus = s.lus := by rfl
@[simp] theorem State.modDie_regions (s : State) (d : Die) (f : DieS → DieS) : (s.modDie d f).regions = s.regions := by rfl
@[simp] theorem State.modDie_clusters (s : State) (d : Die) (f : DieS → DieS) : (s.modDie d f).clusters = s.clusters := by rfl
@[simp] theorem State.modDie_links (s : State) (d : Die) (f : DieS → DieS) : (s.modDie d f).links = s.links := by rfl
@[simp] theorem State.modDie_parts (s : State) (d : Die) (f : DieS → DieS) : (s.modDie d f).parts = s.parts := by rfl
@[simp] theorem State.modDie_regs (s : State) (d : Die) (f : DieS → DieS) : (s.modDie d f).regs = s.regs := by rfl
@[simp] theorem State.modDie_retained (s : State) (d : Die) (f : DieS → DieS) : (s.modDie d f).retained = s.retained := by rfl
@[simp] theorem State.modDie_fen (s : State) (d : Die) (f : DieS → DieS) : (s.modDie d f).fen = s.fen := by rfl
@[simp] theorem State.modDie_susp (s : State) (d : Die) (f : DieS → DieS) : (s.modDie d f).susp = s.susp := by rfl
@[simp] theorem State.modDie_prov (s : State) (d : Die) (f : DieS → DieS) : (s.modDie d f).prov = s.prov := by rfl
@[simp] theorem State.modDie_replays (s : State) (d : Die) (f : DieS → DieS) : (s.modDie d f).replays = s.replays := by rfl
@[simp] theorem State.modDie_power (s : State) (d : Die) (f : DieS → DieS) : (s.modDie d f).power = s.power := by rfl
@[simp] theorem State.modDie_host (s : State) (d : Die) (f : DieS → DieS) : (s.modDie d f).host = s.host := by rfl
@[simp] theorem State.modDie_sb (s : State) (d : Die) (f : DieS → DieS) : (s.modDie d f).sb = s.sb := by rfl
@[simp] theorem State.modDie_mon (s : State) (d : Die) (f : DieS → DieS) : (s.modDie d f).mon = s.mon := by rfl
@[simp] theorem State.modDie_fw (s : State) (d : Die) (f : DieS → DieS) : (s.modDie d f).fw = s.fw := by rfl
@[simp] theorem State.modDie_sec (s : State) (d : Die) (f : DieS → DieS) : (s.modDie d f).sec = s.sec := by rfl
@[simp] theorem State.modDie_straps (s : State) (d : Die) (f : DieS → DieS) : (s.modDie d f).straps = s.straps := by rfl
@[simp] theorem State.modDie_faultPin (s : State) (d : Die) (f : DieS → DieS) : (s.modDie d f).faultPin = s.faultPin := by rfl
@[simp] theorem State.modDie_replacePin (s : State) (d : Die) (f : DieS → DieS) : (s.modDie d f).replacePin = s.replacePin := by rfl
@[simp] theorem State.modDie_busOut (s : State) (d : Die) (f : DieS → DieS) : (s.modDie d f).busOut = s.busOut := by rfl

@[simp] theorem State.modPart_pending (s : State) (p : Part) (f : PartS → PartS) : (s.modPart p f).pending = s.pending := by rfl
@[simp] theorem State.modPart_free (s : State) (p : Part) (f : PartS → PartS) : (s.modPart p f).free = s.free := by rfl
@[simp] theorem State.modPart_ht (s : State) (p : Part) (f : PartS → PartS) : (s.modPart p f).ht = s.ht := by rfl
@[simp] theorem State.modPart_units (s : State) (p : Part) (f : PartS → PartS) : (s.modPart p f).units = s.units := by rfl
@[simp] theorem State.modPart_lus (s : State) (p : Part) (f : PartS → PartS) : (s.modPart p f).lus = s.lus := by rfl
@[simp] theorem State.modPart_regions (s : State) (p : Part) (f : PartS → PartS) : (s.modPart p f).regions = s.regions := by rfl
@[simp] theorem State.modPart_clusters (s : State) (p : Part) (f : PartS → PartS) : (s.modPart p f).clusters = s.clusters := by rfl
@[simp] theorem State.modPart_dies (s : State) (p : Part) (f : PartS → PartS) : (s.modPart p f).dies = s.dies := by rfl
@[simp] theorem State.modPart_links (s : State) (p : Part) (f : PartS → PartS) : (s.modPart p f).links = s.links := by rfl
@[simp] theorem State.modPart_regs (s : State) (p : Part) (f : PartS → PartS) : (s.modPart p f).regs = s.regs := by rfl
@[simp] theorem State.modPart_retained (s : State) (p : Part) (f : PartS → PartS) : (s.modPart p f).retained = s.retained := by rfl
@[simp] theorem State.modPart_fen (s : State) (p : Part) (f : PartS → PartS) : (s.modPart p f).fen = s.fen := by rfl
@[simp] theorem State.modPart_susp (s : State) (p : Part) (f : PartS → PartS) : (s.modPart p f).susp = s.susp := by rfl
@[simp] theorem State.modPart_prov (s : State) (p : Part) (f : PartS → PartS) : (s.modPart p f).prov = s.prov := by rfl
@[simp] theorem State.modPart_replays (s : State) (p : Part) (f : PartS → PartS) : (s.modPart p f).replays = s.replays := by rfl
@[simp] theorem State.modPart_power (s : State) (p : Part) (f : PartS → PartS) : (s.modPart p f).power = s.power := by rfl
@[simp] theorem State.modPart_host (s : State) (p : Part) (f : PartS → PartS) : (s.modPart p f).host = s.host := by rfl
@[simp] theorem State.modPart_sb (s : State) (p : Part) (f : PartS → PartS) : (s.modPart p f).sb = s.sb := by rfl
@[simp] theorem State.modPart_mon (s : State) (p : Part) (f : PartS → PartS) : (s.modPart p f).mon = s.mon := by rfl
@[simp] theorem State.modPart_fw (s : State) (p : Part) (f : PartS → PartS) : (s.modPart p f).fw = s.fw := by rfl
@[simp] theorem State.modPart_sec (s : State) (p : Part) (f : PartS → PartS) : (s.modPart p f).sec = s.sec := by rfl
@[simp] theorem State.modPart_straps (s : State) (p : Part) (f : PartS → PartS) : (s.modPart p f).straps = s.straps := by rfl
@[simp] theorem State.modPart_faultPin (s : State) (p : Part) (f : PartS → PartS) : (s.modPart p f).faultPin = s.faultPin := by rfl
@[simp] theorem State.modPart_replacePin (s : State) (p : Part) (f : PartS → PartS) : (s.modPart p f).replacePin = s.replacePin := by rfl
@[simp] theorem State.modPart_busOut (s : State) (p : Part) (f : PartS → PartS) : (s.modPart p f).busOut = s.busOut := by rfl

@[simp] theorem State.modCluster_pending (s : State) (c : ClusterId) (f : ClusterS → ClusterS) : (s.modCluster c f).pending = s.pending := by rfl
@[simp] theorem State.modCluster_free (s : State) (c : ClusterId) (f : ClusterS → ClusterS) : (s.modCluster c f).free = s.free := by rfl
@[simp] theorem State.modCluster_ht (s : State) (c : ClusterId) (f : ClusterS → ClusterS) : (s.modCluster c f).ht = s.ht := by rfl
@[simp] theorem State.modCluster_units (s : State) (c : ClusterId) (f : ClusterS → ClusterS) : (s.modCluster c f).units = s.units := by rfl
@[simp] theorem State.modCluster_lus (s : State) (c : ClusterId) (f : ClusterS → ClusterS) : (s.modCluster c f).lus = s.lus := by rfl
@[simp] theorem State.modCluster_regions (s : State) (c : ClusterId) (f : ClusterS → ClusterS) : (s.modCluster c f).regions = s.regions := by rfl
@[simp] theorem State.modCluster_dies (s : State) (c : ClusterId) (f : ClusterS → ClusterS) : (s.modCluster c f).dies = s.dies := by rfl
@[simp] theorem State.modCluster_links (s : State) (c : ClusterId) (f : ClusterS → ClusterS) : (s.modCluster c f).links = s.links := by rfl
@[simp] theorem State.modCluster_parts (s : State) (c : ClusterId) (f : ClusterS → ClusterS) : (s.modCluster c f).parts = s.parts := by rfl
@[simp] theorem State.modCluster_regs (s : State) (c : ClusterId) (f : ClusterS → ClusterS) : (s.modCluster c f).regs = s.regs := by rfl
@[simp] theorem State.modCluster_retained (s : State) (c : ClusterId) (f : ClusterS → ClusterS) : (s.modCluster c f).retained = s.retained := by rfl
@[simp] theorem State.modCluster_fen (s : State) (c : ClusterId) (f : ClusterS → ClusterS) : (s.modCluster c f).fen = s.fen := by rfl
@[simp] theorem State.modCluster_susp (s : State) (c : ClusterId) (f : ClusterS → ClusterS) : (s.modCluster c f).susp = s.susp := by rfl
@[simp] theorem State.modCluster_prov (s : State) (c : ClusterId) (f : ClusterS → ClusterS) : (s.modCluster c f).prov = s.prov := by rfl
@[simp] theorem State.modCluster_replays (s : State) (c : ClusterId) (f : ClusterS → ClusterS) : (s.modCluster c f).replays = s.replays := by rfl
@[simp] theorem State.modCluster_power (s : State) (c : ClusterId) (f : ClusterS → ClusterS) : (s.modCluster c f).power = s.power := by rfl
@[simp] theorem State.modCluster_host (s : State) (c : ClusterId) (f : ClusterS → ClusterS) : (s.modCluster c f).host = s.host := by rfl
@[simp] theorem State.modCluster_sb (s : State) (c : ClusterId) (f : ClusterS → ClusterS) : (s.modCluster c f).sb = s.sb := by rfl
@[simp] theorem State.modCluster_mon (s : State) (c : ClusterId) (f : ClusterS → ClusterS) : (s.modCluster c f).mon = s.mon := by rfl
@[simp] theorem State.modCluster_fw (s : State) (c : ClusterId) (f : ClusterS → ClusterS) : (s.modCluster c f).fw = s.fw := by rfl
@[simp] theorem State.modCluster_sec (s : State) (c : ClusterId) (f : ClusterS → ClusterS) : (s.modCluster c f).sec = s.sec := by rfl
@[simp] theorem State.modCluster_straps (s : State) (c : ClusterId) (f : ClusterS → ClusterS) : (s.modCluster c f).straps = s.straps := by rfl
@[simp] theorem State.modCluster_faultPin (s : State) (c : ClusterId) (f : ClusterS → ClusterS) : (s.modCluster c f).faultPin = s.faultPin := by rfl
@[simp] theorem State.modCluster_replacePin (s : State) (c : ClusterId) (f : ClusterS → ClusterS) : (s.modCluster c f).replacePin = s.replacePin := by rfl
@[simp] theorem State.modCluster_busOut (s : State) (c : ClusterId) (f : ClusterS → ClusterS) : (s.modCluster c f).busOut = s.busOut := by rfl

@[simp] theorem State.modLinks_pending (s : State) (f : LinkS → LinkS) : (s.modLinks f).pending = s.pending := by rfl
@[simp] theorem State.modLinks_free (s : State) (f : LinkS → LinkS) : (s.modLinks f).free = s.free := by rfl
@[simp] theorem State.modLinks_ht (s : State) (f : LinkS → LinkS) : (s.modLinks f).ht = s.ht := by rfl
@[simp] theorem State.modLinks_units (s : State) (f : LinkS → LinkS) : (s.modLinks f).units = s.units := by rfl
@[simp] theorem State.modLinks_lus (s : State) (f : LinkS → LinkS) : (s.modLinks f).lus = s.lus := by rfl
@[simp] theorem State.modLinks_regions (s : State) (f : LinkS → LinkS) : (s.modLinks f).regions = s.regions := by rfl
@[simp] theorem State.modLinks_clusters (s : State) (f : LinkS → LinkS) : (s.modLinks f).clusters = s.clusters := by rfl
@[simp] theorem State.modLinks_dies (s : State) (f : LinkS → LinkS) : (s.modLinks f).dies = s.dies := by rfl
@[simp] theorem State.modLinks_parts (s : State) (f : LinkS → LinkS) : (s.modLinks f).parts = s.parts := by rfl
@[simp] theorem State.modLinks_regs (s : State) (f : LinkS → LinkS) : (s.modLinks f).regs = s.regs := by rfl
@[simp] theorem State.modLinks_retained (s : State) (f : LinkS → LinkS) : (s.modLinks f).retained = s.retained := by rfl
@[simp] theorem State.modLinks_fen (s : State) (f : LinkS → LinkS) : (s.modLinks f).fen = s.fen := by rfl
@[simp] theorem State.modLinks_susp (s : State) (f : LinkS → LinkS) : (s.modLinks f).susp = s.susp := by rfl
@[simp] theorem State.modLinks_prov (s : State) (f : LinkS → LinkS) : (s.modLinks f).prov = s.prov := by rfl
@[simp] theorem State.modLinks_replays (s : State) (f : LinkS → LinkS) : (s.modLinks f).replays = s.replays := by rfl
@[simp] theorem State.modLinks_power (s : State) (f : LinkS → LinkS) : (s.modLinks f).power = s.power := by rfl
@[simp] theorem State.modLinks_host (s : State) (f : LinkS → LinkS) : (s.modLinks f).host = s.host := by rfl
@[simp] theorem State.modLinks_sb (s : State) (f : LinkS → LinkS) : (s.modLinks f).sb = s.sb := by rfl
@[simp] theorem State.modLinks_mon (s : State) (f : LinkS → LinkS) : (s.modLinks f).mon = s.mon := by rfl
@[simp] theorem State.modLinks_fw (s : State) (f : LinkS → LinkS) : (s.modLinks f).fw = s.fw := by rfl
@[simp] theorem State.modLinks_sec (s : State) (f : LinkS → LinkS) : (s.modLinks f).sec = s.sec := by rfl
@[simp] theorem State.modLinks_straps (s : State) (f : LinkS → LinkS) : (s.modLinks f).straps = s.straps := by rfl
@[simp] theorem State.modLinks_faultPin (s : State) (f : LinkS → LinkS) : (s.modLinks f).faultPin = s.faultPin := by rfl
@[simp] theorem State.modLinks_replacePin (s : State) (f : LinkS → LinkS) : (s.modLinks f).replacePin = s.replacePin := by rfl
@[simp] theorem State.modLinks_busOut (s : State) (f : LinkS → LinkS) : (s.modLinks f).busOut = s.busOut := by rfl

@[simp] theorem State.modHt_pending (s : State) (f : HtS → HtS) : (s.modHt f).pending = s.pending := by rfl
@[simp] theorem State.modHt_free (s : State) (f : HtS → HtS) : (s.modHt f).free = s.free := by rfl
@[simp] theorem State.modHt_units (s : State) (f : HtS → HtS) : (s.modHt f).units = s.units := by rfl
@[simp] theorem State.modHt_lus (s : State) (f : HtS → HtS) : (s.modHt f).lus = s.lus := by rfl
@[simp] theorem State.modHt_regions (s : State) (f : HtS → HtS) : (s.modHt f).regions = s.regions := by rfl
@[simp] theorem State.modHt_clusters (s : State) (f : HtS → HtS) : (s.modHt f).clusters = s.clusters := by rfl
@[simp] theorem State.modHt_dies (s : State) (f : HtS → HtS) : (s.modHt f).dies = s.dies := by rfl
@[simp] theorem State.modHt_links (s : State) (f : HtS → HtS) : (s.modHt f).links = s.links := by rfl
@[simp] theorem State.modHt_parts (s : State) (f : HtS → HtS) : (s.modHt f).parts = s.parts := by rfl
@[simp] theorem State.modHt_regs (s : State) (f : HtS → HtS) : (s.modHt f).regs = s.regs := by rfl
@[simp] theorem State.modHt_retained (s : State) (f : HtS → HtS) : (s.modHt f).retained = s.retained := by rfl
@[simp] theorem State.modHt_fen (s : State) (f : HtS → HtS) : (s.modHt f).fen = s.fen := by rfl
@[simp] theorem State.modHt_susp (s : State) (f : HtS → HtS) : (s.modHt f).susp = s.susp := by rfl
@[simp] theorem State.modHt_prov (s : State) (f : HtS → HtS) : (s.modHt f).prov = s.prov := by rfl
@[simp] theorem State.modHt_replays (s : State) (f : HtS → HtS) : (s.modHt f).replays = s.replays := by rfl
@[simp] theorem State.modHt_power (s : State) (f : HtS → HtS) : (s.modHt f).power = s.power := by rfl
@[simp] theorem State.modHt_host (s : State) (f : HtS → HtS) : (s.modHt f).host = s.host := by rfl
@[simp] theorem State.modHt_sb (s : State) (f : HtS → HtS) : (s.modHt f).sb = s.sb := by rfl
@[simp] theorem State.modHt_mon (s : State) (f : HtS → HtS) : (s.modHt f).mon = s.mon := by rfl
@[simp] theorem State.modHt_fw (s : State) (f : HtS → HtS) : (s.modHt f).fw = s.fw := by rfl
@[simp] theorem State.modHt_sec (s : State) (f : HtS → HtS) : (s.modHt f).sec = s.sec := by rfl
@[simp] theorem State.modHt_straps (s : State) (f : HtS → HtS) : (s.modHt f).straps = s.straps := by rfl
@[simp] theorem State.modHt_faultPin (s : State) (f : HtS → HtS) : (s.modHt f).faultPin = s.faultPin := by rfl
@[simp] theorem State.modHt_replacePin (s : State) (f : HtS → HtS) : (s.modHt f).replacePin = s.replacePin := by rfl
@[simp] theorem State.modHt_busOut (s : State) (f : HtS → HtS) : (s.modHt f).busOut = s.busOut := by rfl

@[simp] theorem State.modFw_pending (s : State) (f : FwS → FwS) : (s.modFw f).pending = s.pending := by rfl
@[simp] theorem State.modFw_free (s : State) (f : FwS → FwS) : (s.modFw f).free = s.free := by rfl
@[simp] theorem State.modFw_ht (s : State) (f : FwS → FwS) : (s.modFw f).ht = s.ht := by rfl
@[simp] theorem State.modFw_units (s : State) (f : FwS → FwS) : (s.modFw f).units = s.units := by rfl
@[simp] theorem State.modFw_lus (s : State) (f : FwS → FwS) : (s.modFw f).lus = s.lus := by rfl
@[simp] theorem State.modFw_regions (s : State) (f : FwS → FwS) : (s.modFw f).regions = s.regions := by rfl
@[simp] theorem State.modFw_clusters (s : State) (f : FwS → FwS) : (s.modFw f).clusters = s.clusters := by rfl
@[simp] theorem State.modFw_dies (s : State) (f : FwS → FwS) : (s.modFw f).dies = s.dies := by rfl
@[simp] theorem State.modFw_links (s : State) (f : FwS → FwS) : (s.modFw f).links = s.links := by rfl
@[simp] theorem State.modFw_parts (s : State) (f : FwS → FwS) : (s.modFw f).parts = s.parts := by rfl
@[simp] theorem State.modFw_regs (s : State) (f : FwS → FwS) : (s.modFw f).regs = s.regs := by rfl
@[simp] theorem State.modFw_retained (s : State) (f : FwS → FwS) : (s.modFw f).retained = s.retained := by rfl
@[simp] theorem State.modFw_fen (s : State) (f : FwS → FwS) : (s.modFw f).fen = s.fen := by rfl
@[simp] theorem State.modFw_susp (s : State) (f : FwS → FwS) : (s.modFw f).susp = s.susp := by rfl
@[simp] theorem State.modFw_prov (s : State) (f : FwS → FwS) : (s.modFw f).prov = s.prov := by rfl
@[simp] theorem State.modFw_replays (s : State) (f : FwS → FwS) : (s.modFw f).replays = s.replays := by rfl
@[simp] theorem State.modFw_power (s : State) (f : FwS → FwS) : (s.modFw f).power = s.power := by rfl
@[simp] theorem State.modFw_host (s : State) (f : FwS → FwS) : (s.modFw f).host = s.host := by rfl
@[simp] theorem State.modFw_sb (s : State) (f : FwS → FwS) : (s.modFw f).sb = s.sb := by rfl
@[simp] theorem State.modFw_mon (s : State) (f : FwS → FwS) : (s.modFw f).mon = s.mon := by rfl
@[simp] theorem State.modFw_sec (s : State) (f : FwS → FwS) : (s.modFw f).sec = s.sec := by rfl
@[simp] theorem State.modFw_straps (s : State) (f : FwS → FwS) : (s.modFw f).straps = s.straps := by rfl
@[simp] theorem State.modFw_faultPin (s : State) (f : FwS → FwS) : (s.modFw f).faultPin = s.faultPin := by rfl
@[simp] theorem State.modFw_replacePin (s : State) (f : FwS → FwS) : (s.modFw f).replacePin = s.replacePin := by rfl
@[simp] theorem State.modFw_busOut (s : State) (f : FwS → FwS) : (s.modFw f).busOut = s.busOut := by rfl

@[simp] theorem State.wr_pending (s : State) (r : Reg) (v : Word) : (s.wr r v).pending = s.pending := by rfl
@[simp] theorem State.wr_free (s : State) (r : Reg) (v : Word) : (s.wr r v).free = s.free := by rfl
@[simp] theorem State.wr_ht (s : State) (r : Reg) (v : Word) : (s.wr r v).ht = s.ht := by rfl
@[simp] theorem State.wr_units (s : State) (r : Reg) (v : Word) : (s.wr r v).units = s.units := by rfl
@[simp] theorem State.wr_lus (s : State) (r : Reg) (v : Word) : (s.wr r v).lus = s.lus := by rfl
@[simp] theorem State.wr_regions (s : State) (r : Reg) (v : Word) : (s.wr r v).regions = s.regions := by rfl
@[simp] theorem State.wr_clusters (s : State) (r : Reg) (v : Word) : (s.wr r v).clusters = s.clusters := by rfl
@[simp] theorem State.wr_dies (s : State) (r : Reg) (v : Word) : (s.wr r v).dies = s.dies := by rfl
@[simp] theorem State.wr_links (s : State) (r : Reg) (v : Word) : (s.wr r v).links = s.links := by rfl
@[simp] theorem State.wr_parts (s : State) (r : Reg) (v : Word) : (s.wr r v).parts = s.parts := by rfl
@[simp] theorem State.wr_retained (s : State) (r : Reg) (v : Word) : (s.wr r v).retained = s.retained := by rfl
@[simp] theorem State.wr_fen (s : State) (r : Reg) (v : Word) : (s.wr r v).fen = s.fen := by rfl
@[simp] theorem State.wr_susp (s : State) (r : Reg) (v : Word) : (s.wr r v).susp = s.susp := by rfl
@[simp] theorem State.wr_prov (s : State) (r : Reg) (v : Word) : (s.wr r v).prov = s.prov := by rfl
@[simp] theorem State.wr_replays (s : State) (r : Reg) (v : Word) : (s.wr r v).replays = s.replays := by rfl
@[simp] theorem State.wr_power (s : State) (r : Reg) (v : Word) : (s.wr r v).power = s.power := by rfl
@[simp] theorem State.wr_host (s : State) (r : Reg) (v : Word) : (s.wr r v).host = s.host := by rfl
@[simp] theorem State.wr_sb (s : State) (r : Reg) (v : Word) : (s.wr r v).sb = s.sb := by rfl
@[simp] theorem State.wr_mon (s : State) (r : Reg) (v : Word) : (s.wr r v).mon = s.mon := by rfl
@[simp] theorem State.wr_fw (s : State) (r : Reg) (v : Word) : (s.wr r v).fw = s.fw := by rfl
@[simp] theorem State.wr_sec (s : State) (r : Reg) (v : Word) : (s.wr r v).sec = s.sec := by rfl
@[simp] theorem State.wr_straps (s : State) (r : Reg) (v : Word) : (s.wr r v).straps = s.straps := by rfl
@[simp] theorem State.wr_faultPin (s : State) (r : Reg) (v : Word) : (s.wr r v).faultPin = s.faultPin := by rfl
@[simp] theorem State.wr_replacePin (s : State) (r : Reg) (v : Word) : (s.wr r v).replacePin = s.replacePin := by rfl
@[simp] theorem State.wr_busOut (s : State) (r : Reg) (v : Word) : (s.wr r v).busOut = s.busOut := by rfl


/-! ### What an updated table reads -/

@[simp] theorem State.unit_setUnit (s : State) (p : PU) (x : UnitS) : (s.setUnit p x).unit p = x := by
  simp [State.unit, State.setUnit]

theorem State.unit_setUnit_ne (s : State) (p q : PU) (x : UnitS) (h : q ≠ p) : (s.setUnit p x).unit q = s.unit q :=
  AMap.getD_set_ne _ _ _ _ _ h

@[simp] theorem State.setUnit_setUnit (s : State) (p : PU) (x y : UnitS) : (s.setUnit p x).setUnit p y = s.setUnit p y := by
  simp [State.setUnit]

@[simp] theorem State.unit_modUnit (s : State) (p : PU) (f : UnitS → UnitS) : (s.modUnit p f).unit p = f (s.unit p) := by
  simp [State.modUnit]

@[simp] theorem State.lu_modLu (s : State) (l : LU) (f : LuS → LuS) : (s.modLu l f).lu l = f (s.lu l) := by
  simp [State.lu, State.modLu]

theorem State.lu_modLu_ne (s : State) (l k : LU) (f : LuS → LuS) (h : k ≠ l) : (s.modLu l f).lu k = s.lu k :=
  AMap.getD_set_ne _ _ _ _ _ h

@[simp] theorem State.region_modRegion (s : State) (r : RegionId) (f : RegionS → RegionS) :
    (s.modRegion r f).region r = f (s.region r) := by
  simp [State.region, State.modRegion]

theorem State.region_modRegion_ne (s : State) (r q : RegionId) (f : RegionS → RegionS) (h : q ≠ r) :
    (s.modRegion r f).region q = s.region q := AMap.getD_set_ne _ _ _ _ _ h

@[simp] theorem State.die_modDie (s : State) (d : Die) (f : DieS → DieS) : (s.modDie d f).die d = f (s.die d) := by
  simp [State.die, State.modDie]

theorem State.die_modDie_ne (s : State) (d e : Die) (f : DieS → DieS) (h : e ≠ d) : (s.modDie d f).die e = s.die e :=
  AMap.getD_set_ne _ _ _ _ _ h

@[simp] theorem State.part_modPart (s : State) (p : Part) (f : PartS → PartS) : (s.modPart p f).part p = f (s.part p) := by
  simp [State.part, State.modPart]

theorem State.part_modPart_ne (s : State) (p q : Part) (f : PartS → PartS) (h : q ≠ p) :
    (s.modPart p f).part q = s.part q := AMap.getD_set_ne _ _ _ _ _ h

@[simp] theorem State.clusterS_modCluster (s : State) (c : ClusterId) (f : ClusterS → ClusterS) :
    (s.modCluster c f).clusterS c = f (s.clusterS c) := by
  simp [State.clusterS, State.modCluster]

@[simp] theorem State.rd_wr (s : State) (r : Reg) (v : Word) : (s.wr r v).rd r = v := by
  simp [State.rd, State.wr]

theorem State.rd_wr_ne (s : State) (r q : Reg) (v : Word) (h : q ≠ r) : (s.wr r v).rd q = s.rd q :=
  AMap.getD_set_ne _ _ _ _ _ h

@[simp] theorem State.wr_wr (s : State) (r : Reg) (v w : Word) : (s.wr r v).wr r w = s.wr r w := by
  simp [State.wr]

@[simp] theorem State.rd_setUnit (s : State) (p : PU) (x : UnitS) (r : Reg) : (s.setUnit p x).rd r = s.rd r := by rfl
@[simp] theorem State.rd_modUnit (s : State) (p : PU) (f : UnitS → UnitS) (r : Reg) : (s.modUnit p f).rd r = s.rd r := by rfl
@[simp] theorem State.rd_modDie (s : State) (d : Die) (f : DieS → DieS) (r : Reg) : (s.modDie d f).rd r = s.rd r := by rfl
@[simp] theorem State.rd_modLu (s : State) (l : LU) (f : LuS → LuS) (r : Reg) : (s.modLu l f).rd r = s.rd r := by rfl
@[simp] theorem State.rd_modPart (s : State) (p : Part) (f : PartS → PartS) (r : Reg) : (s.modPart p f).rd r = s.rd r := by rfl
@[simp] theorem State.rd_modRegion (s : State) (q : RegionId) (f : RegionS → RegionS) (r : Reg) :
    (s.modRegion q f).rd r = s.rd r := rfl
@[simp] theorem State.unit_wr (s : State) (r : Reg) (v : Word) (p : PU) : (s.wr r v).unit p = s.unit p := by rfl
@[simp] theorem State.die_wr (s : State) (r : Reg) (v : Word) (d : Die) : (s.wr r v).die d = s.die d := by rfl
@[simp] theorem State.die_setUnit (s : State) (p : PU) (x : UnitS) (d : Die) : (s.setUnit p x).die d = s.die d := by rfl
@[simp] theorem State.unit_modDie (s : State) (d : Die) (f : DieS → DieS) (p : PU) : (s.modDie d f).unit p = s.unit p := by rfl

/-! ### Issue in a unit -/

@[simp] theorem State.setUnit_marked (s : State) (p : PU) (sl : Slot) (y : UnitS) :
    (s.marked p sl).setUnit p y = s.setUnit p y := by
  simp [State.marked]

@[simp] theorem State.unit_marked (s : State) (p : PU) (sl : Slot) : (s.marked p sl).unit p = (s.unit p).mark sl := by
  simp [State.marked]

@[simp] theorem State.cycle_marked (s : State) (p : PU) (sl : Slot) (r : RegionId) :
    (s.marked p sl).cycle r = s.cycle r := rfl

@[simp] theorem State.cycle_setUnit (s : State) (p : PU) (x : UnitS) (r : RegionId) :
    (s.setUnit p x).cycle r = s.cycle r := rfl

@[simp] theorem UnitS.areg_mark (x : UnitS) (sl : Slot) (r : Fin 16) : (x.mark sl).areg r = x.areg r := by rfl
@[simp] theorem UnitS.vreg_mark (x : UnitS) (sl : Slot) (r : Fin 16) : (x.mark sl).vreg r = x.vreg r := by rfl
@[simp] theorem UnitS.opnd_mark (x : UnitS) (sl : Slot) (d : Fin 64) (w : Word) : (x.mark sl).opnd d w = x.opnd d w := by rfl
@[simp] theorem UnitS.far_mark (x : UnitS) (sl : Slot) (d : Fin 64) (w : Word) : (x.mark sl).far d w = x.far d w := by rfl
@[simp] theorem UnitS.isFar_mark (x : UnitS) (sl : Slot) (d : Fin 64) : (x.mark sl).isFar d = x.isFar d := by rfl
@[simp] theorem UnitS.group_mark (x : UnitS) (sl : Slot) (g : Fin 4) : (x.mark sl).group g = x.group g := by rfl
@[simp] theorem UnitS.galley_mark (x : UnitS) (sl : Slot) (g : Fin 8) : (x.mark sl).galley g = x.galley g := by rfl
@[simp] theorem UnitS.flights_mark (x : UnitS) (sl : Slot) : (x.mark sl).flights = x.flights := by rfl

/-- Everything an operation that may issue does: its slot is marked, then its effect is made. -/
theorem State.issue_eq {s : State} {u : LU} {sl : Slot} {p : PU} (f : State → PU → UnitS → State)
    (h : s.issuer u sl = some p) : s.issue u sl f = f (s.marked p sl) p ((s.unit p).mark sl) := by
  simp only [State.issue, h]; rfl

/-- An operation that may not issue does nothing. -/
theorem State.issue_none {s : State} {u : LU} {sl : Slot} (f : State → PU → UnitS → State)
    (h : s.issuer u sl = none) : s.issue u sl f = s := by
  simp only [State.issue, h]

end Sys2Proof.Machine
end

