-- ==== Sys2Proof/Laws/Queue.lean ====
section
/-!
SUPPORT. No shared operation touches the queue of waiting commands: for every operation over State, one lemma that the
queue after it is the queue before it, so that no later proof unfolds an operation to see it.
-/

namespace Sys2Proof.Machine
open Sys2Proof

set_option Elab.async false

/-- What every step of a fold keeps, the fold keeps. -/
theorem foldl_keep {α β γ : Type} (π : α → γ) (f : α → β → α) (h : ∀ a b, π (f a b) = π a) (l : List β) (a : α) :
    π (l.foldl f a) = π a := by
  induction l generalizing a with
  | nil => rfl
  | cons b l ih => rw [List.foldl_cons, ih, h]

theorem foldl_pending {β : Type} (f : State → β → State) (h : ∀ a b, (f a b).pending = a.pending) (l : List β)
    (a : State) : (l.foldl f a).pending = a.pending := foldl_keep State.pending f h l a

theorem foldl_pending1 {β δ : Type} (f : State × δ → β → State × δ) (h : ∀ a b, (f a b).1.pending = a.1.pending)
    (l : List β) (a : State × δ) : (l.foldl f a).1.pending = a.1.pending := foldl_keep (fun a => a.1.pending) f h l a

theorem ite_pending {c : Prop} [Decidable c] (a b : State) :
    (if c then a else b).pending = if c then a.pending else b.pending := by
  split <;> rfl

theorem ite_pending1 {c : Prop} {α : Type} [Decidable c] (a b : State × α) :
    (if c then a else b).1.pending = if c then a.1.pending else b.1.pending := by
  split <;> rfl

/-! ### Ops -/

@[simp] theorem State.modReg_pending (s : State) (r : Reg) (f : Word → Word) :
    (State.modReg s r f).pending = s.pending := by rfl

@[simp] theorem State.wrFld_pending (s : State) (r : Reg) (hi : Nat) (lo : Nat) (v : Nat) :
    (State.wrFld s r hi lo v).pending = s.pending := by rfl

@[simp] theorem State.wrBit_pending (s : State) (r : Reg) (i : Nat) (b : Bool) :
    (State.wrBit s r i b).pending = s.pending := by rfl

@[simp] theorem State.count_pending (s : State) (r : Reg) (n : Nat) :
    (State.count s r n).pending = s.pending := by rfl

@[simp] theorem State.sendMsg_pending (s : State) (ports : List Port) (part : Part) (notBefore : Nat) (b : MsgBody) :
    (State.sendMsg s ports part notBefore b).pending = s.pending := by
  simp only [State.sendMsg]; exact foldl_pending _ (fun _ _ => by simp only [eq_self]) _ _

@[simp] theorem State.suspectOrd_pending (s : State) (p : Part) (ord : Nat) (d : Die) :
    (State.suspectOrd s p ord d).pending = s.pending := by rfl

@[simp] theorem State.suspect_pending (s : State) (p : Part) (d : Die) (ahead : Bool) :
    (State.suspect s p d ahead).pending = s.pending := by rfl

@[simp] theorem State.suspectDie_pending (s : State) (d : Die) (ahead : Bool) :
    (State.suspectDie s d ahead).pending = s.pending := by
  simp only [State.suspectDie]; split <;> rfl

@[simp] theorem State.record_pending (s : State) (f : FaultRec) :
    (State.record s f).pending = s.pending := by rfl

@[simp] theorem State.vector_pending (s : State) (v : Nat) :
    (State.vector s v).pending = s.pending := by rfl

@[simp] theorem State.setReplace_pending (s : State) (causes : Nat) :
    (State.setReplace s causes).pending = s.pending := by
  simp only [State.setReplace]
  (repeat' split) <;> first
    | rfl
    | (simp only [State.wr_pending, State.sendMsg_pending, foldl_pending, implies_true, eq_self]; done)
    | (apply foldl_pending; intros; (repeat' split) <;> simp only [State.wr_pending, State.sendMsg_pending,
        foldl_pending, foldl_pending1, ite_pending, ite_pending1, ite_self, implies_true, eq_self]; done)
    | (simp only [foldl_pending, *]; done)
    | (simp_all only [State.wr_pending, State.sendMsg_pending, foldl_pending, foldl_pending1, ite_pending,
        ite_pending1, ite_self, implies_true, eq_self]; done)

@[simp] theorem State.syncFence_pending (s : State) :
    (State.syncFence s).pending = s.pending := by
  simp only [State.syncFence, foldl_pending, ite_pending, State.wrFld_pending, State.wrBit_pending,
      State.setReplace_pending, ite_self, implies_true, eq_self]

@[simp] theorem State.resetUnit_pending (s : State) (p : PU) :
    (State.resetUnit s p).pending = s.pending := by rfl

@[simp] theorem State.loadBanks_pending (s : State) (l : LU) (p : PU) :
    (State.loadBanks s l p).pending = s.pending := by
  simp only [State.loadBanks]
  (repeat' split) <;> rfl

@[simp] theorem State.substitute_pending (s : State) (l : LU) :
    (State.substitute s l).1.pending = s.pending := by
  simp only [State.substitute]
  (repeat' split) <;> simp

@[simp] theorem State.applyFences_pending (s : State) (r : RegionId) (t : Nat) :
    (State.applyFences s r t).1.pending = s.pending := by
  have h1 : ∀ t : State, ((regionLus r).foldl (fun s l => s.wr (ureg .tuImpose l) 127) t).pending = t.pending :=
      fun t => foldl_pending _ (fun a b => State.wr_pending _ _ _) _ _
  have h2 : ∀ ready : List PendFence, ∀ t : State × List Raise,
      ((regionLus r).foldl (fun (acc : State × List Raise) l =>
      match acc.1.carrier l with
      | some p =>
        if ready.any (·.unit = p) then
          let (s, more) := acc.1.substitute l
          (s, acc.2 ++ more)
        else acc
      | none => acc) t).1.pending = t.1.pending := fun ready t => by
    refine foldl_pending1 _ (fun a b => ?_) _ _
    split
    · split
      · exact State.substitute_pending _ _
      · rfl
    · rfl
  unfold State.applyFences
  split
  · exact h1 s
  · extract_lets ready
    split
    · rfl
    · split
      rename_i heq
      have h := congrArg (fun z => z.1.pending) heq
      refine h.symm.trans ?_
      dsimp only
      refine foldl_pending1 _ (fun a b => ?_) _ _
      split
      · split
        · exact State.substitute_pending _ _
        · rfl
      · rfl

@[simp] theorem State.fenceSuspect_pending (s : State) (d : Die) (inBlock : PU → Bool) :
    (State.fenceSuspect s d inBlock).pending = s.pending := by
  simp only [State.fenceSuspect]
  (repeat' split) <;> rfl

@[simp] theorem State.fenceUnit_pending (s : State) (p : PU) :
    (State.fenceUnit s p).1.pending = s.pending := by
  simp only [State.fenceUnit]
  (repeat' split) <;> simp only [State.fenceSuspect_pending, State.resetUnit_pending, State.applyFences_pending,
      eq_self]

@[simp] theorem State.fenceRegion_pending (s : State) (r : RegionId) :
    (State.fenceRegion s r).1.pending = s.pending := by
  simp only [State.fenceRegion]
  (repeat' split) <;> simp only [State.fenceSuspect_pending, State.wrBit_pending, State.applyFences_pending, eq_self]

@[simp] theorem State.fenceDie_pending (s : State) (d : Die) :
    (State.fenceDie s d).1.pending = s.pending := by
  simp only [State.fenceDie, foldl_pending, foldl_pending1, ite_pending1, State.fenceSuspect_pending,
      State.wrBit_pending, State.applyFences_pending, ite_self, implies_true, eq_self]; done

@[simp] theorem State.fenceLd_pending (s : State) (k : LinkDie) :
    (State.fenceLd s k).pending = s.pending := by
  simp only [State.fenceLd]
  (repeat' split) <;> first
    | rfl
    | (simp only [State.suspect_pending, foldl_pending, implies_true, eq_self]; done)
    | (apply foldl_pending; intros; (repeat' split) <;> simp only [State.suspect_pending, foldl_pending,
        foldl_pending1, ite_pending, ite_pending1, ite_self, implies_true, eq_self]; done)
    | (simp only [foldl_pending, *]; done)
    | (simp_all only [State.suspect_pending, foldl_pending, foldl_pending1, ite_pending, ite_pending1, ite_self,
        implies_true, eq_self]; done)

@[simp] theorem State.react_pending (s : State) (r : Reg) (code : Nat) :
    (State.react s r code).1.pending = s.pending := by
  simp only [State.react]
  (repeat' split) <;> simp only [State.fenceLd_pending, State.fenceUnit_pending, State.fenceRegion_pending,
      State.fenceDie_pending, eq_self]

@[simp] theorem State.raiseAll_pending (n : Nat) (rs : List Raise) (s : State) :
    (State.raiseAll n rs s).pending = s.pending := by
  induction n generalizing rs s with
  | zero => rfl
  | succ n ih =>
    cases rs with
    | nil => rfl
    | cons r rest =>
      simp only [State.raiseAll]
      split
      · exact ih _ _
      · refine (ih _ _).trans ?_
        have hv : ∀ (t : State) (k : Nat), (t.react r.reg k).1.pending = t.pending :=
            fun t k => by simp only [State.react_pending, eq_self]
        (repeat' split) <;> simp only [State.wrBit_pending, State.record_pending, State.vector_pending,
            State.react_pending, State.syncFence_pending, eq_self]

@[simp] theorem State.raiseBit_pending (s : State) (r : Reg) (b : Nat) (suspect : Bool) (detail : Nat) :
    (State.raiseBit s r b suspect detail).pending = s.pending := by
  exact State.raiseAll_pending _ _ _

@[simp] theorem State.raiseSuspect_pending (s : State) (r : Reg) (b : Nat) (detail : Nat) :
    (State.raiseSuspect s r b detail).pending = s.pending := by
  simp only [State.raiseSuspect]
  (repeat' split) <;> simp only [State.raiseBit_pending, State.suspectDie_pending, eq_self]

@[simp] theorem State.fence_pending (s : State) (f : State → State × List Raise)
    (hf : ∀ x0, (f x0).1.pending = x0.pending) :
    (State.fence s f).pending = s.pending := by
  simp only [State.fence]
  split
  · exact hf s
  · rw [State.raiseAll_pending, State.syncFence_pending, hf]

@[simp] theorem State.settleRegion_pending (s : State) (r : RegionId) (t : Nat) :
    (State.settleRegion s r t).pending = s.pending := by
  simp only [State.settleRegion]; split <;> simp

@[simp] theorem State.settleFences_pending (s : State) (p : Part) (t : Nat) :
    (State.settleFences s p t).pending = s.pending := by
  simp only [State.settleFences]; exact foldl_pending _ (fun _ _ => by simp) _ _

@[simp] theorem State.withdraw_pending (s : State) (u : LU) (bundle : Nat) (verso : Bool) :
    (State.withdraw s u bundle verso).pending = s.pending := by
  simp only [State.withdraw]; split <;> rfl

/-! ### Replies -/

@[simp] theorem State.winWrite_pending (s : State) (a : Nat) (b : List Byte) :
    (State.winWrite s a b).pending = s.pending := by rfl

@[simp] theorem State.replyAt_pending (s : State) (q : Req) (handledAt : Nat) (status : Nat) (detail : Nat)
    (results : List Byte) :
    (State.replyAt s q handledAt status detail results).pending = s.pending := by
  simp only [State.replyAt]
  (repeat' split) <;> simp only [State.winWrite_pending, State.vector_pending, eq_self]

@[simp] theorem State.reply_pending (s : State) (q : Req) (status : Nat) (detail : Nat) (results : List Byte) :
    (State.reply s q status detail results).pending = s.pending := by
  simp only [State.reply]
  (repeat' split) <;> simp only [State.replyAt_pending, eq_self]

@[simp] theorem State.addJob_pending (s : State) (q : Req) (k : JobKind) :
    (State.addJob s q k).pending = s.pending := by rfl

@[simp] theorem State.endJobs_pending (s : State) (p : Job → Bool) (status : Nat) (detail : Nat)
    (results : List Byte) :
    (State.endJobs s p status detail results).pending = s.pending := by
  simp only [State.endJobs]; exact foldl_pending _ (fun _ _ => by simp only [State.replyAt_pending, eq_self]) _ _

@[simp] theorem State.syncGear_pending (s : State) (p : Part) :
    (State.syncGear s p).pending = s.pending := by
  simp only [State.syncGear]; split <;> rfl

@[simp] theorem State.clearPending_pending (s : State) :
    (State.clearPending s).pending = s.pending := by
  exact foldl_pending _ (fun s p => by (try dsimp only); split <;> simp only [State.syncGear_pending, State.wrFld_pending, State.wrBit_pending]) _ _

/-! ### Parts -/

@[simp] theorem State.setRail_pending (s : State) (r : RegionId) (g : Gear) :
    (State.setRail s r g).pending = s.pending := by rfl

@[simp] theorem State.proofOn_pending (s : State) (r : RegionId) :
    (State.proofOn s r).pending = s.pending := by rfl

@[simp] theorem State.proofOff_pending (s : State) (r : RegionId) :
    (State.proofOff s r).pending = s.pending := by
  simp only [State.proofOff]; split <;> rfl

@[simp] theorem State.endProof_pending (s : State) (p : Part) :
    (State.endProof s p).pending = s.pending := by
  simp only [State.endProof]; exact foldl_pending _ (fun _ _ => by simp) _ _

@[simp] theorem State.setArmed_pending (s : State) (p : Part) (b : Bool) :
    (State.setArmed s p b).pending = s.pending := by
  simp only [State.setArmed]; exact foldl_pending _ (fun _ _ => by simp only [State.wrBit_pending, eq_self]) _ _

@[simp] theorem State.endJob_pending (s : State) (p : Part) :
    (State.endJob s p).pending = s.pending := by rfl

@[simp] theorem State.switchPage_pending (s : State) (d : Die) :
    (State.switchPage s d).pending = s.pending := by
  simp only [State.switchPage]; split <;> simp only [State.modDie_pending, State.wrBit_pending, State.wrFld_pending,
      State.raiseBit_pending, State.endJobs_pending, eq_self]

@[simp] theorem State.switchWaiting_pending (s : State) (p : Part) :
    (State.switchWaiting s p).pending = s.pending := by
  simp only [State.switchWaiting]; exact foldl_pending _ (fun _ _ => by (try dsimp only); (repeat' split) <;> simp) _ _

@[simp] theorem State.dropProv_pending (s : State) (p : Part) :
    (State.dropProv s p).pending = s.pending := by
  simp only [State.dropProv]; exact foldl_pending _ (fun _ _ => by simp) _ _

@[simp] theorem State.unCommit_pending (s : State) (p : Part) :
    (State.unCommit s p).pending = s.pending := by
  simp only [State.unCommit]
  (repeat' split) <;> first
    | rfl
    | (simp; done)
    | (apply foldl_pending; intros; (repeat' split) <;> simp; done)
    | (simp only [foldl_pending, *]; done)
    | (simp_all; done)

@[simp] theorem State.haltPart_pending (s : State) (p : Part) :
    (State.haltPart s p).pending = s.pending := by
  simp only [State.haltPart]; split <;> simp

@[simp] theorem State.disarm_pending (s : State) (p : Part) (status : Nat) :
    (State.disarm s p status).pending = s.pending := by
  simp only [State.disarm]
  (repeat' split) <;> simp

/-! ### HallTime -/

@[simp] theorem State.setHtState_pending (s : State) (v : Nat) :
    (State.setHtState s v).pending = s.pending := by rfl

@[simp] theorem State.enterLocked_pending (s : State) (hop : Nat) :
    (State.enterLocked s hop).pending = s.pending := by rfl

@[simp] theorem State.enterHoldover_pending (s : State) :
    (State.enterHoldover s).pending = s.pending := by
  simp only [State.enterHoldover]
  (repeat' split) <;> simp only [State.setHtState_pending, State.modHt_pending, State.raiseBit_pending, eq_self]

@[simp] theorem State.enterLost_pending (s : State) :
    (State.enterLost s).pending = s.pending := by
  simp only [State.enterLost, foldl_pending, ite_pending, State.setHtState_pending, State.modHt_pending,
      State.raiseBit_pending, State.endJobs_pending, State.syncGear_pending, State.disarm_pending, ite_self,
      implies_true, eq_self]

@[simp] theorem State.epochFrame_pending (s : State) (f : List EpochPulse) :
    (State.epochFrame s f).pending = s.pending := by
  simp only [State.epochFrame]
  (repeat' split) <;> simp

@[simp] theorem State.referenceLoss_pending (s : State) (l : RefLoss) :
    (State.referenceLoss s l).pending = s.pending := by
  simp only [State.referenceLoss]
  (repeat' split) <;> simp only [State.enterHoldover_pending, State.modHt_pending, eq_self]

@[simp] theorem State.sourceReturn_pending (s : State) (inside : Bool) :
    (State.sourceReturn s inside).pending = s.pending := by
  simp only [State.sourceReturn]
  (repeat' split) <;> simp only [State.enterLost_pending, State.enterLocked_pending, State.modHt_pending, eq_self]

@[simp] theorem State.hallRefReturn_pending (s : State) (inside : Bool) :
    (State.hallRefReturn s inside).pending = s.pending := by
  simp only [State.hallRefReturn]; split <;> simp only [State.sourceReturn_pending, eq_self]

@[simp] theorem State.holdoverTimeout_pending (s : State) :
    (State.holdoverTimeout s).pending = s.pending := by
  simp only [State.holdoverTimeout]; split <;> simp only [State.enterLost_pending, eq_self]

@[simp] theorem State.lostToAcquire_pending (s : State) :
    (State.lostToAcquire s).pending = s.pending := by
  simp only [State.lostToAcquire]; split <;> rfl

@[simp] theorem State.recordMissing_pending (s : State) :
    (State.recordMissing s).pending = s.pending := by
  simp only [State.recordMissing]
  (repeat' split) <;> simp only [State.enterHoldover_pending, State.modHt_pending, eq_self]

@[simp] theorem State.lockedRecord_pending (s : State) (off : Int) :
    (State.lockedRecord s off).pending = s.pending := by
  simp only [State.lockedRecord]
  (repeat' split) <;> simp

@[simp] theorem State.port0Record_pending (s : State) (r : TimeRecord) (f : Nat) :
    (State.port0Record s r f).pending = s.pending := by
  simp only [State.port0Record, ite_pending, State.recordMissing_pending, State.wrFld_pending, State.modHt_pending,
      State.raiseBit_pending, State.enterLocked_pending, State.lockedRecord_pending, State.sourceReturn_pending,
      ite_self, eq_self]

@[simp] theorem State.storeReg_pending (s : State) (r : Reg) (v : Word) :
    (State.storeReg s r v).pending = s.pending := by rfl

@[simp] theorem State.setLoWrite_pending (s : State) (v : Word) :
    (State.setLoWrite s v).pending = s.pending := by
  simp only [State.setLoWrite]; split <;> simp only [State.storeReg_pending, State.raiseBit_pending,
      State.modHt_pending, eq_self]

@[simp] theorem State.htConfigWrite_pending (s : State) (v : Word) :
    (State.htConfigWrite s v).pending = s.pending := by
  simp only [State.htConfigWrite]; split <;> simp only [State.raiseBit_pending, State.storeReg_pending, eq_self]

@[simp] theorem State.nodeIdWrite_pending (s : State) (v : Word) :
    (State.nodeIdWrite s v).pending = s.pending := by
  simp only [State.nodeIdWrite]; split <;> rfl

@[simp] theorem State.tickHall_pending (s : State) :
    (State.tickHall s).pending = s.pending := by
  simp only [State.tickHall]
  (repeat' split) <;> simp

@[simp] theorem State.startHall_pending (s : State) :
    (State.startHall s).pending = s.pending := by
  simp only [State.startHall]; split <;> simp only [State.wrFld_pending, State.setHtState_pending,
      State.raiseBit_pending, eq_self]

/-! ### Power -/

@[simp] theorem State.syncDomains_pending (s : State) (d : Die) :
    (State.syncDomains s d).pending = s.pending := by
  simp only [State.syncDomains]
  (repeat' split) <;> first
    | rfl
    | (simp only [State.wrBit_pending, State.modRegion_pending, foldl_pending, ite_pending, ite_self, implies_true,
        eq_self]; done)
    | (apply foldl_pending; intros; (repeat' split) <;> simp only [State.wrBit_pending, State.modRegion_pending,
        foldl_pending, foldl_pending1, ite_pending, ite_pending1, ite_self, implies_true, eq_self]; done)
    | (simp only [foldl_pending, *]; done)
    | (simp_all only [State.wrBit_pending, State.modRegion_pending, foldl_pending, foldl_pending1, ite_pending,
        ite_pending1, ite_self, implies_true, eq_self]; done)

@[simp] theorem State.syncRegionGear_pending (s : State) (d : Die) :
    (State.syncRegionGear s d).pending = s.pending := by
  refine foldl_pending _ (fun s a => ?_) _ _; (try dsimp only); split <;> simp

@[simp] theorem State.regionOn_pending (s : State) (r : RegionId) :
    (State.regionOn s r).pending = s.pending := by
  simp only [State.regionOn]; split <;> rfl

@[simp] theorem State.domainsDue_pending (s : State) :
    (State.domainsDue s).pending = s.pending := by
  simp only [State.domainsDue]; exact foldl_pending _ (fun _ _ => by (try dsimp only); (repeat' split) <;> simp) _ _

@[simp] theorem State.vtabWrite_pending (s : State) (r : RegionId) (g : Gear) (v : Word) :
    (State.vtabWrite s r g v).pending = s.pending := by
  simp only [State.vtabWrite]; split <;> simp only [State.raiseBit_pending, State.modRegion_pending, eq_self]

@[simp] theorem State.vtabBoundary_pending (s : State) (r : RegionId) :
    (State.vtabBoundary s r).pending = s.pending := by
  simp only [State.vtabBoundary]
  (repeat' split) <;> first
    | rfl
    | (simp only [State.storeReg_pending, State.modRegion_pending, foldl_pending, implies_true, eq_self]; done)
    | (apply foldl_pending; intros; (repeat' split) <;> simp only [State.storeReg_pending, State.modRegion_pending,
        foldl_pending, foldl_pending1, ite_pending, ite_pending1, ite_self, implies_true, eq_self]; done)
    | (simp only [foldl_pending, *]; done)
    | (simp_all only [State.storeReg_pending, State.modRegion_pending, foldl_pending, foldl_pending1, ite_pending,
        ite_pending1, ite_self, implies_true, eq_self]; done)

@[simp] theorem State.setRails_pending (s : State) (p : Part) (g : Gear) :
    (State.setRails s p g).pending = s.pending := by
  simp only [State.setRails]; exact foldl_pending _ (fun _ _ => by (try dsimp only); (repeat' split) <;> simp) _ _

@[simp] theorem State.voltageRise_pending (s : State) (p : Part) :
    (State.voltageRise s p).pending = s.pending := by
  simp only [State.voltageRise]
  (repeat' split) <;> simp

@[simp] theorem State.deferGear_pending (s : State) (p : Part) (t : Nat) (g : Gear) :
    (State.deferGear s p t g).pending = s.pending := by rfl

@[simp] theorem State.gearSwitch_pending (s : State) (p : Part) :
    (State.gearSwitch s p).pending = s.pending := by
  simp only [State.gearSwitch]
  (repeat' split) <;> simp [foldl_pending]

@[simp] theorem State.voltageFall_pending (s : State) (p : Part) :
    (State.voltageFall s p).pending = s.pending := by
  simp only [State.voltageFall]; split <;> simp

@[simp] theorem State.droopStart_pending (s : State) (r : RegionId) :
    (State.droopStart s r).pending = s.pending := by
  simp only [State.droopStart]
  (repeat' split) <;> simp

@[simp] theorem State.droopTrip_pending (s : State) (r : RegionId) (after : Fin 3) :
    (State.droopTrip s r after).pending = s.pending := by
  simp only [State.droopTrip]
  (repeat' split) <;> simp

@[simp] theorem State.droopRelease_pending (s : State) (r : RegionId) :
    (State.droopRelease s r).pending = s.pending := by rfl

@[simp] theorem State.elecCaps_pending (s : State) :
    (State.elecCaps s).pending = s.pending := by
  simp only [State.elecCaps, foldl_pending, ite_pending, State.wrFld_pending, State.raiseBit_pending,
      State.wrBit_pending, ite_self, implies_true, eq_self]

@[simp] theorem State.capRegion_pending (s : State) (r : RegionId) :
    (State.capRegion s r).pending = s.pending := by
  simp only [State.capRegion]
  (repeat' split) <;> simp only [State.raiseBit_pending, State.wrFld_pending, State.modRegion_pending, eq_self]

@[simp] theorem State.capInForce_pending (s : State) (p : Part) (lead : Nat) :
    (State.capInForce s p lead).pending = s.pending := by
  simp only [State.capInForce]
  (repeat' split) <;> simp only [State.wrFld_pending, State.wrBit_pending, State.endJobs_pending, eq_self]

@[simp] theorem State.capBoundary_pending (s : State) :
    (State.capBoundary s).pending = s.pending := by
  simp only [State.capBoundary, foldl_pending, State.modRegion_pending, State.elecCaps_pending,
      State.capRegion_pending, implies_true, eq_self]

@[simp] theorem State.dieTemp_pending (s : State) (d : Die) (readings : List (Option Nat)) :
    (State.dieTemp s d readings).pending = s.pending := by
  simp only [State.dieTemp]
  have hf : ∀ (t : State), (t.fence (·.fenceDie d)).pending = t.pending :=
      fun t => State.fence_pending _ _ fun x => by simp only [State.fenceDie_pending, eq_self]
  (repeat' split) <;> simp only [hf, State.raiseBit_pending, State.wrFld_pending, State.raiseAll_pending, eq_self]

@[simp] theorem State.linkOvertemp_pending (s : State) (k : LinkDie) :
    (State.linkOvertemp s k).pending = s.pending := by
  simp only [State.linkOvertemp]
  (repeat' split) <;> simp only [State.fenceLd_pending, State.syncFence_pending, eq_self]

@[simp] theorem State.energyPeriod_pending (s : State) (dom : List Nat) (input : Nat) :
    (State.energyPeriod s dom input).pending = s.pending := by
  simp only [State.energyPeriod]; split <;> rfl

@[simp] theorem State.powerOff_pending (s : State) :
    (State.powerOff s).pending = s.pending := by rfl

@[simp] theorem State.dropJobs_pending (s : State) :
    (State.dropJobs s).pending = s.pending := by
  simp only [State.dropJobs]
  (repeat' split) <;> simp

@[simp] theorem State.latch_pending (s : State) (b : Nat) (atOnce : Bool) :
    (State.latch s b atOnce).pending = s.pending := by
  simp only [State.latch]
  (repeat' split) <;> simp [foldl_pending, ite_pending]

@[simp] theorem State.latchPowerOff_pending (s : State) :
    (State.latchPowerOff s).pending = s.pending := by
  simp only [State.latchPowerOff]
  (repeat' split) <;> rfl

@[simp] theorem State.brownOut_pending (s : State) :
    (State.brownOut s).pending = s.pending := by
  simp only [State.brownOut, foldl_pending, ite_pending, State.haltPart_pending, State.dropJobs_pending,
      State.powerOff_pending, ite_self, implies_true, eq_self]

@[simp] theorem State.inputBand_pending (s : State) :
    (State.inputBand s).pending = s.pending := by
  simp only [State.inputBand]
  (repeat' split) <;> simp

@[simp] theorem State.inputLevel_pending (s : State) (v : Nat) :
    (State.inputLevel s v).pending = s.pending := by
  simp only [State.inputLevel]
  (repeat' split) <;> simp

/-! ### Memories -/

@[simp] theorem State.chargeAccess_pending (s : State) (i : Issuer) (ahead : Bool) :
    (State.chargeAccess s i ahead).pending = s.pending := by
  simp only [State.chargeAccess]; split <;> simp only [State.suspectDie_pending, eq_self]

@[simp] theorem State.refuse_pending (s : State) (d : Die) (a : Nat) (i : Issuer) :
    (State.refuse s d a i).pending = s.pending := by
  simp only [State.refuse]; split <;> simp

@[simp] theorem State.uncorrectable_pending (s : State) (d : Die) (a : Nat) (source : Nat) (b : Nat)
    (suspect : Bool) :
    (State.uncorrectable s d a source b suspect).pending = s.pending := by
  simp only [State.uncorrectable]; split <;> simp only [State.count_pending, State.wrFld_pending,
      State.modReg_pending, State.raiseBit_pending, eq_self]

@[simp] theorem State.notePair_pending (s : State) (d : Die) (pair : Bool) :
    (State.notePair s d pair).pending = s.pending := by
  simp only [State.notePair]
  (repeat' split) <;> simp

@[simp] theorem State.pageRange_pending (s : State) (d : Die) (i : Issuer) :
    (State.pageRange s d i).pending = s.pending := by
  simp only [State.pageRange]
  (repeat' split) <;> simp only [State.raiseBit_pending, State.chargeAccess_pending, eq_self]

@[simp] theorem State.hbmRead_pending (s : State) (d : Die) (off : Nat) (i : Issuer) (upset : Nat) (own : Bool) :
    (State.hbmRead s d off i upset own).1.pending = s.pending := by
  simp only [State.hbmRead]
  (repeat' split) <;> simp

@[simp] theorem State.hbmStore_pending (s : State) (d : Die) (a : Nat) (b : List Byte) :
    (State.hbmStore s d a b).pending = s.pending := by rfl

@[simp] theorem State.hbmWrite_pending (s : State) (d : Die) (off : Nat) (i : Issuer) (b : List Byte) (own : Bool) :
    (State.hbmWrite s d off i b own).1.pending = s.pending := by
  simp only [State.hbmWrite]
  (repeat' split) <;> simp

@[simp] theorem State.claimBank_pending (s : State) (d : Die) (l : Nat) (c : Source) :
    (State.claimBank s d l c).1.pending = s.pending := by
  simp only [State.claimBank]; split <;> simp

@[simp] theorem State.cacheServe_pending (s : State) (d : Die) (l : Nat) (c : Source) (upset : Nat) :
    (State.cacheServe s d l c upset).1.pending = s.pending := by
  simp only [State.cacheServe]
  (repeat' split) <;> simp

@[simp] theorem State.cacheLine_pending (s : State) (d : Die) (off : Nat) (i : Issuer) (c : Source) (upset : Nat) :
    (State.cacheLine s d off i c upset).1.pending = s.pending := by
  simp only [State.cacheLine]
  (repeat' split) <;> simp

@[simp] theorem State.cacheRead_pending (s : State) (d : Die) (off : Nat) (i : Issuer) (upset : Nat) :
    (State.cacheRead s d off i upset).1.pending = s.pending := by
  simp only [State.cacheRead]
  (repeat' split) <;> simp

@[simp] theorem State.cachePut_pending (s : State) (d : Die) (off : Nat) (i : Issuer) (c : Source) (b : List Byte) :
    (State.cachePut s d off i c b).1.pending = s.pending := by
  simp only [State.cachePut]
  (repeat' split) <;> simp

@[simp] theorem State.cacheWrite_pending (s : State) (d : Die) (off : Nat) (i : Issuer) (b : List Byte) :
    (State.cacheWrite s d off i b).1.pending = s.pending := by
  simp only [State.cacheWrite]
  (repeat' split) <;> simp

@[simp] theorem State.engineRead_pending (s : State) (d : Die) (hbm : Bool) (off : Nat) (n : Nat) (i : Issuer)
    (c : Source) (own : Bool) :
    (State.engineRead s d hbm off n i c own).1.pending = s.pending := by
  refine foldl_pending1 _ (fun a b => ?_) _ _
  cases hbm <;> simp only [Bool.false_eq_true, if_false, if_true, State.hbmRead_pending, State.cacheLine_pending]

@[simp] theorem State.engineWrite_pending (s : State) (d : Die) (hbm : Bool) (off : Nat) (i : Issuer) (c : Source)
    (b : List Byte) (own : Bool) :
    (State.engineWrite s d hbm off i c b own).pending = s.pending := by
  refine foldl_pending _ (fun t x => ?_) _ _
  have h := State.hbmRead_pending t d (x.1 / 64 * 64) i 0 own
  (try dsimp only)
  (repeat' split) <;> first
    | (simp only [State.cachePut_pending, State.hbmWrite_pending, eq_self]; done)
    | (rename_i e; rw [e] at h; simp only [State.hbmWrite_pending]; exact h)
    | (rename_i e; rw [e] at h; exact h)

@[simp] theorem State.setBand_pending (s : State) (d : Die) (b : Nat) :
    (State.setBand s d b).pending = s.pending := by
  simp only [State.setBand]
  (repeat' split) <;> simp only [State.wrFld_pending, State.raiseBit_pending, eq_self]

@[simp] theorem State.hbmTemp_pending (s : State) (d : Die) (reading : Option Nat) :
    (State.hbmTemp s d reading).pending = s.pending := by
  simp only [State.hbmTemp]
  (repeat' split) <;> simp only [State.wrFld_pending, State.wrBit_pending, State.setBand_pending,
      State.modDie_pending, eq_self]

@[simp] theorem State.bandExit_pending (s : State) (d : Die) :
    (State.bandExit s d).pending = s.pending := by
  simp only [State.bandExit]; split <;> simp only [State.modDie_pending, State.setBand_pending, eq_self]

@[simp] theorem State.patrolScrub_pending (s : State) (d : Die) (upset : Nat) :
    (State.patrolScrub s d upset).pending = s.pending := by
  simp only [State.patrolScrub]
  (repeat' split) <;> simp only [State.count_pending, State.raiseBit_pending, State.modDie_pending,
      State.uncorrectable_pending, State.wrFld_pending, eq_self]

@[simp] theorem State.calibrate_pending (s : State) (d : Die) (fails : Bool) :
    (State.calibrate s d fails).pending = s.pending := by
  simp only [State.calibrate]
  (repeat' split) <;> simp

@[simp] theorem State.refreshStep_pending (s : State) :
    (State.refreshStep s).pending = s.pending := by
  simp only [State.refreshStep]
  split
  · rfl
  · exact foldl_pending _ (fun s d => by (try dsimp only); split <;> simp only [State.modDie_pending, eq_self]) _ _

@[simp] theorem State.startCopy_pending (s : State) (d : Die) (page : Nat) :
    (State.startCopy s d page).pending = s.pending := by
  simp only [State.startCopy]; split <;> rfl

@[simp] theorem State.copyAccess_pending (s : State) (d : Die) (upset : Nat) :
    (State.copyAccess s d upset).pending = s.pending := by
  simp only [State.copyAccess]
  (repeat' split) <;> simp only [State.modDie_pending, State.count_pending, State.raiseBit_pending,
      State.uncorrectable_pending, eq_self]

@[simp] theorem State.copyDone_pending (s : State) (d : Die) :
    (State.copyDone s d).pending = s.pending := by
  simp only [State.copyDone]
  (repeat' split) <;> simp only [State.modDie_pending, State.switchPage_pending, eq_self]

@[simp] theorem State.tgStart_pending (s : State) (d : Die) (c : Fin 32) (v : Word) :
    (State.tgStart s d c v).pending = s.pending := by
  simp only [State.tgStart]
  (repeat' split) <;> simp only [State.storeReg_pending, State.raiseBit_pending, State.wrBit_pending,
      State.wr_pending, State.modReg_pending, eq_self]

@[simp] theorem State.tgAccess_pending (s : State) (d : Die) (c : Fin 32) (k : Nat) :
    (State.tgAccess s d c k).pending = s.pending := by
  simp only [State.tgAccess, ite_pending, State.modDie_pending, State.count_pending, State.raiseBit_pending,
      State.uncorrectable_pending, State.wrFld_pending, State.wrBit_pending, ite_self, eq_self]

@[simp] theorem State.tgPass_pending (s : State) (d : Die) (c : Fin 32) (n : Nat) :
    (State.tgPass s d c n).pending = s.pending := by
  simp only [State.tgPass]; exact foldl_pending _ (fun _ _ => by simp only [State.tgAccess_pending, eq_self]) _ _

@[simp] theorem State.tgEnd_pending (s : State) (d : Die) (c : Fin 32) :
    (State.tgEnd s d c).pending = s.pending := by
  simp only [State.tgEnd]
  (repeat' split) <;> simp only [State.wrBit_pending, State.raiseBit_pending, State.endJobs_pending, eq_self]

@[simp] theorem State.tgDone_pending (s : State) (d : Die) (c : Fin 32) :
    (State.tgDone s d c).pending = s.pending := by
  simp only [State.tgDone]
  (repeat' split) <;> simp only [State.tgPass_pending, State.count_pending, State.tgEnd_pending, eq_self]

@[simp] theorem State.tgStop_pending (s : State) (d : Die) (c : Fin 32) (n : Nat) :
    (State.tgStop s d c n).pending = s.pending := by
  simp only [State.tgStop]; split <;> simp only [State.tgPass_pending, State.tgEnd_pending, eq_self]

@[simp] theorem State.hbmAccess_pending (s : State) (d : Die) (i : Issuer) (off : Nat) (data : Option (List Byte))
    (upset : Nat) :
    (State.hbmAccess s d i off data upset).pending = s.pending := by
  simp only [State.hbmAccess]
  (repeat' split) <;> simp only [State.deliver, State.hbmWrite_pending, State.hbmRead_pending, State.modDie_pending,
      eq_self]

@[simp] theorem State.cacheAccess_pending (s : State) (d : Die) (i : Issuer) (off : Nat) (data : Option (List Byte))
    (upset : Nat) :
    (State.cacheAccess s d i off data upset).pending = s.pending := by
  simp only [State.cacheAccess]
  (repeat' split) <;> simp only [State.deliver, State.cacheWrite_pending, State.cacheRead_pending,
      State.modDie_pending, eq_self]

/-! ### Flags -/

@[simp] theorem State.tuFlag_pending (s : State) (u : LU) (b : Nat) :
    (State.tuFlag s u b).pending = s.pending := by
  simp only [State.tuFlag]
  (repeat' split) <;> simp only [State.raiseBit_pending, eq_self]

@[simp] theorem State.tuSuspect_pending (s : State) (u : LU) (b : Nat) :
    (State.tuSuspect s u b).pending = s.pending := by
  simp only [State.tuSuspect]; split <;> simp

@[simp] theorem State.accFlag_pending (s : State) (u : LU) (b : Nat) :
    (State.accFlag s u b).pending = s.pending := by
  simp only [State.accFlag]
  (repeat' split) <;> simp only [State.raiseBit_pending, eq_self]

@[simp] theorem State.tuFlagIf_pending (s : State) (u : LU) (b : Nat) (c : Bool) :
    (State.tuFlagIf s u b c).pending = s.pending := by
  simp only [State.tuFlagIf]; split <;> simp only [State.tuFlag_pending, eq_self]

@[simp] theorem State.accFlagIf_pending (s : State) (u : LU) (b : Nat) (c : Bool) :
    (State.accFlagIf s u b c).pending = s.pending := by
  simp only [State.accFlagIf]; split <;> simp only [State.accFlag_pending, eq_self]

@[simp] theorem State.accFlags_pending (s : State) (u : LU) (f : AccFlags) :
    (State.accFlags s u f).pending = s.pending := by
  simp only [State.accFlags]
  (repeat' split) <;> simp only [State.accFlagIf_pending, eq_self]

/-! ### UnitCtl -/

@[simp] theorem State.issue_pending (s : State) (u : LU) (sl : Slot) (f : State → PU → UnitS → State)
    (hf : ∀ x0 x1 x2, (f x0 x1 x2).pending = x0.pending) :
    (State.issue s u sl f).pending = s.pending := by
  simp only [State.issue]
  (repeat' split) <;> simp_all only [State.setUnit_pending, eq_self]

@[simp] theorem State.aOp_pending (s : State) (u : LU) (d : Fin 16) (f : UnitS → Word) :
    (State.aOp s u d f).pending = s.pending := by
  simp only [State.aOp]; split <;> simp only [State.issue_pending, State.setUnit_pending, implies_true, eq_self]

@[simp] theorem State.badSlot_pending (s : State) (u : LU) (sl : Slot) :
    (State.badSlot s u sl).pending = s.pending := by
  simp only [State.badSlot]
  (repeat' split) <;> simp only [State.issue_pending, State.tuFlag_pending, implies_true, eq_self]

@[simp] theorem State.a_add_pending (s : State) (u : LU) (d : Fin 16) (a : Fin 16) (b : Fin 16) :
    (State.a_add s u d a b).pending = s.pending := by
  simp only [State.a_add]
  (repeat' split) <;> simp only [State.aOp_pending, eq_self]

@[simp] theorem State.a_sub_pending (s : State) (u : LU) (d : Fin 16) (a : Fin 16) (b : Fin 16) :
    (State.a_sub s u d a b).pending = s.pending := by
  simp only [State.a_sub]
  (repeat' split) <;> simp only [State.aOp_pending, eq_self]

@[simp] theorem State.a_and_pending (s : State) (u : LU) (d : Fin 16) (a : Fin 16) (b : Fin 16) :
    (State.a_and s u d a b).pending = s.pending := by
  simp only [State.a_and]
  (repeat' split) <;> simp only [State.aOp_pending, eq_self]

@[simp] theorem State.a_shl_pending (s : State) (u : LU) (d : Fin 16) (a : Fin 16) (b : Fin 16) :
    (State.a_shl s u d a b).pending = s.pending := by
  simp only [State.a_shl]
  (repeat' split) <;> simp only [State.aOp_pending, eq_self]

@[simp] theorem State.a_shr_pending (s : State) (u : LU) (d : Fin 16) (a : Fin 16) (b : Fin 16) :
    (State.a_shr s u d a b).pending = s.pending := by
  simp only [State.a_shr]
  (repeat' split) <;> simp only [State.aOp_pending, eq_self]

@[simp] theorem State.a_addi_pending (s : State) (u : LU) (d : Fin 16) (a : Fin 16) (imm : Half) :
    (State.a_addi s u d a imm).pending = s.pending := by
  simp only [State.a_addi]
  (repeat' split) <;> simp only [State.aOp_pending, eq_self]

@[simp] theorem State.a_andi_pending (s : State) (u : LU) (d : Fin 16) (a : Fin 16) (imm : Half) :
    (State.a_andi s u d a imm).pending = s.pending := by
  simp only [State.a_andi]
  (repeat' split) <;> simp only [State.aOp_pending, eq_self]

@[simp] theorem State.a_shli_pending (s : State) (u : LU) (d : Fin 16) (a : Fin 16) (imm : Half) :
    (State.a_shli s u d a imm).pending = s.pending := by
  simp only [State.a_shli]; split <;> simp

@[simp] theorem State.a_shri_pending (s : State) (u : LU) (d : Fin 16) (a : Fin 16) (imm : Half) :
    (State.a_shri s u d a imm).pending = s.pending := by
  simp only [State.a_shri]; split <;> simp

@[simp] theorem State.lOp_pending (s : State) (u : LU) (f : Ctl → UnitS → Ctl) :
    (State.lOp s u f).pending = s.pending := by
  simp only [State.lOp]
  (repeat' split) <;> simp only [State.issue_pending, State.setUnit_pending, implies_true, eq_self]

@[simp] theorem State.loopOp_pending (s : State) (u : LU) (body : Nat) (creg : Fin 16) :
    (State.loopOp s u body creg).pending = s.pending := by
  simp only [State.loopOp, ite_pending, State.issue_pending, State.tuFlag_pending, State.setUnit_pending, ite_self,
      implies_true, eq_self]

@[simp] theorem State.waitOp_pending (s : State) (u : LU) (t : Nat) :
    (State.waitOp s u t).pending = s.pending := by
  simp only [State.waitOp]; split <;> simp only [State.lOp_pending, eq_self]

@[simp] theorem State.waitExpiry_pending (s : State) (u : LU) :
    (State.waitExpiry s u).pending = s.pending := by
  simp only [State.waitExpiry]
  (repeat' split) <;> rfl

@[simp] theorem State.idleOp_pending (s : State) (u : LU) (n : Nat) :
    (State.idleOp s u n).pending = s.pending := by
  simp only [State.idleOp]; split <;> simp only [State.issue_pending, State.tuFlag_pending, State.setUnit_pending,
      implies_true, eq_self]

@[simp] theorem State.idleExpiry_pending (s : State) (u : LU) :
    (State.idleExpiry s u).pending = s.pending := by
  simp only [State.idleExpiry]
  (repeat' split) <;> rfl

@[simp] theorem State.armOp_pending (s : State) (u : LU) :
    (State.armOp s u).pending = s.pending := by
  simp only [State.armOp]
  (repeat' split) <;> simp only [State.lOp_pending, eq_self]

@[simp] theorem State.entryOp_pending (s : State) (u : LU) (a : Nat) :
    (State.entryOp s u a).pending = s.pending := by
  simp only [State.entryOp]
  (repeat' split) <;> simp only [State.lOp_pending, eq_self]

@[simp] theorem State.haltOp_pending (s : State) (u : LU) :
    (State.haltOp s u).pending = s.pending := by
  simp only [State.haltOp]
  (repeat' split) <;> simp only [State.lOp_pending, eq_self]

@[simp] theorem State.skipOp_pending (s : State) (u : LU) (flag : Nat) (sense : Bool) (n : Nat) :
    (State.skipOp s u flag sense n).pending = s.pending := by
  simp only [State.skipOp, ite_pending, State.issue_pending, State.tuFlag_pending, State.setUnit_pending, ite_self,
      implies_true, eq_self]

@[simp] theorem State.noteLag_pending (s : State) (r : RegionId) :
    (State.noteLag s r).pending = s.pending := by rfl

@[simp] theorem State.bundleEnd_pending (s : State) (u : LU) (p : PU) :
    (State.bundleEnd s u p).pending = s.pending := by
  simp only [State.bundleEnd]
  (repeat' split) <;> simp only [State.setUnit_pending, State.noteLag_pending, State.tuFlagIf_pending, eq_self]

/-! ### Matrix -/

@[simp] theorem State.releaseProof_pending (s : State) (u : LU) (g : Fin 4) :
    (State.releaseProof s u g).pending = s.pending := by rfl

@[simp] theorem State.mma_pending (s : State) (u : LU) (o : MmaOp) :
    (State.mma s u o).pending = s.pending := by
  simp only [State.mma, ite_pending, State.issue_pending, State.tuFlag_pending, State.setUnit_pending,
      State.tuFlagIf_pending, State.accFlagIf_pending, ite_self, implies_true, eq_self]

@[simp] theorem State.bindProof_pending (s : State) (u : LU) (g : Fin 4) (want : Bool) :
    (State.bindProof s u g want).1.pending = s.pending := by
  simp only [State.bindProof]
  (repeat' split) <;> first
    | rfl
    | (simp only [State.accFlag_pending, State.raiseBit_pending, eq_self]; done)
    | (apply foldl_pending; intros; (repeat' split) <;> simp only [State.modCluster_pending, State.accFlag_pending,
        State.raiseBit_pending, foldl_pending, foldl_pending1, ite_pending, ite_pending1, ite_self, implies_true,
        eq_self]; done)
    | (simp only [foldl_pending, *]; done)
    | (simp_all only [State.modCluster_pending, State.accFlag_pending, State.raiseBit_pending, foldl_pending,
        foldl_pending1, ite_pending, ite_pending1, ite_self, implies_true, eq_self]; done)

@[simp] theorem State.grpOpen_pending (s : State) (u : LU) (o : OpenOp) :
    (State.grpOpen s u o).pending = s.pending := by
  simp only [State.grpOpen, ite_pending, State.issue_pending, State.tuFlag_pending, State.accFlagIf_pending,
      State.releaseProof_pending, State.bindProof_pending, State.setUnit_pending, ite_self,
      implies_true, eq_self]

@[simp] theorem State.grpClose_pending (s : State) (u : LU) (g : Fin 4) :
    (State.grpClose s u g).pending = s.pending := by
  simp only [State.grpClose, ite_pending, State.issue_pending, State.setUnit_pending, ite_self, implies_true, eq_self]

@[simp] theorem State.groupEnd_pending (s : State) (u : LU) (p : PU) (c : Nat) :
    (State.groupEnd s u p c).pending = s.pending := by
  simp only [State.groupEnd]
  (repeat' split) <;> rfl

@[simp] theorem State.crossedRun_pending (s : State) (u : LU) (p : PU) (g : Fin 4) :
    (State.crossedRun s u p g).pending = s.pending := by rfl

@[simp] theorem State.liveRun_pending (s : State) (u : LU) (p : PU) (f : Flight) (m : MmaFlight)
    (ups : List (Nat × Word)) :
    (State.liveRun s u p f m ups).pending = s.pending := by
  simp only [State.liveRun]; split <;> simp

@[simp] theorem State.runPromotion_pending (s : State) (u : LU) (ups : List (Nat × Word)) :
    (State.runPromotion s u ups).pending = s.pending := by
  simp only [State.runPromotion]
  (repeat' split) <;> simp

@[simp] theorem State.mismatch_pending (s : State) (u : LU) (g : Fin 4) (row : Option Nat) (col : Option Nat)
    (bundle : Nat) (verso : Bool) :
    (State.mismatch s u g row col bundle verso).pending = s.pending := by
  simp only [State.mismatch]
  (repeat' split) <;> simp only [State.wrBit_pending, State.wrFld_pending, State.raiseBit_pending,
      State.raiseSuspect_pending, eq_self]

@[simp] theorem State.replayCompared_pending (s : State) (p : PU) (bad : Bool) :
    (State.replayCompared s p bad).pending = s.pending := by
  simp only [State.replayCompared]
  (repeat' split) <;> simp only [State.raiseSuspect_pending, State.withdraw_pending, eq_self]

@[simp] theorem State.checksumComparison_pending (s : State) (u : LU) :
    (State.checksumComparison s u).pending = s.pending := by
  simp only [State.checksumComparison]
  (repeat' split) <;> simp only [State.setUnit_pending, State.raiseBit_pending, State.replayCompared_pending,
      State.mismatch_pending, State.wrBit_pending, eq_self]

@[simp] theorem State.proofResult_pending (s : State) (u : LU) :
    (State.proofResult s u).pending = s.pending := by
  simp only [State.proofResult]
  (repeat' split) <;> rfl

/-! ### Writer -/

@[simp] theorem State.wWrite_pending (s : State) (u : LU) (o : WriteOp) :
    (State.wWrite s u o).pending = s.pending := by
  simp only [State.wWrite, ite_pending, State.issue_pending, State.badSlot_pending, State.tuFlag_pending,
      State.setUnit_pending,
      State.tuFlagIf_pending, State.accFlagIf_pending, ite_self, implies_true, eq_self]

@[simp] theorem State.wWriteComplete_pending (s : State) (u : LU) :
    (State.wWriteComplete s u).pending = s.pending := by
  simp only [State.wWriteComplete]
  (repeat' split) <;> rfl

/-! ### Vector -/

@[simp] theorem State.vOp_pending (s : State) (u : LU) (vd : Fin 16) (lat : Nat) (f : UnitS → List Word) :
    (State.vOp s u vd lat f).pending = s.pending := by
  simp only [State.vOp]
  (repeat' split) <;> simp only [State.issue_pending, State.setUnit_pending, implies_true, eq_self]

@[simp] theorem State.vAdd_pending (s : State) (u : LU) (vd : Fin 16) (va : Fin 16) (vb : Fin 16) :
    (State.vAdd s u vd va vb).pending = s.pending := by
  simp only [State.vAdd]
  (repeat' split) <;> simp only [State.vOp_pending, eq_self]

@[simp] theorem State.vSub_pending (s : State) (u : LU) (vd : Fin 16) (va : Fin 16) (vb : Fin 16) :
    (State.vSub s u vd va vb).pending = s.pending := by
  simp only [State.vSub]
  (repeat' split) <;> simp only [State.vOp_pending, eq_self]

@[simp] theorem State.vMul_pending (s : State) (u : LU) (vd : Fin 16) (va : Fin 16) (vb : Fin 16) :
    (State.vMul s u vd va vb).pending = s.pending := by
  simp only [State.vMul]
  (repeat' split) <;> simp only [State.vOp_pending, eq_self]

@[simp] theorem State.vFma_pending (s : State) (u : LU) (vd : Fin 16) (va : Fin 16) (vb : Fin 16) (vc : Fin 16) :
    (State.vFma s u vd va vb vc).pending = s.pending := by
  simp only [State.vFma]
  (repeat' split) <;> simp only [State.vOp_pending, eq_self]

@[simp] theorem State.vRcpOp_pending (s : State) (u : LU) (vd : Fin 16) (va : Fin 16) :
    (State.vRcpOp s u vd va).pending = s.pending := by
  simp only [State.vRcpOp]
  (repeat' split) <;> simp only [State.vOp_pending, eq_self]

@[simp] theorem State.vRsqOp_pending (s : State) (u : LU) (vd : Fin 16) (va : Fin 16) :
    (State.vRsqOp s u vd va).pending = s.pending := by
  simp only [State.vRsqOp]
  (repeat' split) <;> simp only [State.vOp_pending, eq_self]

@[simp] theorem State.vExpOp_pending (s : State) (u : LU) (vd : Fin 16) (va : Fin 16) :
    (State.vExpOp s u vd va).pending = s.pending := by
  simp only [State.vExpOp]
  (repeat' split) <;> simp only [State.vOp_pending, eq_self]

@[simp] theorem State.vSum_pending (s : State) (u : LU) (vd : Fin 16) (va : Fin 16) :
    (State.vSum s u vd va).pending = s.pending := by
  simp only [State.vSum]
  (repeat' split) <;> simp only [State.vOp_pending, eq_self]

@[simp] theorem State.vSplat_pending (s : State) (u : LU) (vd : Fin 16) (imm : Half) :
    (State.vSplat s u vd imm).pending = s.pending := by
  simp only [State.vSplat]
  (repeat' split) <;> simp only [State.vOp_pending, eq_self]

@[simp] theorem State.vLdg_pending (s : State) (u : LU) (vd : Fin 16) (g : Fin 4) (imm : Fin 64) (reg : Fin 16) :
    (State.vLdg s u vd g imm reg).pending = s.pending := by
  simp only [State.vLdg]
  (repeat' split) <;> simp only [State.issue_pending, State.setUnit_pending, State.accFlagIf_pending, implies_true,
      eq_self]

@[simp] theorem State.vLd_pending (s : State) (u : LU) (vd : Fin 16) (desc : Fin 64) (reg : Fin 16) :
    (State.vLd s u vd desc reg).pending = s.pending := by
  exact State.issue_pending _ _ _ _ fun s p x => by (try dsimp only); (repeat' split) <;> simp only [State.tuFlag_pending, State.setUnit_pending, eq_self]

@[simp] theorem State.vSt_pending (s : State) (u : LU) (va : Fin 16) (desc : Fin 64) (reg : Fin 16) :
    (State.vSt s u va desc reg).pending = s.pending := by
  simp only [State.vSt, ite_pending, State.issue_pending, State.tuFlag_pending, State.setUnit_pending, ite_self,
      implies_true, eq_self]

/-! ### Verdict -/

@[simp] theorem State.countEvent_pending (s : State) (e : SuspEv) :
    (State.countEvent s e).pending = s.pending := by
  simp only [State.countEvent]
  (repeat' split) <;> simp only [State.modPart_pending, State.raiseAll_pending, eq_self]

@[simp] theorem State.arrive_pending (s : State) (n : Nat) :
    (State.arrive s n).pending = s.pending := by
  simp only [State.arrive]; split <;> simp only [State.countEvent_pending, eq_self]

@[simp] theorem State.arriveDue_pending (s : State) :
    (State.arriveDue s).pending = s.pending := by
  simp only [State.arriveDue]
  (repeat' split) <;> first
    | rfl
    | (simp; done)
    | (apply foldl_pending; intros; (repeat' split) <;> simp; done)
    | (simp only [foldl_pending, *]; done)
    | (simp_all; done)

@[simp] theorem State.charge_pending (s : State) (p : Part) (n : Nat) :
    (State.charge s p n).pending = s.pending := by rfl

@[simp] theorem State.promoteProv_pending (s : State) (p : Part) :
    (State.promoteProv s p).pending = s.pending := by
  simp only [State.promoteProv]; exact foldl_pending _ (fun _ _ => by simp only [State.wrBit_pending, eq_self]) _ _

@[simp] theorem State.comparePairs_pending (s : State) (p : Part) (f : Forme) :
    (State.comparePairs s p f).pending = s.pending := by
  simp only [State.comparePairs]
  (repeat' split) <;> first
    | rfl
    | (simp only [State.raiseBit_pending, State.charge_pending, foldl_pending, ite_pending, ite_self, implies_true,
        eq_self]; done)
    | (apply foldl_pending; intros; (repeat' split) <;> simp only [State.raiseBit_pending, State.charge_pending,
        foldl_pending, foldl_pending1, ite_pending, ite_pending1, ite_self, implies_true, eq_self]; done)
    | (simp only [foldl_pending, *]; done)
    | (simp_all only [State.raiseBit_pending, State.charge_pending, foldl_pending, foldl_pending1, ite_pending,
        ite_pending1, ite_self, implies_true, eq_self]; done)

@[simp] theorem State.compareTwin_pending (s : State) (p : Part) (f : Forme) :
    (State.compareTwin s p f).pending = s.pending := by
  simp only [State.compareTwin]
  (repeat' split) <;> simp only [State.raiseBit_pending, State.charge_pending, eq_self]

@[simp] theorem State.verdictTick_pending (s : State) (p : Part) :
    (State.verdictTick s p).pending = s.pending := by
  simp only [State.verdictTick]
  (repeat' split) <;> simp only [State.promoteProv_pending, State.comparePairs_pending, State.compareTwin_pending,
      State.modPart_pending, eq_self]

@[simp] theorem State.hold_pending (s : State) (p : Part) (r : TreeRec) (arrived : Bool) :
    (State.hold s p r arrived).pending = s.pending := by rfl

@[simp] theorem State.treeAdvance_pending (s : State) (p : Part) :
    (State.treeAdvance s p).pending = s.pending := by
  simp only [State.treeAdvance]
  (repeat' split) <;> first
    | rfl
    | (simp only [State.modPart_pending, State.hold_pending, State.wrBit_pending, foldl_pending, implies_true,
        eq_self]; done)
    | (apply foldl_pending; intros; (repeat' split) <;> simp only [State.modPart_pending, State.hold_pending,
        State.wrBit_pending, foldl_pending, foldl_pending1, ite_pending, ite_pending1, ite_self, implies_true,
        eq_self]; done)
    | (simp only [foldl_pending, *]; done)
    | (simp_all only [State.modPart_pending, State.hold_pending, State.wrBit_pending, foldl_pending, foldl_pending1,
        ite_pending, ite_pending1, ite_self, implies_true, eq_self]; done)

@[simp] theorem State.treeReceive_pending (s : State) (port : Port) (r : VerdictRec) :
    (State.treeReceive s port r).pending = s.pending := by
  simp only [State.treeReceive]
  (repeat' split) <;> rfl

@[simp] theorem State.closeSnapshot_pending (s : State) (p : Part) (f : Forme) (q : SnapReq) (valid : Bool) :
    (State.closeSnapshot s p f q valid).pending = s.pending := by
  simp only [State.closeSnapshot]
  (repeat' split) <;> simp only [foldl_pending, State.hbmStore_pending, State.modPart_pending,
      State.endJobs_pending, implies_true, eq_self]

@[simp] theorem State.noteVerdict_pending (s : State) (p : Part) (f : Forme) (commits : Bool) :
    (State.noteVerdict s p f commits).pending = s.pending := by rfl

@[simp] theorem State.noteDigests_pending (s : State) (p : Part) (f : Forme) :
    (State.noteDigests s p f).pending = s.pending := by
  simp only [State.noteDigests]; split <;> rfl

@[simp] theorem State.commitTick_pending (s : State) (p : Part) :
    (State.commitTick s p).pending = s.pending := by
  simp only [State.commitTick]
  (repeat' split) <;> simp only [foldl_pending, State.verdictTick_pending, State.treeAdvance_pending,
      State.noteVerdict_pending, State.noteDigests_pending, State.closeSnapshot_pending, State.modPart_pending,
      State.modReg_pending, State.wr_pending, State.wrBit_pending, implies_true, eq_self]

/-! ### Links -/

@[simp] theorem State.modLane_pending (s : State) (l : Lane) (f : LaneS → LaneS) :
    (State.modLane s l f).pending = s.pending := by rfl

@[simp] theorem State.modPort_pending (s : State) (p : Port) (f : PortS → PortS) :
    (State.modPort s p f).pending = s.pending := by rfl

@[simp] theorem State.syncPort_pending (s : State) (p : Port) :
    (State.syncPort s p).pending = s.pending := by
  simp only [State.syncPort]; exact foldl_pending _ (fun _ _ => by simp) _ _

@[simp] theorem State.syncTwin_pending (s : State) :
    (State.syncTwin s).pending = s.pending := by
  simp only [State.syncTwin]; split <;> rfl

@[simp] theorem State.setLane_pending (s : State) (l : Lane) (st : Nat) :
    (State.setLane s l st).pending = s.pending := by
  simp only [State.setLane]
  (repeat' split) <;> simp

@[simp] theorem State.loseLane_pending (s : State) (p : Port) (k : Nat) (t : Nat) :
    (State.loseLane s p k t).pending = s.pending := by rfl

@[simp] theorem State.laneLost_pending (s : State) (l : Lane) :
    (State.laneLost s l).pending = s.pending := by
  simp only [State.laneLost]
  (repeat' split) <;> simp

@[simp] theorem State.laneDown_pending (s : State) (l : Lane) :
    (State.laneDown s l).pending = s.pending := by
  simp only [State.laneDown]
  (repeat' split) <;> simp

@[simp] theorem State.laneFailure_pending (s : State) (l : Lane) :
    (State.laneFailure s l).pending = s.pending := by
  simp only [State.laneFailure]; split <;> simp only [State.laneDown_pending, eq_self]

@[simp] theorem State.lossOfSignal_pending (s : State) (l : Lane) :
    (State.lossOfSignal s l).pending = s.pending := by
  simp only [State.lossOfSignal]
  (repeat' split) <;> simp only [State.laneDown_pending, eq_self]

@[simp] theorem State.failLane_pending (s : State) (l : Lane) :
    (State.failLane s l).pending = s.pending := by
  simp only [State.failLane]
  (repeat' split) <;> simp only [State.modLane_pending, State.setLane_pending, eq_self]

@[simp] theorem State.laneTrained_pending (s : State) (l : Lane) (delay : Nat) :
    (State.laneTrained s l delay).pending = s.pending := by
  simp only [State.laneTrained]
  (repeat' split) <;> simp only [State.raiseBit_pending, State.failLane_pending, State.modLane_pending,
      State.setLane_pending, eq_self]

@[simp] theorem State.trainTimeout_pending (s : State) (l : Lane) :
    (State.trainTimeout s l).pending = s.pending := by
  simp only [State.trainTimeout]
  (repeat' split) <;> simp only [State.failLane_pending, State.modLane_pending, State.laneDown_pending, eq_self]

@[simp] theorem State.failedRetry_pending (s : State) (l : Lane) :
    (State.failedRetry s l).pending = s.pending := by
  simp only [State.failedRetry]; split <;> simp only [State.setLane_pending, eq_self]

@[simp] theorem State.codeword_pending (s : State) (l : Lane) (c : Codeword) :
    (State.codeword s l c).pending = s.pending := by
  simp only [State.codeword]
  (repeat' split) <;> simp only [State.modLane_pending, State.count_pending, State.raiseBit_pending,
      State.laneDown_pending, eq_self]

@[simp] theorem State.header_pending (s : State) (p : Port) (k : Nat) (hcrc : Bool) (lane : Nat) :
    (State.header s p k hcrc lane).pending = s.pending := by
  simp only [State.header]
  (repeat' split) <;> simp only [State.modLane_pending, State.laneDown_pending, State.raiseBit_pending,
      State.failLane_pending, State.setLane_pending, eq_self]

@[simp] theorem State.setSend_pending (s : State) (b : BufId) (x : LinkBuf) :
    (State.setSend s b x).pending = s.pending := by rfl

@[simp] theorem State.setRecv_pending (s : State) (b : BufId) (x : LinkBuf) :
    (State.setRecv s b x).pending = s.pending := by rfl

@[simp] theorem State.sendIdle_pending (s : State) (l : Lane) (base : SentSlot) :
    (State.sendIdle s l base).pending = s.pending := by rfl

@[simp] theorem State.slotSend_pending (s : State) (p : Port) (k : Fin 8) :
    (State.slotSend s p k).pending = s.pending := by
  simp only [State.slotSend]
  (repeat' split) <;> rfl

@[simp] theorem State.soundSlot_pending (s : State) (p : Port) (k : Fin 8) (fec : Bool) (head : List Byte)
    (payload : List Byte) (named : Bool) :
    (State.soundSlot s p k fec head payload named).1.pending = s.pending := by
  simp only [State.soundSlot]
  (repeat' split) <;> simp

@[simp] theorem State.judgeSlot_pending (s : State) (p : Port) (k : Fin 8) (x : RxSlot) :
    (State.judgeSlot s p k x).1.pending = s.pending := by
  simp only [State.judgeSlot]
  (repeat' split) <;> simp

@[simp] theorem State.blankSlot_pending (s : State) (p : Port) (k : Fin 8) (q : Part) (t : Nat) :
    (State.blankSlot s p k q t).pending = s.pending := by rfl

@[simp] theorem State.twinResult_pending (s : State) (q : Part) (b : BufId) (slot : Nat) :
    (State.twinResult s q b slot).pending = s.pending := by
  simp only [State.twinResult]
  (repeat' split) <;> first
    | rfl
    | (simp; done)
    | (apply foldl_pending; intros; (repeat' split) <;> simp; done)
    | (simp only [foldl_pending, *]; done)
    | (simp_all; done)

@[simp] theorem State.slotReceive_pending (s : State) (p : Port) (k : Fin 8) (x : RxSlot) :
    (State.slotReceive s p k x).pending = s.pending := by
  have h := State.judgeSlot_pending s p k x
  simp only [State.slotReceive]
  split
  · rename_i h1; rw [h1] at h; exact h
  · rename_i h1
    rw [h1] at h
    dsimp only at h
    (repeat' split) <;> first
      | exact h
      | rfl
      | (simp only [h, State.raiseBit_pending, State.twinResult_pending, State.setRecv_pending,
          eq_self]; done)

@[simp] theorem State.fabricOut_pending (s : State) (x : FabricSlot) (r : Delivery) :
    (State.fabricOut s x r).pending = s.pending := by
  simp only [State.fabricOut]; split <;> rfl

@[simp] theorem State.fabricSlot_pending (s : State) (x : FabricSlot) (line : Option (List Byte)) :
    (State.fabricSlot s x line).pending = s.pending := by
  simp only [State.fabricSlot]
  (repeat' split) <;> simp

@[simp] theorem State.fabricWay_pending (s : State) (p : Part) (a : FabricEnd) (b : FabricEnd) :
    (State.fabricWay s p a b).1.pending = s.pending := by
  simp only [State.fabricWay]; split <;> rfl

@[simp] theorem State.fabricTake_pending (s : State) (d : Die) (f : Far) (inbound : Bool) :
    (State.fabricTake s d f inbound).1.pending = s.pending := by
  simp only [State.fabricTake]
  (repeat' split) <;> simp

@[simp] theorem State.dieWay_pending (s : State) (d : Die) (a : FabricEnd) (b : FabricEnd) :
    (State.dieWay s d a b).1.pending = s.pending := by
  simp only [State.dieWay]
  (repeat' split) <;> simp

@[simp] theorem State.switchLane_pending (s : State) (p : Port) (k : Nat) :
    (State.switchLane s p k).pending = s.pending := by
  simp only [State.switchLane]
  (repeat' split) <;> simp [foldl_pending]

@[simp] theorem State.laneSwitches_pending (s : State) (who : Option Part) :
    (State.laneSwitches s who).pending = s.pending := by
  simp only [State.laneSwitches, foldl_pending, ite_pending, State.modPort_pending, State.switchLane_pending,
      ite_self, implies_true, eq_self]

@[simp] theorem State.spareOut_pending (s : State) (l : Lane) :
    (State.spareOut s l).pending = s.pending := by
  simp only [State.spareOut]; split <;> simp

@[simp] theorem State.ldSpareSet_pending (s : State) (k : LinkDie) (high : Bool) (v : Word) :
    (State.ldSpareSet s k high v).pending = s.pending := by
  refine (foldl_pending _ (fun s a => ?_) _ _).trans (State.storeReg_pending _ _ _)
  (try dsimp only)
  (repeat' split) <;> simp only [State.modLinks_pending, State.setLane_pending, State.spareOut_pending]

@[simp] theorem State.ldSpareWrite_pending (s : State) (k : LinkDie) (high : Bool) (v : Word) :
    (State.ldSpareWrite s k high v).pending = s.pending := by
  simp only [State.ldSpareWrite]; split <;> simp

@[simp] theorem State.sparesDue_pending (s : State) (who : Option Part) :
    (State.sparesDue s who).pending = s.pending := by
  simp only [State.sparesDue]; exact foldl_pending _ (fun _ _ => by simp only [State.spareOut_pending, eq_self]) _ _

@[simp] theorem State.modTwin_pending (s : State) (f : TwinS → TwinS) :
    (State.modTwin s f).pending = s.pending := by rfl

@[simp] theorem State.twinLost_pending (s : State) (b : Nat) :
    (State.twinLost s b).pending = s.pending := by
  simp only [State.twinLost]
  (repeat' split) <;> simp

@[simp] theorem State.heartbeatMissing_pending (s : State) :
    (State.heartbeatMissing s).pending = s.pending := by
  simp only [State.heartbeatMissing]
  (repeat' split) <;> simp

@[simp] theorem State.modStream_pending (s : State) (id : Half) (f : BulkStream → BulkStream) :
    (State.modStream s id f).pending = s.pending := by rfl

@[simp] theorem State.bulkRead_pending (s : State) (t : BulkStream) :
    (State.bulkRead s t).pending = s.pending := by
  simp only [State.bulkRead]
  (repeat' split) <;> simp

@[simp] theorem State.dealStream_pending (s : State) (id : Half) (deal : List (Port × Nat × BulkPiece)) :
    (State.dealStream s id deal).1.pending = s.pending := by
  simp only [State.dealStream]
  refine foldl_pending1 _ (fun a b => ?_) _ _
  (try dsimp only)
  (repeat' split) <;> simp only [State.modStream_pending, State.bulkRead_pending]

@[simp] theorem State.bulkFor_pending (s : State) (p : Port) (t : Nat) :
    (State.bulkFor s p t).1.pending = s.pending := by
  simp [State.bulkFor, foldl_pending1, ite_pending]

@[simp] theorem State.bulkLand_pending (s : State) (t : BulkStream) (a : Nat) (b : List Byte) :
    (State.bulkLand s t a b).pending = s.pending := by
  simp only [State.bulkLand]
  (repeat' split) <;> simp

@[simp] theorem State.streamTick_pending (s : State) :
    (State.streamTick s).pending = s.pending := by
  simp only [State.streamTick]
  refine foldl_pending _ (fun s a => ?_) _ _
  (try dsimp only)
  (repeat' split) <;> first
    | rfl
    | (simp only [State.bulkRead_pending]; done)
    | exact (foldl_pending _ (fun s e => State.bulkLand_pending _ _ _ _) _ _).trans (State.modStream_pending _ _ _)

@[simp] theorem State.bulkFill_pending (s : State) (p : Port) (bulk : List (Nat × BulkPiece)) :
    (State.bulkFill s p bulk).1.pending = s.pending := by
  simp [State.bulkFill, foldl_pending1]

@[simp] theorem State.tramlineSend_pending (s : State) (p : Port) :
    (State.tramlineSend s p).pending = s.pending := by
  simp only [State.tramlineSend]
  (repeat' split) <;> simp [foldl_pending]

@[simp] theorem State.detachSent_pending (s : State) (p : Port) :
    (State.detachSent s p).pending = s.pending := by
  simp only [State.detachSent]
  (repeat' split) <;> simp

@[simp] theorem State.accept_pending (s : State) (p : Port) (seq : Half) :
    (State.accept s p seq).pending = s.pending := by rfl

@[simp] theorem State.message_pending (s : State) (p : Port) (seq : Half) (m : Msg) :
    (State.message s p seq m).pending = s.pending := by
  simp only [State.message]
  (repeat' split) <;> simp

@[simp] theorem State.bulkIn_pending (s : State) (b : BulkPiece) :
    (State.bulkIn s b).pending = s.pending := by
  simp only [State.bulkIn]
  (repeat' split) <;> simp

@[simp] theorem State.portDelay_pending (s : State) (p : Port) (r : TimeRecord) (t2 : Nat) :
    (State.portDelay s p r t2).pending = s.pending := by
  simp only [State.portDelay]
  (repeat' split) <;> first
    | rfl
    | (simp; done)
    | (apply foldl_pending; intros; (repeat' split) <;> simp; done)
    | (simp only [foldl_pending, *]; done)
    | (simp_all; done)

@[simp] theorem State.recordLane_pending (s : State) (p : Port) (k : Nat) :
    (State.recordLane s p k).pending = s.pending := by
  simp only [State.recordLane]; exact foldl_pending _ (fun _ _ => by simp) _ _

@[simp] theorem State.tramRecords_pending (s : State) (p : Port) (b : List Byte) :
    (State.tramRecords s p b).pending = s.pending := by
  simp only [State.tramRecords]
  (repeat' split) <;> simp [foldl_pending]

@[simp] theorem State.notePeer_pending (s : State) (p : Port) (k : Fin 8) (h : SlotHead) :
    (State.notePeer s p k h).pending = s.pending := by
  simp only [State.notePeer]; split <;> rfl

@[simp] theorem State.tramlineTake_pending (s : State) (p : Port) (k : Fin 8) (timeLane : Bool) (h : SlotHead)
    (x : RxTram) :
    (State.tramlineTake s p k timeLane h x).pending = s.pending := by
  simp only [State.tramlineTake]
  (repeat' split) <;> simp only [State.syncPort_pending, State.bulkIn_pending, State.tramRecords_pending,
      State.recordLane_pending,
      State.modPort_pending, State.port0Record_pending, State.modLane_pending, State.portDelay_pending,
          State.notePeer_pending]

@[simp] theorem State.tramlineReceive_pending (s : State) (p : Port) (k : Fin 8) (x : RxTram) :
    (State.tramlineReceive s p k x).pending = s.pending := by
  have h := State.soundSlot_pending s p k (x.fec && !s.linkDead (laneOf p k.val).ld) x.head x.payload false
  simp only [State.tramlineReceive, State.tramlineTake_pending, State.recordMissing_pending, State.raiseBit_pending,
      ite_pending, h, ite_self]

/-! ### Reduction -/

@[simp] theorem State.modRed_pending (s : State) (d : Die) (f : RedS → RedS) :
    (State.modRed s d f).pending = s.pending := by rfl

@[simp] theorem State.redSuspect_pending (s : State) (d : Die) (b : Nat) :
    (State.redSuspect s d b).pending = s.pending := by
  simp only [State.redSuspect]
  (repeat' split) <;> simp only [State.raiseSuspect_pending, eq_self]

@[simp] theorem State.coldRequest_pending (s : State) (d : Die) :
    (State.coldRequest s d).pending = s.pending := by
  simp only [State.coldRequest]
  (repeat' split) <;> simp only [State.raiseBit_pending, State.modPart_pending, eq_self]

@[simp] theorem State.setRedBlock_pending (s : State) (d : Die) (w : RedWindow) (k : Nat) (b : RedBlock) :
    (State.setRedBlock s d w k b).pending = s.pending := by rfl

@[simp] theorem State.blockServe_pending (s : State) (d : Die) (w : RedWindow) (k : Nat) (c : Source) :
    (State.blockServe s d w k c).1.pending = s.pending := by
  simp [State.blockServe, foldl_pending1]

@[simp] theorem State.gleanCopy_pending (s : State) (d : Die) (wi : Nat) (w : RedWindow) (sown : Bool) (k : Nat)
    (parts : List (List (Val × Nat))) :
    (State.gleanCopy s d wi w sown k parts).pending = s.pending := by
  simp only [State.gleanCopy]
  (repeat' split) <;> simp

@[simp] theorem State.takeBlock_pending (s : State) (d : Die) (wi : Nat) (w : RedWindow) (sown : Bool) (k : Nat)
    (parts : List (List (Val × Nat))) :
    (State.takeBlock s d wi w sown k parts).pending = s.pending := by
  simp only [State.takeBlock]
  (repeat' split) <;> simp

@[simp] theorem State.intake_pending (s : State) (d : Die) (n : Nat) :
    (State.intake s d n).pending = s.pending := by rfl

@[simp] theorem State.contribute_pending (s : State) (d : Die) (port : Nat) (wi : Nat) (index : Nat) (f : Fmt)
    (rows : Nat) (cols : Nat) (el : Nat → Nat → Val × Nat) (skip : List Nat) :
    (State.contribute s d port wi index f rows cols el skip).pending = s.pending := by
  simp only [State.contribute]
  (repeat' split) <;> simp

@[simp] theorem State.applyWork_pending (s : State) (d : Die) (w : AdderWork) :
    (State.applyWork s d w).pending = s.pending := by
  simp only [State.applyWork]
  (repeat' split) <;> first
    | rfl
    | (simp; done)
    | (apply foldl_pending; intros; (repeat' split) <;> simp; done)
    | (simp only [foldl_pending, *]; done)
    | (simp_all; done)

@[simp] theorem State.adderTick_pending (s : State) (d : Die) :
    (State.adderTick s d).pending = s.pending := by
  simp only [State.adderTick]
  (repeat' split) <;> first
    | rfl
    | (simp; done)
    | (apply foldl_pending; intros; (repeat' split) <;> simp; done)
    | (simp only [foldl_pending, *]; done)
    | (simp_all; done)

@[simp] theorem State.noteRun_pending (s : State) (d : Die) (a : Nat) (n : Nat) :
    (State.noteRun s d a n).pending = s.pending := by
  simp only [State.noteRun]; exact foldl_pending _ (fun _ _ => by simp) _ _

@[simp] theorem State.readHistory_pending (s : State) (d : Die) (wi : Nat) (w : RedWindow) :
    (State.readHistory s d wi w).pending = s.pending := by
  simp only [State.readHistory]
  (repeat' split) <;> simp

@[simp] theorem State.windowOpen_pending (s : State) (d : Die) (wi : Nat) :
    (State.windowOpen s d wi).pending = s.pending := by
  simp only [State.windowOpen]
  (repeat' split) <;> simp [foldl_pending]

@[simp] theorem State.nanResult_pending (s : State) (d : Die) :
    (State.nanResult s d).pending = s.pending := by
  simp only [State.nanResult]; split <;> simp only [State.count_pending, State.raiseBit_pending,
      State.suspectDie_pending, eq_self]

@[simp] theorem State.writeHistory_pending (s : State) (d : Die) (wi : Nat) (w : RedWindow)
    (res : Nat → Option (Option Nat × List Val)) :
    (State.writeHistory s d wi w res).pending = s.pending := by
  simp only [State.writeHistory]; split <;> simp

@[simp] theorem State.windowSeal_pending (s : State) (d : Die) (wi : Nat) :
    (State.windowSeal s d wi).pending = s.pending := by
  simp only [State.windowSeal]
  (repeat' split) <;> simp [foldl_pending, ite_pending]

@[simp] theorem State.ringTx_pending (s : State) (p : Part) (e : RingEntry) (pay : Option (List Byte)) :
    (State.ringTx s p e pay).pending = s.pending := by
  simp only [State.ringTx]; split <;> rfl

@[simp] theorem State.ringStore_pending (s : State) (d : Die) (e : RingEntry) (j : Nat) (b : List Byte) :
    (State.ringStore s d e j b).pending = s.pending := by
  simp only [State.ringStore]
  (repeat' split) <;> simp

@[simp] theorem State.disagree_pending (s : State) (d : Die) (agreed : Nat) (b : RingBlock) :
    (State.disagree s d agreed b).pending = s.pending := by
  simp only [State.disagree]
  (repeat' split) <;> simp only [State.redSuspect_pending, State.coldRequest_pending, eq_self]

@[simp] theorem State.ringCopy_pending (s : State) (d : Die) (i : Nat) (w : RedWindow) (e : RingEntry) (k : Nat)
    (got : Option (List Byte)) (out : Option (List Byte)) (stored : Option (List Byte)) :
    (State.ringCopy s d i w e k got out stored).pending = s.pending := by
  simp only [State.ringCopy]
  (repeat' split) <;> simp

@[simp] theorem State.ringAdd_pending (s : State) (d : Die) (i : Nat) (w : RedWindow) (e : RingEntry) (j : Nat)
    (raw : Option (List Byte)) :
    (State.ringAdd s d i w e j raw).1.pending = s.pending := by
  simp only [State.ringAdd]
  (repeat' split) <;> simp

@[simp] theorem State.ringRecord_pending (s : State) (d : Die) (wi : Nat) (w : RedWindow) :
    (State.ringRecord s d wi w).pending = s.pending := by
  simp only [State.ringRecord]; split <;> simp

@[simp] theorem State.ringBlock_pending (s : State) (d : Die) (i : Nat) (w : RedWindow) (e : RingEntry) (j : Nat)
    (g : Option (List Byte)) :
    (State.ringBlock s d i w e j g).1.pending = s.pending := by
  simp only [State.ringBlock]
  (repeat' split) <;> simp only [State.ringAdd_pending, State.ringStore_pending, State.nanResult_pending,
      State.disagree_pending, State.ringCopy_pending]

@[simp] theorem State.ringRun_pending (s : State) (d : Die) (i : Nat) (start : Bool) :
    (State.ringRun s d i start).pending = s.pending := by
  have hf := fun (a : State × List Byte) (w : RedWindow) (e : RingEntry) (g : Nat → Option (List Byte)) (l : List Nat) =>
    foldl_pending1 (fun (acc : State × List Byte) j =>
      ((acc.1.ringBlock d i w e j (g j)).1, acc.2 ++ (acc.1.ringBlock d i w e j (g j)).2))
      (fun acc j => State.ringBlock_pending acc.1 d i w e j (g j)) l a
  simp only [State.ringRun]
  split
  · split
    · rfl
    · simp only [ite_pending, ite_pending1, State.ringRecord_pending, State.ringTx_pending, State.fabricWay_pending, hf,
        State.redSuspect_pending, State.intake_pending, State.modRed_pending, ite_self]
  · rfl

@[simp] theorem State.ringLate_pending (s : State) (port : Port) (lane : Fin 8) :
    (State.ringLate s port lane).pending = s.pending := by
  simp only [State.ringLate]
  refine (ite_pending _ _).trans ((congrArg _ (foldl_pending _ (fun s d => ?_) _ _)).trans (ite_self _))
  (try dsimp only)
  split
  · exact foldl_pending _ (fun s d => by (try dsimp only); split <;> simp only [State.raiseBit_pending, eq_self]) _ _
  · rfl

@[simp] theorem State.accumSlot_pending (s : State) (p : Port) (k : Fin 8) (x : RxSlot) :
    (State.accumSlot s p k x).pending = s.pending := by
  have h := State.judgeSlot_pending s p k x
  simp only [State.accumSlot]
  split
  · rename_i h1; rw [h1] at h; exact h
  · rename_i h1
    rw [h1] at h
    dsimp only at h
    (repeat' split) <;> first
      | exact h
      | (simp only [h, State.contribute_pending, State.intake_pending, State.fabricWay_pending,
          State.blankSlot_pending, State.redSuspect_pending, eq_self]; done)

@[simp] theorem State.gleanCompare_pending (s : State) (d : Die) (owner : Die) (wi : Nat) (k : Nat) :
    (State.gleanCompare s d owner wi k).pending = s.pending := by
  simp only [State.gleanCompare]
  (repeat' split) <;> simp

@[simp] theorem State.gleanDue_pending (s : State) (p : Part) :
    (State.gleanDue s p).pending = s.pending := by
  simp only [State.gleanDue]
  refine foldl_pending _ (fun s d => ?_) _ _
  (try dsimp only)
  split
  · rfl
  · refine foldl_pending _ (fun s w => ?_) _ _
    (try dsimp only)
    split
    · rfl
    · exact foldl_pending _ (fun s k => by (try dsimp only); split <;> simp only [State.charge_pending, State.raiseBit_pending, State.count_pending]) _ _

@[simp] theorem State.accumulate_pending (s : State) (x : Contribution) :
    (State.accumulate s x).pending = s.pending := by
  simp only [State.accumulate]
  (repeat' split) <;> simp

@[simp] theorem State.gleanAt_pending (s : State) (p : Part) :
    (State.gleanAt s p).pending = s.pending := by
  simp only [State.gleanAt]
  (repeat' split) <;> simp only [State.gleanDue_pending, eq_self]

/-! ### Engines -/

@[simp] theorem State.setBusy_pending (s : State) (c : ClusterId) (rake : Bool) (b : Bool) :
    (State.setBusy s c rake b).pending = s.pending := by rfl

@[simp] theorem State.engSuspect_pending (s : State) (c : ClusterId) (rake : Bool) (e : EngRun) (b : Nat) :
    (State.engSuspect s c rake e b).pending = s.pending := by
  simp only [State.engSuspect]
  (repeat' split) <;> simp

@[simp] theorem State.engIso_pending (s : State) (c : ClusterId) (e : EngRun) (b : Nat) :
    (State.engIso s c e b).pending = s.pending := by
  simp only [State.engIso]
  (repeat' split) <;> simp

@[simp] theorem State.portDrop_pending (s : State) (c : ClusterId) (rake : Bool) (e : EngRun) (n : Nat) :
    (State.portDrop s c rake e n).pending = s.pending := by
  simp only [State.portDrop]; exact foldl_pending _ (fun _ _ => by simp) _ _

@[simp] theorem State.deposit_pending (s : State) (p : PU) (parts : List (Nat × List Byte)) (blank : Bool) :
    (State.deposit s p parts blank).pending = s.pending := by
  simp only [State.deposit]; split <;> rfl

@[simp] theorem State.sowRow_pending (s : State) (d : Die) (port : Nat) (w : Nat) (row : Nat) (col0 : Nat) (f : Fmt)
    (cols : Nat) (b : List Byte) (lost : List Nat) :
    (State.sowRow s d port w row col0 f cols b lost).pending = s.pending := by
  simp only [State.sowRow]
  (repeat' split) <;> simp

@[simp] theorem State.engBegin_pending (s : State) (c : ClusterId) (e : EngRun) (plan : List (Nat × EngStep)) :
    (State.engBegin s c e plan).pending = s.pending := by rfl

@[simp] theorem State.sow_pending (s : State) (c : ClusterId) (e : EngRun) :
    (State.sow s c e).pending = s.pending := by
  simp only [State.sow]
  (repeat' split) <;> first
    | rfl
    | (simp only [State.engSuspect_pending, State.sowRow_pending, foldl_pending, ite_pending, ite_self,
        implies_true, eq_self]; done)
    | (apply foldl_pending; intros; (repeat' split) <;> simp only [State.engSuspect_pending, State.sowRow_pending,
        foldl_pending, foldl_pending1, ite_pending, ite_pending1, ite_self, implies_true, eq_self]; done)
    | (simp only [foldl_pending, *]; done)
    | (simp_all only [State.engSuspect_pending, State.sowRow_pending, foldl_pending, foldl_pending1, ite_pending,
        ite_pending1, ite_self, implies_true, eq_self]; done)

@[simp] theorem State.fillBuffer_pending (s : State) (d : Die) (b : BufRec) (furrow : Nat) (pay : List Byte)
    (lost : List Nat) :
    (State.fillBuffer s d b furrow pay lost).pending = s.pending := by
  simp only [State.fillBuffer]
  (repeat' split) <;> simp

@[simp] theorem State.pushTile_pending (s : State) (u : LU) (p : PU) (g : Fin 8) (b : List Byte) (blank : Bool)
    (c : Caught) (k : Nat) :
    (State.pushTile s u p g b blank c k).pending = s.pending := by rfl

@[simp] theorem State.dropItem_pending (s : State) (c : ClusterId) (e : EngRun) (route : Nat) :
    (State.dropItem s c e route).pending = s.pending := by
  simp only [State.dropItem]; split <;> simp

@[simp] theorem State.badKeys_pending (s : State) (c : ClusterId) (e : EngRun) (n : Nat) :
    (State.badKeys s c e n).pending = s.pending := by
  simp only [State.badKeys]; split <;> simp

@[simp] theorem State.dropItems_pending (s : State) (c : ClusterId) (e : EngRun) (is : List Item) :
    (State.dropItems s c e is).pending = s.pending := by
  simp only [State.dropItems]; exact foldl_pending _ (fun _ _ => by simp) _ _

@[simp] theorem State.noteWords_pending (s : State) (c : ClusterId) (rake : Bool) (ws : List (Nat × Word)) :
    (State.noteWords s c rake ws).pending = s.pending := by rfl

@[simp] theorem State.pack_pending (s : State) (c : ClusterId) (e : EngRun) :
    (State.pack s c e).pending = s.pending := by
  simp only [State.pack]
  (repeat' split) <;> simp

@[simp] theorem State.setTile_pending (s : State) (c : ClusterId) (id : Option Nat) (is : List Item) :
    (State.setTile s c id is).pending = s.pending := by rfl

@[simp] theorem State.pushBegin_pending (s : State) (c : ClusterId) (e : EngRun) (is : List Item) :
    (State.pushBegin s c e is).pending = s.pending := by
  simp only [State.pushBegin]; split <;> rfl

@[simp] theorem State.dropPush_pending (s : State) (c : ClusterId) (e : EngRun) (i : Nat) :
    (State.dropPush s c e i).pending = s.pending := by
  simp only [State.dropPush]; split <;> rfl

@[simp] theorem State.pushEnd_pending (s : State) (c : ClusterId) (e : EngRun) (id : Option Nat) (is : List Item) :
    (State.pushEnd s c e id is).pending = s.pending := by
  simp only [State.pushEnd]
  (repeat' split) <;> simp

@[simp] theorem State.drillTile_pending (s : State) (u : LU) (p : PU) :
    (State.drillTile s u p).pending = s.pending := by
  simp only [State.drillTile]
  (repeat' split) <;> simp

@[simp] theorem State.drainItem_pending (s : State) (c : ClusterId) (e : EngRun) (i : Item) :
    (State.drainItem s c e i).pending = s.pending := by
  simp only [State.drainItem]
  (repeat' split) <;> simp

@[simp] theorem State.drain_pending (s : State) (c : ClusterId) (e : EngRun) :
    (State.drain s c e).pending = s.pending := by rfl

@[simp] theorem State.gather_pending (s : State) (c : ClusterId) (e : EngRun) :
    (State.gather s c e).pending = s.pending := by
  simp only [State.gather]; split <;> simp

@[simp] theorem State.pick_pending (s : State) (c : ClusterId) (e : EngRun) :
    (State.pick s c e).pending = s.pending := by rfl

@[simp] theorem State.gatherRow_pending (s : State) (c : ClusterId) (e : EngRun) (i : Item) :
    (State.gatherRow s c e i).1.pending = s.pending := by
  simp only [State.gatherRow]
  (repeat' split) <;> simp

@[simp] theorem State.pickRow_pending (s : State) (c : ClusterId) (e : EngRun) (i : Item) :
    (State.pickRow s c e i).1.pending = s.pending := by
  simp only [State.pickRow]
  (repeat' split) <;> simp

@[simp] theorem State.engSend_pending (s : State) (c : ClusterId) (rake : Bool) (e : EngRun) :
    (State.engSend s c rake e).pending = s.pending := by
  simp only [State.engSend]; split <;> simp

@[simp] theorem State.putWords_pending (s : State) (c : ClusterId) (e : EngRun) (js : List Nat) :
    (State.putWords s c e js).pending = s.pending := by
  simp only [State.putWords]
  (repeat' split) <;> simp

@[simp] theorem State.engStep_pending (s : State) (c : ClusterId) (rake : Bool) (x : EngStep) :
    (State.engStep s c rake x).pending = s.pending := by
  simp only [State.engStep]
  (repeat' split) <;> simp

@[simp] theorem State.engineCycle_pending (s : State) (c : ClusterId) (rake : Bool) :
    (State.engineCycle s c rake).pending = s.pending := by
  simp only [State.engineCycle]
  (repeat' split) <;> first
    | rfl
    | (simp; done)
    | (apply foldl_pending; intros; (repeat' split) <;> simp; done)
    | (simp only [foldl_pending, *]; done)
    | (simp_all; done)

@[simp] theorem State.flyArrives_pending (s : State) (c : ClusterId) (x : EngFly) :
    (State.flyArrives s c x).pending = s.pending := by
  simp only [State.flyArrives]
  (repeat' split) <;> simp

@[simp] theorem State.flyTick_pending (s : State) (c : ClusterId) :
    (State.flyTick s c).pending = s.pending := by
  simp only [State.flyTick]
  (repeat' split) <;> first
    | rfl
    | (simp; done)
    | (apply foldl_pending; intros; (repeat' split) <;> simp; done)
    | (simp only [foldl_pending, *]; done)
    | (simp_all; done)

@[simp] theorem State.blockArrive_pending (s : State) (u : LU) (p : PU) (rake : Bool) (issue : Nat) (lines : Nat)
    (furrow : Nat) (who : Option (Part × Nat)) (add : Word) (b : List Byte) :
    (State.blockArrive s u p rake issue lines furrow who add b).pending = s.pending := by
  simp only [State.blockArrive]
  (repeat' split) <;> simp

@[simp] theorem State.engMake_pending (s : State) (c : ClusterId) (op : EngOp)
    (f : State → ClusterId → EngRun → State) (hf : ∀ x0 x1 x2, (f x0 x1 x2).pending = x0.pending) :
    (State.engMake s c op f).pending = s.pending := by
  simp only [State.engMake]
  (repeat' split) <;> simp_all only [State.modCluster_pending, eq_self]

@[simp] theorem State.engDone_pending (s : State) (c : ClusterId) (rake : Bool) :
    (State.engDone s c rake).pending = s.pending := by
  simp only [State.engDone]
  (repeat' split) <;> rfl

@[simp] theorem State.capacitySlot_pending (s : State) (p : Port) (k : Fin 8) (x : RxSlot) :
    (State.capacitySlot s p k x).pending = s.pending := by
  have h := State.judgeSlot_pending s p k x
  simp only [State.capacitySlot]
  split
  · rename_i h1; rw [h1] at h; exact h
  · rename_i h1
    rw [h1] at h
    dsimp only at h
    (repeat' split) <;> first
      | exact h
      | (simp only [h, State.setRecv_pending, State.blankSlot_pending, eq_self]; done)
      | (refine (foldl_pending _ (fun a b => by (try dsimp only); simp only [State.sowRow_pending]) _ _).trans ?_
         simp only [h, State.intake_pending, State.fabricWay_pending])

/-! ### Moves -/

@[simp] theorem State.takePort_pending (s : State) (u : LU) (x : UnitS) (inb : Bool) (delay : Nat) (n : Nat)
    (go : State → State) (hgo : ∀ x0, (go x0).pending = x0.pending) :
    (State.takePort s u x inb delay n go).pending = s.pending := by
  simp only [State.takePort]
  (repeat' split) <;> simp_all only [State.tuFlag_pending, eq_self]

@[simp] theorem State.refusedMove_pending (s : State) (u : LU) (p : PU) (x : UnitS) (c : Nat) (inb : Option Bool)
    (far : Nat) (l : Opnd) (lines : List Nat) :
    (State.refusedMove s u p x c inb far l lines).pending = s.pending := by
  simp only [State.refusedMove]; split <;> simp

@[simp] theorem State.xFar_pending (s : State) (u : LU) (o : MoveOp) (k : MoveKind) :
    (State.xFar s u o k).pending = s.pending := by
  simp only [State.xFar]
  split
  · simp only [State.badSlot_pending]
  · refine State.issue_pending _ _ _ _ fun s p x => ?_
    (try dsimp only)
    split
    · simp only [State.tuFlag_pending, eq_self]
    · split
      · simp only [State.refusedMove_pending, eq_self]
      · split
        · simp only [State.refusedMove_pending, eq_self]
        · refine State.takePort_pending _ _ _ _ _ _ _ fun s => ?_
          (try dsimp only)
          (repeat' split) <;> simp only [State.fabricTake_pending, State.setUnit_pending, State.tuFlagIf_pending,
              State.tuSuspect_pending, eq_self]

@[simp] theorem State.xLocal_pending (s : State) (u : LU) (k : MoveKind) (o : MoveOp) (occ : Nat)
    (f : State → PU → UnitS → Nat → State) (hf : ∀ x0 x1 x2 x3, (f x0 x1 x2 x3).pending = x0.pending) :
    (State.xLocal s u k o occ f).pending = s.pending := by
  simp only [State.xLocal]
  split
  · simp only [State.badSlot_pending]
  · refine State.issue_pending _ _ _ _ fun s p x => ?_
    (try dsimp only)
    split
    · simp only [State.tuFlag_pending, eq_self]
    · rw [hf]; simp only [State.setUnit_pending, eq_self]

@[simp] theorem State.xRefused_pending (s : State) (u : LU) (p : PU) (x : UnitS) (c : Nat) (o : MoveOp)
    (inb : Option Bool) (n : Nat) :
    (State.xRefused s u p x c o inb n).pending = s.pending := by
  simp only [State.xRefused]; split <;> simp

@[simp] theorem State.xPush_pending (s : State) (u : LU) (o : MoveOp) :
    (State.xPush s u o).pending = s.pending := by
  refine State.xLocal_pending _ _ _ _ _ _ fun s p x c => ?_
  (try dsimp only)
  split <;> simp only [State.xRefused_pending, State.setUnit_pending, State.tuFlagIf_pending, eq_self]

@[simp] theorem State.xPop_pending (s : State) (u : LU) (o : MoveOp) :
    (State.xPop s u o).pending = s.pending := by
  refine State.xLocal_pending _ _ _ _ _ _ fun s p x c => ?_
  (try dsimp only)
  split <;> simp only [State.tuFlag_pending, State.setUnit_pending, State.tuFlagIf_pending, eq_self]

@[simp] theorem State.xTable_pending (s : State) (u : LU) (o : MoveOp) (k : MoveKind) (n : Nat) (occ : Nat) :
    (State.xTable s u o k n occ).pending = s.pending := by
  refine State.xLocal_pending _ _ _ _ _ _ fun s p x c => ?_
  (try dsimp only)
  split <;> simp only [State.xRefused_pending, State.setUnit_pending, State.tuFlagIf_pending, eq_self]

@[simp] theorem State.xMon_pending (s : State) (u : LU) (o : MoveOp) :
    (State.xMon s u o).pending = s.pending := by
  refine State.xLocal_pending _ _ _ _ _ _ fun s p x c => ?_
  (try dsimp only)
  split <;> simp only [State.tuFlag_pending, State.setUnit_pending, State.tuFlagIf_pending, eq_self]

@[simp] theorem State.xEng_pending (s : State) (u : LU) (o : MoveOp) :
    (State.xEng s u o).pending = s.pending := by
  refine State.xLocal_pending _ _ _ _ _ _ fun s p x c => ?_
  (try dsimp only)
  split
  · simp only [State.xRefused_pending, eq_self]
  · refine State.takePort_pending _ _ _ _ _ _ _ fun s => ?_
    simp only [State.setUnit_pending, State.tuFlagIf_pending, eq_self]

@[simp] theorem State.xLd_pending (s : State) (u : LU) (o : MoveOp) :
    (State.xLd s u o).pending = s.pending := by
  simp only [State.xLd]
  (repeat' split) <;> simp

@[simp] theorem State.xSt_pending (s : State) (u : LU) (o : MoveOp) :
    (State.xSt s u o).pending = s.pending := by
  simp only [State.xSt]
  (repeat' split) <;> simp

@[simp] theorem State.xSend_pending (s : State) (u : LU) (o : MoveOp) :
    (State.xSend s u o).pending = s.pending := by
  simp only [State.xSend]
  (repeat' split) <;> simp

@[simp] theorem State.xRecv_pending (s : State) (u : LU) (o : MoveOp) :
    (State.xRecv s u o).pending = s.pending := by
  simp only [State.xRecv]
  (repeat' split) <;> simp

@[simp] theorem State.xRacc_pending (s : State) (u : LU) (o : MoveOp) :
    (State.xRacc s u o).pending = s.pending := by
  simp only [State.xRacc]
  (repeat' split) <;> simp

@[simp] theorem State.xIload_pending (s : State) (u : LU) (o : MoveOp) :
    (State.xIload s u o).pending = s.pending := by
  simp only [State.xIload]
  (repeat' split) <;> simp

@[simp] theorem State.xWtbl_pending (s : State) (u : LU) (o : MoveOp) :
    (State.xWtbl s u o).pending = s.pending := by
  simp only [State.xWtbl]
  (repeat' split) <;> simp only [State.xTable_pending, eq_self]

@[simp] theorem State.xDtbl_pending (s : State) (u : LU) (o : MoveOp) :
    (State.xDtbl s u o).pending = s.pending := by
  simp only [State.xDtbl]
  (repeat' split) <;> simp only [State.xTable_pending, eq_self]

@[simp] theorem State.moveSuspect_pending (s : State) (d : Die) (m : MoveFlight) (r : Reg) (b : Nat) :
    (State.moveSuspect s d m r b).pending = s.pending := by
  simp only [State.moveSuspect]; split <;> simp

@[simp] theorem State.isoError_pending (s : State) (u : LU) (m : MoveFlight) :
    (State.isoError s u m).1.pending = s.pending := by
  simp only [State.isoError]; split <;> simp

@[simp] theorem State.farRead_pending (s : State) (i : Issuer) (f : Far) (a : Nat) (e : LineEcc) :
    (State.farRead s i f a e).1.pending = s.pending := by
  simp only [State.farRead]; split <;> simp

@[simp] theorem State.farWrite_pending (s : State) (i : Issuer) (f : Far) (a : Nat) (b : List Byte) :
    (State.farWrite s i f a b).1.pending = s.pending := by
  simp only [State.farWrite]; split <;> simp

@[simp] theorem State.recvCheck_pending (s : State) (u : LU) (p : PU) (f : Flight) (m : MoveFlight) :
    (State.recvCheck s u p f m).1.pending = s.pending := by
  simp only [State.recvCheck]
  (repeat' split) <;> simp

@[simp] theorem State.landLine_pending (s : State) (u : LU) (p : PU) (f : Flight) (m : MoveFlight) (b : List Byte)
    (blank : Bool) :
    (State.landLine s u p f m b blank).pending = s.pending := by
  simp only [State.landLine]
  (repeat' split) <;> simp only [State.setUnit_pending, State.tuFlag_pending, State.modUnit_pending, eq_self]

@[simp] theorem State.raccApply_pending (s : State) (c : ClusterId) (f : Flight) (o : Opnd) (t : Far) :
    (State.raccApply s c f o t).pending = s.pending := by
  simp only [State.raccApply]; split <;> simp

@[simp] theorem State.sendInto_pending (s : State) (m : MoveFlight) (t : Far) (b : List Byte) (blank : Bool) :
    (State.sendInto s m t b blank).pending = s.pending := by
  simp only [State.sendInto]; split <;> rfl

@[simp] theorem State.sendLine_pending (s : State) (u : LU) (p : PU) (f : Flight) (m : MoveFlight) (t : Far)
    (b : List Byte) :
    (State.sendLine s u p f m t b).pending = s.pending := by
  simp only [State.sendLine]
  (repeat' split) <;> simp

@[simp] theorem State.bringLine_pending (s : State) (u : LU) (p : PU) (f : Flight) (m : MoveFlight) (t : Far)
    (e : LineEcc) :
    (State.bringLine s u p f m t e).pending = s.pending := by
  simp only [State.bringLine]
  (repeat' split) <;> simp

@[simp] theorem State.moveLineLand_pending (s : State) (u : LU) (id : Nat) (e : LineEcc) :
    (State.moveLineLand s u id e).pending = s.pending := by
  simp only [State.moveLineLand]
  (repeat' split) <;> simp only [State.landLine_pending, State.sendLine_pending, State.recvCheck_pending,
      State.bringLine_pending, eq_self]

@[simp] theorem State.digestTile_pending (s : State) (u : LU) (a : Nat) (f : Flight) (k : Nat) (b : List Byte) :
    (State.digestTile s u a f k b).pending = s.pending := by
  simp only [State.digestTile]; split <;> rfl

@[simp] theorem State.landTile_pending (s : State) (u : LU) (p : PU) (f : Flight) (k : Nat) (g : Fin 8)
    (b : List Byte) :
    (State.landTile s u p f k g b).pending = s.pending := by
  simp only [State.landTile]
  (repeat' split) <;> simp

@[simp] theorem State.galleyPushLand_pending (s : State) (u : LU) (id : Nat) :
    (State.galleyPushLand s u id).pending = s.pending := by
  simp only [State.galleyPushLand]
  (repeat' split) <;> simp

@[simp] theorem State.landArmed_pending (s : State) (u : LU) (p : PU) (c : Nat) :
    (State.landArmed s u p c).pending = s.pending := by
  refine foldl_pending _ (fun s a => ?_) _ _
  (try dsimp only)
  (repeat' split) <;> first
    | rfl
    | simp only [State.landTile_pending]

@[simp] theorem State.engineBlockArrive_pending (s : State) (u : LU) (id : Nat) :
    (State.engineBlockArrive s u id).pending = s.pending := by
  simp only [State.engineBlockArrive]
  (repeat' split) <;> simp

/-! ### Bundle -/

@[simp] theorem State.bundleIssue_pending (s : State) (u : LU) (p : PU) :
    (State.bundleIssue s u p).pending = s.pending := by
  simp only [State.bundleIssue]
  (repeat' split) <;> simp

/-! ### UnitTick -/

@[simp] theorem State.popTile_pending (s : State) (u : LU) (p : PU) (id : Nat) (d : PopDue) :
    (State.popTile s u p id d).pending = s.pending := by
  simp only [State.popTile]
  (repeat' split) <;> simp only [State.setUnit_pending, State.tuSuspect_pending, eq_self]

@[simp] theorem State.undefGalleys_pending (s : State) (p : PU) (c : Nat) :
    (State.undefGalleys s p c).pending = s.pending := by
  simp only [State.undefGalleys]; split <;> rfl

@[simp] theorem State.doPops_pending (s : State) (u : LU) (p : PU) (c : Nat) :
    (State.doPops s u p c).pending = s.pending := by
  simp only [State.doPops]; exact foldl_pending _ (fun _ _ => by simp only [State.popTile_pending, eq_self]) _ _

@[simp] theorem State.auditRead_pending (s : State) (u : LU) (p : PU) (f : Flight) (stream : Nat) (line : Nat) :
    (State.auditRead s u p f stream line).pending = s.pending := by
  simp only [State.auditRead]
  (repeat' split) <;> simp

@[simp] theorem State.loadRow_pending (s : State) (u : LU) (p : PU) (g : Fin 4) (n : Nat) (b : List Byte) :
    (State.loadRow s u p g n b).pending = s.pending := by
  simp only [State.loadRow]; split <;> rfl

@[simp] theorem State.putScratch_pending (s : State) (u : LU) (p : PU) (line : Nat) (b : List (Option Byte))
    (blank : Bool) (digest : Bool) :
    (State.putScratch s u p line b blank digest).pending = s.pending := by
  simp only [State.putScratch]
  (repeat' split) <;> rfl

@[simp] theorem State.catchLine_pending (s : State) (u : LU) (p : PU) (f : Flight) (a : LineAcc)
    (got : Option (List Byte)) (blank : Bool) :
    (State.catchLine s u p f a got blank).pending = s.pending := by
  simp only [State.catchLine]
  (repeat' split) <;> simp

@[simp] theorem State.noteLine_pending (s : State) (p : PU) (f : Flight) (k : Nat × Nat) (b : List Byte) :
    (State.noteLine s p f k b).pending = s.pending := by rfl

@[simp] theorem State.served_pending (s : State) (u : LU) (p : PU) (f : Flight) (a : LineAcc) :
    (State.served s u p f a).pending = s.pending := by
  simp only [State.served]
  (repeat' split) <;> simp

@[simp] theorem State.dropped_pending (s : State) (u : LU) (p : PU) (f : Flight) (a : LineAcc) :
    (State.dropped s u p f a).pending = s.pending := by
  simp only [State.dropped]; split <;> simp only [State.tuFlag_pending, State.catchLine_pending,
      State.modUnit_pending, eq_self]

@[simp] theorem State.accesses_pending (s : State) (u : LU) (p : PU) (c : Nat) (landOnly : Bool) :
    (State.accesses s u p c landOnly).pending = s.pending := by
  refine (foldl_pending1 _ (fun a b => ?_) _ _).trans ?_
  · (try dsimp only)
    (repeat' split) <;> simp only [State.dropped_pending, State.served_pending, eq_self]
  · (try dsimp only)
    split <;> simp only [State.modUnit_pending, eq_self]

@[simp] theorem State.landVectors_pending (s : State) (u : LU) (p : PU) (c : Nat) :
    (State.landVectors s u p c).pending = s.pending := by
  simp only [State.landVectors]; split <;> simp only [State.setUnit_pending, State.tuFlagIf_pending, eq_self]

@[simp] theorem State.landLocals_pending (s : State) (u : LU) (p : PU) (c : Nat) :
    (State.landLocals s u p c).pending = s.pending := by
  refine foldl_pending _ (fun s a => ?_) _ _
  have h : ∀ (m : MoveFlight) (key : Nat) (l : List Nat) (t : State), (l.foldl (fun s k =>
      if k < m.pushed || a.caught.lost.contains k then s else
      s.putScratch u p ((m.lines[k]?).getD 0) ((a.caught.lines.getD (key, k) zeroLine).map some)
        (m.kind == .pop && a.caught.blank) false) t).pending = t.pending :=
    fun m key l t => foldl_pending _ (fun s k => by (try dsimp only); split <;> simp only [State.putScratch_pending]) _ _
  (try dsimp only)
  (repeat' split) <;> first
    | rfl
    | simp only [State.modUnit_pending, h]

@[simp] theorem State.unitCycle_pending (s : State) (u : LU) (p : PU) (c : Nat) (issues : Bool) :
    (State.unitCycle s u p c issues).pending = s.pending := by
  simp only [State.unitCycle]; split <;> simp

@[simp] theorem State.heldCycle_pending (s : State) (u : LU) (p : PU) (c : Nat) :
    (State.heldCycle s u p c).pending = s.pending := by
  simp only [State.heldCycle]
  (repeat' split) <;> simp

@[simp] theorem State.recvChecks_pending (s : State) (u : LU) (p : PU) :
    (State.recvChecks s u p).pending = s.pending := by
  simp only [State.recvChecks]
  (repeat' split) <;> first
    | rfl
    | (simp only [State.recvCheck_pending, foldl_pending, foldl_pending1, ite_pending, ite_pending1, ite_self,
        implies_true, eq_self]; done)
    | (apply foldl_pending; intros; (repeat' split) <;> simp only [State.recvCheck_pending, eq_self]; done)
    | (simp only [foldl_pending, *]; done)
    | (simp_all only [State.recvCheck_pending, foldl_pending, foldl_pending1, ite_pending, ite_pending1, ite_self,
        implies_true, eq_self]; done)

@[simp] theorem State.nextCycle_pending (s : State) (r : RegionId) :
    (State.nextCycle s r).pending = s.pending := by
  simp only [State.nextCycle]
  (repeat' split) <;> simp only [State.count_pending, State.raiseBit_pending, State.modRegion_pending, eq_self]

@[simp] theorem State.regionCycle_pending (s : State) (r : RegionId) :
    (State.regionCycle s r).pending = s.pending := by
  simp only [State.regionCycle]
  (repeat' split) <;> simp [foldl_pending, ite_pending]

@[simp] theorem State.unitTick_pending (s : State) :
    (State.unitTick s).pending = s.pending := by
  refine foldl_pending _ (fun s a => ?_) _ _
  (try dsimp only)
  (repeat' split) <;> first
    | rfl
    | simp only [State.nextCycle_pending]
    | simp only [foldl_pending, State.recvChecks_pending, State.regionCycle_pending, implies_true]

/-! ### Update -/

@[simp] theorem State.modUpd_pending (s : State) (d : Die) (f : UpdS → UpdS) :
    (State.modUpd s d f).pending = s.pending := by rfl

@[simp] theorem State.bandLines_pending (s : State) (d : Die) (t : Stream) (v : Invocation) (k : Nat) :
    (State.bandLines s d t v k).1.pending = s.pending := by
  unfold State.bandLines; extract_lets; (repeat' split) <;> simp +zetaDelta [foldl_pending1]

@[simp] theorem State.bandCarried_pending (s : State) (d : Die) (t : Stream) (v : Invocation) (k : Nat)
    (cf16 : Bool) :
    (State.bandCarried s d t v k cf16).1.pending = s.pending := by
  simp [State.bandCarried, foldl_pending1]

@[simp] theorem State.bandIn_pending (s : State) (d : Die) (t : Stream) (v : Invocation) (k : Nat) :
    (State.bandIn s d t v k).1.pending = s.pending := by
  simp only [State.bandIn]
  (repeat' split) <;> simp

@[simp] theorem State.loadBand_pending (s : State) (d : Die) (r : InvRun) :
    (State.loadBand s d r).pending = s.pending := by
  simp only [State.loadBand, foldl_pending1, ite_pending1, State.bandIn_pending, State.modUpd_pending, ite_self,
      implies_true, eq_self]; done

@[simp] theorem State.updCounts_pending (s : State) (d : Die) (m : Fin 16) (c : Counts) :
    (State.updCounts s d m c).pending = s.pending := by rfl

@[simp] theorem State.bandOut_pending (s : State) (d : Die) (t : Stream) (i : Nat) (r : InvRun) :
    (State.bandOut s d t i r).pending = s.pending := by
  simp only [State.bandOut]
  (repeat' split) <;> simp [foldl_pending]

@[simp] theorem State.invStart_pending (s : State) (d : Die) :
    (State.invStart s d).pending = s.pending := by
  simp only [State.invStart]
  (repeat' split) <;> simp

@[simp] theorem State.invEnd_pending (s : State) (d : Die) :
    (State.invEnd s d).pending = s.pending := by
  simp only [State.invEnd]
  (repeat' split) <;> rfl

@[simp] theorem State.endBand_pending (s : State) (d : Die) (r : InvRun) :
    (State.endBand s d r).pending = s.pending := by
  simp only [State.endBand, foldl_pending, ite_pending, State.bandOut_pending, State.modUpd_pending,
      State.loadBand_pending, ite_self, implies_true, eq_self]

@[simp] theorem State.uRun_pending (s : State) (d : Die) (w : Word) (f : UpdS → InvRun → InvRun) :
    (State.uRun s d w f).pending = s.pending := by
  simp only [State.uRun]
  (repeat' split) <;> simp only [State.modUpd_pending, State.endBand_pending, eq_self]

@[simp] theorem State.u2_pending (s : State) (die : Die) (op : Nat) (d : Fin 16) (a : Fin 32) (b : Fin 32)
    (f : Val → Val → Val) :
    (State.u2 s die op d a b f).pending = s.pending := by
  simp only [State.u2]
  (repeat' split) <;> simp only [State.uRun_pending, eq_self]

@[simp] theorem State.u1_pending (s : State) (die : Die) (op : Nat) (d : Fin 16) (a : Fin 32)
    (f : List E40 → List E40) :
    (State.u1 s die op d a f).pending = s.pending := by
  simp only [State.u1]
  (repeat' split) <;> simp only [State.uRun_pending, eq_self]

@[simp] theorem State.u3_pending (s : State) (die : Die) (op : Nat) (d : Fin 16) (a : Fin 32) (b : Fin 32)
    (c : Fin 32) (f : Val → Val → Val → Val) :
    (State.u3 s die op d a b c f).pending = s.pending := by
  simp only [State.u3]
  (repeat' split) <;> simp only [State.uRun_pending, eq_self]

@[simp] theorem State.uAdd_pending (s : State) (die : Die) (d : Fin 16) (a : Fin 32) (b : Fin 32) :
    (State.uAdd s die d a b).pending = s.pending := by
  simp only [State.uAdd]
  (repeat' split) <;> simp only [State.u2_pending, eq_self]

@[simp] theorem State.uSub_pending (s : State) (die : Die) (d : Fin 16) (a : Fin 32) (b : Fin 32) :
    (State.uSub s die d a b).pending = s.pending := by
  simp only [State.uSub]
  (repeat' split) <;> simp only [State.u2_pending, eq_self]

@[simp] theorem State.uMul_pending (s : State) (die : Die) (d : Fin 16) (a : Fin 32) (b : Fin 32) :
    (State.uMul s die d a b).pending = s.pending := by
  simp only [State.uMul]
  (repeat' split) <;> simp only [State.u2_pending, eq_self]

@[simp] theorem State.uFma_pending (s : State) (die : Die) (d : Fin 16) (a : Fin 32) (b : Fin 32) (c : Fin 32) :
    (State.uFma s die d a b c).pending = s.pending := by
  simp only [State.uFma]
  (repeat' split) <;> simp only [State.u3_pending, eq_self]

@[simp] theorem State.uDiv_pending (s : State) (die : Die) (d : Fin 16) (a : Fin 32) (b : Fin 32) :
    (State.uDiv s die d a b).pending = s.pending := by
  simp only [State.uDiv]
  (repeat' split) <;> simp only [State.u2_pending, eq_self]

@[simp] theorem State.uSqrt_pending (s : State) (die : Die) (d : Fin 16) (a : Fin 32) :
    (State.uSqrt s die d a).pending = s.pending := by
  simp only [State.uSqrt]
  (repeat' split) <;> simp only [State.u1_pending, eq_self]

@[simp] theorem State.uRsq_pending (s : State) (die : Die) (d : Fin 16) (a : Fin 32) :
    (State.uRsq s die d a).pending = s.pending := by
  simp only [State.uRsq]
  (repeat' split) <;> simp only [State.u1_pending, eq_self]

@[simp] theorem State.uSign_pending (s : State) (die : Die) (d : Fin 16) (a : Fin 32) :
    (State.uSign s die d a).pending = s.pending := by
  simp only [State.uSign]
  (repeat' split) <;> simp only [State.u1_pending, eq_self]

@[simp] theorem State.uAbs_pending (s : State) (die : Die) (d : Fin 16) (a : Fin 32) :
    (State.uAbs s die d a).pending = s.pending := by
  simp only [State.uAbs]
  (repeat' split) <;> simp only [State.u1_pending, eq_self]

@[simp] theorem State.uClamp_pending (s : State) (die : Die) (d : Fin 16) (a : Fin 32) (b : Fin 32) (c : Fin 32) :
    (State.uClamp s die d a b c).pending = s.pending := by
  simp only [State.uClamp]
  (repeat' split) <;> simp only [State.u3_pending, eq_self]

@[simp] theorem State.uLd_pending (s : State) (die : Die) (d : Fin 16) (st : Fin 8) :
    (State.uLd s die d st).pending = s.pending := by
  simp only [State.uLd]
  (repeat' split) <;> simp only [State.uRun_pending, eq_self]

@[simp] theorem State.uSt_pending (s : State) (die : Die) (a : Fin 32) (st : Fin 8) :
    (State.uSt s die a st).pending = s.pending := by
  simp only [State.uSt]
  (repeat' split) <;> simp only [State.uRun_pending, eq_self]

@[simp] theorem State.uStw_pending (s : State) (die : Die) (a : Fin 32) (st : Fin 8) (sr : Bool) :
    (State.uStw s die a st sr).pending = s.pending := by
  simp only [State.uStw]; split <;> simp only [State.uRun_pending, eq_self]

@[simp] theorem State.uEnd_pending (s : State) (die : Die) :
    (State.uEnd s die).pending = s.pending := by
  simp only [State.uEnd]
  (repeat' split) <;> simp only [State.endBand_pending, eq_self]

@[simp] theorem State.loadStepRow_pending (s : State) (d : Die) :
    (State.loadStepRow s d).pending = s.pending := by
  simp only [State.loadStepRow]
  (repeat' split) <;> simp

/-! ### Boundaries -/

@[simp] theorem State.slip_pending (s : State) (b : SlipBlock) :
    (State.slip s b).pending = s.pending := by rfl

@[simp] theorem State.slipNotice_pending (s : State) :
    (State.slipNotice s).pending = s.pending := by
  simp only [State.slipNotice]; split <;> simp only [State.sendMsg_pending, State.modLinks_pending, eq_self]

@[simp] theorem State.regionBoundary_pending (s : State) (p : Part) (r : RegionId) :
    (State.regionBoundary s p r).pending = s.pending := by
  simp only [State.regionBoundary, foldl_pending, ite_pending, State.noteLag_pending, State.raiseSuspect_pending,
      State.slip_pending, State.raiseBit_pending, State.suspect_pending, State.modUnit_pending, ite_self,
      implies_true, eq_self]

@[simp] theorem State.clockBoundary_pending (s : State) (r : RegionId) :
    (State.clockBoundary s r).pending = s.pending := by rfl

@[simp] theorem State.updBoundary_pending (s : State) (p : Part) (d : Die) :
    (State.updBoundary s p d).pending = s.pending := by
  simp only [State.updBoundary]
  (repeat' split) <;> simp only [State.modUpd_pending, State.raiseSuspect_pending, State.slip_pending, eq_self]

@[simp] theorem State.adderBoundary_pending (s : State) (p : Part) (d : Die) :
    (State.adderBoundary s p d).pending = s.pending := by
  simp only [State.adderBoundary]
  (repeat' split) <;> simp only [State.raiseSuspect_pending, State.slip_pending, State.modRed_pending, eq_self]

@[simp] theorem State.hbmBoundary_pending (s : State) (p : Part) (d : Die) :
    (State.hbmBoundary s p d).pending = s.pending := by
  simp only [State.hbmBoundary]; split <;> simp only [State.modDie_pending, State.raiseSuspect_pending,
      State.slip_pending, eq_self]

@[simp] theorem State.unitStep_pending (s : State) (f : Forme) (u : LU) (p : PU) :
    (State.unitStep s f u p).pending = s.pending := by
  simp only [State.unitStep]
  (repeat' split) <;> simp [foldl_pending]

@[simp] theorem State.unitsStep_pending (s : State) (p : Part) (f : Forme) :
    (State.unitsStep s p f).pending = s.pending := by
  simp only [State.unitsStep]
  refine foldl_pending _ (fun s a => ?_) _ _
  (try dsimp only)
  refine (foldl_pending _ (fun s a => ?_) _ _).trans (foldl_pending _ (fun s a => ?_) _ _)
  · simp only [State.unitStep_pending]
  · split <;> simp only [State.unitStep_pending]

@[simp] theorem State.bankMonitors_pending (s : State) (p : Part) :
    (State.bankMonitors s p).pending = s.pending := by
  simp only [State.bankMonitors]; exact foldl_pending _ (fun _ _ => by simp only [State.modUpd_pending, eq_self]) _ _

@[simp] theorem State.loadVariant_pending (s : State) (p : Part) :
    (State.loadVariant s p).pending = s.pending := by
  refine foldl_pending _ (fun s a => foldl_pending _ (fun s a => foldl_pending _ (fun s a => ?_) _ _) _ _) _ _
  (try dsimp only)
  split <;> simp only [State.loadBanks_pending, eq_self]

@[simp] theorem State.loadReplay_pending (s : State) (p : Part) :
    (State.loadReplay s p).pending = s.pending := by
  simp only [State.loadReplay]
  split
  · rfl
  · refine foldl_pending _ (fun s a => ?_) _ _
    (try dsimp only)
    split
    · rfl
    · exact foldl_pending _ (fun s a => by simp only [State.modUnit_pending, eq_self]) _ _

@[simp] theorem State.takeVariant_pending (s : State) (p : Part) (c : Choice) :
    (State.takeVariant s p c).pending = s.pending := by
  simp only [State.takeVariant, foldl_pending, ite_pending, State.modPart_pending, State.loadVariant_pending,
      State.raiseBit_pending, ite_self, implies_true, eq_self]

@[simp] theorem State.postReport_pending (s : State) (p : Part) (f : Forme) (r : StepReport) :
    (State.postReport s p f r).pending = s.pending := by rfl

@[simp] theorem State.formReport_pending (s : State) (p : Part) (f : Forme) (promoted : Bool) :
    (State.formReport s p f promoted).pending = s.pending := by
  simp only [State.formReport]
  (repeat' split) <;> simp

@[simp] theorem State.dueReports_pending (s : State) :
    (State.dueReports s).pending = s.pending := by
  refine foldl_pending _ (fun s a => ?_) _ _
  (try dsimp only)
  split <;> simp only [State.postReport_pending]

@[simp] theorem State.inputCheck_pending (s : State) (p : Part) (f : Forme) :
    (State.inputCheck s p f).pending = s.pending := by
  simp only [State.inputCheck]
  (repeat' split) <;> first
    | rfl
    | (simp; done)
    | (apply foldl_pending; intros; (repeat' split) <;> simp; done)
    | (simp only [foldl_pending, *]; done)
    | (simp_all; done)

@[simp] theorem State.boundaryWork_pending (s : State) (p : Part) :
    (State.boundaryWork s p).pending = s.pending := by
  simp only [State.boundaryWork]
  (repeat' split) <;> simp [foldl_pending]

@[simp] theorem State.endStep_pending (s : State) (p : Part) (f : Forme) (promoted : Bool) :
    (State.endStep s p f promoted).pending = s.pending := by
  simp only [State.endStep]
  (repeat' split) <;> simp

@[simp] theorem State.beginStep_pending (s : State) (p : Part) (f : Forme) (first : Bool) (c : Choice) :
    (State.beginStep s p f first c).pending = s.pending := by
  simp only [State.beginStep]
  (repeat' split) <;> simp [foldl_pending]

@[simp] theorem State.haltAs_pending (s : State) (p : Part) :
    (State.haltAs s p).pending = s.pending := by
  simp only [State.haltAs]
  (repeat' split) <;> simp only [State.haltPart_pending, State.endJobs_pending, State.syncGear_pending, eq_self]

@[simp] theorem State.fallowWatch_pending (s : State) (p : Part) :
    (State.fallowWatch s p).pending = s.pending := by
  refine foldl_pending _ (fun s a => ?_) _ _
  (try dsimp only)
  split
  · rfl
  · exact foldl_pending _ (fun s a => by (try dsimp only); split <;> simp only [State.raiseBit_pending, State.wr_pending, eq_self]) _ _

@[simp] theorem State.commit_pending (s : State) (p : Part) :
    (State.commit s p).pending = s.pending := by
  simp only [State.commit]; split <;> simp only [State.commitTick_pending, State.fallowWatch_pending, eq_self]

@[simp] theorem State.haltStep_pending (s : State) (p : Part) (f : Forme) (halt : State → State)
    (hhalt : ∀ x0, (halt x0).pending = x0.pending) :
    (State.haltStep s p f halt).pending = s.pending := by
  simp only [State.haltStep]
  (repeat' split) <;> first | rfl | (simp; done) | (simp_all; done)

@[simp] theorem State.stepBoundary_pending (s : State) (p : Part) :
    (State.stepBoundary s p).pending = s.pending := by
  simp only [State.stepBoundary]
  (repeat' split) <;> simp

@[simp] theorem State.formeHalt_pending (s : State) (p : Part) :
    (State.formeHalt s p).pending = s.pending := by
  simp only [State.formeHalt]
  (repeat' split) <;> simp

@[simp] theorem State.lostBoundary_pending (s : State) :
    (State.lostBoundary s).pending = s.pending := by
  simp only [State.lostBoundary, foldl_pending, ite_pending, State.formeHalt_pending, State.modHt_pending,
      State.modLinks_pending,
      ite_self, implies_true, eq_self]

@[simp] theorem State.furrowBoundary_pending (s : State) :
    (State.furrowBoundary s).pending = s.pending := by
  simp only [State.furrowBoundary, foldl_pending, ite_pending, State.regionBoundary_pending,
      State.updBoundary_pending, State.adderBoundary_pending, State.hbmBoundary_pending, State.modDie_pending,
      State.slipNotice_pending, State.lostBoundary_pending, State.capInForce_pending, State.vtabBoundary_pending,
      State.laneSwitches_pending, State.bandExit_pending, State.capBoundary_pending, State.clockBoundary_pending,
      ite_self, implies_true, eq_self]

@[simp] theorem State.runStart_pending (s : State) (p : Part) :
    (State.runStart s p).pending = s.pending := by
  simp only [State.runStart]
  (repeat' split) <;> simp

@[simp] theorem State.spareBankLoad_pending (s : State) (l : LU) :
    (State.spareBankLoad s l).pending = s.pending := by
  simp only [State.spareBankLoad]
  (repeat' split) <;> simp only [State.loadBanks_pending, eq_self]

@[simp] theorem State.digestDue_pending (s : State) (t : Nat) :
    (State.digestDue s t).pending = s.pending := by
  simp only [State.digestDue]
  (repeat' first | split | (rw [foldl_pending]; (try (intros; (repeat' split) <;> simp only [State.sendMsg_pending, State.modTwin_pending, eq_self]; done)))) <;> simp only [foldl_pending, ite_pending, State.sendMsg_pending, State.modTwin_pending, foldl_pending1, ite_pending1, ite_self, implies_true, eq_self]

@[simp] theorem State.sendTramline_pending (s : State) (p : Port) :
    (State.sendTramline s p).pending = s.pending := by
  simp only [State.sendTramline]; split <;> simp only [State.digestDue_pending, State.tramlineSend_pending,
      State.detachSent_pending, eq_self]

/-! ### Replay -/

theorem State.acceptReplay_pending (s t : State) (r : RegionId) (n : Nat) (e : ReplayEntry) (u : LU) (tw : Bool)
    (h : s.acceptReplay r n e u tw = some t) : t.pending = s.pending := by
  simp only [State.acceptReplay] at h
  (repeat' split at h) <;> first | (cases h; done) | skip
  all_goals (cases h; simp only [State.wrFld_pending, eq_self])

@[simp] theorem State.replayMailbox_pending (s : State) (r : RegionId) :
    (State.replayMailbox s r).pending = s.pending := by
  simp only [State.replayMailbox]
  split
  · split
    · rfl
    · split
      · rfl
      · split
        · rfl
        · split
          · rfl
          · split
            · rename_i h
              exact (State.acceptReplay_pending _ _ _ _ _ _ _ h).trans (State.modDie_pending _ _ _)
            · simp only [State.modDie_pending, State.raiseBit_pending, eq_self]
  · rfl

@[simp] theorem State.replayStart_pending (s : State) (r : RegionId) (second : Bool) :
    (State.replayStart s r second).pending = s.pending := by
  simp only [State.replayStart]
  (repeat' split) <;> rfl

@[simp] theorem State.twinRequest_pending (s : State) (r : RegionId) (line : List Byte) :
    (State.twinRequest s r line).pending = s.pending := by
  simp only [State.twinRequest]
  split
  · split
    · rfl
    · split
      · rfl
      · split
        · cases h : s.acceptReplay r _ _ _ true with
          | none => rfl
          | some t => exact State.acceptReplay_pending _ _ _ _ _ _ _ h
        · rfl
  · rfl

@[simp] theorem State.fieldFail_pending (s : State) (d : Die) (region : Nat) (index : Nat) :
    (State.fieldFail s d region index).pending = s.pending := by
  simp only [State.fieldFail]; split <;> rfl

@[simp] theorem State.laneFail_pending (s : State) (p : Option Part) (l : Lane) :
    (State.laneFail s p l).pending = s.pending := by
  simp only [State.laneFail]
  (repeat' split) <;> simp

@[simp] theorem State.proofFail_pending (s : State) (p : Option Part) (x : ProofFail) :
    (State.proofFail s p x).pending = s.pending := by
  simp only [State.proofFail]; split <;> simp only [State.fieldFail_pending, State.fence_pending,
      State.fenceUnit_pending, State.fenceDie_pending, State.laneFail_pending, implies_true, eq_self]

@[simp] theorem State.autoProofEnd_pending (s : State) (p : Part) (fails : List ProofFail) :
    (State.autoProofEnd s p fails).pending = s.pending := by
  simp only [State.autoProofEnd]
  (repeat' split) <;> simp [foldl_pending]

@[simp] theorem State.fieldProofEnd_pending (s : State) (fails : List PU) :
    (State.fieldProofEnd s fails).pending = s.pending := by
  refine foldl_pending _ (fun s a => ?_) _ _
  (try dsimp only)
  split
  · split
    · rfl
    · rw [State.endJobs_pending]
      exact foldl_pending _ (fun s u => by rw [State.fence_pending _ _ (fun x => by simp only [State.fenceUnit_pending, eq_self])]; simp only [State.fieldFail_pending, eq_self]) _ _
  · rfl

@[simp] theorem State.releaseUnits_pending (s : State) (ps : List PU) :
    (State.releaseUnits s ps).pending = s.pending := by
  simp only [State.releaseUnits]
  (repeat' split) <;> first
    | rfl
    | (simp only [State.wr_pending, foldl_pending, foldl_pending1, ite_pending, ite_pending1, ite_self,
        implies_true, eq_self]; done)
    | (apply foldl_pending; intros; (repeat' split) <;> simp only [State.wr_pending, eq_self]; done)
    | (simp only [foldl_pending, *]; done)
    | (simp_all only [State.wr_pending, foldl_pending, foldl_pending1, ite_pending, ite_pending1, ite_self,
        implies_true, eq_self]; done)

@[simp] theorem State.placeUnits_pending (s : State) (r : RegionId) :
    (State.placeUnits s r).pending = s.pending := by
  simp only [State.placeUnits]
  (repeat' first | split | (rw [foldl_pending]; (try (intros; (repeat' split) <;> simp only [State.fence_pending, State.substitute_pending, State.wr_pending, implies_true, eq_self]; done)))) <;> simp only [foldl_pending, ite_pending, State.fence_pending, State.substitute_pending, State.wr_pending, foldl_pending1, ite_pending1, ite_self, implies_true, eq_self]

@[simp] theorem State.releaseRegion_pending (s : State) (r : RegionId) (failed : List PU) :
    (State.releaseRegion s r failed).pending = s.pending := by
  simp only [State.releaseRegion]
  (repeat' split) <;> simp only [State.releaseUnits_pending, State.placeUnits_pending, eq_self]

@[simp] theorem State.blockProofEnd_pending (s : State) (fails : List ProofFail) :
    (State.blockProofEnd s fails).pending = s.pending := by
  simp only [State.blockProofEnd]
  (repeat' split) <;> simp only [foldl_pending, ite_pending, State.wr_pending, State.wrBit_pending,
      State.laneFail_pending, State.proofOff_pending,
      State.fieldFail_pending, State.releaseRegion_pending, State.syncFence_pending, State.syncDomains_pending,
          State.raiseAll_pending,
      State.endJobs_pending, ite_self, implies_true, eq_self]

@[simp] theorem State.clockLoss_pending (s : State) (c : ClkDom) :
    (State.clockLoss s c).pending = s.pending := by
  simp only [State.clockLoss]; split <;> rfl

@[simp] theorem State.clockReturn_pending (s : State) (c : ClkDom) :
    (State.clockReturn s c).pending = s.pending := by
  simp only [State.clockReturn]; split <;> rfl

/-! ### Load -/

@[simp] theorem State.loadDie_pending (s : State) (f : Forme) (d : Die) :
    (State.loadDie s f d).pending = s.pending := by
  simp only [State.loadDie]
  (repeat' split) <;> simp only [State.wr_pending, State.wrBit_pending, State.wrFld_pending, foldl_pending,
      implies_true, eq_self]

@[simp] theorem State.loadPort_pending (s : State) (c : PortClaim) :
    (State.loadPort s c).pending = s.pending := by
  simp only [State.loadPort]
  (repeat' split) <;> simp [foldl_pending, ite_pending]

@[simp] theorem State.loadForme_pending (s : State) (p : Part) (f : Forme) :
    (State.loadForme s p f).pending = s.pending := by
  simp only [State.loadForme]
  (repeat' split) <;> simp [foldl_pending, ite_pending]

@[simp] theorem State.degradeOkNow_pending (s : State) (p : Port) :
    (State.degradeOkNow s p).pending = s.pending := by
  simp only [State.degradeOkNow]; exact foldl_pending _ (fun _ _ => by simp) _ _

@[simp] theorem State.unload_pending (s : State) (p : Part) :
    (State.unload s p).pending = s.pending := by
  exact (State.sparesDue_pending _ _).trans ((foldl_pending _ (fun s i => State.degradeOkNow_pending _ _) _ _).trans (State.modPart_pending _ _ _))

@[simp] theorem State.formeLoad_pending (s : State) (q : Req) (r : FormeRead) :
    (State.formeLoad s q r).pending = s.pending := by
  simp only [State.formeLoad]
  (repeat' split) <;> simp only [State.reply_pending, State.unload_pending, State.loadForme_pending, eq_self]

@[simp] theorem State.formeArm_pending (s : State) (q : Req) (start : Word) (cold : Bool) :
    (State.formeArm s q start cold).pending = s.pending := by
  simp only [State.formeArm]
  (repeat' split) <;> simp only [foldl_pending, ite_pending, State.reply_pending, State.setArmed_pending,
      State.wr_pending,
      State.modPart_pending, State.loadVariant_pending, State.loadReplay_pending, State.addJob_pending,
          State.proofOn_pending,
      State.syncRegionGear_pending, ite_self, implies_true, eq_self]

@[simp] theorem State.formeDisarm_pending (s : State) (q : Req) :
    (State.formeDisarm s q).pending = s.pending := by
  simp only [State.formeDisarm]
  (repeat' split) <;> simp only [State.reply_pending, State.disarm_pending, eq_self]

/-! ### Registers -/

@[simp] theorem State.noteDebug_pending (s : State) (who : Requester) (write : Bool) :
    (State.noteDebug s who write).pending = s.pending := by
  simp only [State.noteDebug]; split <;> rfl

@[simp] theorem State.refused_pending (s : State) (who : Requester) (a : Nat) (b : Nat) :
    (State.refused s who a b).pending = s.pending := by
  simp only [State.refused]; split <;> rfl

@[simp] theorem State.clearRead_pending (s : State) (r : Reg) (v : Word) :
    (State.clearRead s r v).pending = s.pending := by
  simp only [State.clearRead]
  (repeat' split) <;> rfl

@[simp] theorem State.setShadow_pending (s : State) (who : Requester) (a : Nat) (v : Option Word) :
    (State.setShadow s who a v).pending = s.pending := by rfl

@[simp] theorem State.out_pending (s : State) (v : Word) :
    (State.out s v).pending = s.pending := by rfl

@[simp] theorem State.readReg_pending (s : State) (who : Requester) (r : Reg) :
    (State.readReg s who r).pending = s.pending := by
  simp only [State.readReg]
  (repeat' split) <;> simp only [State.setShadow_pending, State.clearRead_pending, State.out_pending, eq_self]

@[simp] theorem State.busRead_pending (s : State) (who : Requester) (a : Nat) :
    (State.busRead s who a).pending = s.pending := by
  simp only [State.busRead]
  (repeat' split) <;> simp only [State.out_pending, State.refused_pending, State.noteDebug_pending,
      State.readReg_pending, eq_self]

@[simp] theorem State.debugRead_pending (s : State) (who : Requester) (a : Nat) :
    (State.debugRead s who a).pending = s.pending := by
  simp only [State.debugRead]
  (repeat' split) <;> simp only [State.refused_pending, State.out_pending, State.noteDebug_pending, eq_self]

@[simp] theorem State.partitionWrite_pending (s : State) (d : Die) (v : Word) :
    (State.partitionWrite s d v).pending = s.pending := by
  simp only [State.partitionWrite]; split <;> simp

@[simp] theorem State.imposeWrite_pending (s : State) (l : LU) (v : Word) :
    (State.imposeWrite s l v).pending = s.pending := by
  simp only [State.imposeWrite]
  (repeat' split) <;> simp only [State.raiseBit_pending, State.storeReg_pending, State.syncFence_pending, eq_self]

@[simp] theorem State.quoinWrite_pending (s : State) (v : Word) :
    (State.quoinWrite s v).pending = s.pending := by rfl

@[simp] theorem State.hbmCfgWrite_pending (s : State) (d : Die) (v : Word) :
    (State.hbmCfgWrite s d v).pending = s.pending := by
  simp only [State.hbmCfgWrite]; split <;> rfl

@[simp] theorem State.twCfgWrite_pending (s : State) (v : Word) :
    (State.twCfgWrite s v).pending = s.pending := by
  simp only [State.twCfgWrite]; split <;> simp only [State.raiseBit_pending, State.storeReg_pending, eq_self]

@[simp] theorem State.fuseCtlWrite_pending (s : State) (who : Requester) (v : Word) :
    (State.fuseCtlWrite s who v).pending = s.pending := by
  simp only [State.fuseCtlWrite]
  (repeat' split) <;> simp only [State.refused_pending, State.storeReg_pending, State.wrBit_pending, eq_self]

@[simp] theorem State.fuseDone_pending (s : State) (verified : Bool) :
    (State.fuseDone s verified).pending = s.pending := by
  simp only [State.fuseDone]
  (repeat' split) <;> rfl

@[simp] theorem State.ownWrite_pending (s : State) (who : Requester) (r : Reg) (v : Word) :
    (State.ownWrite s who r v).pending = s.pending := by
  simp only [State.ownWrite]
  (repeat' split) <;> simp only [State.setLoWrite_pending, State.htConfigWrite_pending, State.nodeIdWrite_pending,
      State.partitionWrite_pending, State.imposeWrite_pending, State.vtabWrite_pending, State.quoinWrite_pending,
      State.fuseCtlWrite_pending, State.ldSpareWrite_pending, State.hbmCfgWrite_pending, State.twCfgWrite_pending,
      State.tgStop_pending, State.tgStart_pending, State.storeReg_pending, eq_self]

@[simp] theorem State.judgedWrite_pending (s : State) (who : Requester) (r : Reg) (v : Word) :
    (State.judgedWrite s who r v).pending = s.pending := by
  simp only [State.judgedWrite]; split <;> simp only [State.refused_pending, State.ownWrite_pending, eq_self]

@[simp] theorem State.busWrite_pending (s : State) (who : Requester) (a : Nat) (whole : Bool) (v : Word) :
    (State.busWrite s who a whole v).pending = s.pending := by
  simp only [State.busWrite]
  (repeat' split) <;> simp only [State.refused_pending, State.noteDebug_pending, State.judgedWrite_pending, eq_self]

/-! ### Data -/

@[simp] theorem State.runAt_pending (s : State) (q : Req) :
    (State.runAt s q).pending = s.pending := by
  simp only [State.runAt]
  (repeat' split) <;> simp only [State.reply_pending, State.addJob_pending, eq_self]

@[simp] theorem State.haltAt_pending (s : State) (q : Req) :
    (State.haltAt s q).pending = s.pending := by
  simp only [State.haltAt]
  (repeat' split) <;> simp only [State.reply_pending, State.addJob_pending, eq_self]

@[simp] theorem State.gearCommand_pending (s : State) (q : Req) (gear : Nat) :
    (State.gearCommand s q gear).pending = s.pending := by
  simp only [State.gearCommand]
  (repeat' split) <;> simp only [State.reply_pending, State.addJob_pending, State.syncGear_pending, eq_self]

@[simp] theorem State.cancel_pending (s : State) (q : Req) (slot : Nat) (tag : Half) :
    (State.cancel s q slot tag).pending = s.pending := by
  simp only [State.cancel]
  (repeat' split) <;> simp only [State.reply_pending, State.endJobs_pending, State.syncGear_pending, eq_self]

@[simp] theorem State.snapshot_pending (s : State) (q : Req) (step : Word) (variant : Nat) (ship : Bool)
    (stream : Half) (ports : Nat) :
    (State.snapshot s q step variant ship stream ports).pending = s.pending := by
  simp only [State.snapshot]
  (repeat' split) <;> simp only [State.reply_pending, State.modPart_pending, State.addJob_pending, eq_self]

@[simp] theorem State.fieldProof_pending (s : State) (q : Req) (mask : Half) :
    (State.fieldProof s q mask).pending = s.pending := by rfl

@[simp] theorem State.fenceRecord_pending (s : State) (react : Nat) (die : Nat) (region : Nat) (index : Nat)
    (p : Option Part) (suspect : Bool) :
    (State.fenceRecord s react die region index p suspect).pending = s.pending := by rfl

@[simp] theorem State.fenceCommand_pending (s : State) (q : Req) (level : Nat) (die : Nat) (region : Nat)
    (pos : Nat) :
    (State.fenceCommand s q level die region pos).pending = s.pending := by
  simp only [State.fenceCommand]
  (repeat' split) <;> simp only [State.fenceRecord_pending, State.reply_pending, State.fence_pending,
      State.fenceUnit_pending, State.fenceRegion_pending, State.fenceDie_pending, State.fenceLd_pending,
      State.syncFence_pending, implies_true, eq_self]

@[simp] theorem State.proofRun_pending (s : State) (q : Req) (p : ProofParams) (r : HostRead) :
    (State.proofRun s q p r).pending = s.pending := by
  simp only [State.proofRun]
  (repeat' split) <;> simp only [State.reply_pending, State.accFlag_pending, State.raiseBit_pending,
      State.modCluster_pending,
      State.modUnit_pending, State.tuFlag_pending, State.accFlags_pending, State.accFlagIf_pending,
      State.addJob_pending, eq_self]

@[simp] theorem State.pageRetire_pending (s : State) (q : Req) (die : Nat) (page : Nat) :
    (State.pageRetire s q die page).pending = s.pending := by
  simp only [State.pageRetire]
  (repeat' split) <;> simp only [State.reply_pending, State.raiseBit_pending, State.startCopy_pending,
      State.addJob_pending, eq_self]

@[simp] theorem State.dmaTake_pending (s : State) (d : Die) (p : DmaParams) :
    (State.dmaTake s d p).1.pending = s.pending := by
  simp only [State.dmaTake]
  refine foldl_pending1 _ (fun a b => ?_) _ _
  (try dsimp only)
  split <;> simp only [State.pageRange_pending, State.engineRead_pending]

@[simp] theorem State.dmaPut_pending (s : State) (d : Die) (p : DmaParams) (b : List Byte) :
    (State.dmaPut s d p b).pending = s.pending := by
  simp only [State.dmaPut]
  refine foldl_pending _ (fun a b => ?_) _ _
  (try dsimp only)
  split <;> simp only [State.pageRange_pending, State.engineWrite_pending]

@[simp] theorem State.dma_pending (s : State) (q : Req) (p : DmaParams) (write : Bool) :
    (State.dma s q p write).pending = s.pending := by
  simp only [State.dma]
  (repeat' split) <;> simp only [State.reply_pending, State.addJob_pending, State.dmaTake_pending, eq_self]

@[simp] theorem State.toHost_pending (s : State) (a : Nat) (b : List Byte) :
    (State.toHost s a b).pending = s.pending := by rfl

@[simp] theorem State.transferDone_pending (s : State) (src : Src) (r : HostRead) :
    (State.transferDone s src r).pending = s.pending := by
  simp only [State.transferDone]
  (repeat' split) <;> simp

@[simp] theorem State.streamOpen_pending (s : State) (q : Req) (p : StreamParams) :
    (State.streamOpen s q p).pending = s.pending := by
  simp only [State.streamOpen]
  (repeat' split) <;> simp only [State.reply_pending, eq_self]

@[simp] theorem State.streamClose_pending (s : State) (q : Req) (id : Half) :
    (State.streamClose s q id).pending = s.pending := by
  simp only [State.streamClose]; split <;> simp only [State.reply_pending, eq_self]

@[simp] theorem State.capSet_pending (s : State) (q : Req) (watts : Nat) :
    (State.capSet s q watts).pending = s.pending := by
  simp only [State.capSet]
  (repeat' split) <;> simp only [State.reply_pending, State.endJobs_pending, State.wrFld_pending,
      State.wrBit_pending, State.addJob_pending, eq_self]

@[simp] theorem State.twinMode_pending (s : State) (q : Req) (mode : Nat) :
    (State.twinMode s q mode).pending = s.pending := by
  simp only [State.twinMode]
  (repeat' split) <;> simp only [State.reply_pending, State.wrBit_pending, eq_self]

@[simp] theorem State.twinDetach_pending (s : State) (q : Req) :
    (State.twinDetach s q).pending = s.pending := by rfl

@[simp] theorem State.settingsGet_pending (s : State) (q : Req) (k : Half) :
    (State.settingsGet s q k).pending = s.pending := by
  simp only [State.settingsGet]; split <;> simp only [State.reply_pending, eq_self]

@[simp] theorem State.monSettings_pending (s : State) :
    (State.monSettings s).pending = s.pending := by rfl

@[simp] theorem State.settingsSet_pending (s : State) (q : Req) (k : Half) (v : Word) :
    (State.settingsSet s q k v).pending = s.pending := by
  simp only [State.settingsSet]
  (repeat' split) <;> simp

@[simp] theorem State.tgStopFree_pending (s : State) (d : Die) (c : Fin 32) :
    (State.tgStopFree s d c).pending = s.pending := by
  simp only [State.tgStopFree]
  (repeat' split) <;> simp only [State.tgStop_pending, eq_self]

@[simp] theorem State.trafficGen_pending (s : State) (q : Req) (p : TgParams) :
    (State.trafficGen s q p).pending = s.pending := by
  simp only [State.trafficGen]
  (repeat' split) <;> simp only [foldl_pending, State.tgStopFree_pending, State.reply_pending,
      State.storeReg_pending, State.tgStart_pending, State.addJob_pending, implies_true, eq_self]

@[simp] theorem State.telemetryRead_pending (s : State) (q : Req) (selector : Nat) (index : Nat) (count : Nat)
    (host : Nat) :
    (State.telemetryRead s q selector index count host).pending = s.pending := by
  simp only [State.telemetryRead]
  (repeat' split) <;> simp only [State.reply_pending, State.addJob_pending, eq_self]

/-! ### Security -/

@[simp] theorem State.attest_pending (s : State) (q : Req) (nonce : List Byte) (mask : Word) :
    (State.attest s q nonce mask).pending = s.pending := by
  simp only [State.attest]; split <;> simp only [State.reply_pending, eq_self]

@[simp] theorem State.syncSec_pending (s : State) :
    (State.syncSec s).pending = s.pending := by rfl

@[simp] theorem State.drawChallenge_pending (s : State) :
    (State.drawChallenge s).pending = s.pending := by rfl

@[simp] theorem State.vendorReturn_pending (s : State) :
    (State.vendorReturn s).pending = s.pending := by
  simp only [State.vendorReturn, State.wrBit_pending]
  refine (foldl_pending _ (fun s a => by simp only [State.wr_pending, eq_self]) _ _).trans ?_
  rfl

@[simp] theorem State.clearStacks_pending (s : State) :
    (State.clearStacks s).pending = s.pending := by rfl

@[simp] theorem State.secEnter_pending (s : State) (target : Nat) :
    (State.secEnter s target).pending = s.pending := by
  simp only [State.secEnter]; split <;> simp only [State.syncSec_pending, State.vendorReturn_pending,
      State.clearStacks_pending, eq_self]

@[simp] theorem State.secTransition_pending (s : State) (q : Req) (target : Nat) (key : List Byte) (sig : List Byte) :
    (State.secTransition s q target key sig).pending = s.pending := by
  simp only [State.secTransition]
  (repeat' split) <;> simp only [State.drawChallenge_pending, State.reply_pending, State.secEnter_pending, eq_self]

@[simp] theorem State.tamper_pending (s : State) :
    (State.tamper s).pending = s.pending := by
  simp only [State.tamper]; split <;> simp only [State.latch_pending, State.vendorReturn_pending,
      State.wrBit_pending, eq_self]

@[simp] theorem State.spdmOut_pending (s : State) (o : SbOut) :
    (State.spdmOut s o).pending = s.pending := by rfl

@[simp] theorem State.setPhase_pending (s : State) (doe : Bool) (n : Nat) :
    (State.setPhase s doe n).pending = s.pending := by rfl

@[simp] theorem State.spdmError_pending (s : State) (doe : Bool) (code : Nat) :
    (State.spdmError s doe code).pending = s.pending := by rfl

@[simp] theorem State.spdmAfter_pending (s : State) (doe : Bool) (n : Nat) (f : State → State)
    (hf : ∀ x0, (f x0).pending = x0.pending) :
    (State.spdmAfter s doe n f).pending = s.pending := by
  simp only [State.spdmAfter]
  (repeat' split) <;> simp_all only [State.spdmError_pending, eq_self]

@[simp] theorem State.getVersion_pending (s : State) (doe : Bool) :
    (State.getVersion s doe).pending = s.pending := by
  simp only [State.getVersion]
  (repeat' split) <;> simp only [State.spdmAfter_pending, State.setPhase_pending, State.spdmOut_pending,
      implies_true, eq_self]

@[simp] theorem State.getCapabilities_pending (s : State) (doe : Bool) :
    (State.getCapabilities s doe).pending = s.pending := by
  simp only [State.getCapabilities]
  (repeat' split) <;> simp only [State.spdmAfter_pending, State.setPhase_pending, State.spdmOut_pending,
      implies_true, eq_self]

@[simp] theorem State.negotiate_pending (s : State) (doe : Bool) (p521 : Bool) (sha512 : Bool) :
    (State.negotiate s doe p521 sha512).pending = s.pending := by
  simp only [State.negotiate]; split <;> simp only [State.spdmAfter_pending, State.setPhase_pending,
      State.spdmOut_pending, implies_true, eq_self]

@[simp] theorem State.getDigests_pending (s : State) (doe : Bool) :
    (State.getDigests s doe).pending = s.pending := by
  simp only [State.getDigests]
  (repeat' split) <;> simp only [State.spdmAfter_pending, State.spdmOut_pending, implies_true, eq_self]

@[simp] theorem State.getCertificate_pending (s : State) (doe : Bool) (slot : Nat) (offset : Nat) (length : Nat) :
    (State.getCertificate s doe slot offset length).pending = s.pending := by
  simp only [State.getCertificate]; split <;> simp only [State.spdmAfter_pending, State.spdmError_pending,
      State.spdmOut_pending, implies_true, eq_self]

@[simp] theorem State.spdmSigned_pending (s : State) (doe : Bool) (code : Byte) (body : List Byte)
    (nonce : List Byte) :
    (State.spdmSigned s doe code body nonce).pending = s.pending := by
  simp only [State.spdmSigned]; split <;> rfl

@[simp] theorem State.challenge_pending (s : State) (doe : Bool) (slot : Nat) (nonce : List Byte) :
    (State.challenge s doe slot nonce).pending = s.pending := by
  simp only [State.challenge]; split <;> simp only [State.spdmAfter_pending, State.spdmError_pending,
      State.spdmSigned_pending, implies_true, eq_self]

@[simp] theorem State.getMeasurements_pending (s : State) (doe : Bool) (index : Nat) (signed : Bool)
    (nonce : List Byte) :
    (State.getMeasurements s doe index signed nonce).pending = s.pending := by
  simp only [State.getMeasurements]
  (repeat' split) <;> simp only [State.spdmAfter_pending, State.spdmError_pending, State.spdmSigned_pending,
      State.spdmOut_pending, implies_true, eq_self]

@[simp] theorem State.mctpControl_pending (s : State) (m : MctpReq) :
    (State.mctpControl s m).pending = s.pending := by
  simp only [State.mctpControl]
  (repeat' split) <;> rfl

@[simp] theorem State.privateWrite_pending (s : State) (offset : Nat) (data : Option Word) :
    (State.privateWrite s offset data).pending = s.pending := by
  simp only [State.privateWrite]
  (repeat' split) <;> simp only [State.busWrite_pending, eq_self]

@[simp] theorem State.privateRead_pending (s : State) :
    (State.privateRead s).pending = s.pending := by
  simp only [State.privateRead]; split <;> simp only [State.busRead_pending, State.spdmOut_pending, eq_self]

@[simp] theorem State.addressAssigned_pending (s : State) (a : BitVec 7) :
    (State.addressAssigned s a).pending = s.pending := by
  simp only [State.addressAssigned]; split <;> rfl

@[simp] theorem State.doeDiscovery_pending (s : State) (index : Byte) :
    (State.doeDiscovery s index).pending = s.pending := by
  simp only [State.doeDiscovery]
  (repeat' split) <;> rfl

/-! ### Firmware -/

@[simp] theorem State.syncFw_pending (s : State) :
    (State.syncFw s).pending = s.pending := by
  simp only [State.syncFw]; exact foldl_pending _ (fun _ _ => by simp only [State.wr_pending, eq_self]) _ _

@[simp] theorem State.readSlots_pending (s : State) :
    (State.readSlots s).pending = s.pending := by rfl

@[simp] theorem State.bootLine_pending (s : State) (b : List Byte) :
    (State.bootLine s b).pending = s.pending := by
  simp only [State.bootLine]
  (repeat' split) <;> simp only [State.modFw_pending, eq_self]

@[simp] theorem State.setStage_pending (s : State) (g : BootStage) :
    (State.setStage s g).pending = s.pending := by rfl

@[simp] theorem State.bootFail_pending (s : State) :
    (State.bootFail s).pending = s.pending := by
  simp only [State.bootFail]
  (repeat' split) <;> simp only [State.bootLine_pending, State.raiseBit_pending, eq_self]

@[simp] theorem State.countBoot_pending (s : State) :
    (State.countBoot s).pending = s.pending := by rfl

@[simp] theorem State.afterReset_pending (s : State) (k : Keeps) (stage : BootStage) :
    (State.afterReset s k stage).pending = s.pending := by rfl

@[simp] theorem State.coldReset_pending (s : State) (st : Straps) :
    (State.coldReset s st).pending = s.pending := by
  simp only [State.coldReset]
  (repeat' split) <;> rfl

@[simp] theorem State.fundamental_pending (s : State) :
    (State.fundamental s).pending = s.pending := by
  simp only [State.fundamental]; split <;> rfl

@[simp] theorem State.perstRelease_pending (s : State) (st : Straps) :
    (State.perstRelease s st).pending = s.pending := by
  simp only [State.perstRelease]; split <;> rfl

@[simp] theorem State.supplyRemoval_pending (s : State) :
    (State.supplyRemoval s).pending = s.pending := by rfl

@[simp] theorem State.refence_pending (s : State) :
    (State.refence s).pending = s.pending := by
  simp only [State.refence, foldl_pending, State.fence_pending, State.fenceDie_pending, State.fenceRegion_pending,
      State.fenceUnit_pending, State.fenceLd_pending, State.syncFence_pending, implies_true, eq_self]

@[simp] theorem State.reloadPages_pending (s : State) :
    (State.reloadPages s).pending = s.pending := by
  simp only [State.reloadPages]; exact foldl_pending _ (fun _ _ => by simp only [State.modDie_pending, State.wrFld_pending, eq_self]) _ _

@[simp] theorem State.trainStacks_pending (s : State) :
    (State.trainStacks s).pending = s.pending := by
  exact foldl_pending _ (fun s d => State.modDie_pending _ _ _) _ _

@[simp] theorem State.bootSettings_pending (s : State) :
    (State.bootSettings s).pending = s.pending := by
  simp only [State.bootSettings, State.monSettings_pending, foldl_pending, State.wrFld_pending, implies_true]

@[simp] theorem State.startSlot_pending (s : State) (active : Bool) :
    (State.startSlot s active).pending = s.pending := by
  simp only [State.startSlot, State.readSlots_pending, State.wrFld_pending, State.syncFw_pending, State.modFw_pending]

@[simp] theorem State.bootFlash_pending (s : State) (ok : Bool → Bool) (next : BootStage) :
    (State.bootFlash s ok next).pending = s.pending := by
  simp only [State.bootFlash]
  (repeat' split) <;> simp only [State.startSlot_pending, State.setStage_pending, State.raiseBit_pending,
      State.bootFail_pending, eq_self]

@[simp] theorem State.bootDone_pending (s : State) :
    (State.bootDone s).pending = s.pending := by
  simp only [State.bootDone, State.modFw_pending, State.inputBand_pending, State.bootLine_pending,
      State.setReplace_pending, State.wrFld_pending,
      foldl_pending, implies_true]

@[simp] theorem State.bootStep_pending (s : State) :
    (State.bootStep s).pending = s.pending := by
  unfold State.bootStep
  split
  · dsimp only
    simp only [State.setStage_pending, ite_pending, State.raiseBit_pending, State.wr_pending, State.wrFld_pending,
        ite_self]
  · dsimp only
    simp only [State.setStage_pending, State.syncSec_pending, ite_pending, State.drawChallenge_pending, ite_self]
  · dsimp only
    split <;> simp only [State.setStage_pending, State.wrFld_pending, State.bootFlash_pending]
  · exact (State.setStage_pending _ _).trans ((State.startHall_pending _).trans
      (foldl_pending _ (fun s d => State.syncDomains_pending _ _) _ _))
  · exact (State.setStage_pending _ _).trans ((State.refence_pending _).trans
      ((State.trainStacks_pending _).trans (State.reloadPages_pending _)))
  · exact (State.bootDone_pending _).trans ((State.wr_pending _ _ _).trans (State.bootSettings_pending _))
  · rfl

@[simp] theorem State.bootTimeout_pending (s : State) :
    (State.bootTimeout s).pending = s.pending := by
  simp only [State.bootTimeout]; split <;> simp only [State.bootFail_pending, State.setStage_pending, eq_self]

@[simp] theorem State.stage_pending (s : State) (offset : Nat) (b : List Byte) :
    (State.stage s offset b).pending = s.pending := by
  simp only [State.stage]; split <;> rfl

@[simp] theorem State.fwStage_pending (s : State) (q : Req) (source : Nat) (last : Bool) (offset : Nat)
    (r : HostRead) :
    (State.fwStage s q source last offset r).pending = s.pending := by
  simp only [State.fwStage]
  (repeat' split) <;> simp only [State.reply_pending, State.stage_pending, State.wrBit_pending,
      State.addJob_pending, eq_self]

@[simp] theorem State.fwChecked_pending (s : State) (iv : List Byte) :
    (State.fwChecked s iv).pending = s.pending := by
  simp only [State.fwChecked]
  (repeat' split) <;> simp

@[simp] theorem State.cancelTaken_pending (s : State) :
    (State.cancelTaken s).pending = s.pending := by
  simp only [State.cancelTaken]
  refine (foldl_pending _ (fun s a => ?_) _ _).trans ((foldl_pending _ (fun s a => ?_) _ _).trans
    ((State.clearPending_pending _).trans (State.endJobs_pending _ _ _ _ _)))
  · (try dsimp only); (repeat' split) <;> simp only [State.reply_pending]
  · split <;> simp only [State.reply_pending]

@[simp] theorem State.beginActivation_pending (s : State) (q : Req) :
    (State.beginActivation s q).pending = s.pending := by
  simp only [State.beginActivation, State.addJob_pending, State.wrBit_pending, State.readSlots_pending,
      State.wrFld_pending, State.syncFw_pending,
      State.modFw_pending]

@[simp] theorem State.fwActivate_pending (s : State) (q : Req) (due : Option Nat) :
    (State.fwActivate s q due).pending = s.pending := by
  simp only [State.fwActivate]
  (repeat' split) <;> simp only [State.reply_pending, State.addJob_pending, State.beginActivation_pending, eq_self]

@[simp] theorem State.trialConfirm_pending (s : State) (format : Nat) :
    (State.trialConfirm s format).pending = s.pending := by
  simp only [State.trialConfirm]
  (repeat' split) <;> simp only [State.modFw_pending, State.raiseBit_pending, State.startSlot_pending,
      State.syncFw_pending, State.endJobs_pending, eq_self]

@[simp] theorem State.trialTimeout_pending (s : State) :
    (State.trialTimeout s).pending = s.pending := by
  simp only [State.trialTimeout]
  (repeat' split) <;> simp

@[simp] theorem State.pauseEnd_pending (s : State) :
    (State.pauseEnd s).pending = s.pending := by
  simp only [State.pauseEnd]
  (repeat' split) <;> simp

@[simp] theorem State.warmReset_pending (s : State) (q : Req) :
    (State.warmReset s q).pending = s.pending := by
  simp only [State.warmReset]
  split
  · exact State.reply_pending _ _ _ _ _
  · simp only [State.addJob_pending, State.modFw_pending, State.clearPending_pending, State.modLinks_pending,
      State.wr_pending,
      State.countBoot_pending, State.wrFld_pending, foldl_pending, State.unload_pending, ite_pending,
          State.haltPart_pending, ite_self,
      implies_true]

@[simp] theorem State.warmBlocks_pending (s : State) (w : WarmRun) :
    (State.warmBlocks s w).pending = s.pending := by
  simp only [State.warmBlocks, foldl_pending, ite_pending, State.wrBit_pending, State.modFw_pending, ite_self,
      implies_true, eq_self]

@[simp] theorem State.warmVerify_pending (s : State) :
    (State.warmVerify s).pending = s.pending := by
  simp only [State.warmVerify]; split <;> simp

@[simp] theorem State.warmEnd_pending (s : State) :
    (State.warmEnd s).pending = s.pending := by
  simp only [State.warmEnd]
  (repeat' split) <;> simp only [State.endJobs_pending, State.cancelTaken_pending, State.wrBit_pending,
      State.modLinks_pending, eq_self]

@[simp] theorem State.warmTick_pending (s : State) :
    (State.warmTick s).pending = s.pending := by
  simp only [State.warmTick]
  (repeat' split) <;> simp

@[simp] theorem State.watchdog_pending (s : State) (digestOk refreshed : Bool) :
    (State.watchdog s digestOk refreshed).pending = s.pending := by
  simp only [State.watchdog]
  (repeat' split) <;> simp

@[simp] theorem State.romLoader_pending (s : State) (q : Req) (c : Cmd) (format : Nat) :
    (State.romLoader s q c format).pending = s.pending := by
  simp only [State.romLoader]
  (repeat' split) <;> simp

@[simp] theorem State.resetBlock_pending (s : State) (level : Nat) (target : Nat) :
    (State.resetBlock s level target).pending = s.pending := by
  simp only [State.resetBlock]
  (repeat' split) <;> simp [foldl_pending]

@[simp] theorem State.blockReset_pending (s : State) (q : Req) (level : Nat) (target : Nat) :
    (State.blockReset s q level target).pending = s.pending := by
  simp only [State.blockReset]
  (repeat' split) <;> simp [foldl_pending]

@[simp] theorem State.latchIf_pending (s : State) (b : Nat) (atOnce : Bool) :
    (State.latchIf s b atOnce).pending = s.pending := by
  simp only [State.latchIf]; split <;> simp only [State.latch_pending, eq_self]

@[simp] theorem State.overvolt_pending (s : State) :
    (State.overvolt s).pending = s.pending := by
  simp only [State.overvolt]
  (repeat' split) <;> simp only [State.latchIf_pending, eq_self]

@[simp] theorem State.pcFault_pending (s : State) (k : Fin 4) :
    (State.pcFault s k).pending = s.pending := by
  simp only [State.pcFault]
  (repeat' split) <;> simp only [State.latchIf_pending, eq_self]

@[simp] theorem State.fuseFail_pending (s : State) :
    (State.fuseFail s).pending = s.pending := by
  simp only [State.fuseFail]
  (repeat' split) <;> simp only [State.latchIf_pending, eq_self]

@[simp] theorem State.controlOvertemp_pending (s : State) :
    (State.controlOvertemp s).pending = s.pending := by
  simp only [State.controlOvertemp]
  (repeat' split) <;> simp only [State.latchIf_pending, eq_self]

/-! ### Commands -/

@[simp] theorem State.perform_pending (s : State) (q : Req) (c : Cmd) :
    (State.perform s q c).pending = s.pending := by
  simp only [State.perform]; split <;> simp

@[simp] theorem State.take_pending (s : State) (src : Src) :
    (State.take s src).pending = s.pending := by
  simp only [State.take]; split <;> rfl

@[simp] theorem State.turnAway_pending (s : State) (q : Req) (c : Cmd) (st : Nat) :
    (State.turnAway s q c st).pending = s.pending := by
  simp only [State.turnAway]
  (repeat' split) <;> simp

@[simp] theorem State.handle_pending (s : State) (q : Req) (c : Cmd) :
    (State.handle s q c).pending = s.pending := by
  simp only [State.handle]
  (repeat' split) <;> simp

@[simp] theorem State.handleLow_pending (s : State) (q : Req) (c : Cmd) :
    (State.handleLow s q c).pending = s.pending := by
  simp only [State.handleLow]
  (repeat' split) <;> simp

theorem State.opens_pending (s t : State) (h : s.opens = some t) : t.pending = s.pending := by
  simp only [State.opens] at h
  (repeat' split at h) <;> first | cases h | skip
  all_goals simp only [State.pauseEnd_pending, State.wr_pending]

@[simp] theorem State.command_pending (s : State) (q : Req) (c : Cmd) :
    (State.command s q c).pending = s.pending := by
  have h := fun t => State.opens_pending s t
  simp only [State.command]
  (repeat' split) <;> first
    | rfl
    | (simp only [State.handleLow_pending]; done)
    | (rename_i t ht; simp only [State.handle_pending, h t ht]; done)

@[simp] theorem State.dueJob_pending (s : State) (j : Job) :
    (State.dueJob s j).pending = s.pending := by
  simp only [State.dueJob]
  (repeat' split) <;> simp

@[simp] theorem State.pendingDue_pending (s : State) (src : Src) :
    (State.pendingDue s src).pending = s.pending := by
  have h := fun t => State.opens_pending s t
  simp only [State.pendingDue]
  (repeat' split) <;> simp_all only [State.dueJob_pending, eq_self]

@[simp] theorem State.collectSlot_pending (s : State) (i : Fin 64) (r : HostRead) :
    (State.collectSlot s i r).pending = s.pending := by
  simp only [State.collectSlot]
  (repeat' split) <;> simp only [State.raiseBit_pending, State.handle_pending, eq_self]

@[simp] theorem State.collectSideband_pending (s : State) (j : Fin 8) (low : Bool) :
    (State.collectSideband s j low).pending = s.pending := by
  simp only [State.collectSideband]
  (repeat' split) <;> simp only [State.handleLow_pending, State.handle_pending, eq_self]

@[simp] theorem State.collectOne_pending (s : State) (f : State → State) (src : Src)
    (hf : ∀ x0, (f x0).pending = x0.pending) :
    (State.collectOne s f src).pending = s.pending := by
  simp only [State.collectOne]
  (repeat' split) <;> simp_all only [State.take_pending, eq_self]

@[simp] theorem State.collect_pending (s : State) (data : List (Fin 64 × HostRead)) :
    (State.collect s data).pending = s.pending := by
  have h := fun t => State.opens_pending s t
  simp only [State.collect]
  split
  · rfl
  · rename_i t ht
    refine (State.modFw_pending _ _).trans ((foldl_pending _ (fun s a => ?_) _ _).trans ((foldl_pending _ (fun s a => ?_) _ _).trans
      ((foldl_pending _ (fun s a => ?_) _ _).trans ((State.modFw_pending _ _).trans (h t ht)))))
    · (try dsimp only); (repeat' split) <;> first
        | rfl
        | exact State.collectOne_pending _ _ _ fun s => by simp only [State.collectSideband_pending, eq_self]
    · (try dsimp only); split <;> first
        | exact State.collectSlot_pending _ _ _
        | exact State.collectOne_pending _ _ _ fun s => by simp only [State.collectSlot_pending]
    · simp only [State.dueJob_pending]

@[simp] theorem State.collectFree_pending (s : State) :
    (State.collectFree s).pending = s.pending := by
  simp only [State.collectFree, foldl_pending, ite_pending, State.collectSideband_pending, ite_self, implies_true,
      eq_self]

@[simp] theorem State.slotWrite_pending (s : State) (addr : Nat) (b : List Byte) (i : Nat) :
    (State.slotWrite s addr b i).pending = s.pending := by
  simp only [State.slotWrite]
  (repeat' split) <;> simp only [State.raiseBit_pending, State.winWrite_pending, eq_self]

@[simp] theorem State.msixWrite_pending (s : State) (a : Nat) (b : List Byte) :
    (State.msixWrite s a b).pending = s.pending := by
  simp only [State.msixWrite]
  (repeat' split) <;> simp

@[simp] theorem State.hostSlotWrite_pending (s : State) (addr : Nat) (b : List Byte) :
    (State.hostSlotWrite s addr b).pending = s.pending := by
  simp only [State.hostSlotWrite]
  (repeat' split)
  · rfl
  · exact State.msixWrite_pending _ _ _
  · exact foldl_pending _ (fun s i => State.slotWrite_pending _ _ _ _) _ _
  · exact (State.winWrite_pending _ _ _).trans (foldl_pending _ (fun s i => State.slotWrite_pending _ _ _ _) _ _)

@[simp] theorem State.sidebandMessage_pending (s : State) (eid : Byte) (b : List Byte) :
    (State.sidebandMessage s eid b).pending = s.pending := by
  simp only [State.sidebandMessage]
  (repeat' split) <;> simp only [State.raiseBit_pending, eq_self]

/-! ### Monitor -/

@[simp] theorem State.print_pending (s : State) (o : List MonOut) :
    (State.print s o).pending = s.pending := by rfl

@[simp] theorem State.monErr_pending (s : State) (w : String) :
    (State.monErr s w).pending = s.pending := by rfl

@[simp] theorem State.monOk_pending (s : State) (o : List MonOut) :
    (State.monOk s o).pending = s.pending := by rfl

@[simp] theorem State.monitor_pending (s : State) (l : MonLevel) (f : State → State)
    (hf : ∀ x0, (f x0).pending = x0.pending) :
    (State.monitor s l f).pending = s.pending := by
  simp only [State.monitor]
  (repeat' split) <;> simp_all only [State.monErr_pending, State.noteDebug_pending, eq_self]

@[simp] theorem State.monHelp_pending (s : State) :
    (State.monHelp s).pending = s.pending := by
  simp only [State.monHelp]
  (repeat' split) <;> simp only [State.monitor_pending, State.monOk_pending, implies_true, eq_self]

@[simp] theorem State.peek_pending (s : State) (addr : Nat) (n : Nat) :
    (State.peek s addr n).pending = s.pending := by
  simp only [State.peek, foldl_pending1, State.monitor_pending, State.busRead_pending, State.monOk_pending,
      implies_true, eq_self]; done

@[simp] theorem State.poke_pending (s : State) (addr : Nat) (v : Word) :
    (State.poke s addr v).pending = s.pending := by
  simp only [State.poke]
  (repeat' split) <;> simp only [State.monitor_pending, State.busWrite_pending, State.monOk_pending, implies_true,
      eq_self]

@[simp] theorem State.sticky_pending (s : State) (die : Option Nat) :
    (State.sticky s die).pending = s.pending := by
  simp only [State.sticky]
  (repeat' split) <;> simp only [State.monitor_pending, State.monErr_pending, State.monOk_pending, implies_true,
      eq_self]

@[simp] theorem State.monFaults_pending (s : State) (range : Option (Nat × Nat)) :
    (State.monFaults s range).pending = s.pending := by
  simp only [State.monFaults]
  (repeat' split) <;> simp only [State.monitor_pending, State.monOk_pending, implies_true, eq_self]

@[simp] theorem State.monTime_pending (s : State) :
    (State.monTime s).pending = s.pending := by
  simp only [State.monTime]
  (repeat' split) <;> simp only [State.monitor_pending, State.monOk_pending, implies_true, eq_self]

@[simp] theorem State.monTg_pending (s : State) (die : Nat) (ch : Nat) (mode : Nat) (pat : Nat) (base : Word)
    (len : Word) (seed : Word) :
    (State.monTg s die ch mode pat base len seed).pending = s.pending := by
  simp only [State.monTg, ite_pending, State.monitor_pending, State.monErr_pending, State.trafficGen_pending,
      ite_self, implies_true, eq_self]

@[simp] theorem State.monAudit_pending (s : State) (die : Nat) (region : Nat) (unit : Nat) :
    (State.monAudit s die region unit).pending = s.pending := by
  simp only [State.monAudit]; split <;> simp only [State.monitor_pending, State.monOk_pending, State.monErr_pending,
      implies_true, eq_self]

@[simp] theorem State.monColophon_pending (s : State) :
    (State.monColophon s).pending = s.pending := by
  simp only [State.monColophon]
  (repeat' split) <;> simp only [State.monitor_pending, State.monOk_pending, implies_true, eq_self]

@[simp] theorem State.monBootlog_pending (s : State) :
    (State.monBootlog s).pending = s.pending := by
  simp only [State.monBootlog]
  (repeat' split) <;> simp only [State.monitor_pending, State.monOk_pending, implies_true, eq_self]

@[simp] theorem State.monCommand_pending (s : State) (name : List Byte) (args : List Nat) :
    (State.monCommand s name args).pending = s.pending := by
  unfold State.monCommand; extract_lets; (repeat' split) <;> simp +zetaDelta []

@[simp] theorem State.monAnswer_pending (s : State) (line : List Byte) :
    (State.monAnswer s line).pending = s.pending := by
  simp only [State.monAnswer]
  (repeat' split) <;> simp

@[simp] theorem State.monLine_pending (s : State) (line : List Byte) :
    (State.monLine s line).pending = s.pending := by
  simp only [State.monLine]
  (repeat' split) <;> simp

@[simp] theorem State.jtagIdcode_pending (s : State) :
    (State.jtagIdcode s).pending = s.pending := by
  simp only [State.jtagIdcode]; split <;> rfl

@[simp] theorem State.jtagAccess_pending (s : State) (addr : Nat) (data : Option Word) :
    (State.jtagAccess s addr data).pending = s.pending := by
  simp only [State.jtagAccess]
  (repeat' split) <;> simp only [State.busWrite_pending, State.debugRead_pending, eq_self]

@[simp] theorem State.jtagScan_pending (s : State) :
    (State.jtagScan s).pending = s.pending := by
  simp only [State.jtagScan]; split <;> rfl

/-! ### Tick -/

@[simp] theorem State.dieTick_pending (s : State) :
    (State.dieTick s).pending = s.pending := by
  simp only [State.dieTick, State.streamTick_pending, foldl_pending, State.adderTick_pending,
      State.unitTick_pending, implies_true]
  exact foldl_pending _ (fun s a => by (try dsimp only); split <;> simp only [State.flyTick_pending]) _ _

@[simp] theorem State.tick_pending (s : State) :
    (State.tick s).pending = s.pending := by
  simp only [State.tick]
  (repeat' split) <;> simp

@[simp] theorem State.idle_pending (s : State) :
    (State.idle s).pending = s.pending := by
  simp only [State.idle]; split <;> simp

/-! ### Step -/

@[simp] theorem State.withFetchWord_pending (s : State) (nbits : Nat) (w : Nat) :
    (State.withFetchWord s nbits w).pending = s.pending := by rfl

end Sys2Proof.Machine
end

