-- ==== Sys2Proof/Laws/Enclave.lean ====
section
/-!
SUPPORT. What the enclave holds (fuses, security state, keys) is left alone by every shared operation but those of the
security, reset and fuse commands: for each of the others, one lemma that `sec` after it is `sec` before it.
-/

namespace Sys2Proof.Machine
open Sys2Proof

set_option Elab.async false

theorem foldl_sec {β : Type} (f : State → β → State) (h : ∀ a b, (f a b).sec = a.sec) (l : List β) (a : State) :
    (l.foldl f a).sec = a.sec := foldl_keep State.sec f h l a

theorem foldl_sec1 {β δ : Type} (f : State × δ → β → State × δ) (h : ∀ a b, (f a b).1.sec = a.1.sec) (l : List β)
    (a : State × δ) : (l.foldl f a).1.sec = a.1.sec := foldl_keep (fun a => a.1.sec) f h l a

theorem ite_sec {c : Prop} [Decidable c] (a b : State) : (if c then a else b).sec = if c then a.sec else b.sec := by
  split <;> rfl

theorem ite_sec1 {c : Prop} {α : Type} [Decidable c] (a b : State × α) :
    (if c then a else b).1.sec = if c then a.1.sec else b.1.sec := by
  split <;> rfl

/-! ### Ops -/

@[simp] theorem State.modReg_sec (s : State) (r : Reg) (f : Word → Word) :
    (State.modReg s r f).sec = s.sec := by rfl

@[simp] theorem State.wrFld_sec (s : State) (r : Reg) (hi : Nat) (lo : Nat) (v : Nat) :
    (State.wrFld s r hi lo v).sec = s.sec := by rfl

@[simp] theorem State.wrBit_sec (s : State) (r : Reg) (i : Nat) (b : Bool) :
    (State.wrBit s r i b).sec = s.sec := by rfl

@[simp] theorem State.count_sec (s : State) (r : Reg) (n : Nat) :
    (State.count s r n).sec = s.sec := by rfl

@[simp] theorem State.sendMsg_sec (s : State) (ports : List Port) (part : Part) (notBefore : Nat) (b : MsgBody) :
    (State.sendMsg s ports part notBefore b).sec = s.sec := by
  simp only [State.sendMsg]; exact foldl_sec _ (fun _ _ => by simp only [eq_self]) _ _

@[simp] theorem State.suspectOrd_sec (s : State) (p : Part) (ord : Nat) (d : Die) :
    (State.suspectOrd s p ord d).sec = s.sec := by rfl

@[simp] theorem State.suspect_sec (s : State) (p : Part) (d : Die) (ahead : Bool) :
    (State.suspect s p d ahead).sec = s.sec := by rfl

@[simp] theorem State.suspectDie_sec (s : State) (d : Die) (ahead : Bool) :
    (State.suspectDie s d ahead).sec = s.sec := by
  simp only [State.suspectDie]; split <;> rfl

@[simp] theorem State.record_sec (s : State) (f : FaultRec) :
    (State.record s f).sec = s.sec := by rfl

@[simp] theorem State.vector_sec (s : State) (v : Nat) :
    (State.vector s v).sec = s.sec := by rfl

@[simp] theorem State.setReplace_sec (s : State) (causes : Nat) :
    (State.setReplace s causes).sec = s.sec := by
  simp only [State.setReplace]
  (repeat' split) <;> first
    | rfl
    | (simp only [State.wr_sec, State.sendMsg_sec, foldl_sec, implies_true, eq_self]; done)
    | (apply foldl_sec; intros; (repeat' split) <;> simp only [State.wr_sec, State.sendMsg_sec, foldl_sec,
        foldl_sec1, ite_sec, ite_sec1, ite_self, implies_true, eq_self]; done)
    | (simp only [foldl_sec, *]; done)
    | (simp_all only [State.wr_sec, State.sendMsg_sec, foldl_sec, foldl_sec1, ite_sec, ite_sec1, ite_self,
        implies_true, eq_self]; done)

@[simp] theorem State.syncFence_sec (s : State) :
    (State.syncFence s).sec = s.sec := by
  simp only [State.syncFence, foldl_sec, ite_sec, State.wrFld_sec, State.wrBit_sec, State.setReplace_sec, ite_self,
      implies_true, eq_self]

@[simp] theorem State.resetUnit_sec (s : State) (p : PU) :
    (State.resetUnit s p).sec = s.sec := by rfl

@[simp] theorem State.loadBanks_sec (s : State) (l : LU) (p : PU) :
    (State.loadBanks s l p).sec = s.sec := by
  simp only [State.loadBanks]
  (repeat' split) <;> rfl

@[simp] theorem State.substitute_sec (s : State) (l : LU) :
    (State.substitute s l).1.sec = s.sec := by
  simp only [State.substitute]
  (repeat' split) <;> simp

@[simp] theorem State.applyFences_sec (s : State) (r : RegionId) (t : Nat) :
    (State.applyFences s r t).1.sec = s.sec := by
  have h1 : ∀ t : State, ((regionLus r).foldl (fun s l => s.wr (ureg .tuImpose l) 127) t).sec = t.sec :=
      fun t => foldl_sec _ (fun a b => State.wr_sec _ _ _) _ _
  have h2 : ∀ ready : List PendFence, ∀ t : State × List Raise,
      ((regionLus r).foldl (fun (acc : State × List Raise) l =>
      match acc.1.carrier l with
      | some p =>
        if ready.any (·.unit = p) then
          let (s, more) := acc.1.substitute l
          (s, acc.2 ++ more)
        else acc
      | none => acc) t).1.sec = t.1.sec := fun ready t => by
    refine foldl_sec1 _ (fun a b => ?_) _ _
    split
    · split
      · exact State.substitute_sec _ _
      · rfl
    · rfl
  unfold State.applyFences
  split
  · exact h1 s
  · extract_lets ready
    split
    · rfl
    · split
      rename_i heq
      have h := congrArg (fun z => z.1.sec) heq
      refine h.symm.trans ?_
      dsimp only
      refine foldl_sec1 _ (fun a b => ?_) _ _
      split
      · split
        · exact State.substitute_sec _ _
        · rfl
      · rfl

@[simp] theorem State.fenceSuspect_sec (s : State) (d : Die) (inBlock : PU → Bool) :
    (State.fenceSuspect s d inBlock).sec = s.sec := by
  simp only [State.fenceSuspect]
  (repeat' split) <;> rfl

@[simp] theorem State.fenceUnit_sec (s : State) (p : PU) :
    (State.fenceUnit s p).1.sec = s.sec := by
  simp only [State.fenceUnit]
  (repeat' split) <;> simp only [State.fenceSuspect_sec, State.resetUnit_sec, State.applyFences_sec, eq_self]

@[simp] theorem State.fenceRegion_sec (s : State) (r : RegionId) :
    (State.fenceRegion s r).1.sec = s.sec := by
  simp only [State.fenceRegion]
  (repeat' split) <;> simp only [State.fenceSuspect_sec, State.wrBit_sec, State.applyFences_sec, eq_self]

@[simp] theorem State.fenceDie_sec (s : State) (d : Die) :
    (State.fenceDie s d).1.sec = s.sec := by
  simp only [State.fenceDie, foldl_sec, foldl_sec1, ite_sec1, State.fenceSuspect_sec, State.wrBit_sec,
      State.applyFences_sec, ite_self, implies_true, eq_self]; done

@[simp] theorem State.fenceLd_sec (s : State) (k : LinkDie) :
    (State.fenceLd s k).sec = s.sec := by
  simp only [State.fenceLd]
  (repeat' split) <;> first
    | rfl
    | (simp only [State.suspect_sec, foldl_sec, implies_true, eq_self]; done)
    | (apply foldl_sec; intros; (repeat' split) <;> simp only [State.suspect_sec, foldl_sec, foldl_sec1, ite_sec,
        ite_sec1, ite_self, implies_true, eq_self]; done)
    | (simp only [foldl_sec, *]; done)
    | (simp_all only [State.suspect_sec, foldl_sec, foldl_sec1, ite_sec, ite_sec1, ite_self, implies_true,
        eq_self]; done)

@[simp] theorem State.react_sec (s : State) (r : Reg) (code : Nat) :
    (State.react s r code).1.sec = s.sec := by
  simp only [State.react]
  (repeat' split) <;> simp only [State.fenceLd_sec, State.fenceUnit_sec, State.fenceRegion_sec, State.fenceDie_sec,
      eq_self]

@[simp] theorem State.raiseAll_sec (n : Nat) (rs : List Raise) (s : State) :
    (State.raiseAll n rs s).sec = s.sec := by
  induction n generalizing rs s with
  | zero => rfl
  | succ n ih =>
    cases rs with
    | nil => rfl
    | cons r rest =>
      simp only [State.raiseAll]
      split
      · exact ih _ _
      · refine (ih _ _).trans ?_
        have hv : ∀ (t : State) (k : Nat), (t.react r.reg k).1.sec = t.sec :=
            fun t k => by simp only [State.react_sec, eq_self]
        (repeat' split) <;> simp only [State.wrBit_sec, State.record_sec, State.vector_sec, State.react_sec,
            State.syncFence_sec, eq_self]

@[simp] theorem State.raiseBit_sec (s : State) (r : Reg) (b : Nat) (suspect : Bool) (detail : Nat) :
    (State.raiseBit s r b suspect detail).sec = s.sec := by
  exact State.raiseAll_sec _ _ _

@[simp] theorem State.raiseSuspect_sec (s : State) (r : Reg) (b : Nat) (detail : Nat) :
    (State.raiseSuspect s r b detail).sec = s.sec := by
  simp only [State.raiseSuspect]
  (repeat' split) <;> simp only [State.raiseBit_sec, State.suspectDie_sec, eq_self]

@[simp] theorem State.fence_sec (s : State) (f : State → State × List Raise) (hf : ∀ x0, (f x0).1.sec = x0.sec) :
    (State.fence s f).sec = s.sec := by
  simp only [State.fence]
  split
  · exact hf s
  · rw [State.raiseAll_sec, State.syncFence_sec, hf]

@[simp] theorem State.settleRegion_sec (s : State) (r : RegionId) (t : Nat) :
    (State.settleRegion s r t).sec = s.sec := by
  simp only [State.settleRegion]; split <;> simp

@[simp] theorem State.settleFences_sec (s : State) (p : Part) (t : Nat) :
    (State.settleFences s p t).sec = s.sec := by
  simp only [State.settleFences]; exact foldl_sec _ (fun _ _ => by simp) _ _

@[simp] theorem State.withdraw_sec (s : State) (u : LU) (bundle : Nat) (verso : Bool) :
    (State.withdraw s u bundle verso).sec = s.sec := by
  simp only [State.withdraw]; split <;> rfl

/-! ### Replies -/

@[simp] theorem State.winWrite_sec (s : State) (a : Nat) (b : List Byte) :
    (State.winWrite s a b).sec = s.sec := by rfl

@[simp] theorem State.replyAt_sec (s : State) (q : Req) (handledAt : Nat) (status : Nat) (detail : Nat)
    (results : List Byte) :
    (State.replyAt s q handledAt status detail results).sec = s.sec := by
  simp only [State.replyAt]
  (repeat' split) <;> simp only [State.winWrite_sec, State.vector_sec, eq_self]

@[simp] theorem State.reply_sec (s : State) (q : Req) (status : Nat) (detail : Nat) (results : List Byte) :
    (State.reply s q status detail results).sec = s.sec := by
  simp only [State.reply]
  (repeat' split) <;> simp only [State.replyAt_sec, eq_self]

@[simp] theorem State.addJob_sec (s : State) (q : Req) (k : JobKind) :
    (State.addJob s q k).sec = s.sec := by rfl

@[simp] theorem State.endJobs_sec (s : State) (p : Job → Bool) (status : Nat) (detail : Nat) (results : List Byte) :
    (State.endJobs s p status detail results).sec = s.sec := by
  simp only [State.endJobs]; exact foldl_sec _ (fun _ _ => by simp only [State.replyAt_sec, eq_self]) _ _

@[simp] theorem State.syncGear_sec (s : State) (p : Part) :
    (State.syncGear s p).sec = s.sec := by
  simp only [State.syncGear]; split <;> rfl

@[simp] theorem State.clearPending_sec (s : State) :
    (State.clearPending s).sec = s.sec := by
  exact foldl_sec _ (fun s p => by (try dsimp only); split <;> simp only [State.syncGear_sec, State.wrFld_sec, State.wrBit_sec]) _ _

/-! ### Parts -/

@[simp] theorem State.setRail_sec (s : State) (r : RegionId) (g : Gear) :
    (State.setRail s r g).sec = s.sec := by rfl

@[simp] theorem State.proofOn_sec (s : State) (r : RegionId) :
    (State.proofOn s r).sec = s.sec := by rfl

@[simp] theorem State.proofOff_sec (s : State) (r : RegionId) :
    (State.proofOff s r).sec = s.sec := by
  simp only [State.proofOff]; split <;> rfl

@[simp] theorem State.endProof_sec (s : State) (p : Part) :
    (State.endProof s p).sec = s.sec := by
  simp only [State.endProof]; exact foldl_sec _ (fun _ _ => by simp) _ _

@[simp] theorem State.setArmed_sec (s : State) (p : Part) (b : Bool) :
    (State.setArmed s p b).sec = s.sec := by
  simp only [State.setArmed]; exact foldl_sec _ (fun _ _ => by simp only [State.wrBit_sec, eq_self]) _ _

@[simp] theorem State.endJob_sec (s : State) (p : Part) :
    (State.endJob s p).sec = s.sec := by rfl

@[simp] theorem State.switchPage_sec (s : State) (d : Die) :
    (State.switchPage s d).sec = s.sec := by
  simp only [State.switchPage]; split <;> simp only [State.modDie_sec, State.wrBit_sec, State.wrFld_sec,
      State.raiseBit_sec, State.endJobs_sec, eq_self]

@[simp] theorem State.switchWaiting_sec (s : State) (p : Part) :
    (State.switchWaiting s p).sec = s.sec := by
  simp only [State.switchWaiting]; exact foldl_sec _ (fun _ _ => by (try dsimp only); (repeat' split) <;> simp) _ _

@[simp] theorem State.dropProv_sec (s : State) (p : Part) :
    (State.dropProv s p).sec = s.sec := by
  simp only [State.dropProv]; exact foldl_sec _ (fun _ _ => by simp) _ _

@[simp] theorem State.unCommit_sec (s : State) (p : Part) :
    (State.unCommit s p).sec = s.sec := by
  simp only [State.unCommit]
  (repeat' split) <;> first
    | rfl
    | (simp; done)
    | (apply foldl_sec; intros; (repeat' split) <;> simp; done)
    | (simp only [foldl_sec, *]; done)
    | (simp_all; done)

@[simp] theorem State.haltPart_sec (s : State) (p : Part) :
    (State.haltPart s p).sec = s.sec := by
  simp only [State.haltPart]; split <;> simp

@[simp] theorem State.disarm_sec (s : State) (p : Part) (status : Nat) :
    (State.disarm s p status).sec = s.sec := by
  simp only [State.disarm]
  (repeat' split) <;> simp

/-! ### HallTime -/

@[simp] theorem State.setHtState_sec (s : State) (v : Nat) :
    (State.setHtState s v).sec = s.sec := by rfl

@[simp] theorem State.enterLocked_sec (s : State) (hop : Nat) :
    (State.enterLocked s hop).sec = s.sec := by rfl

@[simp] theorem State.enterHoldover_sec (s : State) :
    (State.enterHoldover s).sec = s.sec := by
  simp only [State.enterHoldover]
  (repeat' split) <;> simp only [State.setHtState_sec, State.modHt_sec, State.raiseBit_sec, eq_self]

@[simp] theorem State.enterLost_sec (s : State) :
    (State.enterLost s).sec = s.sec := by
  simp only [State.enterLost, foldl_sec, ite_sec, State.setHtState_sec, State.modHt_sec, State.raiseBit_sec,
      State.endJobs_sec, State.syncGear_sec, State.disarm_sec, ite_self, implies_true, eq_self]

@[simp] theorem State.epochFrame_sec (s : State) (f : List EpochPulse) :
    (State.epochFrame s f).sec = s.sec := by
  simp only [State.epochFrame]
  (repeat' split) <;> simp

@[simp] theorem State.referenceLoss_sec (s : State) (l : RefLoss) :
    (State.referenceLoss s l).sec = s.sec := by
  simp only [State.referenceLoss]
  (repeat' split) <;> simp only [State.enterHoldover_sec, State.modHt_sec, eq_self]

@[simp] theorem State.sourceReturn_sec (s : State) (inside : Bool) :
    (State.sourceReturn s inside).sec = s.sec := by
  simp only [State.sourceReturn]
  (repeat' split) <;> simp only [State.enterLost_sec, State.enterLocked_sec, State.modHt_sec, eq_self]

@[simp] theorem State.hallRefReturn_sec (s : State) (inside : Bool) :
    (State.hallRefReturn s inside).sec = s.sec := by
  simp only [State.hallRefReturn]; split <;> simp only [State.sourceReturn_sec, eq_self]

@[simp] theorem State.holdoverTimeout_sec (s : State) :
    (State.holdoverTimeout s).sec = s.sec := by
  simp only [State.holdoverTimeout]; split <;> simp only [State.enterLost_sec, eq_self]

@[simp] theorem State.lostToAcquire_sec (s : State) :
    (State.lostToAcquire s).sec = s.sec := by
  simp only [State.lostToAcquire]; split <;> rfl

@[simp] theorem State.recordMissing_sec (s : State) :
    (State.recordMissing s).sec = s.sec := by
  simp only [State.recordMissing]
  (repeat' split) <;> simp only [State.enterHoldover_sec, State.modHt_sec, eq_self]

@[simp] theorem State.lockedRecord_sec (s : State) (off : Int) :
    (State.lockedRecord s off).sec = s.sec := by
  simp only [State.lockedRecord]
  (repeat' split) <;> simp

@[simp] theorem State.port0Record_sec (s : State) (r : TimeRecord) (f : Nat) :
    (State.port0Record s r f).sec = s.sec := by
  simp only [State.port0Record, ite_sec, State.recordMissing_sec, State.wrFld_sec, State.modHt_sec,
      State.raiseBit_sec, State.enterLocked_sec, State.lockedRecord_sec, State.sourceReturn_sec,
      ite_self, eq_self]

@[simp] theorem State.storeReg_sec (s : State) (r : Reg) (v : Word) :
    (State.storeReg s r v).sec = s.sec := by rfl

@[simp] theorem State.setLoWrite_sec (s : State) (v : Word) :
    (State.setLoWrite s v).sec = s.sec := by
  simp only [State.setLoWrite]; split <;> simp only [State.storeReg_sec, State.raiseBit_sec, State.modHt_sec, eq_self]

@[simp] theorem State.htConfigWrite_sec (s : State) (v : Word) :
    (State.htConfigWrite s v).sec = s.sec := by
  simp only [State.htConfigWrite]; split <;> simp only [State.raiseBit_sec, State.storeReg_sec, eq_self]

@[simp] theorem State.nodeIdWrite_sec (s : State) (v : Word) :
    (State.nodeIdWrite s v).sec = s.sec := by
  simp only [State.nodeIdWrite]; split <;> rfl

@[simp] theorem State.tickHall_sec (s : State) :
    (State.tickHall s).sec = s.sec := by
  simp only [State.tickHall]
  (repeat' split) <;> simp

@[simp] theorem State.startHall_sec (s : State) :
    (State.startHall s).sec = s.sec := by
  simp only [State.startHall]; split <;> simp only [State.wrFld_sec, State.setHtState_sec, State.raiseBit_sec, eq_self]

/-! ### Power -/

@[simp] theorem State.syncDomains_sec (s : State) (d : Die) :
    (State.syncDomains s d).sec = s.sec := by
  simp only [State.syncDomains]
  (repeat' split) <;> first
    | rfl
    | (simp only [State.wrBit_sec, State.modRegion_sec, foldl_sec, ite_sec, ite_self, implies_true, eq_self]; done)
    | (apply foldl_sec; intros; (repeat' split) <;> simp only [State.wrBit_sec, State.modRegion_sec, foldl_sec,
        foldl_sec1, ite_sec, ite_sec1, ite_self, implies_true, eq_self]; done)
    | (simp only [foldl_sec, *]; done)
    | (simp_all only [State.wrBit_sec, State.modRegion_sec, foldl_sec, foldl_sec1, ite_sec, ite_sec1, ite_self,
        implies_true, eq_self]; done)

@[simp] theorem State.syncRegionGear_sec (s : State) (d : Die) :
    (State.syncRegionGear s d).sec = s.sec := by
  refine foldl_sec _ (fun s a => ?_) _ _; (try dsimp only); split <;> simp

@[simp] theorem State.regionOn_sec (s : State) (r : RegionId) :
    (State.regionOn s r).sec = s.sec := by
  simp only [State.regionOn]; split <;> rfl

@[simp] theorem State.domainsDue_sec (s : State) :
    (State.domainsDue s).sec = s.sec := by
  simp only [State.domainsDue]; exact foldl_sec _ (fun _ _ => by (try dsimp only); (repeat' split) <;> simp) _ _

@[simp] theorem State.vtabWrite_sec (s : State) (r : RegionId) (g : Gear) (v : Word) :
    (State.vtabWrite s r g v).sec = s.sec := by
  simp only [State.vtabWrite]; split <;> simp only [State.raiseBit_sec, State.modRegion_sec, eq_self]

@[simp] theorem State.vtabBoundary_sec (s : State) (r : RegionId) :
    (State.vtabBoundary s r).sec = s.sec := by
  simp only [State.vtabBoundary]
  (repeat' split) <;> first
    | rfl
    | (simp only [State.storeReg_sec, State.modRegion_sec, foldl_sec, implies_true, eq_self]; done)
    | (apply foldl_sec; intros; (repeat' split) <;> simp only [State.storeReg_sec, State.modRegion_sec, foldl_sec,
        foldl_sec1, ite_sec, ite_sec1, ite_self, implies_true, eq_self]; done)
    | (simp only [foldl_sec, *]; done)
    | (simp_all only [State.storeReg_sec, State.modRegion_sec, foldl_sec, foldl_sec1, ite_sec, ite_sec1, ite_self,
        implies_true, eq_self]; done)

@[simp] theorem State.setRails_sec (s : State) (p : Part) (g : Gear) :
    (State.setRails s p g).sec = s.sec := by
  simp only [State.setRails]; exact foldl_sec _ (fun _ _ => by (try dsimp only); (repeat' split) <;> simp) _ _

@[simp] theorem State.voltageRise_sec (s : State) (p : Part) :
    (State.voltageRise s p).sec = s.sec := by
  simp only [State.voltageRise]
  (repeat' split) <;> simp

@[simp] theorem State.deferGear_sec (s : State) (p : Part) (t : Nat) (g : Gear) :
    (State.deferGear s p t g).sec = s.sec := by rfl

@[simp] theorem State.gearSwitch_sec (s : State) (p : Part) :
    (State.gearSwitch s p).sec = s.sec := by
  simp only [State.gearSwitch]
  (repeat' split) <;> simp [foldl_sec]

@[simp] theorem State.voltageFall_sec (s : State) (p : Part) :
    (State.voltageFall s p).sec = s.sec := by
  simp only [State.voltageFall]; split <;> simp

@[simp] theorem State.droopStart_sec (s : State) (r : RegionId) :
    (State.droopStart s r).sec = s.sec := by
  simp only [State.droopStart]
  (repeat' split) <;> simp

@[simp] theorem State.droopTrip_sec (s : State) (r : RegionId) (after : Fin 3) :
    (State.droopTrip s r after).sec = s.sec := by
  simp only [State.droopTrip]
  (repeat' split) <;> simp

@[simp] theorem State.droopRelease_sec (s : State) (r : RegionId) :
    (State.droopRelease s r).sec = s.sec := by rfl

@[simp] theorem State.elecCaps_sec (s : State) :
    (State.elecCaps s).sec = s.sec := by
  simp only [State.elecCaps, foldl_sec, ite_sec, State.wrFld_sec, State.raiseBit_sec, State.wrBit_sec, ite_self,
      implies_true, eq_self]

@[simp] theorem State.capRegion_sec (s : State) (r : RegionId) :
    (State.capRegion s r).sec = s.sec := by
  simp only [State.capRegion]
  (repeat' split) <;> simp only [State.raiseBit_sec, State.wrFld_sec, State.modRegion_sec, eq_self]

@[simp] theorem State.capInForce_sec (s : State) (p : Part) (lead : Nat) :
    (State.capInForce s p lead).sec = s.sec := by
  simp only [State.capInForce]
  (repeat' split) <;> simp only [State.wrFld_sec, State.wrBit_sec, State.endJobs_sec, eq_self]

@[simp] theorem State.capBoundary_sec (s : State) :
    (State.capBoundary s).sec = s.sec := by
  simp only [State.capBoundary, foldl_sec, State.modRegion_sec, State.elecCaps_sec, State.capRegion_sec,
      implies_true, eq_self]

@[simp] theorem State.dieTemp_sec (s : State) (d : Die) (readings : List (Option Nat)) :
    (State.dieTemp s d readings).sec = s.sec := by
  simp only [State.dieTemp]
  have hf : ∀ (t : State), (t.fence (·.fenceDie d)).sec = t.sec :=
      fun t => State.fence_sec _ _ fun x => by simp only [State.fenceDie_sec, eq_self]
  (repeat' split) <;> simp only [hf, State.raiseBit_sec, State.wrFld_sec, State.raiseAll_sec, eq_self]

@[simp] theorem State.linkOvertemp_sec (s : State) (k : LinkDie) :
    (State.linkOvertemp s k).sec = s.sec := by
  simp only [State.linkOvertemp]
  (repeat' split) <;> simp only [State.fenceLd_sec, State.syncFence_sec, eq_self]

@[simp] theorem State.energyPeriod_sec (s : State) (dom : List Nat) (input : Nat) :
    (State.energyPeriod s dom input).sec = s.sec := by
  simp only [State.energyPeriod]; split <;> rfl

@[simp] theorem State.powerOff_sec (s : State) :
    (State.powerOff s).sec = s.sec := by rfl

@[simp] theorem State.dropJobs_sec (s : State) :
    (State.dropJobs s).sec = s.sec := by
  simp only [State.dropJobs]
  (repeat' split) <;> simp

@[simp] theorem State.latch_sec (s : State) (b : Nat) (atOnce : Bool) :
    (State.latch s b atOnce).sec = s.sec := by
  simp only [State.latch]
  (repeat' split) <;> simp [foldl_sec, ite_sec]

@[simp] theorem State.latchPowerOff_sec (s : State) :
    (State.latchPowerOff s).sec = s.sec := by
  simp only [State.latchPowerOff]
  (repeat' split) <;> rfl

@[simp] theorem State.brownOut_sec (s : State) :
    (State.brownOut s).sec = s.sec := by
  simp only [State.brownOut, foldl_sec, ite_sec, State.haltPart_sec, State.dropJobs_sec, State.powerOff_sec,
      ite_self, implies_true, eq_self]

@[simp] theorem State.inputBand_sec (s : State) :
    (State.inputBand s).sec = s.sec := by
  simp only [State.inputBand]
  (repeat' split) <;> simp

@[simp] theorem State.inputLevel_sec (s : State) (v : Nat) :
    (State.inputLevel s v).sec = s.sec := by
  simp only [State.inputLevel]
  (repeat' split) <;> simp

/-! ### Memories -/

@[simp] theorem State.chargeAccess_sec (s : State) (i : Issuer) (ahead : Bool) :
    (State.chargeAccess s i ahead).sec = s.sec := by
  simp only [State.chargeAccess]; split <;> simp only [State.suspectDie_sec, eq_self]

@[simp] theorem State.refuse_sec (s : State) (d : Die) (a : Nat) (i : Issuer) :
    (State.refuse s d a i).sec = s.sec := by
  simp only [State.refuse]; split <;> simp

@[simp] theorem State.uncorrectable_sec (s : State) (d : Die) (a : Nat) (source : Nat) (b : Nat) (suspect : Bool) :
    (State.uncorrectable s d a source b suspect).sec = s.sec := by
  simp only [State.uncorrectable]; split <;> simp only [State.count_sec, State.wrFld_sec, State.modReg_sec,
      State.raiseBit_sec, eq_self]

@[simp] theorem State.notePair_sec (s : State) (d : Die) (pair : Bool) :
    (State.notePair s d pair).sec = s.sec := by
  simp only [State.notePair]
  (repeat' split) <;> simp

@[simp] theorem State.pageRange_sec (s : State) (d : Die) (i : Issuer) :
    (State.pageRange s d i).sec = s.sec := by
  simp only [State.pageRange]
  (repeat' split) <;> simp only [State.raiseBit_sec, State.chargeAccess_sec, eq_self]

@[simp] theorem State.hbmRead_sec (s : State) (d : Die) (off : Nat) (i : Issuer) (upset : Nat) (own : Bool) :
    (State.hbmRead s d off i upset own).1.sec = s.sec := by
  simp only [State.hbmRead]
  (repeat' split) <;> simp

@[simp] theorem State.hbmStore_sec (s : State) (d : Die) (a : Nat) (b : List Byte) :
    (State.hbmStore s d a b).sec = s.sec := by rfl

@[simp] theorem State.hbmWrite_sec (s : State) (d : Die) (off : Nat) (i : Issuer) (b : List Byte) (own : Bool) :
    (State.hbmWrite s d off i b own).1.sec = s.sec := by
  simp only [State.hbmWrite]
  (repeat' split) <;> simp

@[simp] theorem State.claimBank_sec (s : State) (d : Die) (l : Nat) (c : Source) :
    (State.claimBank s d l c).1.sec = s.sec := by
  simp only [State.claimBank]; split <;> simp

@[simp] theorem State.cacheServe_sec (s : State) (d : Die) (l : Nat) (c : Source) (upset : Nat) :
    (State.cacheServe s d l c upset).1.sec = s.sec := by
  simp only [State.cacheServe]
  (repeat' split) <;> simp

@[simp] theorem State.cacheLine_sec (s : State) (d : Die) (off : Nat) (i : Issuer) (c : Source) (upset : Nat) :
    (State.cacheLine s d off i c upset).1.sec = s.sec := by
  simp only [State.cacheLine]
  (repeat' split) <;> simp

@[simp] theorem State.cacheRead_sec (s : State) (d : Die) (off : Nat) (i : Issuer) (upset : Nat) :
    (State.cacheRead s d off i upset).1.sec = s.sec := by
  simp only [State.cacheRead]
  (repeat' split) <;> simp

@[simp] theorem State.cachePut_sec (s : State) (d : Die) (off : Nat) (i : Issuer) (c : Source) (b : List Byte) :
    (State.cachePut s d off i c b).1.sec = s.sec := by
  simp only [State.cachePut]
  (repeat' split) <;> simp

@[simp] theorem State.cacheWrite_sec (s : State) (d : Die) (off : Nat) (i : Issuer) (b : List Byte) :
    (State.cacheWrite s d off i b).1.sec = s.sec := by
  simp only [State.cacheWrite]
  (repeat' split) <;> simp

@[simp] theorem State.engineRead_sec (s : State) (d : Die) (hbm : Bool) (off : Nat) (n : Nat) (i : Issuer)
    (c : Source) (own : Bool) :
    (State.engineRead s d hbm off n i c own).1.sec = s.sec := by
  refine foldl_sec1 _ (fun a b => ?_) _ _
  cases hbm <;> simp only [Bool.false_eq_true, if_false, if_true, State.hbmRead_sec, State.cacheLine_sec]

@[simp] theorem State.engineWrite_sec (s : State) (d : Die) (hbm : Bool) (off : Nat) (i : Issuer) (c : Source)
    (b : List Byte) (own : Bool) :
    (State.engineWrite s d hbm off i c b own).sec = s.sec := by
  refine foldl_sec _ (fun t x => ?_) _ _
  have h := State.hbmRead_sec t d (x.1 / 64 * 64) i 0 own
  (try dsimp only)
  (repeat' split) <;> first
    | (simp only [State.cachePut_sec, State.hbmWrite_sec, eq_self]; done)
    | (rename_i e; rw [e] at h; simp only [State.hbmWrite_sec]; exact h)
    | (rename_i e; rw [e] at h; exact h)

@[simp] theorem State.setBand_sec (s : State) (d : Die) (b : Nat) :
    (State.setBand s d b).sec = s.sec := by
  simp only [State.setBand]
  (repeat' split) <;> simp only [State.wrFld_sec, State.raiseBit_sec, eq_self]

@[simp] theorem State.hbmTemp_sec (s : State) (d : Die) (reading : Option Nat) :
    (State.hbmTemp s d reading).sec = s.sec := by
  simp only [State.hbmTemp]
  (repeat' split) <;> simp only [State.wrFld_sec, State.wrBit_sec, State.setBand_sec, State.modDie_sec, eq_self]

@[simp] theorem State.bandExit_sec (s : State) (d : Die) :
    (State.bandExit s d).sec = s.sec := by
  simp only [State.bandExit]; split <;> simp only [State.modDie_sec, State.setBand_sec, eq_self]

@[simp] theorem State.patrolScrub_sec (s : State) (d : Die) (upset : Nat) :
    (State.patrolScrub s d upset).sec = s.sec := by
  simp only [State.patrolScrub]
  (repeat' split) <;> simp only [State.count_sec, State.raiseBit_sec, State.modDie_sec, State.uncorrectable_sec,
      State.wrFld_sec, eq_self]

@[simp] theorem State.calibrate_sec (s : State) (d : Die) (fails : Bool) :
    (State.calibrate s d fails).sec = s.sec := by
  simp only [State.calibrate]
  (repeat' split) <;> simp

@[simp] theorem State.refreshStep_sec (s : State) :
    (State.refreshStep s).sec = s.sec := by
  simp only [State.refreshStep]
  split
  · rfl
  · exact foldl_sec _ (fun s d => by (try dsimp only); split <;> simp only [State.modDie_sec, eq_self]) _ _

@[simp] theorem State.startCopy_sec (s : State) (d : Die) (page : Nat) :
    (State.startCopy s d page).sec = s.sec := by
  simp only [State.startCopy]; split <;> rfl

@[simp] theorem State.copyAccess_sec (s : State) (d : Die) (upset : Nat) :
    (State.copyAccess s d upset).sec = s.sec := by
  simp only [State.copyAccess]
  (repeat' split) <;> simp only [State.modDie_sec, State.count_sec, State.raiseBit_sec, State.uncorrectable_sec,
      eq_self]

@[simp] theorem State.copyDone_sec (s : State) (d : Die) :
    (State.copyDone s d).sec = s.sec := by
  simp only [State.copyDone]
  (repeat' split) <;> simp only [State.modDie_sec, State.switchPage_sec, eq_self]

@[simp] theorem State.tgStart_sec (s : State) (d : Die) (c : Fin 32) (v : Word) :
    (State.tgStart s d c v).sec = s.sec := by
  simp only [State.tgStart]
  (repeat' split) <;> simp only [State.storeReg_sec, State.raiseBit_sec, State.wrBit_sec, State.wr_sec,
      State.modReg_sec, eq_self]

@[simp] theorem State.tgAccess_sec (s : State) (d : Die) (c : Fin 32) (k : Nat) :
    (State.tgAccess s d c k).sec = s.sec := by
  simp only [State.tgAccess, ite_sec, State.modDie_sec, State.count_sec, State.raiseBit_sec,
      State.uncorrectable_sec, State.wrFld_sec, State.wrBit_sec, ite_self, eq_self]

@[simp] theorem State.tgPass_sec (s : State) (d : Die) (c : Fin 32) (n : Nat) :
    (State.tgPass s d c n).sec = s.sec := by
  simp only [State.tgPass]; exact foldl_sec _ (fun _ _ => by simp only [State.tgAccess_sec, eq_self]) _ _

@[simp] theorem State.tgEnd_sec (s : State) (d : Die) (c : Fin 32) :
    (State.tgEnd s d c).sec = s.sec := by
  simp only [State.tgEnd]
  (repeat' split) <;> simp only [State.wrBit_sec, State.raiseBit_sec, State.endJobs_sec, eq_self]

@[simp] theorem State.tgDone_sec (s : State) (d : Die) (c : Fin 32) :
    (State.tgDone s d c).sec = s.sec := by
  simp only [State.tgDone]
  (repeat' split) <;> simp only [State.tgPass_sec, State.count_sec, State.tgEnd_sec, eq_self]

@[simp] theorem State.tgStop_sec (s : State) (d : Die) (c : Fin 32) (n : Nat) :
    (State.tgStop s d c n).sec = s.sec := by
  simp only [State.tgStop]; split <;> simp only [State.tgPass_sec, State.tgEnd_sec, eq_self]

@[simp] theorem State.hbmAccess_sec (s : State) (d : Die) (i : Issuer) (off : Nat) (data : Option (List Byte))
    (upset : Nat) :
    (State.hbmAccess s d i off data upset).sec = s.sec := by
  simp only [State.hbmAccess]
  (repeat' split) <;> simp only [State.deliver, State.hbmWrite_sec, State.hbmRead_sec, State.modDie_sec, eq_self]

@[simp] theorem State.cacheAccess_sec (s : State) (d : Die) (i : Issuer) (off : Nat) (data : Option (List Byte))
    (upset : Nat) :
    (State.cacheAccess s d i off data upset).sec = s.sec := by
  simp only [State.cacheAccess]
  (repeat' split) <;> simp only [State.deliver, State.cacheWrite_sec, State.cacheRead_sec, State.modDie_sec, eq_self]

/-! ### Flags -/

@[simp] theorem State.tuFlag_sec (s : State) (u : LU) (b : Nat) :
    (State.tuFlag s u b).sec = s.sec := by
  simp only [State.tuFlag]
  (repeat' split) <;> simp only [State.raiseBit_sec, eq_self]

@[simp] theorem State.tuSuspect_sec (s : State) (u : LU) (b : Nat) :
    (State.tuSuspect s u b).sec = s.sec := by
  simp only [State.tuSuspect]; split <;> simp

@[simp] theorem State.accFlag_sec (s : State) (u : LU) (b : Nat) :
    (State.accFlag s u b).sec = s.sec := by
  simp only [State.accFlag]
  (repeat' split) <;> simp only [State.raiseBit_sec, eq_self]

@[simp] theorem State.tuFlagIf_sec (s : State) (u : LU) (b : Nat) (c : Bool) :
    (State.tuFlagIf s u b c).sec = s.sec := by
  simp only [State.tuFlagIf]; split <;> simp only [State.tuFlag_sec, eq_self]

@[simp] theorem State.accFlagIf_sec (s : State) (u : LU) (b : Nat) (c : Bool) :
    (State.accFlagIf s u b c).sec = s.sec := by
  simp only [State.accFlagIf]; split <;> simp only [State.accFlag_sec, eq_self]

@[simp] theorem State.accFlags_sec (s : State) (u : LU) (f : AccFlags) :
    (State.accFlags s u f).sec = s.sec := by
  simp only [State.accFlags]
  (repeat' split) <;> simp only [State.accFlagIf_sec, eq_self]

/-! ### UnitCtl -/

@[simp] theorem State.issue_sec (s : State) (u : LU) (sl : Slot) (f : State → PU → UnitS → State)
    (hf : ∀ x0 x1 x2, (f x0 x1 x2).sec = x0.sec) :
    (State.issue s u sl f).sec = s.sec := by
  simp only [State.issue]
  (repeat' split) <;> simp_all only [State.setUnit_sec, eq_self]

@[simp] theorem State.aOp_sec (s : State) (u : LU) (d : Fin 16) (f : UnitS → Word) :
    (State.aOp s u d f).sec = s.sec := by
  simp only [State.aOp]; split <;> simp only [State.issue_sec, State.setUnit_sec, implies_true, eq_self]

@[simp] theorem State.badSlot_sec (s : State) (u : LU) (sl : Slot) :
    (State.badSlot s u sl).sec = s.sec := by
  simp only [State.badSlot]
  (repeat' split) <;> simp only [State.issue_sec, State.tuFlag_sec, implies_true, eq_self]

@[simp] theorem State.a_add_sec (s : State) (u : LU) (d : Fin 16) (a : Fin 16) (b : Fin 16) :
    (State.a_add s u d a b).sec = s.sec := by
  simp only [State.a_add]
  (repeat' split) <;> simp only [State.aOp_sec, eq_self]

@[simp] theorem State.a_sub_sec (s : State) (u : LU) (d : Fin 16) (a : Fin 16) (b : Fin 16) :
    (State.a_sub s u d a b).sec = s.sec := by
  simp only [State.a_sub]
  (repeat' split) <;> simp only [State.aOp_sec, eq_self]

@[simp] theorem State.a_and_sec (s : State) (u : LU) (d : Fin 16) (a : Fin 16) (b : Fin 16) :
    (State.a_and s u d a b).sec = s.sec := by
  simp only [State.a_and]
  (repeat' split) <;> simp only [State.aOp_sec, eq_self]

@[simp] theorem State.a_shl_sec (s : State) (u : LU) (d : Fin 16) (a : Fin 16) (b : Fin 16) :
    (State.a_shl s u d a b).sec = s.sec := by
  simp only [State.a_shl]
  (repeat' split) <;> simp only [State.aOp_sec, eq_self]

@[simp] theorem State.a_shr_sec (s : State) (u : LU) (d : Fin 16) (a : Fin 16) (b : Fin 16) :
    (State.a_shr s u d a b).sec = s.sec := by
  simp only [State.a_shr]
  (repeat' split) <;> simp only [State.aOp_sec, eq_self]

@[simp] theorem State.a_addi_sec (s : State) (u : LU) (d : Fin 16) (a : Fin 16) (imm : Half) :
    (State.a_addi s u d a imm).sec = s.sec := by
  simp only [State.a_addi]
  (repeat' split) <;> simp only [State.aOp_sec, eq_self]

@[simp] theorem State.a_andi_sec (s : State) (u : LU) (d : Fin 16) (a : Fin 16) (imm : Half) :
    (State.a_andi s u d a imm).sec = s.sec := by
  simp only [State.a_andi]
  (repeat' split) <;> simp only [State.aOp_sec, eq_self]

@[simp] theorem State.a_shli_sec (s : State) (u : LU) (d : Fin 16) (a : Fin 16) (imm : Half) :
    (State.a_shli s u d a imm).sec = s.sec := by
  simp only [State.a_shli]; split <;> simp

@[simp] theorem State.a_shri_sec (s : State) (u : LU) (d : Fin 16) (a : Fin 16) (imm : Half) :
    (State.a_shri s u d a imm).sec = s.sec := by
  simp only [State.a_shri]; split <;> simp

@[simp] theorem State.lOp_sec (s : State) (u : LU) (f : Ctl → UnitS → Ctl) :
    (State.lOp s u f).sec = s.sec := by
  simp only [State.lOp]
  (repeat' split) <;> simp only [State.issue_sec, State.setUnit_sec, implies_true, eq_self]

@[simp] theorem State.loopOp_sec (s : State) (u : LU) (body : Nat) (creg : Fin 16) :
    (State.loopOp s u body creg).sec = s.sec := by
  simp only [State.loopOp, ite_sec, State.issue_sec, State.tuFlag_sec, State.setUnit_sec, ite_self, implies_true,
      eq_self]

@[simp] theorem State.waitOp_sec (s : State) (u : LU) (t : Nat) :
    (State.waitOp s u t).sec = s.sec := by
  simp only [State.waitOp]; split <;> simp only [State.lOp_sec, eq_self]

@[simp] theorem State.waitExpiry_sec (s : State) (u : LU) :
    (State.waitExpiry s u).sec = s.sec := by
  simp only [State.waitExpiry]
  (repeat' split) <;> rfl

@[simp] theorem State.idleOp_sec (s : State) (u : LU) (n : Nat) :
    (State.idleOp s u n).sec = s.sec := by
  simp only [State.idleOp]; split <;> simp only [State.issue_sec, State.tuFlag_sec, State.setUnit_sec, implies_true,
      eq_self]

@[simp] theorem State.idleExpiry_sec (s : State) (u : LU) :
    (State.idleExpiry s u).sec = s.sec := by
  simp only [State.idleExpiry]
  (repeat' split) <;> rfl

@[simp] theorem State.armOp_sec (s : State) (u : LU) :
    (State.armOp s u).sec = s.sec := by
  simp only [State.armOp]
  (repeat' split) <;> simp only [State.lOp_sec, eq_self]

@[simp] theorem State.entryOp_sec (s : State) (u : LU) (a : Nat) :
    (State.entryOp s u a).sec = s.sec := by
  simp only [State.entryOp]
  (repeat' split) <;> simp only [State.lOp_sec, eq_self]

@[simp] theorem State.haltOp_sec (s : State) (u : LU) :
    (State.haltOp s u).sec = s.sec := by
  simp only [State.haltOp]
  (repeat' split) <;> simp only [State.lOp_sec, eq_self]

@[simp] theorem State.skipOp_sec (s : State) (u : LU) (flag : Nat) (sense : Bool) (n : Nat) :
    (State.skipOp s u flag sense n).sec = s.sec := by
  simp only [State.skipOp, ite_sec, State.issue_sec, State.tuFlag_sec, State.setUnit_sec, ite_self, implies_true,
      eq_self]

@[simp] theorem State.noteLag_sec (s : State) (r : RegionId) :
    (State.noteLag s r).sec = s.sec := by rfl

@[simp] theorem State.bundleEnd_sec (s : State) (u : LU) (p : PU) :
    (State.bundleEnd s u p).sec = s.sec := by
  simp only [State.bundleEnd]
  (repeat' split) <;> simp only [State.setUnit_sec, State.noteLag_sec, State.tuFlagIf_sec, eq_self]

/-! ### Matrix -/

@[simp] theorem State.releaseProof_sec (s : State) (u : LU) (g : Fin 4) :
    (State.releaseProof s u g).sec = s.sec := by rfl

@[simp] theorem State.mma_sec (s : State) (u : LU) (o : MmaOp) :
    (State.mma s u o).sec = s.sec := by
  simp only [State.mma, ite_sec, State.issue_sec, State.tuFlag_sec, State.setUnit_sec, State.tuFlagIf_sec,
      State.accFlagIf_sec, ite_self, implies_true, eq_self]

@[simp] theorem State.bindProof_sec (s : State) (u : LU) (g : Fin 4) (want : Bool) :
    (State.bindProof s u g want).1.sec = s.sec := by
  simp only [State.bindProof]
  (repeat' split) <;> first
    | rfl
    | (simp only [State.accFlag_sec, State.raiseBit_sec, eq_self]; done)
    | (apply foldl_sec; intros; (repeat' split) <;> simp only [State.modCluster_sec, State.accFlag_sec,
        State.raiseBit_sec, foldl_sec, foldl_sec1, ite_sec, ite_sec1, ite_self, implies_true, eq_self]; done)
    | (simp only [foldl_sec, *]; done)
    | (simp_all only [State.modCluster_sec, State.accFlag_sec, State.raiseBit_sec, foldl_sec, foldl_sec1, ite_sec,
        ite_sec1, ite_self, implies_true, eq_self]; done)

@[simp] theorem State.grpOpen_sec (s : State) (u : LU) (o : OpenOp) :
    (State.grpOpen s u o).sec = s.sec := by
  simp only [State.grpOpen, ite_sec, State.issue_sec, State.tuFlag_sec, State.accFlagIf_sec, State.releaseProof_sec,
      State.bindProof_sec, State.setUnit_sec, ite_self, implies_true, eq_self]

@[simp] theorem State.grpClose_sec (s : State) (u : LU) (g : Fin 4) :
    (State.grpClose s u g).sec = s.sec := by
  simp only [State.grpClose, ite_sec, State.issue_sec, State.setUnit_sec, ite_self, implies_true, eq_self]

@[simp] theorem State.groupEnd_sec (s : State) (u : LU) (p : PU) (c : Nat) :
    (State.groupEnd s u p c).sec = s.sec := by
  simp only [State.groupEnd]
  (repeat' split) <;> rfl

@[simp] theorem State.crossedRun_sec (s : State) (u : LU) (p : PU) (g : Fin 4) :
    (State.crossedRun s u p g).sec = s.sec := by rfl

@[simp] theorem State.liveRun_sec (s : State) (u : LU) (p : PU) (f : Flight) (m : MmaFlight)
    (ups : List (Nat × Word)) :
    (State.liveRun s u p f m ups).sec = s.sec := by
  simp only [State.liveRun]; split <;> simp

@[simp] theorem State.runPromotion_sec (s : State) (u : LU) (ups : List (Nat × Word)) :
    (State.runPromotion s u ups).sec = s.sec := by
  simp only [State.runPromotion]
  (repeat' split) <;> simp

@[simp] theorem State.mismatch_sec (s : State) (u : LU) (g : Fin 4) (row : Option Nat) (col : Option Nat)
    (bundle : Nat) (verso : Bool) :
    (State.mismatch s u g row col bundle verso).sec = s.sec := by
  simp only [State.mismatch]
  (repeat' split) <;> simp only [State.wrBit_sec, State.wrFld_sec, State.raiseBit_sec, State.raiseSuspect_sec, eq_self]

@[simp] theorem State.replayCompared_sec (s : State) (p : PU) (bad : Bool) :
    (State.replayCompared s p bad).sec = s.sec := by
  simp only [State.replayCompared]
  (repeat' split) <;> simp only [State.raiseSuspect_sec, State.withdraw_sec, eq_self]

@[simp] theorem State.checksumComparison_sec (s : State) (u : LU) :
    (State.checksumComparison s u).sec = s.sec := by
  simp only [State.checksumComparison]
  (repeat' split) <;> simp only [State.setUnit_sec, State.raiseBit_sec, State.replayCompared_sec,
      State.mismatch_sec, State.wrBit_sec, eq_self]

@[simp] theorem State.proofResult_sec (s : State) (u : LU) :
    (State.proofResult s u).sec = s.sec := by
  simp only [State.proofResult]
  (repeat' split) <;> rfl

/-! ### Writer -/

@[simp] theorem State.wWrite_sec (s : State) (u : LU) (o : WriteOp) :
    (State.wWrite s u o).sec = s.sec := by
  simp only [State.wWrite, ite_sec, State.issue_sec, State.badSlot_sec, State.tuFlag_sec, State.setUnit_sec,
      State.tuFlagIf_sec, State.accFlagIf_sec, ite_self, implies_true, eq_self]

@[simp] theorem State.wWriteComplete_sec (s : State) (u : LU) :
    (State.wWriteComplete s u).sec = s.sec := by
  simp only [State.wWriteComplete]
  (repeat' split) <;> rfl

/-! ### Vector -/

@[simp] theorem State.vOp_sec (s : State) (u : LU) (vd : Fin 16) (lat : Nat) (f : UnitS → List Word) :
    (State.vOp s u vd lat f).sec = s.sec := by
  simp only [State.vOp]
  (repeat' split) <;> simp only [State.issue_sec, State.setUnit_sec, implies_true, eq_self]

@[simp] theorem State.vAdd_sec (s : State) (u : LU) (vd : Fin 16) (va : Fin 16) (vb : Fin 16) :
    (State.vAdd s u vd va vb).sec = s.sec := by
  simp only [State.vAdd]
  (repeat' split) <;> simp only [State.vOp_sec, eq_self]

@[simp] theorem State.vSub_sec (s : State) (u : LU) (vd : Fin 16) (va : Fin 16) (vb : Fin 16) :
    (State.vSub s u vd va vb).sec = s.sec := by
  simp only [State.vSub]
  (repeat' split) <;> simp only [State.vOp_sec, eq_self]

@[simp] theorem State.vMul_sec (s : State) (u : LU) (vd : Fin 16) (va : Fin 16) (vb : Fin 16) :
    (State.vMul s u vd va vb).sec = s.sec := by
  simp only [State.vMul]
  (repeat' split) <;> simp only [State.vOp_sec, eq_self]

@[simp] theorem State.vFma_sec (s : State) (u : LU) (vd : Fin 16) (va : Fin 16) (vb : Fin 16) (vc : Fin 16) :
    (State.vFma s u vd va vb vc).sec = s.sec := by
  simp only [State.vFma]
  (repeat' split) <;> simp only [State.vOp_sec, eq_self]

@[simp] theorem State.vRcpOp_sec (s : State) (u : LU) (vd : Fin 16) (va : Fin 16) :
    (State.vRcpOp s u vd va).sec = s.sec := by
  simp only [State.vRcpOp]
  (repeat' split) <;> simp only [State.vOp_sec, eq_self]

@[simp] theorem State.vRsqOp_sec (s : State) (u : LU) (vd : Fin 16) (va : Fin 16) :
    (State.vRsqOp s u vd va).sec = s.sec := by
  simp only [State.vRsqOp]
  (repeat' split) <;> simp only [State.vOp_sec, eq_self]

@[simp] theorem State.vExpOp_sec (s : State) (u : LU) (vd : Fin 16) (va : Fin 16) :
    (State.vExpOp s u vd va).sec = s.sec := by
  simp only [State.vExpOp]
  (repeat' split) <;> simp only [State.vOp_sec, eq_self]

@[simp] theorem State.vSum_sec (s : State) (u : LU) (vd : Fin 16) (va : Fin 16) :
    (State.vSum s u vd va).sec = s.sec := by
  simp only [State.vSum]
  (repeat' split) <;> simp only [State.vOp_sec, eq_self]

@[simp] theorem State.vSplat_sec (s : State) (u : LU) (vd : Fin 16) (imm : Half) :
    (State.vSplat s u vd imm).sec = s.sec := by
  simp only [State.vSplat]
  (repeat' split) <;> simp only [State.vOp_sec, eq_self]

@[simp] theorem State.vLdg_sec (s : State) (u : LU) (vd : Fin 16) (g : Fin 4) (imm : Fin 64) (reg : Fin 16) :
    (State.vLdg s u vd g imm reg).sec = s.sec := by
  simp only [State.vLdg]
  (repeat' split) <;> simp only [State.issue_sec, State.setUnit_sec, State.accFlagIf_sec, implies_true, eq_self]

@[simp] theorem State.vLd_sec (s : State) (u : LU) (vd : Fin 16) (desc : Fin 64) (reg : Fin 16) :
    (State.vLd s u vd desc reg).sec = s.sec := by
  exact State.issue_sec _ _ _ _ fun s p x => by (try dsimp only); (repeat' split) <;> simp only [State.tuFlag_sec, State.setUnit_sec, eq_self]

@[simp] theorem State.vSt_sec (s : State) (u : LU) (va : Fin 16) (desc : Fin 64) (reg : Fin 16) :
    (State.vSt s u va desc reg).sec = s.sec := by
  simp only [State.vSt, ite_sec, State.issue_sec, State.tuFlag_sec, State.setUnit_sec, ite_self, implies_true, eq_self]

/-! ### Verdict -/

@[simp] theorem State.countEvent_sec (s : State) (e : SuspEv) :
    (State.countEvent s e).sec = s.sec := by
  simp only [State.countEvent]
  (repeat' split) <;> simp only [State.modPart_sec, State.raiseAll_sec, eq_self]

@[simp] theorem State.arrive_sec (s : State) (n : Nat) :
    (State.arrive s n).sec = s.sec := by
  simp only [State.arrive]; split <;> simp only [State.countEvent_sec, eq_self]

@[simp] theorem State.arriveDue_sec (s : State) :
    (State.arriveDue s).sec = s.sec := by
  simp only [State.arriveDue]
  (repeat' split) <;> first
    | rfl
    | (simp; done)
    | (apply foldl_sec; intros; (repeat' split) <;> simp; done)
    | (simp only [foldl_sec, *]; done)
    | (simp_all; done)

@[simp] theorem State.charge_sec (s : State) (p : Part) (n : Nat) :
    (State.charge s p n).sec = s.sec := by rfl

@[simp] theorem State.promoteProv_sec (s : State) (p : Part) :
    (State.promoteProv s p).sec = s.sec := by
  simp only [State.promoteProv]; exact foldl_sec _ (fun _ _ => by simp only [State.wrBit_sec, eq_self]) _ _

@[simp] theorem State.comparePairs_sec (s : State) (p : Part) (f : Forme) :
    (State.comparePairs s p f).sec = s.sec := by
  simp only [State.comparePairs]
  (repeat' split) <;> first
    | rfl
    | (simp only [State.raiseBit_sec, State.charge_sec, foldl_sec, ite_sec, ite_self, implies_true, eq_self]; done)
    | (apply foldl_sec; intros; (repeat' split) <;> simp only [State.raiseBit_sec, State.charge_sec, foldl_sec,
        foldl_sec1, ite_sec, ite_sec1, ite_self, implies_true, eq_self]; done)
    | (simp only [foldl_sec, *]; done)
    | (simp_all only [State.raiseBit_sec, State.charge_sec, foldl_sec, foldl_sec1, ite_sec, ite_sec1, ite_self,
        implies_true, eq_self]; done)

@[simp] theorem State.compareTwin_sec (s : State) (p : Part) (f : Forme) :
    (State.compareTwin s p f).sec = s.sec := by
  simp only [State.compareTwin]
  (repeat' split) <;> simp only [State.raiseBit_sec, State.charge_sec, eq_self]

@[simp] theorem State.verdictTick_sec (s : State) (p : Part) :
    (State.verdictTick s p).sec = s.sec := by
  simp only [State.verdictTick]
  (repeat' split) <;> simp only [State.promoteProv_sec, State.comparePairs_sec, State.compareTwin_sec,
      State.modPart_sec, eq_self]

@[simp] theorem State.hold_sec (s : State) (p : Part) (r : TreeRec) (arrived : Bool) :
    (State.hold s p r arrived).sec = s.sec := by rfl

@[simp] theorem State.treeAdvance_sec (s : State) (p : Part) :
    (State.treeAdvance s p).sec = s.sec := by
  simp only [State.treeAdvance]
  (repeat' split) <;> first
    | rfl
    | (simp only [State.modPart_sec, State.hold_sec, State.wrBit_sec, foldl_sec, implies_true, eq_self]; done)
    | (apply foldl_sec; intros; (repeat' split) <;> simp only [State.modPart_sec, State.hold_sec, State.wrBit_sec,
        foldl_sec, foldl_sec1, ite_sec, ite_sec1, ite_self, implies_true, eq_self]; done)
    | (simp only [foldl_sec, *]; done)
    | (simp_all only [State.modPart_sec, State.hold_sec, State.wrBit_sec, foldl_sec, foldl_sec1, ite_sec, ite_sec1,
        ite_self, implies_true, eq_self]; done)

@[simp] theorem State.treeReceive_sec (s : State) (port : Port) (r : VerdictRec) :
    (State.treeReceive s port r).sec = s.sec := by
  simp only [State.treeReceive]
  (repeat' split) <;> rfl

@[simp] theorem State.closeSnapshot_sec (s : State) (p : Part) (f : Forme) (q : SnapReq) (valid : Bool) :
    (State.closeSnapshot s p f q valid).sec = s.sec := by
  simp only [State.closeSnapshot]
  (repeat' split) <;> simp only [foldl_sec, State.hbmStore_sec, State.modPart_sec, State.endJobs_sec, implies_true,
      eq_self]

@[simp] theorem State.noteVerdict_sec (s : State) (p : Part) (f : Forme) (commits : Bool) :
    (State.noteVerdict s p f commits).sec = s.sec := by rfl

@[simp] theorem State.noteDigests_sec (s : State) (p : Part) (f : Forme) :
    (State.noteDigests s p f).sec = s.sec := by
  simp only [State.noteDigests]; split <;> rfl

@[simp] theorem State.commitTick_sec (s : State) (p : Part) :
    (State.commitTick s p).sec = s.sec := by
  simp only [State.commitTick]
  (repeat' split) <;> simp only [foldl_sec, State.verdictTick_sec, State.treeAdvance_sec, State.noteVerdict_sec,
      State.noteDigests_sec, State.closeSnapshot_sec, State.modPart_sec, State.modReg_sec, State.wr_sec,
      State.wrBit_sec, implies_true, eq_self]

/-! ### Links -/

@[simp] theorem State.modLane_sec (s : State) (l : Lane) (f : LaneS → LaneS) :
    (State.modLane s l f).sec = s.sec := by rfl

@[simp] theorem State.modPort_sec (s : State) (p : Port) (f : PortS → PortS) :
    (State.modPort s p f).sec = s.sec := by rfl

@[simp] theorem State.syncPort_sec (s : State) (p : Port) :
    (State.syncPort s p).sec = s.sec := by
  simp only [State.syncPort]; exact foldl_sec _ (fun _ _ => by simp) _ _

@[simp] theorem State.syncTwin_sec (s : State) :
    (State.syncTwin s).sec = s.sec := by
  simp only [State.syncTwin]; split <;> rfl

@[simp] theorem State.setLane_sec (s : State) (l : Lane) (st : Nat) :
    (State.setLane s l st).sec = s.sec := by
  simp only [State.setLane]
  (repeat' split) <;> simp

@[simp] theorem State.loseLane_sec (s : State) (p : Port) (k : Nat) (t : Nat) :
    (State.loseLane s p k t).sec = s.sec := by rfl

@[simp] theorem State.laneLost_sec (s : State) (l : Lane) :
    (State.laneLost s l).sec = s.sec := by
  simp only [State.laneLost]
  (repeat' split) <;> simp

@[simp] theorem State.laneDown_sec (s : State) (l : Lane) :
    (State.laneDown s l).sec = s.sec := by
  simp only [State.laneDown]
  (repeat' split) <;> simp

@[simp] theorem State.laneFailure_sec (s : State) (l : Lane) :
    (State.laneFailure s l).sec = s.sec := by
  simp only [State.laneFailure]; split <;> simp only [State.laneDown_sec, eq_self]

@[simp] theorem State.lossOfSignal_sec (s : State) (l : Lane) :
    (State.lossOfSignal s l).sec = s.sec := by
  simp only [State.lossOfSignal]
  (repeat' split) <;> simp only [State.laneDown_sec, eq_self]

@[simp] theorem State.failLane_sec (s : State) (l : Lane) :
    (State.failLane s l).sec = s.sec := by
  simp only [State.failLane]
  (repeat' split) <;> simp only [State.modLane_sec, State.setLane_sec, eq_self]

@[simp] theorem State.laneTrained_sec (s : State) (l : Lane) (delay : Nat) :
    (State.laneTrained s l delay).sec = s.sec := by
  simp only [State.laneTrained]
  (repeat' split) <;> simp only [State.raiseBit_sec, State.failLane_sec, State.modLane_sec, State.setLane_sec,
      eq_self]

@[simp] theorem State.trainTimeout_sec (s : State) (l : Lane) :
    (State.trainTimeout s l).sec = s.sec := by
  simp only [State.trainTimeout]
  (repeat' split) <;> simp only [State.failLane_sec, State.modLane_sec, State.laneDown_sec, eq_self]

@[simp] theorem State.failedRetry_sec (s : State) (l : Lane) :
    (State.failedRetry s l).sec = s.sec := by
  simp only [State.failedRetry]; split <;> simp only [State.setLane_sec, eq_self]

@[simp] theorem State.codeword_sec (s : State) (l : Lane) (c : Codeword) :
    (State.codeword s l c).sec = s.sec := by
  simp only [State.codeword]
  (repeat' split) <;> simp only [State.modLane_sec, State.count_sec, State.raiseBit_sec, State.laneDown_sec, eq_self]

@[simp] theorem State.header_sec (s : State) (p : Port) (k : Nat) (hcrc : Bool) (lane : Nat) :
    (State.header s p k hcrc lane).sec = s.sec := by
  simp only [State.header]
  (repeat' split) <;> simp only [State.modLane_sec, State.laneDown_sec, State.raiseBit_sec, State.failLane_sec,
      State.setLane_sec, eq_self]

@[simp] theorem State.setSend_sec (s : State) (b : BufId) (x : LinkBuf) :
    (State.setSend s b x).sec = s.sec := by rfl

@[simp] theorem State.setRecv_sec (s : State) (b : BufId) (x : LinkBuf) :
    (State.setRecv s b x).sec = s.sec := by rfl

@[simp] theorem State.sendIdle_sec (s : State) (l : Lane) (base : SentSlot) :
    (State.sendIdle s l base).sec = s.sec := by rfl

@[simp] theorem State.slotSend_sec (s : State) (p : Port) (k : Fin 8) :
    (State.slotSend s p k).sec = s.sec := by
  simp only [State.slotSend]
  (repeat' split) <;> rfl

@[simp] theorem State.soundSlot_sec (s : State) (p : Port) (k : Fin 8) (fec : Bool) (head : List Byte)
    (payload : List Byte) (named : Bool) :
    (State.soundSlot s p k fec head payload named).1.sec = s.sec := by
  simp only [State.soundSlot]
  (repeat' split) <;> simp

@[simp] theorem State.judgeSlot_sec (s : State) (p : Port) (k : Fin 8) (x : RxSlot) :
    (State.judgeSlot s p k x).1.sec = s.sec := by
  simp only [State.judgeSlot]
  (repeat' split) <;> simp

@[simp] theorem State.blankSlot_sec (s : State) (p : Port) (k : Fin 8) (q : Part) (t : Nat) :
    (State.blankSlot s p k q t).sec = s.sec := by rfl

@[simp] theorem State.twinResult_sec (s : State) (q : Part) (b : BufId) (slot : Nat) :
    (State.twinResult s q b slot).sec = s.sec := by
  simp only [State.twinResult]
  (repeat' split) <;> first
    | rfl
    | (simp; done)
    | (apply foldl_sec; intros; (repeat' split) <;> simp; done)
    | (simp only [foldl_sec, *]; done)
    | (simp_all; done)

@[simp] theorem State.slotReceive_sec (s : State) (p : Port) (k : Fin 8) (x : RxSlot) :
    (State.slotReceive s p k x).sec = s.sec := by
  have h := State.judgeSlot_sec s p k x
  simp only [State.slotReceive]
  split
  · rename_i h1; rw [h1] at h; exact h
  · rename_i h1
    rw [h1] at h
    dsimp only at h
    (repeat' split) <;> first
      | exact h
      | rfl
      | (simp only [h, State.raiseBit_sec, State.twinResult_sec, State.setRecv_sec, eq_self]; done)

@[simp] theorem State.fabricOut_sec (s : State) (x : FabricSlot) (r : Delivery) :
    (State.fabricOut s x r).sec = s.sec := by
  simp only [State.fabricOut]; split <;> rfl

@[simp] theorem State.fabricSlot_sec (s : State) (x : FabricSlot) (line : Option (List Byte)) :
    (State.fabricSlot s x line).sec = s.sec := by
  simp only [State.fabricSlot]
  (repeat' split) <;> simp

@[simp] theorem State.fabricWay_sec (s : State) (p : Part) (a : FabricEnd) (b : FabricEnd) :
    (State.fabricWay s p a b).1.sec = s.sec := by
  simp only [State.fabricWay]; split <;> rfl

@[simp] theorem State.fabricTake_sec (s : State) (d : Die) (f : Far) (inbound : Bool) :
    (State.fabricTake s d f inbound).1.sec = s.sec := by
  simp only [State.fabricTake]
  (repeat' split) <;> simp

@[simp] theorem State.dieWay_sec (s : State) (d : Die) (a : FabricEnd) (b : FabricEnd) :
    (State.dieWay s d a b).1.sec = s.sec := by
  simp only [State.dieWay]
  (repeat' split) <;> simp

@[simp] theorem State.switchLane_sec (s : State) (p : Port) (k : Nat) :
    (State.switchLane s p k).sec = s.sec := by
  simp only [State.switchLane]
  (repeat' split) <;> simp [foldl_sec]

@[simp] theorem State.laneSwitches_sec (s : State) (who : Option Part) :
    (State.laneSwitches s who).sec = s.sec := by
  simp only [State.laneSwitches, foldl_sec, ite_sec, State.modPort_sec, State.switchLane_sec, ite_self,
      implies_true, eq_self]

@[simp] theorem State.spareOut_sec (s : State) (l : Lane) :
    (State.spareOut s l).sec = s.sec := by
  simp only [State.spareOut]; split <;> simp

@[simp] theorem State.ldSpareSet_sec (s : State) (k : LinkDie) (high : Bool) (v : Word) :
    (State.ldSpareSet s k high v).sec = s.sec := by
  refine (foldl_sec _ (fun s a => ?_) _ _).trans (State.storeReg_sec _ _ _)
  (try dsimp only)
  (repeat' split) <;> simp only [State.modLinks_sec, State.setLane_sec, State.spareOut_sec]

@[simp] theorem State.ldSpareWrite_sec (s : State) (k : LinkDie) (high : Bool) (v : Word) :
    (State.ldSpareWrite s k high v).sec = s.sec := by
  simp only [State.ldSpareWrite]; split <;> simp

@[simp] theorem State.sparesDue_sec (s : State) (who : Option Part) :
    (State.sparesDue s who).sec = s.sec := by
  simp only [State.sparesDue]; exact foldl_sec _ (fun _ _ => by simp only [State.spareOut_sec, eq_self]) _ _

@[simp] theorem State.modTwin_sec (s : State) (f : TwinS → TwinS) :
    (State.modTwin s f).sec = s.sec := by rfl

@[simp] theorem State.twinLost_sec (s : State) (b : Nat) :
    (State.twinLost s b).sec = s.sec := by
  simp only [State.twinLost]
  (repeat' split) <;> simp

@[simp] theorem State.heartbeatMissing_sec (s : State) :
    (State.heartbeatMissing s).sec = s.sec := by
  simp only [State.heartbeatMissing]
  (repeat' split) <;> simp

@[simp] theorem State.modStream_sec (s : State) (id : Half) (f : BulkStream → BulkStream) :
    (State.modStream s id f).sec = s.sec := by rfl

@[simp] theorem State.bulkRead_sec (s : State) (t : BulkStream) :
    (State.bulkRead s t).sec = s.sec := by
  simp only [State.bulkRead]
  (repeat' split) <;> simp

@[simp] theorem State.dealStream_sec (s : State) (id : Half) (deal : List (Port × Nat × BulkPiece)) :
    (State.dealStream s id deal).1.sec = s.sec := by
  simp only [State.dealStream]
  refine foldl_sec1 _ (fun a b => ?_) _ _
  (try dsimp only)
  (repeat' split) <;> simp only [State.modStream_sec, State.bulkRead_sec]

@[simp] theorem State.bulkFor_sec (s : State) (p : Port) (t : Nat) :
    (State.bulkFor s p t).1.sec = s.sec := by
  simp [State.bulkFor, foldl_sec1, ite_sec]

@[simp] theorem State.bulkLand_sec (s : State) (t : BulkStream) (a : Nat) (b : List Byte) :
    (State.bulkLand s t a b).sec = s.sec := by
  simp only [State.bulkLand]
  (repeat' split) <;> simp

@[simp] theorem State.streamTick_sec (s : State) :
    (State.streamTick s).sec = s.sec := by
  simp only [State.streamTick]
  refine foldl_sec _ (fun s a => ?_) _ _
  (try dsimp only)
  (repeat' split) <;> first
    | rfl
    | (simp only [State.bulkRead_sec]; done)
    | exact (foldl_sec _ (fun s e => State.bulkLand_sec _ _ _ _) _ _).trans (State.modStream_sec _ _ _)

@[simp] theorem State.bulkFill_sec (s : State) (p : Port) (bulk : List (Nat × BulkPiece)) :
    (State.bulkFill s p bulk).1.sec = s.sec := by
  simp [State.bulkFill, foldl_sec1]

@[simp] theorem State.tramlineSend_sec (s : State) (p : Port) :
    (State.tramlineSend s p).sec = s.sec := by
  simp only [State.tramlineSend]
  (repeat' split) <;> simp [foldl_sec]

@[simp] theorem State.detachSent_sec (s : State) (p : Port) :
    (State.detachSent s p).sec = s.sec := by
  simp only [State.detachSent]
  (repeat' split) <;> simp

@[simp] theorem State.accept_sec (s : State) (p : Port) (seq : Half) :
    (State.accept s p seq).sec = s.sec := by rfl

@[simp] theorem State.message_sec (s : State) (p : Port) (seq : Half) (m : Msg) :
    (State.message s p seq m).sec = s.sec := by
  simp only [State.message]
  (repeat' split) <;> simp

@[simp] theorem State.bulkIn_sec (s : State) (b : BulkPiece) :
    (State.bulkIn s b).sec = s.sec := by
  simp only [State.bulkIn]
  (repeat' split) <;> simp

@[simp] theorem State.portDelay_sec (s : State) (p : Port) (r : TimeRecord) (t2 : Nat) :
    (State.portDelay s p r t2).sec = s.sec := by
  simp only [State.portDelay]
  (repeat' split) <;> first
    | rfl
    | (simp; done)
    | (apply foldl_sec; intros; (repeat' split) <;> simp; done)
    | (simp only [foldl_sec, *]; done)
    | (simp_all; done)

@[simp] theorem State.recordLane_sec (s : State) (p : Port) (k : Nat) :
    (State.recordLane s p k).sec = s.sec := by
  simp only [State.recordLane]; exact foldl_sec _ (fun _ _ => by simp) _ _

@[simp] theorem State.tramRecords_sec (s : State) (p : Port) (b : List Byte) :
    (State.tramRecords s p b).sec = s.sec := by
  simp only [State.tramRecords]
  (repeat' split) <;> simp [foldl_sec]

@[simp] theorem State.notePeer_sec (s : State) (p : Port) (k : Fin 8) (h : SlotHead) :
    (State.notePeer s p k h).sec = s.sec := by
  simp only [State.notePeer]; split <;> rfl

@[simp] theorem State.tramlineTake_sec (s : State) (p : Port) (k : Fin 8) (timeLane : Bool) (h : SlotHead)
    (x : RxTram) :
    (State.tramlineTake s p k timeLane h x).sec = s.sec := by
  simp only [State.tramlineTake]
  (repeat' split) <;> simp only [State.syncPort_sec, State.bulkIn_sec, State.tramRecords_sec, State.recordLane_sec,
      State.modPort_sec, State.port0Record_sec, State.modLane_sec, State.portDelay_sec, State.notePeer_sec]

@[simp] theorem State.tramlineReceive_sec (s : State) (p : Port) (k : Fin 8) (x : RxTram) :
    (State.tramlineReceive s p k x).sec = s.sec := by
  have h := State.soundSlot_sec s p k (x.fec && !s.linkDead (laneOf p k.val).ld) x.head x.payload false
  simp only [State.tramlineReceive, State.tramlineTake_sec, State.recordMissing_sec, State.raiseBit_sec, ite_sec, h,
      ite_self]

/-! ### Reduction -/

@[simp] theorem State.modRed_sec (s : State) (d : Die) (f : RedS → RedS) :
    (State.modRed s d f).sec = s.sec := by rfl

@[simp] theorem State.redSuspect_sec (s : State) (d : Die) (b : Nat) :
    (State.redSuspect s d b).sec = s.sec := by
  simp only [State.redSuspect]
  (repeat' split) <;> simp only [State.raiseSuspect_sec, eq_self]

@[simp] theorem State.coldRequest_sec (s : State) (d : Die) :
    (State.coldRequest s d).sec = s.sec := by
  simp only [State.coldRequest]
  (repeat' split) <;> simp only [State.raiseBit_sec, State.modPart_sec, eq_self]

@[simp] theorem State.setRedBlock_sec (s : State) (d : Die) (w : RedWindow) (k : Nat) (b : RedBlock) :
    (State.setRedBlock s d w k b).sec = s.sec := by rfl

@[simp] theorem State.blockServe_sec (s : State) (d : Die) (w : RedWindow) (k : Nat) (c : Source) :
    (State.blockServe s d w k c).1.sec = s.sec := by
  simp [State.blockServe, foldl_sec1]

@[simp] theorem State.gleanCopy_sec (s : State) (d : Die) (wi : Nat) (w : RedWindow) (sown : Bool) (k : Nat)
    (parts : List (List (Val × Nat))) :
    (State.gleanCopy s d wi w sown k parts).sec = s.sec := by
  simp only [State.gleanCopy]
  (repeat' split) <;> simp

@[simp] theorem State.takeBlock_sec (s : State) (d : Die) (wi : Nat) (w : RedWindow) (sown : Bool) (k : Nat)
    (parts : List (List (Val × Nat))) :
    (State.takeBlock s d wi w sown k parts).sec = s.sec := by
  simp only [State.takeBlock]
  (repeat' split) <;> simp

@[simp] theorem State.intake_sec (s : State) (d : Die) (n : Nat) :
    (State.intake s d n).sec = s.sec := by rfl

@[simp] theorem State.contribute_sec (s : State) (d : Die) (port : Nat) (wi : Nat) (index : Nat) (f : Fmt)
    (rows : Nat) (cols : Nat) (el : Nat → Nat → Val × Nat) (skip : List Nat) :
    (State.contribute s d port wi index f rows cols el skip).sec = s.sec := by
  simp only [State.contribute]
  (repeat' split) <;> simp

@[simp] theorem State.applyWork_sec (s : State) (d : Die) (w : AdderWork) :
    (State.applyWork s d w).sec = s.sec := by
  simp only [State.applyWork]
  (repeat' split) <;> first
    | rfl
    | (simp; done)
    | (apply foldl_sec; intros; (repeat' split) <;> simp; done)
    | (simp only [foldl_sec, *]; done)
    | (simp_all; done)

@[simp] theorem State.adderTick_sec (s : State) (d : Die) :
    (State.adderTick s d).sec = s.sec := by
  simp only [State.adderTick]
  (repeat' split) <;> first
    | rfl
    | (simp; done)
    | (apply foldl_sec; intros; (repeat' split) <;> simp; done)
    | (simp only [foldl_sec, *]; done)
    | (simp_all; done)

@[simp] theorem State.noteRun_sec (s : State) (d : Die) (a : Nat) (n : Nat) :
    (State.noteRun s d a n).sec = s.sec := by
  simp only [State.noteRun]; exact foldl_sec _ (fun _ _ => by simp) _ _

@[simp] theorem State.readHistory_sec (s : State) (d : Die) (wi : Nat) (w : RedWindow) :
    (State.readHistory s d wi w).sec = s.sec := by
  simp only [State.readHistory]
  (repeat' split) <;> simp

@[simp] theorem State.windowOpen_sec (s : State) (d : Die) (wi : Nat) :
    (State.windowOpen s d wi).sec = s.sec := by
  simp only [State.windowOpen]
  (repeat' split) <;> simp [foldl_sec]

@[simp] theorem State.nanResult_sec (s : State) (d : Die) :
    (State.nanResult s d).sec = s.sec := by
  simp only [State.nanResult]; split <;> simp only [State.count_sec, State.raiseBit_sec, State.suspectDie_sec, eq_self]

@[simp] theorem State.writeHistory_sec (s : State) (d : Die) (wi : Nat) (w : RedWindow)
    (res : Nat → Option (Option Nat × List Val)) :
    (State.writeHistory s d wi w res).sec = s.sec := by
  simp only [State.writeHistory]; split <;> simp

@[simp] theorem State.windowSeal_sec (s : State) (d : Die) (wi : Nat) :
    (State.windowSeal s d wi).sec = s.sec := by
  simp only [State.windowSeal]
  (repeat' split) <;> simp [foldl_sec, ite_sec]

@[simp] theorem State.ringTx_sec (s : State) (p : Part) (e : RingEntry) (pay : Option (List Byte)) :
    (State.ringTx s p e pay).sec = s.sec := by
  simp only [State.ringTx]; split <;> rfl

@[simp] theorem State.ringStore_sec (s : State) (d : Die) (e : RingEntry) (j : Nat) (b : List Byte) :
    (State.ringStore s d e j b).sec = s.sec := by
  simp only [State.ringStore]
  (repeat' split) <;> simp

@[simp] theorem State.disagree_sec (s : State) (d : Die) (agreed : Nat) (b : RingBlock) :
    (State.disagree s d agreed b).sec = s.sec := by
  simp only [State.disagree]
  (repeat' split) <;> simp only [State.redSuspect_sec, State.coldRequest_sec, eq_self]

@[simp] theorem State.ringCopy_sec (s : State) (d : Die) (i : Nat) (w : RedWindow) (e : RingEntry) (k : Nat)
    (got : Option (List Byte)) (out : Option (List Byte)) (stored : Option (List Byte)) :
    (State.ringCopy s d i w e k got out stored).sec = s.sec := by
  simp only [State.ringCopy]
  (repeat' split) <;> simp

@[simp] theorem State.ringAdd_sec (s : State) (d : Die) (i : Nat) (w : RedWindow) (e : RingEntry) (j : Nat)
    (raw : Option (List Byte)) :
    (State.ringAdd s d i w e j raw).1.sec = s.sec := by
  simp only [State.ringAdd]
  (repeat' split) <;> simp

@[simp] theorem State.ringRecord_sec (s : State) (d : Die) (wi : Nat) (w : RedWindow) :
    (State.ringRecord s d wi w).sec = s.sec := by
  simp only [State.ringRecord]; split <;> simp

@[simp] theorem State.ringBlock_sec (s : State) (d : Die) (i : Nat) (w : RedWindow) (e : RingEntry) (j : Nat)
    (g : Option (List Byte)) :
    (State.ringBlock s d i w e j g).1.sec = s.sec := by
  simp only [State.ringBlock]
  (repeat' split) <;> simp only [State.ringAdd_sec, State.ringStore_sec, State.nanResult_sec, State.disagree_sec,
      State.ringCopy_sec]

@[simp] theorem State.ringRun_sec (s : State) (d : Die) (i : Nat) (start : Bool) :
    (State.ringRun s d i start).sec = s.sec := by
  have hf := fun (a : State × List Byte) (w : RedWindow) (e : RingEntry) (g : Nat → Option (List Byte)) (l : List Nat) =>
    foldl_sec1 (fun (acc : State × List Byte) j =>
      ((acc.1.ringBlock d i w e j (g j)).1, acc.2 ++ (acc.1.ringBlock d i w e j (g j)).2))
      (fun acc j => State.ringBlock_sec acc.1 d i w e j (g j)) l a
  simp only [State.ringRun]
  split
  · split
    · rfl
    · simp only [ite_sec, ite_sec1, State.ringRecord_sec, State.ringTx_sec, State.fabricWay_sec, hf,
        State.redSuspect_sec, State.intake_sec, State.modRed_sec, ite_self]
  · rfl

@[simp] theorem State.ringLate_sec (s : State) (port : Port) (lane : Fin 8) :
    (State.ringLate s port lane).sec = s.sec := by
  simp only [State.ringLate]
  refine (ite_sec _ _).trans ((congrArg _ (foldl_sec _ (fun s d => ?_) _ _)).trans (ite_self _))
  (try dsimp only)
  split
  · exact foldl_sec _ (fun s d => by (try dsimp only); split <;> simp only [State.raiseBit_sec, eq_self]) _ _
  · rfl

@[simp] theorem State.accumSlot_sec (s : State) (p : Port) (k : Fin 8) (x : RxSlot) :
    (State.accumSlot s p k x).sec = s.sec := by
  have h := State.judgeSlot_sec s p k x
  simp only [State.accumSlot]
  split
  · rename_i h1; rw [h1] at h; exact h
  · rename_i h1
    rw [h1] at h
    dsimp only at h
    (repeat' split) <;> first
      | exact h
      | (simp only [h, State.contribute_sec, State.intake_sec, State.fabricWay_sec, State.blankSlot_sec,
          State.redSuspect_sec, eq_self]; done)

@[simp] theorem State.gleanCompare_sec (s : State) (d : Die) (owner : Die) (wi : Nat) (k : Nat) :
    (State.gleanCompare s d owner wi k).sec = s.sec := by
  simp only [State.gleanCompare]
  (repeat' split) <;> simp

@[simp] theorem State.gleanDue_sec (s : State) (p : Part) :
    (State.gleanDue s p).sec = s.sec := by
  simp only [State.gleanDue]
  refine foldl_sec _ (fun s d => ?_) _ _
  (try dsimp only)
  split
  · rfl
  · refine foldl_sec _ (fun s w => ?_) _ _
    (try dsimp only)
    split
    · rfl
    · exact foldl_sec _ (fun s k => by (try dsimp only); split <;> simp only [State.charge_sec, State.raiseBit_sec, State.count_sec]) _ _

@[simp] theorem State.accumulate_sec (s : State) (x : Contribution) :
    (State.accumulate s x).sec = s.sec := by
  simp only [State.accumulate]
  (repeat' split) <;> simp

@[simp] theorem State.gleanAt_sec (s : State) (p : Part) :
    (State.gleanAt s p).sec = s.sec := by
  simp only [State.gleanAt]
  (repeat' split) <;> simp only [State.gleanDue_sec, eq_self]

/-! ### Engines -/

@[simp] theorem State.setBusy_sec (s : State) (c : ClusterId) (rake : Bool) (b : Bool) :
    (State.setBusy s c rake b).sec = s.sec := by rfl

@[simp] theorem State.engSuspect_sec (s : State) (c : ClusterId) (rake : Bool) (e : EngRun) (b : Nat) :
    (State.engSuspect s c rake e b).sec = s.sec := by
  simp only [State.engSuspect]
  (repeat' split) <;> simp

@[simp] theorem State.engIso_sec (s : State) (c : ClusterId) (e : EngRun) (b : Nat) :
    (State.engIso s c e b).sec = s.sec := by
  simp only [State.engIso]
  (repeat' split) <;> simp

@[simp] theorem State.portDrop_sec (s : State) (c : ClusterId) (rake : Bool) (e : EngRun) (n : Nat) :
    (State.portDrop s c rake e n).sec = s.sec := by
  simp only [State.portDrop]; exact foldl_sec _ (fun _ _ => by simp) _ _

@[simp] theorem State.deposit_sec (s : State) (p : PU) (parts : List (Nat × List Byte)) (blank : Bool) :
    (State.deposit s p parts blank).sec = s.sec := by
  simp only [State.deposit]; split <;> rfl

@[simp] theorem State.sowRow_sec (s : State) (d : Die) (port : Nat) (w : Nat) (row : Nat) (col0 : Nat) (f : Fmt)
    (cols : Nat) (b : List Byte) (lost : List Nat) :
    (State.sowRow s d port w row col0 f cols b lost).sec = s.sec := by
  simp only [State.sowRow]
  (repeat' split) <;> simp

@[simp] theorem State.engBegin_sec (s : State) (c : ClusterId) (e : EngRun) (plan : List (Nat × EngStep)) :
    (State.engBegin s c e plan).sec = s.sec := by rfl

@[simp] theorem State.sow_sec (s : State) (c : ClusterId) (e : EngRun) :
    (State.sow s c e).sec = s.sec := by
  simp only [State.sow]
  (repeat' split) <;> first
    | rfl
    | (simp only [State.engSuspect_sec, State.sowRow_sec, foldl_sec, ite_sec, ite_self, implies_true, eq_self]; done)
    | (apply foldl_sec; intros; (repeat' split) <;> simp only [State.engSuspect_sec, State.sowRow_sec, foldl_sec,
        foldl_sec1, ite_sec, ite_sec1, ite_self, implies_true, eq_self]; done)
    | (simp only [foldl_sec, *]; done)
    | (simp_all only [State.engSuspect_sec, State.sowRow_sec, foldl_sec, foldl_sec1, ite_sec, ite_sec1, ite_self,
        implies_true, eq_self]; done)

@[simp] theorem State.fillBuffer_sec (s : State) (d : Die) (b : BufRec) (furrow : Nat) (pay : List Byte)
    (lost : List Nat) :
    (State.fillBuffer s d b furrow pay lost).sec = s.sec := by
  simp only [State.fillBuffer]
  (repeat' split) <;> simp

@[simp] theorem State.pushTile_sec (s : State) (u : LU) (p : PU) (g : Fin 8) (b : List Byte) (blank : Bool)
    (c : Caught) (k : Nat) :
    (State.pushTile s u p g b blank c k).sec = s.sec := by rfl

@[simp] theorem State.dropItem_sec (s : State) (c : ClusterId) (e : EngRun) (route : Nat) :
    (State.dropItem s c e route).sec = s.sec := by
  simp only [State.dropItem]; split <;> simp

@[simp] theorem State.badKeys_sec (s : State) (c : ClusterId) (e : EngRun) (n : Nat) :
    (State.badKeys s c e n).sec = s.sec := by
  simp only [State.badKeys]; split <;> simp

@[simp] theorem State.dropItems_sec (s : State) (c : ClusterId) (e : EngRun) (is : List Item) :
    (State.dropItems s c e is).sec = s.sec := by
  simp only [State.dropItems]; exact foldl_sec _ (fun _ _ => by simp) _ _

@[simp] theorem State.noteWords_sec (s : State) (c : ClusterId) (rake : Bool) (ws : List (Nat × Word)) :
    (State.noteWords s c rake ws).sec = s.sec := by rfl

@[simp] theorem State.pack_sec (s : State) (c : ClusterId) (e : EngRun) :
    (State.pack s c e).sec = s.sec := by
  simp only [State.pack]
  (repeat' split) <;> simp

@[simp] theorem State.setTile_sec (s : State) (c : ClusterId) (id : Option Nat) (is : List Item) :
    (State.setTile s c id is).sec = s.sec := by rfl

@[simp] theorem State.pushBegin_sec (s : State) (c : ClusterId) (e : EngRun) (is : List Item) :
    (State.pushBegin s c e is).sec = s.sec := by
  simp only [State.pushBegin]; split <;> rfl

@[simp] theorem State.dropPush_sec (s : State) (c : ClusterId) (e : EngRun) (i : Nat) :
    (State.dropPush s c e i).sec = s.sec := by
  simp only [State.dropPush]; split <;> rfl

@[simp] theorem State.pushEnd_sec (s : State) (c : ClusterId) (e : EngRun) (id : Option Nat) (is : List Item) :
    (State.pushEnd s c e id is).sec = s.sec := by
  simp only [State.pushEnd]
  (repeat' split) <;> simp

@[simp] theorem State.drillTile_sec (s : State) (u : LU) (p : PU) :
    (State.drillTile s u p).sec = s.sec := by
  simp only [State.drillTile]
  (repeat' split) <;> simp

@[simp] theorem State.drainItem_sec (s : State) (c : ClusterId) (e : EngRun) (i : Item) :
    (State.drainItem s c e i).sec = s.sec := by
  simp only [State.drainItem]
  (repeat' split) <;> simp

@[simp] theorem State.drain_sec (s : State) (c : ClusterId) (e : EngRun) :
    (State.drain s c e).sec = s.sec := by rfl

@[simp] theorem State.gather_sec (s : State) (c : ClusterId) (e : EngRun) :
    (State.gather s c e).sec = s.sec := by
  simp only [State.gather]; split <;> simp

@[simp] theorem State.pick_sec (s : State) (c : ClusterId) (e : EngRun) :
    (State.pick s c e).sec = s.sec := by rfl

@[simp] theorem State.gatherRow_sec (s : State) (c : ClusterId) (e : EngRun) (i : Item) :
    (State.gatherRow s c e i).1.sec = s.sec := by
  simp only [State.gatherRow]
  (repeat' split) <;> simp

@[simp] theorem State.pickRow_sec (s : State) (c : ClusterId) (e : EngRun) (i : Item) :
    (State.pickRow s c e i).1.sec = s.sec := by
  simp only [State.pickRow]
  (repeat' split) <;> simp

@[simp] theorem State.engSend_sec (s : State) (c : ClusterId) (rake : Bool) (e : EngRun) :
    (State.engSend s c rake e).sec = s.sec := by
  simp only [State.engSend]; split <;> simp

@[simp] theorem State.putWords_sec (s : State) (c : ClusterId) (e : EngRun) (js : List Nat) :
    (State.putWords s c e js).sec = s.sec := by
  simp only [State.putWords]
  (repeat' split) <;> simp

@[simp] theorem State.engStep_sec (s : State) (c : ClusterId) (rake : Bool) (x : EngStep) :
    (State.engStep s c rake x).sec = s.sec := by
  simp only [State.engStep]
  (repeat' split) <;> simp

@[simp] theorem State.engineCycle_sec (s : State) (c : ClusterId) (rake : Bool) :
    (State.engineCycle s c rake).sec = s.sec := by
  simp only [State.engineCycle]
  (repeat' split) <;> first
    | rfl
    | (simp; done)
    | (apply foldl_sec; intros; (repeat' split) <;> simp; done)
    | (simp only [foldl_sec, *]; done)
    | (simp_all; done)

@[simp] theorem State.flyArrives_sec (s : State) (c : ClusterId) (x : EngFly) :
    (State.flyArrives s c x).sec = s.sec := by
  simp only [State.flyArrives]
  (repeat' split) <;> simp

@[simp] theorem State.flyTick_sec (s : State) (c : ClusterId) :
    (State.flyTick s c).sec = s.sec := by
  simp only [State.flyTick]
  (repeat' split) <;> first
    | rfl
    | (simp; done)
    | (apply foldl_sec; intros; (repeat' split) <;> simp; done)
    | (simp only [foldl_sec, *]; done)
    | (simp_all; done)

@[simp] theorem State.blockArrive_sec (s : State) (u : LU) (p : PU) (rake : Bool) (issue : Nat) (lines : Nat)
    (furrow : Nat) (who : Option (Part × Nat)) (add : Word) (b : List Byte) :
    (State.blockArrive s u p rake issue lines furrow who add b).sec = s.sec := by
  simp only [State.blockArrive]
  (repeat' split) <;> simp

@[simp] theorem State.engMake_sec (s : State) (c : ClusterId) (op : EngOp) (f : State → ClusterId → EngRun → State)
    (hf : ∀ x0 x1 x2, (f x0 x1 x2).sec = x0.sec) :
    (State.engMake s c op f).sec = s.sec := by
  simp only [State.engMake]
  (repeat' split) <;> simp_all only [State.modCluster_sec, eq_self]

@[simp] theorem State.engDone_sec (s : State) (c : ClusterId) (rake : Bool) :
    (State.engDone s c rake).sec = s.sec := by
  simp only [State.engDone]
  (repeat' split) <;> rfl

@[simp] theorem State.capacitySlot_sec (s : State) (p : Port) (k : Fin 8) (x : RxSlot) :
    (State.capacitySlot s p k x).sec = s.sec := by
  have h := State.judgeSlot_sec s p k x
  simp only [State.capacitySlot]
  split
  · rename_i h1; rw [h1] at h; exact h
  · rename_i h1
    rw [h1] at h
    dsimp only at h
    (repeat' split) <;> first
      | exact h
      | (simp only [h, State.setRecv_sec, State.blankSlot_sec, eq_self]; done)
      | (refine (foldl_sec _ (fun a b => by (try dsimp only); simp only [State.sowRow_sec]) _ _).trans ?_
         simp only [h, State.intake_sec, State.fabricWay_sec])

/-! ### Moves -/

@[simp] theorem State.takePort_sec (s : State) (u : LU) (x : UnitS) (inb : Bool) (delay : Nat) (n : Nat)
    (go : State → State) (hgo : ∀ x0, (go x0).sec = x0.sec) :
    (State.takePort s u x inb delay n go).sec = s.sec := by
  simp only [State.takePort]
  (repeat' split) <;> simp_all only [State.tuFlag_sec, eq_self]

@[simp] theorem State.refusedMove_sec (s : State) (u : LU) (p : PU) (x : UnitS) (c : Nat) (inb : Option Bool)
    (far : Nat) (l : Opnd) (lines : List Nat) :
    (State.refusedMove s u p x c inb far l lines).sec = s.sec := by
  simp only [State.refusedMove]; split <;> simp

@[simp] theorem State.xFar_sec (s : State) (u : LU) (o : MoveOp) (k : MoveKind) :
    (State.xFar s u o k).sec = s.sec := by
  simp only [State.xFar]
  split
  · simp only [State.badSlot_sec]
  · refine State.issue_sec _ _ _ _ fun s p x => ?_
    (try dsimp only)
    split
    · simp only [State.tuFlag_sec, eq_self]
    · split
      · simp only [State.refusedMove_sec, eq_self]
      · split
        · simp only [State.refusedMove_sec, eq_self]
        · refine State.takePort_sec _ _ _ _ _ _ _ fun s => ?_
          (try dsimp only)
          (repeat' split) <;> simp only [State.fabricTake_sec, State.setUnit_sec, State.tuFlagIf_sec,
              State.tuSuspect_sec, eq_self]

@[simp] theorem State.xLocal_sec (s : State) (u : LU) (k : MoveKind) (o : MoveOp) (occ : Nat)
    (f : State → PU → UnitS → Nat → State) (hf : ∀ x0 x1 x2 x3, (f x0 x1 x2 x3).sec = x0.sec) :
    (State.xLocal s u k o occ f).sec = s.sec := by
  simp only [State.xLocal]
  split
  · simp only [State.badSlot_sec]
  · refine State.issue_sec _ _ _ _ fun s p x => ?_
    (try dsimp only)
    split
    · simp only [State.tuFlag_sec, eq_self]
    · rw [hf]; simp only [State.setUnit_sec, eq_self]

@[simp] theorem State.xRefused_sec (s : State) (u : LU) (p : PU) (x : UnitS) (c : Nat) (o : MoveOp)
    (inb : Option Bool) (n : Nat) :
    (State.xRefused s u p x c o inb n).sec = s.sec := by
  simp only [State.xRefused]; split <;> simp

@[simp] theorem State.xPush_sec (s : State) (u : LU) (o : MoveOp) :
    (State.xPush s u o).sec = s.sec := by
  refine State.xLocal_sec _ _ _ _ _ _ fun s p x c => ?_
  (try dsimp only)
  split <;> simp only [State.xRefused_sec, State.setUnit_sec, State.tuFlagIf_sec, eq_self]

@[simp] theorem State.xPop_sec (s : State) (u : LU) (o : MoveOp) :
    (State.xPop s u o).sec = s.sec := by
  refine State.xLocal_sec _ _ _ _ _ _ fun s p x c => ?_
  (try dsimp only)
  split <;> simp only [State.tuFlag_sec, State.setUnit_sec, State.tuFlagIf_sec, eq_self]

@[simp] theorem State.xTable_sec (s : State) (u : LU) (o : MoveOp) (k : MoveKind) (n : Nat) (occ : Nat) :
    (State.xTable s u o k n occ).sec = s.sec := by
  refine State.xLocal_sec _ _ _ _ _ _ fun s p x c => ?_
  (try dsimp only)
  split <;> simp only [State.xRefused_sec, State.setUnit_sec, State.tuFlagIf_sec, eq_self]

@[simp] theorem State.xMon_sec (s : State) (u : LU) (o : MoveOp) :
    (State.xMon s u o).sec = s.sec := by
  refine State.xLocal_sec _ _ _ _ _ _ fun s p x c => ?_
  (try dsimp only)
  split <;> simp only [State.tuFlag_sec, State.setUnit_sec, State.tuFlagIf_sec, eq_self]

@[simp] theorem State.xEng_sec (s : State) (u : LU) (o : MoveOp) :
    (State.xEng s u o).sec = s.sec := by
  refine State.xLocal_sec _ _ _ _ _ _ fun s p x c => ?_
  (try dsimp only)
  split
  · simp only [State.xRefused_sec, eq_self]
  · refine State.takePort_sec _ _ _ _ _ _ _ fun s => ?_
    simp only [State.setUnit_sec, State.tuFlagIf_sec, eq_self]

@[simp] theorem State.xLd_sec (s : State) (u : LU) (o : MoveOp) :
    (State.xLd s u o).sec = s.sec := by
  simp only [State.xLd, State.xFar_sec, eq_self]

@[simp] theorem State.xSt_sec (s : State) (u : LU) (o : MoveOp) :
    (State.xSt s u o).sec = s.sec := by
  simp only [State.xSt, State.xFar_sec, eq_self]

@[simp] theorem State.xSend_sec (s : State) (u : LU) (o : MoveOp) :
    (State.xSend s u o).sec = s.sec := by
  simp only [State.xSend, State.xFar_sec, eq_self]

@[simp] theorem State.xRecv_sec (s : State) (u : LU) (o : MoveOp) :
    (State.xRecv s u o).sec = s.sec := by
  simp only [State.xRecv, State.xFar_sec, eq_self]

@[simp] theorem State.xRacc_sec (s : State) (u : LU) (o : MoveOp) :
    (State.xRacc s u o).sec = s.sec := by
  simp only [State.xRacc, State.xFar_sec, eq_self]

@[simp] theorem State.xIload_sec (s : State) (u : LU) (o : MoveOp) :
    (State.xIload s u o).sec = s.sec := by
  simp only [State.xIload, State.xFar_sec, eq_self]

@[simp] theorem State.xWtbl_sec (s : State) (u : LU) (o : MoveOp) :
    (State.xWtbl s u o).sec = s.sec := by
  simp only [State.xWtbl]
  (repeat' split) <;> simp only [State.xTable_sec, eq_self]

@[simp] theorem State.xDtbl_sec (s : State) (u : LU) (o : MoveOp) :
    (State.xDtbl s u o).sec = s.sec := by
  simp only [State.xDtbl]
  (repeat' split) <;> simp only [State.xTable_sec, eq_self]

@[simp] theorem State.moveSuspect_sec (s : State) (d : Die) (m : MoveFlight) (r : Reg) (b : Nat) :
    (State.moveSuspect s d m r b).sec = s.sec := by
  simp only [State.moveSuspect]; split <;> simp

@[simp] theorem State.isoError_sec (s : State) (u : LU) (m : MoveFlight) :
    (State.isoError s u m).1.sec = s.sec := by
  simp only [State.isoError]; split <;> simp

@[simp] theorem State.farRead_sec (s : State) (i : Issuer) (f : Far) (a : Nat) (e : LineEcc) :
    (State.farRead s i f a e).1.sec = s.sec := by
  simp only [State.farRead]; split <;> simp

@[simp] theorem State.farWrite_sec (s : State) (i : Issuer) (f : Far) (a : Nat) (b : List Byte) :
    (State.farWrite s i f a b).1.sec = s.sec := by
  simp only [State.farWrite]; split <;> simp

@[simp] theorem State.recvCheck_sec (s : State) (u : LU) (p : PU) (f : Flight) (m : MoveFlight) :
    (State.recvCheck s u p f m).1.sec = s.sec := by
  simp only [State.recvCheck]
  (repeat' split) <;> simp

@[simp] theorem State.landLine_sec (s : State) (u : LU) (p : PU) (f : Flight) (m : MoveFlight) (b : List Byte)
    (blank : Bool) :
    (State.landLine s u p f m b blank).sec = s.sec := by
  simp only [State.landLine]
  (repeat' split) <;> simp only [State.setUnit_sec, State.tuFlag_sec, State.modUnit_sec, eq_self]

@[simp] theorem State.raccApply_sec (s : State) (c : ClusterId) (f : Flight) (o : Opnd) (t : Far) :
    (State.raccApply s c f o t).sec = s.sec := by
  simp only [State.raccApply]; split <;> simp

@[simp] theorem State.sendInto_sec (s : State) (m : MoveFlight) (t : Far) (b : List Byte) (blank : Bool) :
    (State.sendInto s m t b blank).sec = s.sec := by
  simp only [State.sendInto]; split <;> rfl

@[simp] theorem State.sendLine_sec (s : State) (u : LU) (p : PU) (f : Flight) (m : MoveFlight) (t : Far)
    (b : List Byte) :
    (State.sendLine s u p f m t b).sec = s.sec := by
  simp only [State.sendLine]
  (repeat' split) <;> simp

@[simp] theorem State.bringLine_sec (s : State) (u : LU) (p : PU) (f : Flight) (m : MoveFlight) (t : Far)
    (e : LineEcc) :
    (State.bringLine s u p f m t e).sec = s.sec := by
  simp only [State.bringLine]
  (repeat' split) <;> simp

@[simp] theorem State.moveLineLand_sec (s : State) (u : LU) (id : Nat) (e : LineEcc) :
    (State.moveLineLand s u id e).sec = s.sec := by
  simp only [State.moveLineLand]
  (repeat' split) <;> simp only [State.landLine_sec, State.sendLine_sec, State.recvCheck_sec, State.bringLine_sec,
      eq_self]

@[simp] theorem State.digestTile_sec (s : State) (u : LU) (a : Nat) (f : Flight) (k : Nat) (b : List Byte) :
    (State.digestTile s u a f k b).sec = s.sec := by
  simp only [State.digestTile]; split <;> rfl

@[simp] theorem State.landTile_sec (s : State) (u : LU) (p : PU) (f : Flight) (k : Nat) (g : Fin 8) (b : List Byte) :
    (State.landTile s u p f k g b).sec = s.sec := by
  simp only [State.landTile]
  (repeat' split) <;> simp

@[simp] theorem State.galleyPushLand_sec (s : State) (u : LU) (id : Nat) :
    (State.galleyPushLand s u id).sec = s.sec := by
  simp only [State.galleyPushLand]
  (repeat' split) <;> simp

@[simp] theorem State.landArmed_sec (s : State) (u : LU) (p : PU) (c : Nat) :
    (State.landArmed s u p c).sec = s.sec := by
  refine foldl_sec _ (fun s a => ?_) _ _
  (try dsimp only)
  (repeat' split) <;> first
    | rfl
    | simp only [State.landTile_sec]

@[simp] theorem State.engineBlockArrive_sec (s : State) (u : LU) (id : Nat) :
    (State.engineBlockArrive s u id).sec = s.sec := by
  simp only [State.engineBlockArrive]
  (repeat' split) <;> simp

/-! ### Bundle -/

@[simp] theorem State.bundleIssue_sec (s : State) (u : LU) (p : PU) :
    (State.bundleIssue s u p).sec = s.sec := by
  simp only [State.bundleIssue]
  (repeat' split) <;> simp

/-! ### UnitTick -/

@[simp] theorem State.popTile_sec (s : State) (u : LU) (p : PU) (id : Nat) (d : PopDue) :
    (State.popTile s u p id d).sec = s.sec := by
  simp only [State.popTile]
  (repeat' split) <;> simp only [State.setUnit_sec, State.tuSuspect_sec, eq_self]

@[simp] theorem State.undefGalleys_sec (s : State) (p : PU) (c : Nat) :
    (State.undefGalleys s p c).sec = s.sec := by
  simp only [State.undefGalleys]; split <;> rfl

@[simp] theorem State.doPops_sec (s : State) (u : LU) (p : PU) (c : Nat) :
    (State.doPops s u p c).sec = s.sec := by
  simp only [State.doPops]; exact foldl_sec _ (fun _ _ => by simp only [State.popTile_sec, eq_self]) _ _

@[simp] theorem State.auditRead_sec (s : State) (u : LU) (p : PU) (f : Flight) (stream : Nat) (line : Nat) :
    (State.auditRead s u p f stream line).sec = s.sec := by
  simp only [State.auditRead]
  (repeat' split) <;> simp

@[simp] theorem State.loadRow_sec (s : State) (u : LU) (p : PU) (g : Fin 4) (n : Nat) (b : List Byte) :
    (State.loadRow s u p g n b).sec = s.sec := by
  simp only [State.loadRow]; split <;> rfl

@[simp] theorem State.putScratch_sec (s : State) (u : LU) (p : PU) (line : Nat) (b : List (Option Byte))
    (blank : Bool) (digest : Bool) :
    (State.putScratch s u p line b blank digest).sec = s.sec := by
  simp only [State.putScratch]
  (repeat' split) <;> rfl

@[simp] theorem State.catchLine_sec (s : State) (u : LU) (p : PU) (f : Flight) (a : LineAcc)
    (got : Option (List Byte)) (blank : Bool) :
    (State.catchLine s u p f a got blank).sec = s.sec := by
  simp only [State.catchLine]
  (repeat' split) <;> simp

@[simp] theorem State.noteLine_sec (s : State) (p : PU) (f : Flight) (k : Nat × Nat) (b : List Byte) :
    (State.noteLine s p f k b).sec = s.sec := by rfl

@[simp] theorem State.served_sec (s : State) (u : LU) (p : PU) (f : Flight) (a : LineAcc) :
    (State.served s u p f a).sec = s.sec := by
  simp only [State.served]
  (repeat' split) <;> simp

@[simp] theorem State.dropped_sec (s : State) (u : LU) (p : PU) (f : Flight) (a : LineAcc) :
    (State.dropped s u p f a).sec = s.sec := by
  simp only [State.dropped]; split <;> simp only [State.tuFlag_sec, State.catchLine_sec, State.modUnit_sec, eq_self]

@[simp] theorem State.accesses_sec (s : State) (u : LU) (p : PU) (c : Nat) (landOnly : Bool) :
    (State.accesses s u p c landOnly).sec = s.sec := by
  refine (foldl_sec1 _ (fun a b => ?_) _ _).trans ?_
  · (try dsimp only)
    (repeat' split) <;> simp only [State.dropped_sec, State.served_sec, eq_self]
  · (try dsimp only)
    split <;> simp only [State.modUnit_sec, eq_self]

@[simp] theorem State.landVectors_sec (s : State) (u : LU) (p : PU) (c : Nat) :
    (State.landVectors s u p c).sec = s.sec := by
  simp only [State.landVectors]; split <;> simp only [State.setUnit_sec, State.tuFlagIf_sec, eq_self]

@[simp] theorem State.landLocals_sec (s : State) (u : LU) (p : PU) (c : Nat) :
    (State.landLocals s u p c).sec = s.sec := by
  refine foldl_sec _ (fun s a => ?_) _ _
  have h : ∀ (m : MoveFlight) (key : Nat) (l : List Nat) (t : State), (l.foldl (fun s k =>
      if k < m.pushed || a.caught.lost.contains k then s else
      s.putScratch u p ((m.lines[k]?).getD 0) ((a.caught.lines.getD (key, k) zeroLine).map some)
        (m.kind == .pop && a.caught.blank) false) t).sec = t.sec :=
    fun m key l t => foldl_sec _ (fun s k => by (try dsimp only); split <;> simp only [State.putScratch_sec]) _ _
  (try dsimp only)
  (repeat' split) <;> first
    | rfl
    | simp only [State.modUnit_sec, h]

@[simp] theorem State.unitCycle_sec (s : State) (u : LU) (p : PU) (c : Nat) (issues : Bool) :
    (State.unitCycle s u p c issues).sec = s.sec := by
  simp only [State.unitCycle]; split <;> simp

@[simp] theorem State.heldCycle_sec (s : State) (u : LU) (p : PU) (c : Nat) :
    (State.heldCycle s u p c).sec = s.sec := by
  simp only [State.heldCycle]
  (repeat' split) <;> simp

@[simp] theorem State.recvChecks_sec (s : State) (u : LU) (p : PU) :
    (State.recvChecks s u p).sec = s.sec := by
  simp only [State.recvChecks]
  (repeat' split) <;> first
    | rfl
    | (simp only [State.recvCheck_sec, foldl_sec, foldl_sec1, ite_sec, ite_sec1, ite_self, implies_true, eq_self]; done)
    | (apply foldl_sec; intros; (repeat' split) <;> simp only [State.recvCheck_sec, eq_self]; done)
    | (simp only [foldl_sec, *]; done)
    | (simp_all only [State.recvCheck_sec, foldl_sec, foldl_sec1, ite_sec, ite_sec1, ite_self, implies_true,
        eq_self]; done)

@[simp] theorem State.nextCycle_sec (s : State) (r : RegionId) :
    (State.nextCycle s r).sec = s.sec := by
  simp only [State.nextCycle]
  (repeat' split) <;> simp only [State.count_sec, State.raiseBit_sec, State.modRegion_sec, eq_self]

@[simp] theorem State.regionCycle_sec (s : State) (r : RegionId) :
    (State.regionCycle s r).sec = s.sec := by
  simp only [State.regionCycle]
  (repeat' split) <;> simp [foldl_sec, ite_sec]

@[simp] theorem State.unitTick_sec (s : State) :
    (State.unitTick s).sec = s.sec := by
  refine foldl_sec _ (fun s a => ?_) _ _
  (try dsimp only)
  (repeat' split) <;> first
    | rfl
    | simp only [State.nextCycle_sec]
    | simp only [foldl_sec, State.recvChecks_sec, State.regionCycle_sec, implies_true]

/-! ### Update -/

@[simp] theorem State.modUpd_sec (s : State) (d : Die) (f : UpdS → UpdS) :
    (State.modUpd s d f).sec = s.sec := by rfl

@[simp] theorem State.bandLines_sec (s : State) (d : Die) (t : Stream) (v : Invocation) (k : Nat) :
    (State.bandLines s d t v k).1.sec = s.sec := by
  unfold State.bandLines; extract_lets; (repeat' split) <;> simp +zetaDelta [foldl_sec1]

@[simp] theorem State.bandCarried_sec (s : State) (d : Die) (t : Stream) (v : Invocation) (k : Nat) (cf16 : Bool) :
    (State.bandCarried s d t v k cf16).1.sec = s.sec := by
  simp [State.bandCarried, foldl_sec1]

@[simp] theorem State.bandIn_sec (s : State) (d : Die) (t : Stream) (v : Invocation) (k : Nat) :
    (State.bandIn s d t v k).1.sec = s.sec := by
  simp only [State.bandIn]
  (repeat' split) <;> simp

@[simp] theorem State.loadBand_sec (s : State) (d : Die) (r : InvRun) :
    (State.loadBand s d r).sec = s.sec := by
  simp only [State.loadBand, foldl_sec1, ite_sec1, State.bandIn_sec, State.modUpd_sec, ite_self, implies_true,
      eq_self]; done

@[simp] theorem State.updCounts_sec (s : State) (d : Die) (m : Fin 16) (c : Counts) :
    (State.updCounts s d m c).sec = s.sec := by rfl

@[simp] theorem State.bandOut_sec (s : State) (d : Die) (t : Stream) (i : Nat) (r : InvRun) :
    (State.bandOut s d t i r).sec = s.sec := by
  simp only [State.bandOut]
  (repeat' split) <;> simp [foldl_sec]

@[simp] theorem State.invStart_sec (s : State) (d : Die) :
    (State.invStart s d).sec = s.sec := by
  simp only [State.invStart]
  (repeat' split) <;> simp

@[simp] theorem State.invEnd_sec (s : State) (d : Die) :
    (State.invEnd s d).sec = s.sec := by
  simp only [State.invEnd]
  (repeat' split) <;> rfl

@[simp] theorem State.endBand_sec (s : State) (d : Die) (r : InvRun) :
    (State.endBand s d r).sec = s.sec := by
  simp only [State.endBand, foldl_sec, ite_sec, State.bandOut_sec, State.modUpd_sec, State.loadBand_sec, ite_self,
      implies_true, eq_self]

@[simp] theorem State.uRun_sec (s : State) (d : Die) (w : Word) (f : UpdS → InvRun → InvRun) :
    (State.uRun s d w f).sec = s.sec := by
  simp only [State.uRun]
  (repeat' split) <;> simp only [State.modUpd_sec, State.endBand_sec, eq_self]

@[simp] theorem State.u2_sec (s : State) (die : Die) (op : Nat) (d : Fin 16) (a : Fin 32) (b : Fin 32)
    (f : Val → Val → Val) :
    (State.u2 s die op d a b f).sec = s.sec := by
  simp only [State.u2]
  (repeat' split) <;> simp only [State.uRun_sec, eq_self]

@[simp] theorem State.u1_sec (s : State) (die : Die) (op : Nat) (d : Fin 16) (a : Fin 32) (f : List E40 → List E40) :
    (State.u1 s die op d a f).sec = s.sec := by
  simp only [State.u1]
  (repeat' split) <;> simp only [State.uRun_sec, eq_self]

@[simp] theorem State.u3_sec (s : State) (die : Die) (op : Nat) (d : Fin 16) (a : Fin 32) (b : Fin 32) (c : Fin 32)
    (f : Val → Val → Val → Val) :
    (State.u3 s die op d a b c f).sec = s.sec := by
  simp only [State.u3]
  (repeat' split) <;> simp only [State.uRun_sec, eq_self]

@[simp] theorem State.uAdd_sec (s : State) (die : Die) (d : Fin 16) (a : Fin 32) (b : Fin 32) :
    (State.uAdd s die d a b).sec = s.sec := by
  simp only [State.uAdd]
  (repeat' split) <;> simp only [State.u2_sec, eq_self]

@[simp] theorem State.uSub_sec (s : State) (die : Die) (d : Fin 16) (a : Fin 32) (b : Fin 32) :
    (State.uSub s die d a b).sec = s.sec := by
  simp only [State.uSub]
  (repeat' split) <;> simp only [State.u2_sec, eq_self]

@[simp] theorem State.uMul_sec (s : State) (die : Die) (d : Fin 16) (a : Fin 32) (b : Fin 32) :
    (State.uMul s die d a b).sec = s.sec := by
  simp only [State.uMul]
  (repeat' split) <;> simp only [State.u2_sec, eq_self]

@[simp] theorem State.uFma_sec (s : State) (die : Die) (d : Fin 16) (a : Fin 32) (b : Fin 32) (c : Fin 32) :
    (State.uFma s die d a b c).sec = s.sec := by
  simp only [State.uFma]
  (repeat' split) <;> simp only [State.u3_sec, eq_self]

@[simp] theorem State.uDiv_sec (s : State) (die : Die) (d : Fin 16) (a : Fin 32) (b : Fin 32) :
    (State.uDiv s die d a b).sec = s.sec := by
  simp only [State.uDiv]
  (repeat' split) <;> simp only [State.u2_sec, eq_self]

@[simp] theorem State.uSqrt_sec (s : State) (die : Die) (d : Fin 16) (a : Fin 32) :
    (State.uSqrt s die d a).sec = s.sec := by
  simp only [State.uSqrt]
  (repeat' split) <;> simp only [State.u1_sec, eq_self]

@[simp] theorem State.uRsq_sec (s : State) (die : Die) (d : Fin 16) (a : Fin 32) :
    (State.uRsq s die d a).sec = s.sec := by
  simp only [State.uRsq]
  (repeat' split) <;> simp only [State.u1_sec, eq_self]

@[simp] theorem State.uSign_sec (s : State) (die : Die) (d : Fin 16) (a : Fin 32) :
    (State.uSign s die d a).sec = s.sec := by
  simp only [State.uSign]
  (repeat' split) <;> simp only [State.u1_sec, eq_self]

@[simp] theorem State.uAbs_sec (s : State) (die : Die) (d : Fin 16) (a : Fin 32) :
    (State.uAbs s die d a).sec = s.sec := by
  simp only [State.uAbs]
  (repeat' split) <;> simp only [State.u1_sec, eq_self]

@[simp] theorem State.uClamp_sec (s : State) (die : Die) (d : Fin 16) (a : Fin 32) (b : Fin 32) (c : Fin 32) :
    (State.uClamp s die d a b c).sec = s.sec := by
  simp only [State.uClamp]
  (repeat' split) <;> simp only [State.u3_sec, eq_self]

@[simp] theorem State.uLd_sec (s : State) (die : Die) (d : Fin 16) (st : Fin 8) :
    (State.uLd s die d st).sec = s.sec := by
  simp only [State.uLd]
  (repeat' split) <;> simp only [State.uRun_sec, eq_self]

@[simp] theorem State.uSt_sec (s : State) (die : Die) (a : Fin 32) (st : Fin 8) :
    (State.uSt s die a st).sec = s.sec := by
  simp only [State.uSt]
  (repeat' split) <;> simp only [State.uRun_sec, eq_self]

@[simp] theorem State.uStw_sec (s : State) (die : Die) (a : Fin 32) (st : Fin 8) (sr : Bool) :
    (State.uStw s die a st sr).sec = s.sec := by
  simp only [State.uStw]; split <;> simp only [State.uRun_sec, eq_self]

@[simp] theorem State.uEnd_sec (s : State) (die : Die) :
    (State.uEnd s die).sec = s.sec := by
  simp only [State.uEnd]
  (repeat' split) <;> simp only [State.endBand_sec, eq_self]

@[simp] theorem State.loadStepRow_sec (s : State) (d : Die) :
    (State.loadStepRow s d).sec = s.sec := by
  simp only [State.loadStepRow]
  (repeat' split) <;> simp

/-! ### Boundaries -/

@[simp] theorem State.slip_sec (s : State) (b : SlipBlock) :
    (State.slip s b).sec = s.sec := by rfl

@[simp] theorem State.slipNotice_sec (s : State) :
    (State.slipNotice s).sec = s.sec := by
  simp only [State.slipNotice]; split <;> simp only [State.sendMsg_sec, State.modLinks_sec, eq_self]

@[simp] theorem State.regionBoundary_sec (s : State) (p : Part) (r : RegionId) :
    (State.regionBoundary s p r).sec = s.sec := by
  simp only [State.regionBoundary, foldl_sec, ite_sec, State.noteLag_sec, State.raiseSuspect_sec, State.slip_sec,
      State.raiseBit_sec, State.suspect_sec, State.modUnit_sec, ite_self, implies_true, eq_self]

@[simp] theorem State.clockBoundary_sec (s : State) (r : RegionId) :
    (State.clockBoundary s r).sec = s.sec := by rfl

@[simp] theorem State.updBoundary_sec (s : State) (p : Part) (d : Die) :
    (State.updBoundary s p d).sec = s.sec := by
  simp only [State.updBoundary]
  (repeat' split) <;> simp only [State.modUpd_sec, State.raiseSuspect_sec, State.slip_sec, eq_self]

@[simp] theorem State.adderBoundary_sec (s : State) (p : Part) (d : Die) :
    (State.adderBoundary s p d).sec = s.sec := by
  simp only [State.adderBoundary]
  (repeat' split) <;> simp only [State.raiseSuspect_sec, State.slip_sec, State.modRed_sec, eq_self]

@[simp] theorem State.hbmBoundary_sec (s : State) (p : Part) (d : Die) :
    (State.hbmBoundary s p d).sec = s.sec := by
  simp only [State.hbmBoundary]; split <;> simp only [State.modDie_sec, State.raiseSuspect_sec, State.slip_sec, eq_self]

@[simp] theorem State.unitStep_sec (s : State) (f : Forme) (u : LU) (p : PU) :
    (State.unitStep s f u p).sec = s.sec := by
  simp only [State.unitStep]
  (repeat' split) <;> simp [foldl_sec]

@[simp] theorem State.unitsStep_sec (s : State) (p : Part) (f : Forme) :
    (State.unitsStep s p f).sec = s.sec := by
  simp only [State.unitsStep]
  refine foldl_sec _ (fun s a => ?_) _ _
  (try dsimp only)
  refine (foldl_sec _ (fun s a => ?_) _ _).trans (foldl_sec _ (fun s a => ?_) _ _)
  · simp only [State.unitStep_sec]
  · split <;> simp only [State.unitStep_sec]

@[simp] theorem State.bankMonitors_sec (s : State) (p : Part) :
    (State.bankMonitors s p).sec = s.sec := by
  simp only [State.bankMonitors]; exact foldl_sec _ (fun _ _ => by simp only [State.modUpd_sec, eq_self]) _ _

@[simp] theorem State.loadVariant_sec (s : State) (p : Part) :
    (State.loadVariant s p).sec = s.sec := by
  refine foldl_sec _ (fun s a => foldl_sec _ (fun s a => foldl_sec _ (fun s a => ?_) _ _) _ _) _ _
  (try dsimp only)
  split <;> simp only [State.loadBanks_sec, eq_self]

@[simp] theorem State.loadReplay_sec (s : State) (p : Part) :
    (State.loadReplay s p).sec = s.sec := by
  simp only [State.loadReplay]
  split
  · rfl
  · refine foldl_sec _ (fun s a => ?_) _ _
    (try dsimp only)
    split
    · rfl
    · exact foldl_sec _ (fun s a => by simp only [State.modUnit_sec, eq_self]) _ _

@[simp] theorem State.takeVariant_sec (s : State) (p : Part) (c : Choice) :
    (State.takeVariant s p c).sec = s.sec := by
  simp only [State.takeVariant, foldl_sec, ite_sec, State.modPart_sec, State.loadVariant_sec, State.raiseBit_sec,
      ite_self, implies_true, eq_self]

@[simp] theorem State.postReport_sec (s : State) (p : Part) (f : Forme) (r : StepReport) :
    (State.postReport s p f r).sec = s.sec := by rfl

@[simp] theorem State.formReport_sec (s : State) (p : Part) (f : Forme) (promoted : Bool) :
    (State.formReport s p f promoted).sec = s.sec := by
  simp only [State.formReport]
  (repeat' split) <;> simp

@[simp] theorem State.dueReports_sec (s : State) :
    (State.dueReports s).sec = s.sec := by
  refine foldl_sec _ (fun s a => ?_) _ _
  (try dsimp only)
  split <;> simp only [State.postReport_sec]

@[simp] theorem State.inputCheck_sec (s : State) (p : Part) (f : Forme) :
    (State.inputCheck s p f).sec = s.sec := by
  simp only [State.inputCheck]
  (repeat' split) <;> first
    | rfl
    | (simp; done)
    | (apply foldl_sec; intros; (repeat' split) <;> simp; done)
    | (simp only [foldl_sec, *]; done)
    | (simp_all; done)

@[simp] theorem State.boundaryWork_sec (s : State) (p : Part) :
    (State.boundaryWork s p).sec = s.sec := by
  simp only [State.boundaryWork]
  (repeat' split) <;> simp [foldl_sec]

@[simp] theorem State.endStep_sec (s : State) (p : Part) (f : Forme) (promoted : Bool) :
    (State.endStep s p f promoted).sec = s.sec := by
  simp only [State.endStep]
  (repeat' split) <;> simp

@[simp] theorem State.beginStep_sec (s : State) (p : Part) (f : Forme) (first : Bool) (c : Choice) :
    (State.beginStep s p f first c).sec = s.sec := by
  simp only [State.beginStep]
  (repeat' split) <;> simp [foldl_sec]

@[simp] theorem State.haltAs_sec (s : State) (p : Part) :
    (State.haltAs s p).sec = s.sec := by
  simp only [State.haltAs]
  (repeat' split) <;> simp only [State.haltPart_sec, State.endJobs_sec, State.syncGear_sec, eq_self]

@[simp] theorem State.fallowWatch_sec (s : State) (p : Part) :
    (State.fallowWatch s p).sec = s.sec := by
  refine foldl_sec _ (fun s a => ?_) _ _
  (try dsimp only)
  split
  · rfl
  · exact foldl_sec _ (fun s a => by (try dsimp only); split <;> simp only [State.raiseBit_sec, State.wr_sec, eq_self]) _ _

@[simp] theorem State.commit_sec (s : State) (p : Part) :
    (State.commit s p).sec = s.sec := by
  simp only [State.commit]; split <;> simp only [State.commitTick_sec, State.fallowWatch_sec, eq_self]

@[simp] theorem State.haltStep_sec (s : State) (p : Part) (f : Forme) (halt : State → State)
    (hhalt : ∀ x0, (halt x0).sec = x0.sec) :
    (State.haltStep s p f halt).sec = s.sec := by
  simp only [State.haltStep]
  (repeat' split) <;> first | rfl | (simp; done) | (simp_all; done)

@[simp] theorem State.stepBoundary_sec (s : State) (p : Part) :
    (State.stepBoundary s p).sec = s.sec := by
  simp only [State.stepBoundary]
  (repeat' split) <;> simp

@[simp] theorem State.formeHalt_sec (s : State) (p : Part) :
    (State.formeHalt s p).sec = s.sec := by
  simp only [State.formeHalt]
  (repeat' split) <;> simp

@[simp] theorem State.lostBoundary_sec (s : State) :
    (State.lostBoundary s).sec = s.sec := by
  simp only [State.lostBoundary, foldl_sec, ite_sec, State.formeHalt_sec, State.modHt_sec, State.modLinks_sec,
      ite_self, implies_true, eq_self]

@[simp] theorem State.furrowBoundary_sec (s : State) :
    (State.furrowBoundary s).sec = s.sec := by
  simp only [State.furrowBoundary, foldl_sec, ite_sec, State.regionBoundary_sec, State.updBoundary_sec,
      State.adderBoundary_sec, State.hbmBoundary_sec, State.modDie_sec, State.slipNotice_sec,
      State.lostBoundary_sec, State.capInForce_sec, State.vtabBoundary_sec, State.laneSwitches_sec,
      State.bandExit_sec, State.capBoundary_sec, State.clockBoundary_sec, ite_self, implies_true, eq_self]

@[simp] theorem State.runStart_sec (s : State) (p : Part) :
    (State.runStart s p).sec = s.sec := by
  simp only [State.runStart]
  (repeat' split) <;> simp

@[simp] theorem State.spareBankLoad_sec (s : State) (l : LU) :
    (State.spareBankLoad s l).sec = s.sec := by
  simp only [State.spareBankLoad]
  (repeat' split) <;> simp only [State.loadBanks_sec, eq_self]

@[simp] theorem State.digestDue_sec (s : State) (t : Nat) :
    (State.digestDue s t).sec = s.sec := by
  simp only [State.digestDue]
  (repeat' first | split | (rw [foldl_sec]; (try (intros; (repeat' split) <;> simp only [State.sendMsg_sec, State.modTwin_sec, eq_self]; done)))) <;> simp only [foldl_sec, ite_sec, State.sendMsg_sec, State.modTwin_sec, foldl_sec1, ite_sec1, ite_self, implies_true, eq_self]

@[simp] theorem State.sendTramline_sec (s : State) (p : Port) :
    (State.sendTramline s p).sec = s.sec := by
  simp only [State.sendTramline]; split <;> simp only [State.digestDue_sec, State.tramlineSend_sec,
      State.detachSent_sec, eq_self]

/-! ### Replay -/

theorem State.acceptReplay_sec (s t : State) (r : RegionId) (n : Nat) (e : ReplayEntry) (u : LU) (tw : Bool)
    (h : s.acceptReplay r n e u tw = some t) : t.sec = s.sec := by
  simp only [State.acceptReplay] at h
  (repeat' split at h) <;> first | (cases h; done) | skip
  all_goals (cases h; simp only [State.wrFld_sec, eq_self])

@[simp] theorem State.replayMailbox_sec (s : State) (r : RegionId) :
    (State.replayMailbox s r).sec = s.sec := by
  simp only [State.replayMailbox]
  split
  · split
    · rfl
    · split
      · rfl
      · split
        · rfl
        · split
          · rfl
          · split
            · rename_i h
              exact (State.acceptReplay_sec _ _ _ _ _ _ _ h).trans (State.modDie_sec _ _ _)
            · simp only [State.modDie_sec, State.raiseBit_sec, eq_self]
  · rfl

@[simp] theorem State.replayStart_sec (s : State) (r : RegionId) (second : Bool) :
    (State.replayStart s r second).sec = s.sec := by
  simp only [State.replayStart]
  (repeat' split) <;> rfl

@[simp] theorem State.twinRequest_sec (s : State) (r : RegionId) (line : List Byte) :
    (State.twinRequest s r line).sec = s.sec := by
  simp only [State.twinRequest]
  split
  · split
    · rfl
    · split
      · rfl
      · split
        · cases h : s.acceptReplay r _ _ _ true with
          | none => rfl
          | some t => exact State.acceptReplay_sec _ _ _ _ _ _ _ h
        · rfl
  · rfl

@[simp] theorem State.fieldFail_sec (s : State) (d : Die) (region : Nat) (index : Nat) :
    (State.fieldFail s d region index).sec = s.sec := by
  simp only [State.fieldFail]; split <;> rfl

@[simp] theorem State.laneFail_sec (s : State) (p : Option Part) (l : Lane) :
    (State.laneFail s p l).sec = s.sec := by
  simp only [State.laneFail]
  (repeat' split) <;> simp

@[simp] theorem State.proofFail_sec (s : State) (p : Option Part) (x : ProofFail) :
    (State.proofFail s p x).sec = s.sec := by
  simp only [State.proofFail]; split <;> simp only [State.fieldFail_sec, State.fence_sec, State.fenceUnit_sec,
      State.fenceDie_sec, State.laneFail_sec, implies_true, eq_self]

@[simp] theorem State.autoProofEnd_sec (s : State) (p : Part) (fails : List ProofFail) :
    (State.autoProofEnd s p fails).sec = s.sec := by
  simp only [State.autoProofEnd]
  (repeat' split) <;> simp [foldl_sec]

@[simp] theorem State.fieldProofEnd_sec (s : State) (fails : List PU) :
    (State.fieldProofEnd s fails).sec = s.sec := by
  refine foldl_sec _ (fun s a => ?_) _ _
  (try dsimp only)
  split
  · split
    · rfl
    · rw [State.endJobs_sec]
      exact foldl_sec _ (fun s u => by rw [State.fence_sec _ _ (fun x => by simp only [State.fenceUnit_sec, eq_self])]; simp only [State.fieldFail_sec, eq_self]) _ _
  · rfl

@[simp] theorem State.releaseUnits_sec (s : State) (ps : List PU) :
    (State.releaseUnits s ps).sec = s.sec := by
  simp only [State.releaseUnits]
  (repeat' split) <;> first
    | rfl
    | (simp only [State.wr_sec, foldl_sec, foldl_sec1, ite_sec, ite_sec1, ite_self, implies_true, eq_self]; done)
    | (apply foldl_sec; intros; (repeat' split) <;> simp only [State.wr_sec, eq_self]; done)
    | (simp only [foldl_sec, *]; done)
    | (simp_all only [State.wr_sec, foldl_sec, foldl_sec1, ite_sec, ite_sec1, ite_self, implies_true, eq_self]; done)

@[simp] theorem State.placeUnits_sec (s : State) (r : RegionId) :
    (State.placeUnits s r).sec = s.sec := by
  simp only [State.placeUnits]
  (repeat' first | split | (rw [foldl_sec]; (try (intros; (repeat' split) <;> simp only [State.fence_sec, State.substitute_sec, State.wr_sec, implies_true, eq_self]; done)))) <;> simp only [foldl_sec, ite_sec, State.fence_sec, State.substitute_sec, State.wr_sec, foldl_sec1, ite_sec1, ite_self, implies_true, eq_self]

@[simp] theorem State.releaseRegion_sec (s : State) (r : RegionId) (failed : List PU) :
    (State.releaseRegion s r failed).sec = s.sec := by
  simp only [State.releaseRegion]
  (repeat' split) <;> simp only [State.releaseUnits_sec, State.placeUnits_sec, eq_self]

@[simp] theorem State.blockProofEnd_sec (s : State) (fails : List ProofFail) :
    (State.blockProofEnd s fails).sec = s.sec := by
  simp only [State.blockProofEnd]
  (repeat' split) <;> simp only [foldl_sec, ite_sec, State.wr_sec, State.wrBit_sec, State.laneFail_sec,
      State.proofOff_sec,
      State.fieldFail_sec, State.releaseRegion_sec, State.syncFence_sec, State.syncDomains_sec, State.raiseAll_sec,
      State.endJobs_sec, ite_self, implies_true, eq_self]

@[simp] theorem State.clockLoss_sec (s : State) (c : ClkDom) :
    (State.clockLoss s c).sec = s.sec := by
  simp only [State.clockLoss]; split <;> rfl

@[simp] theorem State.clockReturn_sec (s : State) (c : ClkDom) :
    (State.clockReturn s c).sec = s.sec := by
  simp only [State.clockReturn]; split <;> rfl

/-! ### Load -/

@[simp] theorem State.loadDie_sec (s : State) (f : Forme) (d : Die) :
    (State.loadDie s f d).sec = s.sec := by
  simp only [State.loadDie]
  (repeat' split) <;> simp only [State.wr_sec, State.wrBit_sec, State.wrFld_sec, foldl_sec, implies_true, eq_self]

@[simp] theorem State.loadPort_sec (s : State) (c : PortClaim) :
    (State.loadPort s c).sec = s.sec := by
  simp only [State.loadPort]
  (repeat' split) <;> simp [foldl_sec, ite_sec]

@[simp] theorem State.loadForme_sec (s : State) (p : Part) (f : Forme) :
    (State.loadForme s p f).sec = s.sec := by
  simp only [State.loadForme]
  (repeat' split) <;> simp [foldl_sec, ite_sec]

@[simp] theorem State.degradeOkNow_sec (s : State) (p : Port) :
    (State.degradeOkNow s p).sec = s.sec := by
  simp only [State.degradeOkNow]; exact foldl_sec _ (fun _ _ => by simp) _ _

@[simp] theorem State.unload_sec (s : State) (p : Part) :
    (State.unload s p).sec = s.sec := by
  exact (State.sparesDue_sec _ _).trans ((foldl_sec _ (fun s i => State.degradeOkNow_sec _ _) _ _).trans (State.modPart_sec _ _ _))

@[simp] theorem State.formeLoad_sec (s : State) (q : Req) (r : FormeRead) :
    (State.formeLoad s q r).sec = s.sec := by
  simp only [State.formeLoad]
  (repeat' split) <;> simp only [State.reply_sec, State.unload_sec, State.loadForme_sec, eq_self]

@[simp] theorem State.formeArm_sec (s : State) (q : Req) (start : Word) (cold : Bool) :
    (State.formeArm s q start cold).sec = s.sec := by
  simp only [State.formeArm]
  (repeat' split) <;> simp only [foldl_sec, ite_sec, State.reply_sec, State.setArmed_sec, State.wr_sec,
      State.modPart_sec, State.loadVariant_sec, State.loadReplay_sec, State.addJob_sec, State.proofOn_sec,
      State.syncRegionGear_sec, ite_self, implies_true, eq_self]

@[simp] theorem State.formeDisarm_sec (s : State) (q : Req) :
    (State.formeDisarm s q).sec = s.sec := by
  simp only [State.formeDisarm]
  (repeat' split) <;> simp only [State.reply_sec, State.disarm_sec, eq_self]

/-! ### Registers -/

@[simp] theorem State.noteDebug_sec (s : State) (who : Requester) (write : Bool) :
    (State.noteDebug s who write).sec = s.sec := by
  simp only [State.noteDebug]; split <;> rfl

@[simp] theorem State.refused_sec (s : State) (who : Requester) (a : Nat) (b : Nat) :
    (State.refused s who a b).sec = s.sec := by
  simp only [State.refused]; split <;> rfl

@[simp] theorem State.clearRead_sec (s : State) (r : Reg) (v : Word) :
    (State.clearRead s r v).sec = s.sec := by
  simp only [State.clearRead]
  (repeat' split) <;> rfl

@[simp] theorem State.setShadow_sec (s : State) (who : Requester) (a : Nat) (v : Option Word) :
    (State.setShadow s who a v).sec = s.sec := by rfl

@[simp] theorem State.out_sec (s : State) (v : Word) :
    (State.out s v).sec = s.sec := by rfl

@[simp] theorem State.readReg_sec (s : State) (who : Requester) (r : Reg) :
    (State.readReg s who r).sec = s.sec := by
  simp only [State.readReg]
  (repeat' split) <;> simp only [State.setShadow_sec, State.clearRead_sec, State.out_sec, eq_self]

@[simp] theorem State.busRead_sec (s : State) (who : Requester) (a : Nat) :
    (State.busRead s who a).sec = s.sec := by
  simp only [State.busRead]
  (repeat' split) <;> simp only [State.out_sec, State.refused_sec, State.noteDebug_sec, State.readReg_sec, eq_self]

@[simp] theorem State.debugRead_sec (s : State) (who : Requester) (a : Nat) :
    (State.debugRead s who a).sec = s.sec := by
  simp only [State.debugRead]
  (repeat' split) <;> simp only [State.refused_sec, State.out_sec, State.noteDebug_sec, eq_self]

@[simp] theorem State.partitionWrite_sec (s : State) (d : Die) (v : Word) :
    (State.partitionWrite s d v).sec = s.sec := by
  simp only [State.partitionWrite]; split <;> simp

@[simp] theorem State.imposeWrite_sec (s : State) (l : LU) (v : Word) :
    (State.imposeWrite s l v).sec = s.sec := by
  simp only [State.imposeWrite]
  (repeat' split) <;> simp only [State.raiseBit_sec, State.storeReg_sec, State.syncFence_sec, eq_self]

@[simp] theorem State.quoinWrite_sec (s : State) (v : Word) :
    (State.quoinWrite s v).sec = s.sec := by rfl

@[simp] theorem State.hbmCfgWrite_sec (s : State) (d : Die) (v : Word) :
    (State.hbmCfgWrite s d v).sec = s.sec := by
  simp only [State.hbmCfgWrite]; split <;> rfl

@[simp] theorem State.twCfgWrite_sec (s : State) (v : Word) :
    (State.twCfgWrite s v).sec = s.sec := by
  simp only [State.twCfgWrite]; split <;> simp only [State.raiseBit_sec, State.storeReg_sec, eq_self]

/-! ### Data -/

@[simp] theorem State.runAt_sec (s : State) (q : Req) :
    (State.runAt s q).sec = s.sec := by
  simp only [State.runAt]
  (repeat' split) <;> simp only [State.reply_sec, State.addJob_sec, eq_self]

@[simp] theorem State.haltAt_sec (s : State) (q : Req) :
    (State.haltAt s q).sec = s.sec := by
  simp only [State.haltAt]
  (repeat' split) <;> simp only [State.reply_sec, State.addJob_sec, eq_self]

@[simp] theorem State.gearCommand_sec (s : State) (q : Req) (gear : Nat) :
    (State.gearCommand s q gear).sec = s.sec := by
  simp only [State.gearCommand]
  (repeat' split) <;> simp only [State.reply_sec, State.addJob_sec, State.syncGear_sec, eq_self]

@[simp] theorem State.cancel_sec (s : State) (q : Req) (slot : Nat) (tag : Half) :
    (State.cancel s q slot tag).sec = s.sec := by
  simp only [State.cancel]
  (repeat' split) <;> simp only [State.reply_sec, State.endJobs_sec, State.syncGear_sec, eq_self]

@[simp] theorem State.snapshot_sec (s : State) (q : Req) (step : Word) (variant : Nat) (ship : Bool) (stream : Half)
    (ports : Nat) :
    (State.snapshot s q step variant ship stream ports).sec = s.sec := by
  simp only [State.snapshot]
  (repeat' split) <;> simp only [State.reply_sec, State.modPart_sec, State.addJob_sec, eq_self]

@[simp] theorem State.fieldProof_sec (s : State) (q : Req) (mask : Half) :
    (State.fieldProof s q mask).sec = s.sec := by rfl

@[simp] theorem State.fenceRecord_sec (s : State) (react : Nat) (die : Nat) (region : Nat) (index : Nat)
    (p : Option Part) (suspect : Bool) :
    (State.fenceRecord s react die region index p suspect).sec = s.sec := by rfl

@[simp] theorem State.fenceCommand_sec (s : State) (q : Req) (level : Nat) (die : Nat) (region : Nat) (pos : Nat) :
    (State.fenceCommand s q level die region pos).sec = s.sec := by
  simp only [State.fenceCommand]
  (repeat' split) <;> simp only [State.fenceRecord_sec, State.reply_sec, State.fence_sec, State.fenceUnit_sec,
      State.fenceRegion_sec, State.fenceDie_sec, State.fenceLd_sec, State.syncFence_sec, implies_true, eq_self]

@[simp] theorem State.proofRun_sec (s : State) (q : Req) (p : ProofParams) (r : HostRead) :
    (State.proofRun s q p r).sec = s.sec := by
  simp only [State.proofRun]
  (repeat' split) <;> simp only [State.reply_sec, State.accFlag_sec, State.raiseBit_sec, State.modCluster_sec,
      State.modUnit_sec, State.tuFlag_sec, State.accFlags_sec, State.accFlagIf_sec,
      State.addJob_sec, eq_self]

@[simp] theorem State.pageRetire_sec (s : State) (q : Req) (die : Nat) (page : Nat) :
    (State.pageRetire s q die page).sec = s.sec := by
  simp only [State.pageRetire]
  (repeat' split) <;> simp only [State.reply_sec, State.raiseBit_sec, State.startCopy_sec, State.addJob_sec, eq_self]

@[simp] theorem State.dmaTake_sec (s : State) (d : Die) (p : DmaParams) :
    (State.dmaTake s d p).1.sec = s.sec := by
  simp only [State.dmaTake]
  refine foldl_sec1 _ (fun a b => ?_) _ _
  (try dsimp only)
  split <;> simp only [State.pageRange_sec, State.engineRead_sec]

@[simp] theorem State.dmaPut_sec (s : State) (d : Die) (p : DmaParams) (b : List Byte) :
    (State.dmaPut s d p b).sec = s.sec := by
  simp only [State.dmaPut]
  refine foldl_sec _ (fun a b => ?_) _ _
  (try dsimp only)
  split <;> simp only [State.pageRange_sec, State.engineWrite_sec]

@[simp] theorem State.dma_sec (s : State) (q : Req) (p : DmaParams) (write : Bool) :
    (State.dma s q p write).sec = s.sec := by
  simp only [State.dma]
  (repeat' split) <;> simp only [State.reply_sec, State.addJob_sec, State.dmaTake_sec, eq_self]

@[simp] theorem State.toHost_sec (s : State) (a : Nat) (b : List Byte) :
    (State.toHost s a b).sec = s.sec := by rfl

@[simp] theorem State.transferDone_sec (s : State) (src : Src) (r : HostRead) :
    (State.transferDone s src r).sec = s.sec := by
  simp only [State.transferDone]
  (repeat' split) <;> simp

@[simp] theorem State.streamOpen_sec (s : State) (q : Req) (p : StreamParams) :
    (State.streamOpen s q p).sec = s.sec := by
  simp only [State.streamOpen]
  (repeat' split) <;> simp only [State.reply_sec, eq_self]

@[simp] theorem State.streamClose_sec (s : State) (q : Req) (id : Half) :
    (State.streamClose s q id).sec = s.sec := by
  simp only [State.streamClose]; split <;> simp only [State.reply_sec, eq_self]

@[simp] theorem State.capSet_sec (s : State) (q : Req) (watts : Nat) :
    (State.capSet s q watts).sec = s.sec := by
  simp only [State.capSet]
  (repeat' split) <;> simp only [State.reply_sec, State.endJobs_sec, State.wrFld_sec, State.wrBit_sec,
      State.addJob_sec, eq_self]

@[simp] theorem State.twinMode_sec (s : State) (q : Req) (mode : Nat) :
    (State.twinMode s q mode).sec = s.sec := by
  simp only [State.twinMode]
  (repeat' split) <;> simp only [State.reply_sec, State.wrBit_sec, eq_self]

@[simp] theorem State.twinDetach_sec (s : State) (q : Req) :
    (State.twinDetach s q).sec = s.sec := by rfl

@[simp] theorem State.settingsGet_sec (s : State) (q : Req) (k : Half) :
    (State.settingsGet s q k).sec = s.sec := by
  simp only [State.settingsGet]; split <;> simp only [State.reply_sec, eq_self]

@[simp] theorem State.monSettings_sec (s : State) :
    (State.monSettings s).sec = s.sec := by rfl

@[simp] theorem State.settingsSet_sec (s : State) (q : Req) (k : Half) (v : Word) :
    (State.settingsSet s q k v).sec = s.sec := by
  simp only [State.settingsSet]
  (repeat' split) <;> simp

@[simp] theorem State.tgStopFree_sec (s : State) (d : Die) (c : Fin 32) :
    (State.tgStopFree s d c).sec = s.sec := by
  simp only [State.tgStopFree]
  (repeat' split) <;> simp only [State.tgStop_sec, eq_self]

@[simp] theorem State.trafficGen_sec (s : State) (q : Req) (p : TgParams) :
    (State.trafficGen s q p).sec = s.sec := by
  simp only [State.trafficGen]
  (repeat' split) <;> simp only [foldl_sec, State.tgStopFree_sec, State.reply_sec, State.storeReg_sec,
      State.tgStart_sec, State.addJob_sec, implies_true, eq_self]

@[simp] theorem State.telemetryRead_sec (s : State) (q : Req) (selector : Nat) (index : Nat) (count : Nat)
    (host : Nat) :
    (State.telemetryRead s q selector index count host).sec = s.sec := by
  simp only [State.telemetryRead]
  (repeat' split) <;> simp only [State.reply_sec, State.addJob_sec, eq_self]

/-! ### Security -/

@[simp] theorem State.attest_sec (s : State) (q : Req) (nonce : List Byte) (mask : Word) :
    (State.attest s q nonce mask).sec = s.sec := by
  simp only [State.attest]; split <;> simp only [State.reply_sec, eq_self]

@[simp] theorem State.syncSec_sec (s : State) :
    (State.syncSec s).sec = s.sec := by rfl

@[simp] theorem State.clearStacks_sec (s : State) :
    (State.clearStacks s).sec = s.sec := by rfl

@[simp] theorem State.spdmOut_sec (s : State) (o : SbOut) :
    (State.spdmOut s o).sec = s.sec := by rfl

@[simp] theorem State.setPhase_sec (s : State) (doe : Bool) (n : Nat) :
    (State.setPhase s doe n).sec = s.sec := by rfl

@[simp] theorem State.spdmError_sec (s : State) (doe : Bool) (code : Nat) :
    (State.spdmError s doe code).sec = s.sec := by rfl

@[simp] theorem State.spdmAfter_sec (s : State) (doe : Bool) (n : Nat) (f : State → State)
    (hf : ∀ x0, (f x0).sec = x0.sec) :
    (State.spdmAfter s doe n f).sec = s.sec := by
  simp only [State.spdmAfter]
  (repeat' split) <;> simp_all only [State.spdmError_sec, eq_self]

@[simp] theorem State.getVersion_sec (s : State) (doe : Bool) :
    (State.getVersion s doe).sec = s.sec := by
  simp only [State.getVersion]
  (repeat' split) <;> simp only [State.spdmAfter_sec, State.setPhase_sec, State.spdmOut_sec, implies_true, eq_self]

@[simp] theorem State.getCapabilities_sec (s : State) (doe : Bool) :
    (State.getCapabilities s doe).sec = s.sec := by
  simp only [State.getCapabilities]
  (repeat' split) <;> simp only [State.spdmAfter_sec, State.setPhase_sec, State.spdmOut_sec, implies_true, eq_self]

@[simp] theorem State.negotiate_sec (s : State) (doe : Bool) (p521 : Bool) (sha512 : Bool) :
    (State.negotiate s doe p521 sha512).sec = s.sec := by
  simp only [State.negotiate]; split <;> simp only [State.spdmAfter_sec, State.setPhase_sec, State.spdmOut_sec,
      implies_true, eq_self]

@[simp] theorem State.getDigests_sec (s : State) (doe : Bool) :
    (State.getDigests s doe).sec = s.sec := by
  simp only [State.getDigests]
  (repeat' split) <;> simp only [State.spdmAfter_sec, State.spdmOut_sec, implies_true, eq_self]

@[simp] theorem State.getCertificate_sec (s : State) (doe : Bool) (slot : Nat) (offset : Nat) (length : Nat) :
    (State.getCertificate s doe slot offset length).sec = s.sec := by
  simp only [State.getCertificate]; split <;> simp only [State.spdmAfter_sec, State.spdmError_sec,
      State.spdmOut_sec, implies_true, eq_self]

@[simp] theorem State.spdmSigned_sec (s : State) (doe : Bool) (code : Byte) (body : List Byte) (nonce : List Byte) :
    (State.spdmSigned s doe code body nonce).sec = s.sec := by
  simp only [State.spdmSigned]; split <;> rfl

@[simp] theorem State.challenge_sec (s : State) (doe : Bool) (slot : Nat) (nonce : List Byte) :
    (State.challenge s doe slot nonce).sec = s.sec := by
  simp only [State.challenge]; split <;> simp only [State.spdmAfter_sec, State.spdmError_sec, State.spdmSigned_sec,
      implies_true, eq_self]

@[simp] theorem State.getMeasurements_sec (s : State) (doe : Bool) (index : Nat) (signed : Bool) (nonce : List Byte) :
    (State.getMeasurements s doe index signed nonce).sec = s.sec := by
  simp only [State.getMeasurements]
  (repeat' split) <;> simp only [State.spdmAfter_sec, State.spdmError_sec, State.spdmSigned_sec, State.spdmOut_sec,
      implies_true, eq_self]

@[simp] theorem State.mctpControl_sec (s : State) (m : MctpReq) :
    (State.mctpControl s m).sec = s.sec := by
  simp only [State.mctpControl]
  (repeat' split) <;> rfl

@[simp] theorem State.privateRead_sec (s : State) :
    (State.privateRead s).sec = s.sec := by
  simp only [State.privateRead]; split <;> simp only [State.busRead_sec, State.spdmOut_sec, eq_self]

@[simp] theorem State.addressAssigned_sec (s : State) (a : BitVec 7) :
    (State.addressAssigned s a).sec = s.sec := by
  simp only [State.addressAssigned]; split <;> rfl

@[simp] theorem State.doeDiscovery_sec (s : State) (index : Byte) :
    (State.doeDiscovery s index).sec = s.sec := by
  simp only [State.doeDiscovery]
  (repeat' split) <;> rfl

/-! ### Firmware -/

@[simp] theorem State.syncFw_sec (s : State) :
    (State.syncFw s).sec = s.sec := by
  simp only [State.syncFw]; exact foldl_sec _ (fun _ _ => by simp only [State.wr_sec, eq_self]) _ _

@[simp] theorem State.readSlots_sec (s : State) :
    (State.readSlots s).sec = s.sec := by rfl

@[simp] theorem State.bootLine_sec (s : State) (b : List Byte) :
    (State.bootLine s b).sec = s.sec := by
  simp only [State.bootLine]
  (repeat' split) <;> simp only [State.modFw_sec, eq_self]

@[simp] theorem State.setStage_sec (s : State) (g : BootStage) :
    (State.setStage s g).sec = s.sec := by rfl

@[simp] theorem State.bootFail_sec (s : State) :
    (State.bootFail s).sec = s.sec := by
  simp only [State.bootFail]
  (repeat' split) <;> simp only [State.bootLine_sec, State.raiseBit_sec, eq_self]

@[simp] theorem State.countBoot_sec (s : State) :
    (State.countBoot s).sec = s.sec := by rfl

@[simp] theorem State.perstRelease_sec (s : State) (st : Straps) :
    (State.perstRelease s st).sec = s.sec := by
  simp only [State.perstRelease]; split <;> rfl

@[simp] theorem State.refence_sec (s : State) :
    (State.refence s).sec = s.sec := by
  simp only [State.refence, foldl_sec, State.fence_sec, State.fenceDie_sec, State.fenceRegion_sec,
      State.fenceUnit_sec, State.fenceLd_sec, State.syncFence_sec, implies_true, eq_self]

@[simp] theorem State.reloadPages_sec (s : State) :
    (State.reloadPages s).sec = s.sec := by
  simp only [State.reloadPages]; exact foldl_sec _ (fun _ _ => by simp only [State.modDie_sec, State.wrFld_sec, eq_self]) _ _

@[simp] theorem State.trainStacks_sec (s : State) :
    (State.trainStacks s).sec = s.sec := by
  exact foldl_sec _ (fun s d => State.modDie_sec _ _ _) _ _

@[simp] theorem State.bootSettings_sec (s : State) :
    (State.bootSettings s).sec = s.sec := by
  simp only [State.bootSettings, State.monSettings_sec, foldl_sec, State.wrFld_sec, implies_true]

@[simp] theorem State.startSlot_sec (s : State) (active : Bool) :
    (State.startSlot s active).sec = s.sec := by
  simp only [State.startSlot, State.readSlots_sec, State.wrFld_sec, State.syncFw_sec, State.modFw_sec]

@[simp] theorem State.bootFlash_sec (s : State) (ok : Bool → Bool) (next : BootStage) :
    (State.bootFlash s ok next).sec = s.sec := by
  simp only [State.bootFlash]
  (repeat' split) <;> simp only [State.startSlot_sec, State.setStage_sec, State.raiseBit_sec, State.bootFail_sec,
      eq_self]

@[simp] theorem State.bootDone_sec (s : State) :
    (State.bootDone s).sec = s.sec := by
  simp only [State.bootDone, State.modFw_sec, State.inputBand_sec, State.bootLine_sec, State.setReplace_sec,
      State.wrFld_sec,
      foldl_sec, implies_true]

@[simp] theorem State.bootTimeout_sec (s : State) :
    (State.bootTimeout s).sec = s.sec := by
  simp only [State.bootTimeout]; split <;> simp only [State.bootFail_sec, State.setStage_sec, eq_self]

@[simp] theorem State.stage_sec (s : State) (offset : Nat) (b : List Byte) :
    (State.stage s offset b).sec = s.sec := by
  simp only [State.stage]; split <;> rfl

@[simp] theorem State.fwStage_sec (s : State) (q : Req) (source : Nat) (last : Bool) (offset : Nat) (r : HostRead) :
    (State.fwStage s q source last offset r).sec = s.sec := by
  simp only [State.fwStage]
  (repeat' split) <;> simp only [State.reply_sec, State.stage_sec, State.wrBit_sec, State.addJob_sec, eq_self]

@[simp] theorem State.fwChecked_sec (s : State) (iv : List Byte) :
    (State.fwChecked s iv).sec = s.sec := by
  simp only [State.fwChecked]
  (repeat' split) <;> simp

@[simp] theorem State.cancelTaken_sec (s : State) :
    (State.cancelTaken s).sec = s.sec := by
  simp only [State.cancelTaken]
  refine (foldl_sec _ (fun s a => ?_) _ _).trans ((foldl_sec _ (fun s a => ?_) _ _).trans
    ((State.clearPending_sec _).trans (State.endJobs_sec _ _ _ _ _)))
  · (try dsimp only); (repeat' split) <;> simp only [State.reply_sec]
  · split <;> simp only [State.reply_sec]

@[simp] theorem State.beginActivation_sec (s : State) (q : Req) :
    (State.beginActivation s q).sec = s.sec := by
  simp only [State.beginActivation, State.addJob_sec, State.wrBit_sec, State.readSlots_sec, State.wrFld_sec,
      State.syncFw_sec,
      State.modFw_sec]

@[simp] theorem State.fwActivate_sec (s : State) (q : Req) (due : Option Nat) :
    (State.fwActivate s q due).sec = s.sec := by
  simp only [State.fwActivate]
  (repeat' split) <;> simp only [State.reply_sec, State.addJob_sec, State.beginActivation_sec, eq_self]

@[simp] theorem State.trialConfirm_sec (s : State) (format : Nat) :
    (State.trialConfirm s format).sec = s.sec := by
  simp only [State.trialConfirm]
  (repeat' split) <;> simp only [State.modFw_sec, State.raiseBit_sec, State.startSlot_sec, State.syncFw_sec,
      State.endJobs_sec, eq_self]

@[simp] theorem State.trialTimeout_sec (s : State) :
    (State.trialTimeout s).sec = s.sec := by
  simp only [State.trialTimeout]
  (repeat' split) <;> simp

@[simp] theorem State.pauseEnd_sec (s : State) :
    (State.pauseEnd s).sec = s.sec := by
  simp only [State.pauseEnd]
  (repeat' split) <;> simp

@[simp] theorem State.warmReset_sec (s : State) (q : Req) :
    (State.warmReset s q).sec = s.sec := by
  simp only [State.warmReset]
  split
  · exact State.reply_sec _ _ _ _ _
  · simp only [State.addJob_sec, State.modFw_sec, State.clearPending_sec, State.modLinks_sec, State.wr_sec,
      State.countBoot_sec, State.wrFld_sec, foldl_sec, State.unload_sec, ite_sec, State.haltPart_sec, ite_self,
      implies_true]

@[simp] theorem State.warmBlocks_sec (s : State) (w : WarmRun) :
    (State.warmBlocks s w).sec = s.sec := by
  simp only [State.warmBlocks, foldl_sec, ite_sec, State.wrBit_sec, State.modFw_sec, ite_self, implies_true, eq_self]

@[simp] theorem State.warmVerify_sec (s : State) :
    (State.warmVerify s).sec = s.sec := by
  simp only [State.warmVerify]; split <;> simp

@[simp] theorem State.warmEnd_sec (s : State) :
    (State.warmEnd s).sec = s.sec := by
  simp only [State.warmEnd]
  (repeat' split) <;> simp only [State.endJobs_sec, State.cancelTaken_sec, State.wrBit_sec, State.modLinks_sec, eq_self]

@[simp] theorem State.warmTick_sec (s : State) :
    (State.warmTick s).sec = s.sec := by
  simp only [State.warmTick]
  (repeat' split) <;> simp

@[simp] theorem State.watchdog_sec (s : State) (digestOk refreshed : Bool) :
    (State.watchdog s digestOk refreshed).sec = s.sec := by
  simp only [State.watchdog]
  (repeat' split) <;> simp

@[simp] theorem State.resetBlock_sec (s : State) (level : Nat) (target : Nat) :
    (State.resetBlock s level target).sec = s.sec := by
  simp only [State.resetBlock]
  (repeat' split) <;> simp [foldl_sec]

@[simp] theorem State.blockReset_sec (s : State) (q : Req) (level : Nat) (target : Nat) :
    (State.blockReset s q level target).sec = s.sec := by
  simp only [State.blockReset]
  (repeat' split) <;> simp [foldl_sec]

@[simp] theorem State.latchIf_sec (s : State) (b : Nat) (atOnce : Bool) :
    (State.latchIf s b atOnce).sec = s.sec := by
  simp only [State.latchIf]; split <;> simp only [State.latch_sec, eq_self]

@[simp] theorem State.overvolt_sec (s : State) :
    (State.overvolt s).sec = s.sec := by
  simp only [State.overvolt]
  (repeat' split) <;> simp only [State.latchIf_sec, eq_self]

@[simp] theorem State.pcFault_sec (s : State) (k : Fin 4) :
    (State.pcFault s k).sec = s.sec := by
  simp only [State.pcFault]
  (repeat' split) <;> simp only [State.latchIf_sec, eq_self]

@[simp] theorem State.fuseFail_sec (s : State) :
    (State.fuseFail s).sec = s.sec := by
  simp only [State.fuseFail]
  (repeat' split) <;> simp only [State.latchIf_sec, eq_self]

@[simp] theorem State.controlOvertemp_sec (s : State) :
    (State.controlOvertemp s).sec = s.sec := by
  simp only [State.controlOvertemp]
  (repeat' split) <;> simp only [State.latchIf_sec, eq_self]

/-! ### Commands -/

@[simp] theorem State.take_sec (s : State) (src : Src) :
    (State.take s src).sec = s.sec := by
  simp only [State.take]; split <;> rfl

@[simp] theorem State.collectOne_sec (s : State) (f : State → State) (src : Src) (hf : ∀ x0, (f x0).sec = x0.sec) :
    (State.collectOne s f src).sec = s.sec := by
  simp only [State.collectOne]
  (repeat' split) <;> first | rfl | (simp; done) | (simp_all; done)

@[simp] theorem State.slotWrite_sec (s : State) (addr : Nat) (b : List Byte) (i : Nat) :
    (State.slotWrite s addr b i).sec = s.sec := by
  simp only [State.slotWrite]
  (repeat' split) <;> simp only [State.raiseBit_sec, State.winWrite_sec, eq_self]

@[simp] theorem State.msixWrite_sec (s : State) (a : Nat) (b : List Byte) :
    (State.msixWrite s a b).sec = s.sec := by
  simp only [State.msixWrite]
  (repeat' split) <;> simp

@[simp] theorem State.hostSlotWrite_sec (s : State) (addr : Nat) (b : List Byte) :
    (State.hostSlotWrite s addr b).sec = s.sec := by
  simp only [State.hostSlotWrite]
  (repeat' split)
  · rfl
  · exact State.msixWrite_sec _ _ _
  · exact foldl_sec _ (fun s i => State.slotWrite_sec _ _ _ _) _ _
  · exact (State.winWrite_sec _ _ _).trans (foldl_sec _ (fun s i => State.slotWrite_sec _ _ _ _) _ _)

@[simp] theorem State.sidebandMessage_sec (s : State) (eid : Byte) (b : List Byte) :
    (State.sidebandMessage s eid b).sec = s.sec := by
  simp only [State.sidebandMessage]
  (repeat' split) <;> simp only [State.raiseBit_sec, eq_self]

/-! ### Monitor -/

@[simp] theorem State.print_sec (s : State) (o : List MonOut) :
    (State.print s o).sec = s.sec := by rfl

@[simp] theorem State.monErr_sec (s : State) (w : String) :
    (State.monErr s w).sec = s.sec := by rfl

@[simp] theorem State.monOk_sec (s : State) (o : List MonOut) :
    (State.monOk s o).sec = s.sec := by rfl

@[simp] theorem State.monitor_sec (s : State) (l : MonLevel) (f : State → State) (hf : ∀ x0, (f x0).sec = x0.sec) :
    (State.monitor s l f).sec = s.sec := by
  simp only [State.monitor]
  (repeat' split) <;> simp_all only [State.monErr_sec, State.noteDebug_sec, eq_self]

@[simp] theorem State.monHelp_sec (s : State) :
    (State.monHelp s).sec = s.sec := by
  simp only [State.monHelp]
  (repeat' split) <;> simp only [State.monitor_sec, State.monOk_sec, implies_true, eq_self]

@[simp] theorem State.peek_sec (s : State) (addr : Nat) (n : Nat) :
    (State.peek s addr n).sec = s.sec := by
  simp only [State.peek, foldl_sec1, State.monitor_sec, State.busRead_sec, State.monOk_sec, implies_true, eq_self]; done

@[simp] theorem State.sticky_sec (s : State) (die : Option Nat) :
    (State.sticky s die).sec = s.sec := by
  simp only [State.sticky]
  (repeat' split) <;> simp only [State.monitor_sec, State.monErr_sec, State.monOk_sec, implies_true, eq_self]

@[simp] theorem State.monFaults_sec (s : State) (range : Option (Nat × Nat)) :
    (State.monFaults s range).sec = s.sec := by
  simp only [State.monFaults]
  (repeat' split) <;> simp only [State.monitor_sec, State.monOk_sec, implies_true, eq_self]

@[simp] theorem State.monTime_sec (s : State) :
    (State.monTime s).sec = s.sec := by
  simp only [State.monTime]
  (repeat' split) <;> simp only [State.monitor_sec, State.monOk_sec, implies_true, eq_self]

@[simp] theorem State.monTg_sec (s : State) (die : Nat) (ch : Nat) (mode : Nat) (pat : Nat) (base : Word)
    (len : Word) (seed : Word) :
    (State.monTg s die ch mode pat base len seed).sec = s.sec := by
  simp only [State.monTg, ite_sec, State.monitor_sec, State.monErr_sec, State.trafficGen_sec, ite_self,
      implies_true, eq_self]

@[simp] theorem State.monAudit_sec (s : State) (die : Nat) (region : Nat) (unit : Nat) :
    (State.monAudit s die region unit).sec = s.sec := by
  simp only [State.monAudit]; split <;> simp only [State.monitor_sec, State.monOk_sec, State.monErr_sec,
      implies_true, eq_self]

@[simp] theorem State.monColophon_sec (s : State) :
    (State.monColophon s).sec = s.sec := by
  simp only [State.monColophon]
  (repeat' split) <;> simp only [State.monitor_sec, State.monOk_sec, implies_true, eq_self]

@[simp] theorem State.monBootlog_sec (s : State) :
    (State.monBootlog s).sec = s.sec := by
  simp only [State.monBootlog]
  (repeat' split) <;> simp only [State.monitor_sec, State.monOk_sec, implies_true, eq_self]

@[simp] theorem State.jtagScan_sec (s : State) :
    (State.jtagScan s).sec = s.sec := by
  simp only [State.jtagScan]; split <;> rfl

/-! ### Tick -/

@[simp] theorem State.dieTick_sec (s : State) :
    (State.dieTick s).sec = s.sec := by
  simp only [State.dieTick, State.streamTick_sec, foldl_sec, State.adderTick_sec, State.unitTick_sec, implies_true]
  exact foldl_sec _ (fun s a => by (try dsimp only); split <;> simp only [State.flyTick_sec]) _ _

@[simp] theorem State.tick_sec (s : State) :
    (State.tick s).sec = s.sec := by
  simp only [State.tick]
  (repeat' split) <;> simp

/-! ### Step -/

@[simp] theorem State.withFetchWord_sec (s : State) (nbits : Nat) (w : Nat) :
    (State.withFetchWord s nbits w).sec = s.sec := by rfl

end Sys2Proof.Machine
end

