-- ==== Sys2Proof/Tests/Slice0.lean ====
section
/-!
SUPPORT. Tests: an ill-formed command for each check of WellFormed.lean, states that meet the hypotheses of the
statements of Certificates/Slice0/Obligations.lean, clause by clause, and results worked out by hand from the rules.
-/
namespace Sys2Proof.Tests

open Sys2Proof Sys2Proof.Machine

set_option Elab.async false

/-! ### Well-formed commands -/

/-- A packet of slot 2 with an opcode. -/
def packet (op : Half) : Req := ⟨.host 2, op, 5, none, false, 0, 0, 0, 0⟩

def dma : DmaParams := ⟨0, 1, 0x100000, 128, 0x1000⟩
def stream : StreamParams := ⟨4, 1, 0, 0, 0x1000, 256, 3, 0⟩
def channel : TgParams := ⟨1, 5, 0x4, false, 0, 5, 9⟩
def proved : ProofParams := ⟨0, 0, 1, 1, 8, 8, false, false, false, 64, false, false, 0x1000⟩

/-- Each host command under an opcode. -/
def hostRows (op : Half) : List Instr :=
  [.formeLoad (packet op) .badDigest, .formeArm (packet op) 0 false, .formeDisarm (packet op), .runAt (packet op),
    .haltAt (packet op), .gearAt (packet op) 0, .cancel (packet op) 0 0, .snapshot (packet op) 0 0 false 0 0,
    .pageRetire (packet op) 0 0, .dmaRead (packet op) dma, .dmaWrite (packet op) dma, .streamOpen (packet op) stream]
  ++ [.streamClose (packet op) 0, .fieldProof (packet op) 0, .proofRun (packet op) proved .fault,
    .fence (packet op) 0 0 0 0, .capSet (packet op) 0, .energyRead (packet op), .twinMode (packet op) 0,
    .twinDetach (packet op), .fwStage (packet op) 0 false 0 .fault, .fwActivate (packet op), .settingsGet (packet op) 0]
  ++ [.settingsSet (packet op) 0 0, .warmReset (packet op), .blockReset (packet op) 0 0,
    .attest (packet op) (List.replicate 32 0) 0,
    .secTransition (packet op) 0 (List.replicate 133 0) (List.replicate 132 0), .trafficGen (packet op) channel,
    .telemetryRead (packet op) 0 0 0 0]

/-- A packet under an opcode that is no command's is ill-formed, whatever its command (R560). -/
theorem test_wf_opcode : ∀ i ∈ hostRows 0xFFFF, i.wf = false := by decide +kernel

/-- Each opcode of R560 is the opcode of its row, and not of the next. -/
theorem test_wf_opcodes : ∀ e ∈ ([0x0101, 0x0102, 0x0103, 0x0201, 0x0202, 0x0203, 0x0204, 0x0301, 0x0302, 0x0303, 0x0304,
    0x0305, 0x0306, 0x0401, 0x0402, 0x0403, 0x0501, 0x0502, 0x0601, 0x0602, 0x0701, 0x0702, 0x0703, 0x0704, 0x0705, 0x0706,
    0x0801, 0x0802, 0x0901, 0x0902] : List Half).zipIdx, ((hostRows e.1)[e.2]?).all (·.wf) = true
      ∧ ((hostRows e.1)[e.2 + 1]?).any (·.wf) = false := by decide +kernel

def slotIn : RxSlot := ⟨640, true, 40960, List.replicate 32 0, List.replicate 2560 0⟩
def tramIn : RxTram := ⟨true, 0, List.replicate 32 0, List.replicate 2560 0⟩
def given : Contribution := ⟨0, 0, 0, 0, 32, 1, 64, List.replicate 66 1, 64⟩
def unit : LU := ⟨0, 0, 0, none⟩

/-- Every other check refuses a term: lengths and addresses. -/
theorem test_wf_lengths : ∀ i ∈ ([.attest (packet 0x0801) [] 0, .secTransition (packet 0x0802) 1 [] (List.replicate 132 0),
      .secTransition (packet 0x0802) 1 (List.replicate 133 0) [], .hostSlotWrite 0xFFFFF [1, 2], .sidebandMessage 1 [0],
      .challenge true 0 [], .getMeasurements true 1 false [], .sidebandPrivateWrite 0x4000000 none,
      .monitorLine [104, 10], .monitorLine [13], .peek 0x4000000 1, .poke 0x4000000 1, .jtagAccess 0x4000000 none]
    ++ [.registerWrite .host 0x4000000 true 0, .registerReadClear .host 0x4000000, .shadowLoRead .host 0x4000000,
      .hiRead .host 0x4000000, .debugRead .jtag 0x4000000, .runPromotion unit [(4096, 1)],
      .accumulateArrive { given with window := 256 }, .accumulateArrive { given with scales := 67 },
      .hbmAccess 0 .host 0 (some [1]) 0, .sharedCacheAccess 0 .host 0 (some [1]) 0, .energyPeriod [1] 0,
      .fabricSlot ⟨.die 0, .die 1, [0, 1], 0, 0⟩ (some (List.replicate 2049 0)), .epochFrame [⟨5, 64⟩, ⟨5, 64⟩], .twinReplayRequest ⟨0, 0⟩ []] : List Instr),
    i.wf = false := by decide +kernel

/-- Slots and tramlines: a lane the port has not, a start tick of no slot position, a header or payload of another length. -/
theorem test_wf_slots : ∀ i ∈ ([.slotSend 0 4, .slotReceive 0 4 slotIn, .accumSlotReceive 0 4 slotIn,
      .capacitySlotReceive 0 4 slotIn, .tramlineReceive 0 4 tramIn, .slotReceive 0 0 { slotIn with head := [] }, .slotReceive 0 0 { slotIn with tick := 641 },
      .slotReceive 0 0 { slotIn with payload := List.replicate 2561 0 }, .accumSlotReceive 0 0 { slotIn with tick := 1 }]
    ++ [.capacitySlotReceive 0 0 { slotIn with tick := 1 }, .tramlineReceive 0 0 { tramIn with head := [] },
      .tramlineReceive 0 0 { tramIn with payload := [] }] : List Instr), i.wf = false := by
  decide +kernel

/-- The same terms within their ranges pass. -/
theorem test_wf_passes : ∀ i ∈ ([.slotSend 48 7, .slotReceive 0 3 slotIn, .tramlineReceive 0 3 tramIn, .accumulateArrive given,
      .hostSlotWrite 0xFFFFE [1, 2], .peek 0x3FFFFFF 1, .runPromotion unit [(4095, 1)], .monitorLine [104]] : List Instr),
    i.wf = true := by decide +kernel

/-! ### States of the tests -/

/-- A forme on die 0, of two furrows, level 0, with one base variant. -/
def forme : Forme where
  digest := []
  job := 7
  node := 0
  mirror := false
  level := 0
  twinDup := false
  mult := 0
  dies := [0]
  needs := []
  needLanes := []
  length := 2
  headland := 0
  verdictAt := 20000
  commitAt := 24000
  tree := ⟨none, [], 0, 0, 0, 1⟩
  unclean := .repeat_
  nan := .suspect
  seed := 0
  pages := [⟨0, 0, 0x100000, 0x10000⟩]
  inBase := 0
  inLen := 0
  inCount := 0
  hists := []
  redCfg := 0
  perDie := []
  clusters := []
  portCycles := []
  linkSlots := []
  patterns := []
  degraded := []
  claims := []
  accums := []
  caps := []
  fabric := []
  galleys := []
  prologues := []
  audit := []
  shadows := []
  promotable := []
  variants := [⟨.plain, .full, [], none, none, []⟩]
  bases := [(.full, 0)]
  replay := []
  mailbox := []
  replayImage := []
  guests := []
  monMap := []
  updMap := []
  dropMap := []

def pos : PU := ⟨0, 0, 0⟩
def region : RegionId := ⟨0, 0⟩

/-- A package that is on, with die 0 in partition 0 and nothing loaded. -/
def idle : State := { State.reset with
  power := { PowerS.reset with mode := .on, stage := .done }
  regs := ⟨[(xreg .secState, 0), (dreg .cdPartition 0, 8), (rreg .pwrRegionStat region, 16)]⟩ }

/-- The same with a forme loaded, armed and running since tick 0. -/
def running (f : Forme) : State := { idle with
  parts := ⟨[(0, { PartS.reset with forme := some f, armed := true, running := true })]⟩
  regs := ⟨[(xreg .secState, 0), (dreg .cdPartition 0, 24), (rreg .pwrRegionStat region, 16)]⟩ }

/-- 32 bytes of a local descriptor: BF16 at `eb`, `rows` by `cols`. -/
def local_ (eb rows cols fmt flags : Nat) : List Byte :=
  natLe 4 eb ++ natLe 4 0 ++ natLe 2 rows ++ natLe 2 cols ++ natLe 4 128 ++ natLe 2 0 ++ natLe 1 fmt ++ natLe 1 flags
    ++ List.replicate 12 0

/-- 32 bytes of a far descriptor. -/
def far_ (addr die space port : Nat) : List Byte :=
  natLe 8 addr ++ natLe 1 die ++ natLe 1 space ++ natLe 2 port ++ List.replicate 7 0 ++ natLe 1 2 ++ List.replicate 12 0

/-- 0 a line of BF16, 1 sixteen lines, 2 two lines, 3 the cache, 4 the stack, 5 a send buffer, 6 a receive buffer, 7 a window,
8 and 9 a square of BF16 and of FP32 -/
def table : Memory := Memory.empty.write 0 (local_ 0 1 64 8 0 ++ local_ 0 16 64 8 0 ++ local_ 0 2 64 8 0 ++ far_ 0 0 0 0
  ++ far_ 0 0 1 0 ++ far_ 0 0 2 3 ++ far_ 0 0 3 3 ++ far_ 0 0 4 0 ++ local_ 0 64 64 8 0
  ++ local_ 0 64 64 9 0)

/-- The forme with all of cluster 0's port cycles given to unit 0 and to its engines, and port 3 claimed. -/
def wired : Forme := { forme with
  portCycles := [⟨⟨0, 0, 0⟩, true, 0, 16384, .unit 0⟩, ⟨⟨0, 0, 0⟩, false, 0, 16384, .unit 0⟩,
    ⟨⟨0, 0, 0⟩, false, 0, 16384, .drill⟩, ⟨⟨0, 0, 0⟩, true, 0, 16384, .drill⟩,
    ⟨⟨0, 0, 0⟩, false, 0, 16384, .rake⟩, ⟨⟨0, 0, 0⟩, true, 0, 16384, .rake⟩]
  claims := [⟨3, 0, 0, [0], true⟩] }

/-- A unit with its descriptors at work. -/
def working (f : Forme) (x : UnitS) : State := { running f with units := ⟨[(pos, { x with dtab := table })]⟩ }

def move (kind : MoveKind) (lines : List Nat) : MoveFlight :=
  ⟨kind, lines, some ⟨.cache, 0, 0, 0, 0, 0⟩, 0, 0, 0, 0, lines.length, false, none, true, true, false, false, 0, none, none, false⟩

def flight (k : FlightKind) : Flight := ⟨0, .x, 0, 0, false, [], false, [], [], .start, k⟩

def later (s : State) (t : Nat) : State := { s with ht := { s.ht with now := BitVec.ofNat 64 t, ticks := t } }

/-! ### The tensor unit -/

/-- StepRunsFront, QueueFifo, StepIdles, FusesNeverReturn, FallowStays: a queue with a command in front that answers a next state, that
command alone, and an empty queue. -/
theorem test_queue : Machine.step { State.reset with pending := [.latchPowerOff, .overvolt] }
      = .next { State.reset with pending := [.overvolt] } ∧ Machine.exec .latchPowerOff State.reset = .next State.reset
    ∧ State.reset.pending = [] := ⟨rfl, rfl, rfl⟩

def fresh : State := working wired .reset
def segEnded : State := working wired { UnitS.reset with ctl := { Ctl.reset with segEnd := true } }

/-- ASlotResults, LSlotRuns, VSlotRuns: a slot of a running unit may issue. -/
theorem test_slots_issue : fresh.issuer unit .a = some pos ∧ fresh.issuer unit .l = some pos
    ∧ fresh.issuer unit .v = some pos ∧ fresh.issuer unit .m = some pos ∧ fresh.issuer unit .w = some pos
    ∧ fresh.issuer unit .x = some pos := by decide +kernel

/-- LSlotRuns: a wait that has come and one that has not, a loop that fits and one that does not, a skip before and after
SEG_END with a flag that stands and one that does not, a fifth loop. -/
theorem test_l_slots :
    (fresh.tickIn < fresh.waitEnd unit.region 5 ∧ fresh.waitEnd unit.region 0 ≤ fresh.tickIn)
    ∧ (((fresh.unit pos).mark .l).ctl.loopBad 1 = false ∧ ((fresh.unit pos).mark .l).ctl.loopBad 1023 = false)
    ∧ ((working wired { UnitS.reset with ctl := { Ctl.reset with loops := List.replicate 4 ⟨0, 9, 3⟩ } }).issuer unit .l
        = some pos ∧ (({ UnitS.reset with ctl := { Ctl.reset with loops := List.replicate 4 ⟨0, 9, 3⟩ } } : UnitS).mark
          .l).ctl.loopBad 1 = true)
    ∧ (((fresh.unit pos).mark .l).ctl.segEnd = false ∧ segEnded.issuer unit .l = some pos
      ∧ ((segEnded.unit pos).mark .l).ctl.segEnd = true)
    ∧ (segEnded.marked pos .l).skipFlag unit ((segEnded.unit pos).mark .l) 0 = false := by decide +kernel

def held (h : Hold) : State := working wired { UnitS.reset with ctl := { Ctl.reset with hold := h } }

/-- LSlotRuns: a wait whose tick, and a count whose cycle, has come; the boundary values are 0 and 0. -/
theorem test_holds : (held (.untilTick 0)).carrier unit = some pos ∧ (held (.untilTick 0)).regionIssues unit.region = true
    ∧ (held (.untilTick 0)).waitEnd unit.region 0 ≤ (held (.untilTick 0)).tickIn
    ∧ (held (.untilCycle 0)).regionIssues unit.region = true ∧ 0 ≤ (held (.untilCycle 0)).cycle unit.region := by
  decide +kernel

def group (st : GroupState) : Group := ⟨st, List.replicate 4096 .zero, []⟩
def opened (st : GroupState) : State := working wired { UnitS.reset with groups := List.replicate 4 (group st) }

/-- VSlotRuns: V.LDG of a SHUT and of an open group; V.LD and V.ST of a local BF16 line outside the galleys. -/
theorem test_v_memory : (((opened .shut).unit pos).group 0).st = .shut ∧ (((opened .open_).unit pos).group 0).st ≠ .shut
    ∧ (opened .open_).issuer unit .v = some pos
    ∧ (fresh.unit pos).isFar 0 = false ∧ ((fresh.unit pos).opnd 0 0).gal = none
    ∧ ((fresh.unit pos).opnd 0 0).fmt = some .bf16 ∧ Fmt.bf16.vectorReads = true := by decide +kernel

/-- MatrixLaunches: an M.MMA of two BF16 operands of 64 × 64 into an open group, a free proof engine, groups in the
states of the clauses, a load whose operand the array takes and one from a far descriptor. -/
theorem test_m_slots : (opened .open_).issuer unit .m = some pos
    ∧ ((opened .open_).unit pos).mBusy ≤ (opened .open_).cycle unit.region
    ∧ ((opened .open_).unit pos).isFar 8 = false
    ∧ (pairRate (((opened .open_).unit pos).opnd 8 0).aligned (((opened .open_).unit pos).opnd 8 0).aligned).isSome = true
    ∧ extentsOk (((opened .open_).unit pos).opnd 8 0).aligned (((opened .open_).unit pos).opnd 8 0).aligned = true
    ∧ (((opened .open_).unit pos).group 3).st ≠ .shut ∧ (((opened .shut).unit pos).group 0).st = .shut
    ∧ (opened .shut).issuer unit .m = some pos
    ∧ ((((opened .shut).marked pos .m).releaseProof unit 0).clusterS unit.cluster).proof = none
    ∧ ((opened .shut).unit pos).loadBusy ≤ (opened .shut).cycle unit.region
    ∧ (((opened .shut).unit pos).opnd 9 0).aligned.loadable = true ∧ ((opened .shut).unit pos).isFar 9 = false
    ∧ (((opened .shut).unit pos).opnd 0 0).aligned.loadable = false
    ∧ ((opened .shut).unit pos).isFar 3 = true := by decide +kernel

def tile64 : Opnd := ⟨some .bf16, false, 64, 64, 0, 0, 128, 0, none⟩
def mmaRun : MmaFlight :=
  ⟨⟨0, 8, 0, 8, 0, none, none⟩, tile64, tile64, some .c16, 64, 16, 4, 0, 64, false, false, false, none, false⟩
def mmaFlight (m : MmaFlight) : Flight := { flight (.mma m) with slot := .m }

/-- Cycle 200 of the furrow in region 0. -/
def cycle200 (x : UnitS) : State := (working wired x).modRegion region fun r => { r with live := 200, cyc := 200 }

def promoting (m : MmaFlight) : State := cycle200 { UnitS.reset with
  flights := [mmaFlight m], groups := List.replicate 4 (group .open_) }

/-- MatrixGroupsFinish: a run that is due, of an open operation, of one left behind, of one issued into a SHUT group and
of one that has crossed a step boundary. -/
theorem test_runs_due : (∀ m ∈ [mmaRun, { mmaRun with late := true }, { mmaRun with dead := true },
      { mmaRun with crossed := true }], let s := promoting m
      s.carrier unit = some pos ∧ (s.region unit.region).suppressed = false
        ∧ (s.unit pos).nextRun (s.cycle unit.region) = some (mmaFlight m, m) ∧ (mmaFlight m).accs = [] ∧ m.base = none)
    ∧ mmaRun.next + 1 < mmaRun.runs := by decide +kernel

def closing (proof : Bool) (cells : List Chk) : State :=
  ((cycle200 { UnitS.reset with cmps := [⟨200, 1, proof, cells, 9, false, false⟩] }).wrFld (dreg .cdChkCfg 0) 1 0 1).modCluster
    unit.cluster fun c => { c with proof := some ⟨0, 1, [], true, false⟩ }

/-- A cell whose difference from its checksum is 1 where its terms are 0. -/
def offBy1 : Chk := ⟨1, 0, false⟩

/-- MatrixGroupsFinish: a comparison in its 24th cycle that agrees, and a proof that ends with its engine there; a
suppressed cycle; a proof that a step boundary has crossed. -/
theorem test_comparisons_due : ((closing false []).unit pos).dueCmp false ((closing false []).cycle unit.region)
      = some ⟨200, 1, false, [], 9, false, false⟩
    ∧ (closing false []).carrier unit = some pos ∧ (closing true []).carrier unit = some pos ∧ unit.alt = none ∧ (closing false []).checksOn unit.d = true
    ∧ ((closing true []).unit pos).dueCmp true ((closing true []).cycle unit.region) = some ⟨200, 1, true, [], 9, false, false⟩
    ∧ ((closing true []).clusterS unit.cluster).proof = some ⟨0, 1, [], true, false⟩
    ∧ ((closing true []).region unit.region).suppressed = false
    ∧ (((closing true []).modRegion region fun r => { r with suppressed := true }).region unit.region).suppressed = true
    ∧ ({ UnitS.reset with cmps := [⟨200, 1, true, [], 9, false, true⟩] } : UnitS).dueCmp true 200
      = some ⟨200, 1, true, [], 9, false, true⟩ := by decide +kernel

/-- MatrixGroupsFinish: terms that agree, and terms that do not (R467). -/
theorem test_comparisons : compareGroup ((closing false []).rdFld (dreg .cdChkCfg 0) 7 4) [] = (none, none, false)
    ∧ compareGroup ((closing false [offBy1]).rdFld (dreg .cdChkCfg 0) 7 4) [offBy1] = (some 0, some 0, false)
    ∧ ((closing false [offBy1]).unit pos).dueCmp false 200 = some ⟨200, 1, false, [offBy1], 9, false, false⟩ := by decide +kernel

def profile0 : DWord := 0
def guarded : DWord := 1 <<< 38
def writing (p : DWord) (done : Nat) : WFlight :=
  ⟨p, 0, 0, none, [], 1, 64, .bf16, tile64, tile64, done, false, false, 0, 0, false, false⟩
def written (w : WFlight) : State := cycle200 { UnitS.reset with flights := [{ flight (.write w) with slot := .w }] }

/-- WritesRun: a write that is due, of a plain profile, of a guarded one, and one that has crossed a step boundary. -/
theorem test_writes_due : (∀ w ∈ [writing profile0 200, writing guarded 200, { writing profile0 200 with crossed := true }],
      (written w).carrier unit = some pos ∧ ((written w).region unit.region).suppressed = false
        ∧ (((written w).unit pos).dueWrite ((written w).cycle unit.region)).map (·.2) = some w
        ∧ w.refused = false ∧ w.blank = false)
    ∧ (Profile.ofWord profile0).guard = false ∧ (Profile.ofWord guarded).guard = true := by decide +kernel

/-- Profile 0 writes BF16. -/
def writer : State := working wired { UnitS.reset with
  wtab := Memory.empty.write 0 [8], groups := List.replicate 4 (group .shut) }
def writeOp (srcg : Bool) : WriteOp := ⟨0, srcg, 8, 0, 8, 0, 0⟩

/-- WritesRun: a W.WRITE of a SHUT group and one of a scratchpad operand may issue. -/
theorem test_writes_launch : writer.issuer unit .w = some pos ∧ (writer.unit pos).wBusy ≤ writer.cycle unit.region
    ∧ (Profile.ofWord ((writer.unit pos).profileWord 0)).pair = false ∧ (writer.unit pos).isFar 8 = false
    ∧ (Profile.ofWord ((writer.unit pos).profileWord 0)).refused true ((writer.unit pos).opnd 8 0).aligned.tr 64 64 = false
    ∧ (Profile.ofWord ((writer.unit pos).profileWord 0)).refused false ((writer.unit pos).opnd 8 0).aligned.tr
      ((writer.unit pos).opnd 8 0).aligned.presented.1 ((writer.unit pos).opnd 8 0).aligned.presented.2 = false
    ∧ ((writer.unit pos).group 0).st = .shut
    ∧ ((writer.unit pos).opnd 8 0).aligned.fmt = some .bf16 ∧ Fmt.bf16.writerReads = true := by decide +kernel

/-- ProofSumOrderFree: two orders of the same values. -/
theorem test_orders : [Val.ofInt 1 0, Val.ofInt 5 (-3)].Perm [Val.ofInt 5 (-3), Val.ofInt 1 0] := List.Perm.swap _ _ []

/-! ### Moves and engines -/

def moveOp (l f : Fin 64) : MoveOp := ⟨l, 0, f, 0, 0, false, 0⟩

/-- MovesLaunch: far moves of one line from and to the cache, the stack, a send buffer, a receive buffer and a window,
and an X.ILOAD, in port cycles of the unit. -/
theorem test_far_moves : (fresh.unit pos).xBusy ≤ fresh.cycle unit.region
    ∧ (∀ e ∈ ([(3, .cache), (4, .hbm), (5, .send), (6, .recv), (7, .red)] : List (Fin 64 × Space)),
      ((fresh.unit pos).far e.1 0).any (fun f => f.space == e.2 && fresh.farAllowed unit.d f) = true)
    ∧ (∀ k ∈ [MoveKind.st, .send, .racc, .ld, .recv, .iload], k.stray (moveOp 0 0) = false)
    ∧ ((fresh.unit pos).opnd 0 0).fmt.isSome = true ∧ (fresh.unit pos).isFar 0 = false
    ∧ ((fresh.unit pos).opnd 0 0).moveLines ≠ [] ∧ ((fresh.unit pos).opnd 0 0).moveLines.length ≤ 64
    ∧ (∀ inb : Bool, ∀ n ∈ [1, 128], let e := if inb then (fresh.region unit.region).gear.edges (fresh.now + 600) + 1
        else (fresh.region unit.region).gear.edges fresh.now
      (fresh.unit pos).portHeld (fresh.region unit.region).gear inb e n = false
        ∧ fresh.portOwned unit.cluster (.unit 0) inb e n = true) := by decide +kernel

/-- MovesLaunch: local operands of 16 lines and of 2, and the command block of an X.ENG. -/
theorem test_local_moves : ((fresh.unit pos).xSource (moveOp 1 0)).map (·.moveLines.length) = some 16
    ∧ ((fresh.unit pos).xSource (moveOp 2 0)).map (·.moveLines.length) = some 2
    ∧ ((fresh.unit pos).xSource (moveOp 2 0)).map (·.gal) = some none
    ∧ (∀ k ∈ [MoveKind.push, .pop, .dtbl, .mon, .wtbl, .eng], k.stray (moveOp 2 0) = false)
    ∧ (fresh.unit pos).portHeld (fresh.region unit.region).gear false ((fresh.region unit.region).gear.edges fresh.now) 1
      = false ∧ fresh.portOwned unit.cluster (.unit 0) false ((fresh.region unit.region).gear.edges fresh.now) 1 = true
    ∧ (working forme .reset).portOwned unit.cluster (.unit 0) false 0 1 = false := by decide +kernel

def oneLine (k : MoveKind) : MoveFlight := move k [0]
def inFlight (m : MoveFlight) (c : Caught) : State :=
  later (working wired { UnitS.reset with flights := [{ flight (.move m) with caught := c }] }) 600
def lineBytes : List Byte := List.replicate 128 7
def caught : Caught := { Caught.start with lines := ⟨[((0, 0), lineBytes)]⟩ }
def sending : MoveFlight := { oneLine .send with far := some ⟨.send, 0, 0, 3, 0, 0⟩ }
def receiving : MoveFlight := { oneLine .recv with far := some ⟨.recv, 0, 0, 3, 0, 0⟩, checked := true }
def received : State := (inFlight receiving .start).setRecv ⟨3, 0, 0⟩ ⟨List.replicate 2560 3, none, []⟩

/-- MovesLand: the line of each kind of move, at the tick it lands. -/
theorem test_lines_land : ∀ m ∈ [oneLine .ld, oneLine .iload, oneLine .st, sending, receiving],
    let s := inFlight m caught
    s.carrier unit = some pos ∧ ((s.unit pos).flight 0).map (·.kind) = some (.move m) ∧ m.far.isSome = true
      ∧ m.next < m.total ∧ m.dead = false ∧ m.landTick (s.region unit.region).gear ≤ s.now ∧ m.gal = none
      ∧ m.own = true ∧ unit.alt = none := by decide +kernel

/-- MovesLand: what a load reads, what a store and a send take, what a receive takes. -/
theorem test_lines_bytes :
    ((inFlight (oneLine .ld) .start).farRead (.step unit.d) ⟨.cache, 0, 0, 0, 0, 0⟩ 0 .clean).2 = .data (List.replicate 128 0)
    ∧ (oneLine .iload).bank = !((inFlight (oneLine .iload) .start).unit pos).ctl.verso
    ∧ caught.lines.get? (0, 0) = some lineBytes
    ∧ ((inFlight (oneLine .st) caught).farWrite (.step unit.d) ⟨.cache, 0, 0, 0, 0, 0⟩ 0 lineBytes).2 ≠ .error
    ∧ (⟨.recv, 0, 0, 3, 0, 0⟩ : Far).bufId = some ⟨3, 0, 0⟩
    ∧ (((received.recvBuf ⟨3, 0, 0⟩).data.drop 0).take 128).length = 128 := by decide +kernel

def pushing : MoveFlight := { oneLine .push with far := none, gal := some 2 }
def tile : Caught := { Caught.start with lines := ⟨(List.range 16).map fun i => ((0, i), lineBytes)⟩ }
/-- A push whose last line has had its access, or is to have it in this cycle. -/
def pushed (own on waits : Bool) (n : Nat) : State :=
  (working (if on then { wired with galleys := [(unit, 0xFF)] } else wired) { UnitS.reset with
    flights := [{ flight (.move { pushing with own := own }) with
      caught := tile, accs := if waits then [⟨50, 15, some 2, 1, 15, .tile false⟩] else [] }]
    galleys := List.replicate 8 { Galley.reset with count := n } }).modRegion region fun r => { r with live := 50 }

/-- MovesLand: a whole tile for a galley that is on with 15 tiles, one that is full, and one that is off; one whose last
line is to have its access in this cycle; each of this step's move and of one that a step boundary has crossed. -/
theorem test_tiles_land : ∀ own : Bool, ∀ e ∈ [(true, false, 15), (true, false, 16), (false, false, 0), (true, true, 0)],
    let s := pushed own e.1 e.2.1 e.2.2
    s.carrier unit = some pos ∧ (s.region unit.region).suppressed = false
      ∧ (((s.unit pos).flight 0).bind fun f => (s.unit pos).nextTile f (s.cycle unit.region)).map (fun t => (t.1, t.2.1))
        = some (0, 2)
      ∧ ((s.unit pos).flight 0).map (fun f => (f.tileAccs 0).isEmpty) = some (!e.2.1)
      ∧ s.galleyOn unit 2 = e.1 ∧ ((s.unit pos).galley 2).count = e.2.2 := by decide +kernel

/-- A command block of the drill: SOW of rows of 64 BF16 elements to the indexes given. -/
def sowBlock (is : List Nat) : List Byte :=
  natLe 1 1 ++ natLe 1 8 ++ natLe 2 64 ++ natLe 2 is.length ++ natLe 2 1 ++ natLe 1 0 ++ List.replicate 55 0
    ++ (is.flatMap fun i => natLe 4 i ++ natLe 4 0) ++ List.replicate (64 - 8 * is.length) 0 ++ List.replicate 128 1

def handing : MoveFlight := { oneLine .eng with far := none, total := 2, lines := [0, 1] }
def arriving (b : List Byte) : State := (working wired { UnitS.reset with flights := [{ flight (.move handing) with
  caught := { Caught.start with lines := ⟨[((0, 0), b.take 128), ((0, 1), b.drop 128)]⟩ } }] }).modRegion region fun r =>
  { r with live := 50 }

/-- EngineCommandsRun: a whole block at a free engine, one that reads as a command and one that does not. -/
theorem test_blocks_arrive : ∀ b ∈ [sowBlock [5], List.replicate 256 9],
    let s := arriving b
    s.carrier unit = some pos ∧ ((s.unit pos).flight 0).any (fun f => f.accs.isEmpty && f.issue == 0) = true
      ∧ handing.kind = .eng ∧ (handing.total + 1) / 2 + 2 ≤ s.cycle unit.region ∧ s.partOf unit.d = some 0
      ∧ (s.region unit.region).suppressed = false ∧ (s.clusterS unit.cluster).engine false = none
      ∧ (((s.unit pos).flight 0).map fun f => (List.range 2).flatMap fun n => f.caught.lines.getD (0, n) zeroLine) = some b
      ∧ (parseBlock false (s.routes unit.cluster) b 0).isSome = (b.head? == some 1) := by decide +kernel

def noCmd : EngCmd := ⟨.sow, .bf16, 64, 128, [], [], 0, 0, 0, 0, 0, 0, 0, 0⟩
def engine (o : EngOp) (items : List Item) (made : Bool) : EngRun :=
  ⟨{ noCmd with op := o, items := items }, unit, pos, 0, 0, false, 0, 0, 10, made, [], none, [], none, []⟩
def drilling (e : EngRun) : State := (arriving []).modCluster unit.cluster fun x => { x with drill := some e }
def raking (e : EngRun) : State := (arriving []).modCluster unit.cluster fun x => { x with rake := some e }
def tabled : Forme := { wired with clusters := [⟨unit.cluster, [], [], [], [⟨true, 0, 0, 64, 128, 8, 64⟩], []⟩] }
/-- The rake with one table, and with a row on its way. -/
def rakes : State := (working tabled .reset).modCluster unit.cluster fun x => { x with
  rake := some (engine .gather [] false), fly := [⟨900, engine .pick [] true, .fetch 0, []⟩] }
/-- The drill with a row on its way out, in a forme that gives it no port cycle. -/
def turned : State := (working forme .reset).modCluster unit.cluster fun x => { x with
  drill := some { engine .sow [] true with
    cmd := { noCmd with rowBytes := 256 }, cur := some (.sow 0 0 0 0 lineBytes) } }
def item (i : Word) : Item := ⟨i, 0, 0⟩

/-- EngineCommandsRun: commands of both engines that have started, SOW of none, one and two items, a GATHER with and
without its table, a PICK with and without rows on their way, one at its last cycle, a busy engine, and a port cycle that
is another's. -/
theorem test_engines_run :
    (∀ e ∈ [engine .sow [] false, engine .sow [item 5] false, engine .sow [item 5, item 0xFFFFFFFF] false,
        engine .pack [] false, engine .drain [] false],
      ((drilling e).clusterS unit.cluster).drill = some e ∧ e.start ≤ (drilling e).cycle region
        ∧ (drilling e).clockOut (.region region) = false ∧ ((drilling e).region region).suppressed = false)
    ∧ (∀ e ∈ [engine .gather [] false, engine .pick [] false],
      ((raking e).clusterS unit.cluster).engine true = some e ∧ e.start ≤ (raking e).cycle region)
    ∧ ((drilling (engine .pack [] true)).clusterS unit.cluster).engine false = some (engine .pack [] true)
    ∧ (engine .pack [] true).start + (engine .pack [] true).occ ≤ (drilling (engine .pack [] true)).cycle region
    ∧ ((rakes.tablesOf unit.cluster).bind fun t => t.tables[noCmd.target]?).isSome = true
    ∧ (((raking (engine .gather [] false)).tablesOf unit.cluster).bind fun t => t.tables[noCmd.target]?) = none
    ∧ (rakes.clusterS unit.cluster).fly ≠ [] ∧ ((raking (engine .pick [] false)).clusterS unit.cluster).fly = []
    ∧ turned.engPort unit.cluster false false = false ∧ 2 * 0 + 1 < ({ noCmd with rowBytes := 256 } : EngCmd).rowLines
    ∧ fresh.dieClosed 0 = false ∧ ({ fresh with fen := { fresh.fen with dies := [0] } } : State).dieClosed 0 = true := by
  decide +kernel

/-! ### The update engine and reduction -/

def streamAt (off : Nat) (out : Bool) (fmt : Nat) : Stream := ⟨off, 0, out, true, 0, fmt, 1, 0⟩
/-- Eight rows of 64 BF16 elements in, and out. -/
def adam : Invocation := ⟨10, 0, 3, 0, 8, 64, 0, 64, [streamAt 0 false 8, streamAt 4096 true 8]⟩
def noOutput : Invocation := { adam with streams := [streamAt 0 false 8] }
def badProgram : Invocation := { noOutput with prog := 1 }
def badFormat : Invocation := { adam with streams := [streamAt 0 false 63, streamAt 4096 true 8] }
def uEnd : Word := uWord 63 0 0 0 0 0 false
def programs : List (List Word) :=
  [[uWord 11 0 0 0 0 0 false, uWord 1 1 0 0 0 0 false, uWord 12 0 1 0 0 1 false, uEnd], [0xFFFFFFFF]]

def redWindow (ring glean sp32 : Bool) : RedWindow := ⟨65536, 2, 1, 3, sp32, ring, glean, 0, 1, 100, 200, 0, 5⟩
def windows : List RedWindow :=
  [redWindow false false false, redWindow true false false, redWindow false true false, redWindow false false true]
def ringEnt (a : RingAction) (i : Nat) : RingEntry := ⟨0, 1, 2 + i, 0, 0, 1, 0, a, false, 1, 1, 0, 0, 4096, false⟩
def onDie0 (sch : List Invocation) (prog : List (List Word)) : FormeDie :=
  ⟨0, [], windows, [ringEnt .start 0, ringEnt .hop 1, ringEnt .end_ 2], sch, prog, 0, 1, [], 64⟩
def land (send : Bool) : LinkEntry := ⟨send, false, 4, .land, 3, 0, 0⟩
def reducing (sch : List Invocation) (prog : List (List Word)) : Forme := { forme with
  perDie := [onDie0 sch prog], patterns := [(0, [0, 0]), (1, [0, 0])]
  linkSlots := [⟨0, 0, 0, 1, land false⟩, ⟨1, 0, 0, 2, land true⟩, ⟨1, 0, 0, 3, land true⟩]
  fabric := [⟨.link 0, .die 0, [], 230, 16⟩, ⟨.die 0, .link 0, [], 230, 16⟩] }
def updating (v : Invocation) (u : UpdS) (t : Nat) : State :=
  later ((running (reducing [v] programs)).modDie 0 fun x => { x with upd := u }) t
def invRun (v : Invocation) (band : Nat) : InvRun := ⟨0, v, 10, 500, 0, band, 0, .empty, .empty, .empty, .empty, false⟩

/-- UpdatesRun: the next invocation at its START tick, good and refused; one that is over; U.END of the last band. -/
theorem test_updates_run :
    (∀ v ∈ [adam, badProgram], let s := updating v .reset 10
      s.running 0 = some 0 ∧ (s.die 0).upd.run = none ∧ ((s.formeDie 0).bind fun f => f.schedule[0]?) = some v
        ∧ v.start ≤ s.stepTick 0 ∧ s.invFurrow 0 v = s.now / 16384 ∧ s.clockOut (.uncore 0) = false ∧ s.dieClosed 0 = false
        ∧ v.streams.all Stream.fmtOk = true ∧ 8 ≤ v.rows)
    ∧ badFormat.streams.all Stream.fmtOk = false ∧ badFormat.progBad ((programs[0]?).getD []) = false
    ∧ ({ badFormat with prog := 1 } : Invocation).progBad ((programs[1]?).getD []) = true
    ∧ adam.progBad ((programs[0]?).getD []) = false ∧ badProgram.progBad ((programs[1]?).getD []) = true
    ∧ ((updating adam { UpdS.reset with run := some (invRun adam 1) } 500).die 0).upd.run = some (invRun adam 1)
    ∧ (invRun adam 1).ends ≤ 500 ∧ (invRun adam 1).inv.rows / 8 ≤ (invRun adam 1).band
    ∧ noOutput.streams.all (fun t => !t.en || !t.output) = true ∧ noOutput.rows / 8 ≤ 0 + 1
    ∧ (onDie0 [adam] programs).queueBytes ≠ 0 ∧ ({ onDie0 [adam] programs with queueBytes := 0 } : FormeDie).queueBytes = 0
    ∧ adam.hbmBytes = 0 ∧ ({ adam with streams := [{ streamAt 0 false 8 with space := 1 }] } : Invocation).hbmBytes ≠ 0 := by decide +kernel

/-- A state whose program is a word and U.END, the engine at the word. -/
def atWord (w : Word) : State :=
  later ((running (reducing [adam] [[w, uEnd]])).modDie 0 fun x => { x with
    upd := { UpdS.reset with run := some (invRun adam 0) } }) 20

def turns (w : Word) : Bool := ((atWord w).uAt 0).map (·.2) == some w

/-- UpdateWordsRun, UpdatesRun: each word of the program set at its turn. -/
theorem test_words : turns (uWord 1 3 1 2 0 0 false) = true ∧ turns (uWord 2 3 1 31 0 0 false) = true
    ∧ turns (uWord 3 15 1 2 0 0 false) = true ∧ turns (uWord 4 3 1 2 31 0 false) = true
    ∧ turns (uWord 5 3 1 2 0 0 false) = true ∧ turns (uWord 6 3 1 0 0 0 false) = true
    ∧ turns (uWord 7 3 1 0 0 0 false) = true ∧ turns (uWord 8 3 1 0 0 0 false) = true
    ∧ turns (uWord 9 3 1 0 0 0 false) = true ∧ turns (uWord 10 3 1 2 16 0 false) = true
    ∧ turns (uWord 11 3 0 0 0 7 false) = true ∧ turns (uWord 12 0 1 0 0 7 false) = true
    ∧ turns (uWord 13 0 1 0 0 0 false) = true ∧ turns uEnd = true := by decide +kernel

def reduced (r : RedS) (t : Nat) : State :=
  later ((running (reducing [] [])).modDie 0 fun x => { x with red := r }) t
def allOpen : RedS := { RedS.reset with opened := [0, 1, 2, 3] }
def allSealed : RedS := { RedS.reset with sealedW := [0, 1, 2, 3] }
/-- A block of 64 ones with scale 0x7F and one contribution. -/
def ones : RedBlock := ⟨List.replicate 64 1, 0x7F, false, false, 1⟩
def filled (s : State) (w : Nat) : State := match windows[w]? with
  | some x => (s.setRedBlock 0 x 0 ones).setRedBlock 0 x 1 ones
  | none => s

/-- ContributionsAdd: one row of 64 MX elements into an open window, into one that is not open, at the last place that
fits and one after it; a format that the window does not take; a block with room and one without. -/
theorem test_contributions : (reduced allOpen 150).dieClosed 0 = false
    ∧ (reduced allOpen 150).window 0 0 = some (redWindow false false false)
    ∧ Fmt.ofCode 32 = some (.mx false .e4m3) ∧ Fmt.ofCode 8 = some .bf16
    ∧ (redWindow false false false).takes false (.mx false .e4m3) = true ∧ (redWindow false false false).takes false .bf16 = false
    ∧ (reduced .reset 150).window 0 0 = some (redWindow false false false)
    ∧ (reduced allOpen 199).running 0 = some 0 ∧ (reduced allOpen 199).stepTick 0 < (redWindow false false false).sealAt
    ∧ 64 + (1 - 1) * 64 * 1 + 64 ≤ (redWindow false false false).blocks * 64
    ∧ ¬ (128 + (1 - 1) * 64 * 1 + 64 ≤ (redWindow false false false).blocks * 64)
    ∧ (reduced allOpen 150).isSown 0 0 = false
    ∧ ((filled (reduced allOpen 150) 0).redBlock 0 (redWindow false false false) 1).count < 256
    ∧ (((reduced allOpen 150).setRedBlock 0 (redWindow false false false) 0 { ones with count := 256 }).redBlock 0
      (redWindow false false false) 0).count = 256
    ∧ (ones.takeAll false false [List.replicate 64 (.ofInt 1 0, 127)]).2.2 = false
    ∧ (ones.takeAll false false [List.replicate 64 (.ofInt 300000 0, 127)]).2.2 = true
    ∧ ((reduced allOpen 150).blockServe 0 (redWindow false false false) 0 .adders).2 = true
    ∧ (((reduced allOpen 150).modDie 0 fun x => x.setWordBad 8192 2).blockServe 0 (redWindow false false false) 0 .adders).2
      = false := by decide +kernel

def queued (n : Nat) : AdderWork := ⟨0, 150, n, 0, [(0, List.replicate 64 (.ofInt 1 0, 127))]⟩

/-- ContributionsAdd: one contribution that the adders reach in this tick, the last byte of the tick included. -/
theorem test_adder_work : ∀ n ∈ [1, 1024], let s := reduced { allOpen with work := [queued n], owed := 1024 } 150
    (s.die 0).red.work = [queued n] ∧ (queued n).behind ≤ 1024 ∧ s.clockOut (.uncore 0) = false ∧ s.dieClosed 0 = false
      ∧ s.window 0 (queued n).window = some (redWindow false false false) := by decide +kernel

/-- ContributionsCommute: a block and two contributions of 64 elements. -/
theorem test_commute : ones.lines.length = 64 ∧ (List.replicate 64 (Val.ofInt 3 0, 127)).length = 64 := by decide

/-- A recto record of job 7 at step 0, good, with scales 0x80 and 0x81. -/
def withHistory (s : State) : State := s.modDie 0 fun x => { x with
  hbm := x.hbm.write 0 (natLe 4 7 ++ natLe 4 0 ++ natLe 2 0 ++ [1, 0, 0, 0, 0, 0, 0x80, 0x81]) }

/-- WindowsRun: at the OPEN tick, with a good history, without one, for an SP32 window, and for one that is open or sealed
already; at the SEAL tick, with and without a ring. -/
theorem test_windows_run :
    (reduced .reset 100).running 0 = some 0 ∧ (redWindow false false false).openAt ≤ (reduced .reset 100).stepTick 0
    ∧ (reduced .reset 100).clockOut (.uncore 0) = false ∧ (reduced .reset 100).dieClosed 0 = false
    ∧ ((reduced .reset 100).readHistory 0 0 (redWindow false false false)).histGood 0 0 = false
    ∧ ((withHistory (reduced .reset 100)).readHistory 0 0 (redWindow false false false)).histGood 0 0 = true
    ∧ (reduced .reset 100).window 0 3 = some (redWindow false false true)
    ∧ ((reduced allOpen 100).die 0).red.opened.contains 0 = true ∧ ((reduced allSealed 100).die 0).red.sealedW.contains 0 = true
    ∧ (∀ w ∈ [0, 1], let s := filled (reduced allOpen 200) w
      (s.die 0).red.opened.contains w = true ∧ s.isSown 0 w = false ∧ 200 ≤ s.stepTick 0
        ∧ ∀ k ∈ [0, 1], (windows[w]?).map (fun x => (s.redBlock 0 x k).count == x.expected && !(s.redBlock 0 x k).nan)
          = some true) := by
  decide +kernel

def block66 : List Byte := (RingBlock.cf8 0x7F 1 false (List.replicate 64 5)).bytes ++ List.replicate (2560 - 66) 0
def ringing (done : List Nat) : State :=
  (filled (reduced { allSealed with ringDone := done } 220) 1).setRecv ⟨0, 0, 3⟩ ⟨block66, some (slotValue 128, 0), []⟩

/-- RingEntriesRun: START, HOP and END entries of a sealed window with a received block of headroom 1 under the agreed
scale, and one that has run. -/
theorem test_ring : (∀ e ∈ [(0, RingAction.start), (1, .hop), (2, .end_)], let s := ringing []
      s.running 0 = some 0 ∧ s.ringEntry 0 e.1 = some (ringEnt e.2 e.1)
        ∧ s.window 0 (ringEnt e.2 e.1).window = some (redWindow true false false) ∧ s.clockOut (.uncore 0) = false
        ∧ s.dieClosed 0 = false ∧ (s.blockServe 0 (redWindow true false false) 0 .adders).2 = true
        ∧ (s.fabricWay 0 (.link (portLinkDie 0 0)) (.die 0)).2 = true
        ∧ ((later s 300).fabricWay 0 (.link (portLinkDie 2 0)) (.die 0)).2 = true
        ∧ (s.fabricWay 0 (.link 1) (.die 0)).2 = false
        ∧ (ringEnt e.2 e.1).count = 1 ∧ (s.die 0).red.ringDone.contains e.1 = false
        ∧ (s.die 0).red.sealedW.contains 1 = true)
    ∧ ((ringing [2]).die 0).red.ringDone.contains 2 = true
    ∧ (formCf8 ((ringing []).agreed 0 1 0) none ((ringing []).redBlock 0
        (redWindow true false false) 0) false).2 = false := by decide +kernel

/-- RingEntriesRun: the received block, under a scale that the window agrees to. -/
theorem test_ring_block :
    ((ringing []).ringRx 0 (ringEnt .hop 1)).map (fun b => RingBlock.parse false (b.take 66))
      = some (.cf8 0x7F 1 false (List.replicate 64 5))
    ∧ (ringing []).agreed 0 1 0 = 0x7F
    ∧ (formCf8 0x7F (some (0x7F, 1, false, List.replicate 64 5)) ((ringing []).redBlock 0 (redWindow true false false) 0)
      false).2 = false := by decide +kernel

/-- CarriedBlocksRoundTrip: a block at the ends of its ranges. -/
theorem test_carried : (255 < 256 ∧ 3 < 4) ∧ (List.replicate 32 (-128 : Int) ++ List.replicate 32 127).length = 64
    ∧ (∀ x ∈ List.replicate 32 (-128 : Int) ++ List.replicate 32 127, -128 ≤ x ∧ x ≤ 127)
    ∧ (List.replicate 64 (0xFFFF : Half)).length = 64 := by decide

def gleaning (copy : RedBlock) (done : List (Die × Nat × Nat)) : State :=
  filled (reduced { allSealed with copies := ⟨[((0, 2, 0), copy)]⟩, compared := done } 220) 2

/-- WindowsRun: a copy that is the owner's block, one that is not, and one that has been compared. -/
theorem test_gleans : (∀ e ∈ [(ones, true), ({ ones with count := 4 }, false)], let s := gleaning e.1 []
      s.running 0 = some 0 ∧ s.window 0 2 = some (redWindow false true false) ∧ s.clockOut (.uncore 0) = false
        ∧ gleaned (s.gleanLog 0) 0 (s.dieStep 0) = true ∧ s.ringAhead 0 2 0 = false ∧ (s.die 0).red.sealedW.contains 2 = true
        ∧ (s.die 0).red.ringCopies = [] ∧ (s.redBlock 0 (redWindow false true false) 0).count = 1
        ∧ (s.die 0).red.compared.contains (0, 2, 0) = false
        ∧ decide ((s.die 0).red.copies.get? (0, 2, 0) = some (s.redBlock 0 (redWindow false true false) 0)) = e.2)
    ∧ ((gleaning ones [(0, 2, 0)]).die 0).red.compared.contains (0, 2, 0) = true
    ∧ ((gleaning ones []).dieWay 0 (.die 0) (.die 0)).2 = true ∧ ((gleaning ones []).dieWay 0 (.die 0) (.die 1)).2 = false := by
  decide +kernel

/-! ### Memory and power -/

/-- A stack address that is in no refresh window at tick 0; address 0 is. -/
def farByte : Nat := 0x100000
def bytes64 : List Byte := List.replicate 64 9

/-- MemoriesAccess, MemoriesReadBack: an address that answers, with a clean symbol, one bad symbol and two, and one in its
bank's refresh window. -/
theorem test_stack : (running forme).powered = true ∧ (running forme).dieClosed 0 = false
    ∧ (running forme).clockOut (.hbm 0) = false ∧ (running forme).resolve 0 farByte = some (farByte, false)
    ∧ (running forme).resolve 0 0 = some (0, false)
    ∧ (running forme).refuses 0 farByte = false ∧ (running forme).refuses 0 0 = true ∧ bytes64.length = 64
    ∧ ((running forme).die 0).symsAt (((running forme).die 0).physical farByte) = 0
    ∧ (running forme).inPairs 0 farByte = false
    ∧ (((running forme).wr (dreg .cdPageBLo 0) 0x100000).wr (dreg .cdPageLenLo 0) 0x10000).inPairs 0 farByte = true := by decide +kernel

/-- MemoriesAccess, MemoriesReadBack: a cache line in a bank that is free and in one that is taken, a bad line and a
blank one, and the first offset beyond the cache. -/
theorem test_cache : (running forme).clockOut (.uncore 0) = false ∧ ((running forme).die 0).banks = []
    ∧ ((running forme).die 0).lineBad 1 = [] ∧ ((running forme).die 0).blanks.contains 1 = false
    ∧ ((((running forme).die 0).setWordBad 16 1).setWordBad 17 1).lineBad 1 = [(17, 1), (16, 1)]
    ∧ (((running forme).die 0).setWordBad 16 2).lineBad 1 = [(16, 2)] ∧ (Issuer.source .host 0).spread = true
    ∧ (∀ i ∈ [Issuer.host, .step 0, .step 1], ((((running forme).modDie 0 fun x => { x with banks := [(1, 6)] }).die 0).banks.any fun e =>
      e.1 == 128 / 128 % 64 && !((i.source 0).spread && e.2 == (i.source 0).rank)) = true)
    ∧ (0x0FFFFFFF < 0x10000000 ∧ 0x10000000 ≤ 0x10000000) := by decide +kernel

def banded (b : Nat) : State := (running forme).wrFld (dreg .hbmStat 0) 1 0 b

/-- StacksAreKept: a stack in each of its three bands; a scrub in its slot, at an address before the last and at the
last. -/
theorem test_stack_kept : (running forme).band 0 = 0 ∧ (banded 1).band 0 = 1 ∧ (banded 2).band 0 = 2
    ∧ (running forme).now / 16384 % (max ((running forme).rdFld (dreg .hbmCfg 0) 7 0) 1) = 0
    ∧ (running forme).tickIn < 128 ∧ (later (running forme) 128).tickIn = 128
    ∧ ((running forme).die 0).tempAt = none
    ∧ (((later (running forme) 128).modDie 0 fun x => { x with tempAt := some 128 }).die 0).tempAt = some (later (running forme) 128).elapsed
    ∧ (running forme).selfRefresh = false ∧ (running forme).now % 64 = 0
    ∧ (running forme).background 0 (·.scrubAt) = true ∧ (running forme).background 0 (·.calAt) = true
    ∧ (∀ n ∈ [0, 1], (later (running forme) (n * 8192)).interval = some n)
    ∧ (running forme).rdFld (dreg .hbmScrubPtr 0) 29 0 + 1 < 2 ^ 30
    ∧ ((running forme).wrFld (dreg .hbmScrubPtr 0) 29 0 (2 ^ 30 - 1)).rdFld (dreg .hbmScrubPtr 0) 29 0 + 1 = 2 ^ 30 := by
  decide +kernel

def copying (s : State) (done : Nat) : State := s.modDie 0 fun x => { x with copy := some ⟨3, 5, done, false⟩ }

/-- StacksAreKept: a copy with its last block to come and a whole one, on a die that is not armed and on one that is. -/
theorem test_pages : ((copying idle 1023).die 0).copy = some ⟨3, 5, 1023, false⟩ ∧ 1023 < 1024
    ∧ (later (copying idle 1023) 16384).scrubWindow 0 = false ∧ (later (copying idle 1023) 16384).background 0 (·.copyAt) = true
    ∧ ((copying idle 1023).die 0).symsAt (((copying idle 1023).die 0).physical (3 * 65536 + 1023 * 64)) = 0
    ∧ (copying idle 1024).dieArmed 0 = false ∧ (copying (running forme) 1024).dieArmed 0 = true
    ∧ ((copying idle 1024).die 0).remap = [] := by decide +kernel

def drooping (n : Nat) : State := (running forme).modRegion region fun r => { r with droop := some n }
def throttled (q band : Nat) : State :=
  let s := running forme
  ({ s with power := { s.power with qTemp := s.power.qTemp.set 0 q } }).wrFld (dreg .pwrTj 0) 27 26 band

/-- DiesAreGuarded: a region without a droop, with 7 good cycles and with 8; a die whose own cap and band are those of
the clauses. -/
theorem test_power : ((running forme).region region).droop = none ∧ ((running forme).region region).droopIn = none
    ∧ (running forme).edgeNow region = true ∧ ((later (running forme) 1).modRegion region fun r => { r with gear := .half }).edgeNow region
      = false
    ∧ (((running forme).modRegion region fun r => { r with droopIn := some 2 }).region region).droopIn = some 2
    ∧ ((drooping 7).region region).droop = some 7 ∧ ((drooping 8).region region).droop = some 8
    ∧ (((throttled 32 0).power.qTemp[(0 : Die).val]?).getD 0 = 32 ∧ ((throttled 33 0).power.qTemp[(0 : Die).val]?).getD 0 = 33)
    ∧ ((throttled 33 1).rdFld (dreg .pwrTj 0) 27 26 = 1 ∧ (throttled 33 2).rdFld (dreg .pwrTj 0) 27 26 = 2) := by
  decide +kernel

/-- DiesAreGuarded: the tick of the temperatures; a region that is wanted and is being switched on, and one that is not; the
input's voltages where the clauses meet. -/
theorem test_guards : (later (running forme) 12288).tickIn = 12288 ∧ idle.domainWanted region = true ∧ idle.powered = true
    ∧ ((idle.modRegion region fun r => { r with onDue := some 0 }).region region).onDue.isSome = true
    ∧ (idle.region region).onDue = none ∧ idle.power.mode ≠ .off ∧ ({ idle with power := { idle.power with mode := .off } } : State).power.mode = .off
    ∧ idle.partOf region.d = some 0 ∧ (6400 ≤ 6839 ∧ 6839 < 6840 ∧ 7560 < 7561 ∧ 7999 < 8000) := by decide +kernel

/-- R520: a proof runs a region one step below its full-gear voltage. -/
theorem test_proof_volts : let s := idle.wr (vtabReg region .full) 0x4050
    fld (s.rd (vtabReg region .full)) 7 0 = 80 ∧ fld ((s.proofOn region).region region).rail 7 0 = 79 := by decide +kernel

/-- EnergyAccounts: a partition without a die and one with die 0 alone. -/
theorem test_accounts : let s := idle.wr (dreg .cdPartition 1) 9
    s.partDies 3 = [] ∧ ((List.finRange 16).foldl (fun t d => t.wr (dreg .cdPartition d) (if d = 0 then 8 else 9)) idle).partDies 0
      = [0] := by decide +kernel

def latching (t n : Nat) : State := let s := later (running forme) t
  { s with power := { s.power with mode := .latched, latchOff := some n } }

/-- PowerLatches: a package that is on; one latched a furrow before the tick of LATCH_POWER_OFF, and at it. -/
theorem test_latches : (running forme).power.mode = .on ∧ (latching 9 10).power.latchOff = some 10 ∧ (latching 9 10).now < 10
    ∧ 10 ≤ (latching 10 10).now
    ∧ (running forme).fen.pend = [] ∧ (running forme).fen.pendRegions = [] ∧ ((running forme).die 0).copy = none := by decide +kernel

/-! ### Boundaries, verdicts and the links -/

def owed (s : State) (k : JobKind) : State := { s with host := { s.host with jobs := [⟨packet 0, k, 0⟩] } }
def atTime (s : State) (st : Nat) : State := s.wrFld (xreg .htStatus) 2 0 st
def armed (t : Nat) : State := (later (running forme) t).modPart 0 fun p => { p with running := false }

/-- BoundariesRun: off a boundary, at one, and without power. -/
theorem test_furrows : (later (running forme) 1).tickIn ≠ 0 ∧ (later (running forme) 16384).tickIn = 0
    ∧ (later (running forme) 16384).powered = true
    ∧ ({ idle with power := { idle.power with mode := .standby } } : State).powered = false := by decide +kernel

/-- BoundariesRun: a step that is over with a halt due, with one due a tick later, and a step that is not over; an armed
forme at its RUN_AT tick. -/
theorem test_steps :
    (∀ e ∈ [(32768, true), (32769, false)], let s := owed (later (running forme) 32768) (.haltAt e.1)
      (s.part 0).forme = some forme ∧ (s.part 0).running = true ∧ s.now = (s.part 0).stepStart + forme.length * 16384
        ∧ ((s.commit 0).part 0).haltOnBoundary = false ∧ (s.commit 0).haltDue 0 = e.2)
    ∧ (later (running forme) 32767).now ≠ 0 + forme.length * 16384
    ∧ (let s := atTime (owed (armed 32768) (.runAt 32768)) htLocked
      s.runAt? 0 = some 32768 ∧ s.now = 32768 ∧ (s.part 0).armed = true ∧ (s.part 0).running = false
        ∧ s.htState ≠ htLost ∧ s.htState ≠ htAcquire)
    ∧ (owed (later (running forme) 32768) (.haltAt 32768)).tickIn = 0
    ∧ (owed (later (running forme) 32768) (.haltAt 32768)).haltDue 0 = true
    ∧ (owed (later (running forme) 32768) (.haltAt 32768)).stepEnding 0 = some forme
    ∧ (let s := owed (later (running forme) 16384) (.haltAt 16384)
      s.tickIn = 0 ∧ s.haltDue 0 = true ∧ s.stepEnding 0 = none ∧ s.fen.pend = [] ∧ s.fen.pendRegions = []
        ∧ (s.die 0).copy = none) := by decide +kernel

def judged (f : Forme) (sum : Word) (held : Bool) : State := (later (running f) 24000).modPart 0 fun p =>
  { p with vdone := true, up := some ⟨sum, [], 0⟩, down := some ⟨sum, [], 0⟩, held := held }

/-- VerdictsAndCommits: a tick before the verdict, at it, and after it was taken; a clean commit, one that is not clean
under SKIP, and one that does not hold its verdict under HALT. -/
theorem test_verdicts :
    ((later (running forme) 19999).part 0).running = true ∧ ((later (running forme) 20000).part 0).vdone = false
    ∧ (later (running forme) 20000).now = 0 + forme.verdictAt ∧ forme.level = 0 ∧ forme.mirror = false ∧ forme.perDie = []
    ∧ (∀ e ∈ [(forme, (0 : Word), true), ({ forme with unclean := .skip }, 1, true),
        ({ forme with unclean := .halt }, 0, false)], let s := judged e.1 e.2.1 e.2.2
      (s.part 0).forme = some e.1 ∧ (s.part 0).running = true ∧ (s.part 0).commitDone = false
        ∧ (s.part 0).stepStart + e.1.commitAt ≤ s.now ∧ (s.part 0).vdone = true ∧ (s.part 0).up.isSome = true
        ∧ (s.part 0).down = some ⟨e.2.1, [], 0⟩ ∧ e.1.twinCompared = false ∧ (s.part 0).snaps.find? (·.runs) = none) := by decide +kernel

def suspected (s : State) (ord own : Nat) (done : Bool) : State :=
  { s.modPart 0 fun p => { p with ord := own, vdone := done } with susp := [⟨0, ord, 3, 5⟩] }

/-- EventsAndSpares: an event of the running step, of a later one and of an earlier one, before and after the verdict,
for a partition that waits for its RUN_AT and for one that is not armed. -/
theorem test_events : (∀ e ∈ [(3, 3, false), (3, 4, false), (4, 3, false), (3, 3, true), (3, 4, true)],
      let s := suspected (running forme) e.1 e.2.1 e.2.2
      s.susp[0]? = some ⟨0, e.1, 3, 5⟩ ∧ (s.part 0).armed = true ∧ (s.part 0).running = true ∧ (s.part 0).ord = e.2.1
        ∧ (s.part 0).vdone = e.2.2)
    ∧ ((suspected (armed 0) 0 0 false).part 0).armed = true ∧ ((suspected (armed 0) 0 0 false).part 0).running = false
    ∧ ((suspected idle 0 0 false).part 0).armed = false := by decide +kernel

/-- A unit whose fence waits for the step boundary, in the last furrow of a forme of four, with a program. -/
def replacing : Forme := { forme with
  length := 4, variants := [⟨.plain, .full, [], none, none, [⟨unit, natLe 4 7, natLe 4 9⟩]⟩] }
def sparing : State := let s := later (running replacing) 32768
  { s with fen := { s.fen with pend := [⟨pos, 16384⟩] } }

/-- EventsAndSpares: the unit's program goes into the lower of the two free spares. -/
theorem test_spares : (sparing.loadingFor region).findIdx? (· = unit) = some 0
    ∧ (sparing.freeSpares region)[0]? = some ⟨0, 0, 64⟩ ∧ sparing.partOf 0 = some 0
    ∧ (sparing.part 0).forme = some replacing ∧ (sparing.part 0).variant = 0
    ∧ (replacing.variants[0]?).map (fun v => (v.images.find? (·.unit = unit)).isSome) = some true := by
  decide +kernel

def entryOf (send cond : Bool) (k : RKind) : LinkEntry := ⟨send, cond, 4, k, 3, 0, 0⟩
/-- Lane 1 of port 3 in slot 5 of furrow 0: tick 640. -/
def linked (e : LinkEntry) : Forme := { forme with
  linkSlots := [⟨3, 1, 0, 5, e⟩], patterns := [(3, [0, 0])], claims := [⟨3, 7, 9, [0, 1, 2, 3], true⟩]
  fabric := [⟨.link 0, .die 0, [], 660, 16⟩], accums := [⟨0, 0, 0, 32, 1, 64⟩], caps := [⟨false, 0, 0, 0, 1, 12, 64⟩] }
def inSlot (e : LinkEntry) (t : Nat) : State := later (running (linked e)) t
def filledBuf (e : LinkEntry) (at_ : Nat) : State :=
  (inSlot e 650).setSend ⟨3, 1, 4⟩ ⟨[1, 2, 3], some (slotValue 640, at_), []⟩

/-- SlotsTravel: a slot that sends with its buffer filled in time, one with an empty buffer, a conditional one, a slot
that no entry fills, and a package that keeps silent. -/
theorem test_sends : (∀ c ∈ [false, true], let s := (filledBuf (entryOf true c .none) 607).ringLate 3 1
      s.inTramline (s.now / 128 * 128 % 16384) = false ∧ s.linkDead (laneOf 3 1).ld = false ∧ s.portSilent 3 = false
        ∧ s.spared (laneOf 3 1) = false ∧ s.linkOut (laneOf 3 1).ld = false
        ∧ (s.slotEntry 3 1 640).map (·.2.2) = some (entryOf true c .none)
        ∧ (s.sendBuf ⟨3, 1, 4⟩).sampled 640 = some (slotValue 640) ∧ (s.sendBuf ⟨3, 1, 4⟩).tag = some (slotValue 640, 607)
        ∧ 607 + 32 < 640 ∧ 640 < 609 + 32
        ∧ (((filledBuf (entryOf true c .none) 609).ringLate 3 1).sendBuf ⟨3, 1, 4⟩).sampled 640 ≠ some (slotValue 640)
        ∧ (((inSlot (entryOf true c .none) 650).ringLate 3 1).sendBuf ⟨3, 1, 4⟩).tag = none)
    ∧ (((inSlot (entryOf true false .none) 800).ringLate 3 1).slotEntry 3 1 768).isNone = true
    ∧ (((inSlot (entryOf true false .none) 650).modLinks fun k => { k with silenced := true }).ringLate 3 1).portSilent 3
      = true := by decide +kernel

/-- The port READY and its lane UP. -/
def lit (s : State) : State := (atTime (s.modPort 3 fun x => { x with delays := List.replicate 16 64, peerTimed := true }) htLocked).wrFld
  (lreg .ldLaneStat (laneOf 3 1)) 2 0 lnUp
def arrived (pcrc : Bool) (ticks : Nat) : RxSlot := ⟨640, true, 40960 + ticks,
  (SlotHead.mk 1 1 (slotValue 640 % 65536) 7 9 0 7).bytes [5, 6], if pcrc then [5, 6] else [5, 7]⟩

/-- SlotsTravel: a slot from the peer of the claim, on a lane that is UP, whole and with a bad payload check, for each
kind of receive entry, at the first and the last arrival of its window. -/
theorem test_receives : ∀ k ∈ [RKind.land, .none, .accum, .capacity], ∀ c ∈ [(true, 0), (false, 511), (true, 512)],
    let s := lit (inSlot (entryOf false false k) 650)
    let s1 := s.header 3 1 true 1
    let x := arrived c.1 c.2
    (s1.slotEntry 3 1 640).map (·.2.2) = some (entryOf false false k)
      ∧ ((linked (entryOf false false k)).peer 3).map (fun c => (c.peerNode, c.peerPort)) = some (7, 9)
      ∧ s1.peerBad 3 (SlotHead.read x.head) = false ∧ (s1.port 3).lost = [] ∧ x.isData = c.1
      ∧ (s1.fabricWay 0 (.link (portLinkDie 3 1)) (.die 0)).2 = true
      ∧ ((later s1 700).fabricWay 0 (.link 1) (.die 0)).2 = false
      ∧ s1.laneState (laneOf 3 1) = lnUp ∧ s1.ready 3 = true ∧ s1.spared (laneOf 3 1) = false
      ∧ s1.linkDead (laneOf 3 1).ld = false ∧ s1.linkOut (laneOf 3 1).ld = false ∧ s1.dieClosed 0 = false
      ∧ s1.links.silenced = false ∧ s1.links.framingOnly = false ∧ hcrcOk x.head = true ∧ pcrcOk x.head x.payload = c.1
      ∧ s1.rdFld (portReg .ldPortDelay 3 1) 23 0 = 0 ∧ 640 * 64 ≤ x.arrive ∧ (x.arrive < 640 * 64 + 8 * 64 ∨ c.2 = 512)
      ∧ SlotHead.read x.head = ⟨1, 1, slotValue 640 % 65536, 7, 9, 0, 7⟩
      ∧ (s.judgeSlot 3 1 x).2.map (fun e => e.2.2.2) = some (if c = (true, 0) then some [5, 6] else none) := by
  decide +kernel

/-- SlotsTravel: a capacity payload that is as its descriptor says, and one that is not. -/
theorem test_capacity : capGood ⟨false, 0, 0, 0, 1, 12, 64⟩ ([1, 0, 1, 12, 64, 0] ++ List.replicate 64 3) = true
    ∧ capGood ⟨false, 0, 0, 0, 1, 12, 64⟩ [5, 6] = false := by decide +kernel

def fabric : FabricSlot := ⟨.die 1, .die 0, [0, 1], 77, 0⟩
def meshed (t : Nat) : State := later (running { forme with fabric := [fabric] }) t

/-- LanesAndFabric: a slot at its tick, which a move has taken and which none has, a tick later, and one that the forme
does not schedule. -/
theorem test_fabric : (meshed 77).tickIn = fabric.tick ∧ (meshed 77).fabricOwner fabric = some 0 ∧ fabric.dst.die? = some 0
    ∧ ((meshed 77).part 0).filled.contains (fabric, (meshed 77).now) = false
    ∧ (((meshed 77).modPart 0 fun p => { p with filled := [(fabric, 77)] }).part 0).filled.contains (fabric, 77) = true
    ∧ fabric.src.isLink = false ∧ (FabricEnd.link 0).isLink = true
    ∧ (meshed 78).tickIn ≠ fabric.tick ∧ (later (running forme) 77).fabricOwner fabric = none := by decide +kernel

def lane : Lane := laneOf 3 1
def laneAt (st t : Nat) (x : LaneS) : State :=
  ((later (running forme) t).wrFld (lreg .ldLaneStat lane) 2 0 st).modLane lane fun _ => x

/-- LanesAndFabric: a lane in TRAIN after one and after two time-outs, in FAILED for 2^27 ticks, UP, with 62 and 63 bad
codewords behind it. -/
theorem test_lanes :
    (∀ st ∈ [lnTrain, lnFailed, lnUp], (laneAt st 5 .reset).laneState lane = st) ∧ (portOfLane lane).2 ≠ 0
    ∧ (∀ n ∈ [1, 2, 62, 63], ((laneAt lnTrain 5 { LaneS.reset with fails := n, badCw := n }).laneS lane).fails = n)
    ∧ ((laneAt lnFailed (2 ^ 27 + 5) { LaneS.reset with failedAt := 5 }).laneS lane).failedAt + 2 ^ 27
      ≤ (laneAt lnFailed (2 ^ 27 + 5) { LaneS.reset with failedAt := 5 }).elapsed
    ∧ (∀ t ∈ [50000004, 50000005, 50000006], ((laneAt lnTrain t { LaneS.reset with trainAt := 5 }).laneS lane).trainAt = 5
      ∧ (laneAt lnTrain t { LaneS.reset with trainAt := 5 }).elapsed = t)
    ∧ (laneAt lnUp 5 .reset).ldSpared lane = false := by decide +kernel

def note : Msg := ⟨.laneDown 3 1 5, 0, 0, 5⟩
def waiting (n : Nat) : Waiting := ⟨3, note, 4, n, 10⟩
def slipNote : Waiting := ⟨3, ⟨.slip 3 1 [⟨0, 1, 0, 1, 1⟩], 0, 0, 5⟩, 5, 0, 10⟩
def inTram (q : List Waiting) : State := lit ((later (running forme) 16384).modLinks fun k => { k with
  queue := q, acks := ⟨[(3, (List.range 33).map fun (i : Nat) => BitVec.ofNat 16 i)]⟩ })

/-- TramlinesTravel: a tramline with messages waiting, one sent seven times, and 33 acknowledgements; outside one; a
record on a lane that is UP. -/
theorem test_tramlines :
    (∀ s ∈ [inTram [waiting 0, slipNote, waiting 7]],
      s.links.framingOnly = false ∧ s.inTramline s.tickIn = true ∧ s.linkDead (portLinkDie 3 1) = false ∧ s.fw.pause = none
        ∧ s.host.streams = [] ∧ s.links.deal = [] ∧ (∀ w ∈ s.links.queue, w.port = 3 → w.sends < 8)
        ∧ (s.header 3 1 true 1).laneState (laneOf 3 1) = lnUp ∧ s.linkDead (laneOf 3 1).ld = false)
    ∧ (later (running forme) 200).inTramline (later (running forme) 200).tickIn = false := by decide +kernel

def tramHead (payload : List Byte) : List Byte := (SlotHead.mk 3 0 128 7 9 0 0).bytes payload
def tramRead (payload : List Byte) : RxTram := ⟨true, 5, tramHead payload, payload⟩
/-- Lane 0 of port 3 in ALIGN. -/
def aligned : State := (inTram []).wrFld (lreg .ldLaneStat (laneOf 3 0)) 2 0 lnAlign

/-- TramlinesTravel: a tramline of zeros whose header holds and one whose header fails; none of its records has been taken,
or this very one has; a payload without records and messages. -/
theorem test_tramline_arrives : let x := tramRead (zeros 64)
    let s := aligned.header 3 0 true (SlotHead.read x.head).lane
    aligned.linkDead (laneOf 3 0).ld = false ∧ aligned.links.framingOnly = false ∧ hcrcOk x.head = true
      ∧ pcrcOk x.head x.payload = true ∧ (SlotHead.read x.head).kind = 3 ∧ readBulk x.payload = none
      ∧ s.peerBad 3 (SlotHead.read x.head) = false
      ∧ (running { forme with claims := [⟨3, 7, 8, [0], true⟩] }).peerBad 3 (SlotHead.read x.head) = true
      ∧ s.carriesTram (laneOf 3 0) = true ∧ s.linkDead (laneOf 3 0).ld = false
      ∧ (s.port 3).taken ≠ some (SlotHead.read x.head).seq
      ∧ ((s.modPort 3 fun y => { y with taken := some 128 }).port 3).taken = some (SlotHead.read x.head).seq
      ∧ hcrcOk (zeros 31 ++ [1]) = false ∧ readTree x.payload = [] ∧ readMsgs x.payload = [] := by decide +kernel

/-- MessagesOnce: a number accepted before and one that was not; the third heartbeat missing and the fourth. -/
theorem test_messages :
    (((inTram []).modLinks fun k => { k with accepted := ⟨[(3, [4])]⟩ }).links.accepted.getD 3 []).contains 4 = true
    ∧ ((inTram []).links.accepted.getD 48 []).contains 4 = false
    ∧ ((inTram []).modTwin fun t => { t with missing := 2 }).links.twin.missing + 1 ≠ 4
    ∧ ((inTram []).modTwin fun t => { t with missing := 3 }).links.twin.missing + 1 = 4
    ∧ ((inTram []).modTwin fun t => { t with conflict := true }).links.twin.conflict = true
    ∧ (inTram []).twinModeBit = false ∧ ((inTram []).wrBit (xreg .twCfg) 0 true).twinModeBit = true
    ∧ (inTram []).rdFld (xreg .twStatus) 2 0 ≠ 3
    ∧ ((inTram []).wrFld (xreg .twStatus) 2 0 3).rdFld (xreg .twStatus) 2 0 = 3 := by decide +kernel

/-! ### Time, replays, registers -/

/-- An edge node in a state of the Hall Time base. -/
def inState (st t : Nat) (f : HtS → HtS) : State := (atTime (later idle t) st).modHt f

/-- The pulses of the frame of group 5, from tick `t0` on. -/
def framed (t0 n : Nat) : List EpochPulse := (frameFor (n * 2 ^ 20)).zipIdx.map fun (x, i) =>
  ⟨t0 + 16384 * i, if x = .zero then 64 else if x = .one then 128 else 256⟩

/-- HallTimeStates: the pulses of a group in LOCKED, each with its symbol; one that rises a tick early; none. -/
theorem test_pulses : (framed (5 * 2 ^ 20) 5).map (·.rise) = boundariesIn (5 * 2 ^ 20) (6 * 2 ^ 20)
    ∧ (∀ x ∈ framed (5 * 2 ^ 20) 5, x.sym = epochSymAt x.rise)
    ∧ (framed (5 * 2 ^ 20 - 1) 5).map (·.rise) ≠ boundariesIn (5 * 2 ^ 20) (6 * 2 ^ 20)
    ∧ ([] : List EpochPulse).map (·.rise) ≠ boundariesIn (5 * 2 ^ 20) (6 * 2 ^ 20)
    ∧ (⟨5 * 2 ^ 20, 64⟩ : EpochPulse).sym ≠ epochSymAt (5 * 2 ^ 20) := by decide +kernel

/-- HallTimeStates: each state of the base, with and without a good frame before, in its last tick and after it. -/
theorem test_hall_time : (∀ st ∈ [htAcquire, htLocked, htHoldover, htLost], (inState st 5 id).htState = st
      ∧ (inState st 5 id).edgeNode = true)
    ∧ frameOf (epochSyms []) = none ∧ (inState htAcquire 5 id).ht.frame = none
    ∧ frameOf (epochSyms (framed 0 5)) = some 5 ∧ frameOf (epochSyms (framed 3 5)) = some 5
    ∧ (inState htAcquire 5 fun h => { h with frame := some 4 }).ht.frame = some 4
    ∧ (∀ n ∈ [2, 3], (inState htHoldover 16384 fun h => { h with returnRun := n, lastFurrow := some 0 }).ht.returnRun = n)
    ∧ (inState htHoldover 16384 id).furrow = 1 ∧ 0 + 1 = 1 ∧ (1 : Nat) ≠ 0
    ∧ (inState htHoldover (64 * 16384) id).ht.since + 64 * 16384 ≤ (inState htHoldover (64 * 16384) id).now
    ∧ (inState htLost 16384 id).ht.since + 16384 ≤ (inState htLost 16384 id).now := by decide +kernel

def gearing (now at_ : Nat) (g : Gear) : State := owed (later (running forme) now) (.gearAt at_ g)

/-- GearsAndClocks: a change one furrow ahead and one tick more, at its tick and a tick early, down from the full gear and
up from a half; the falls of the voltage on either side of their tick. -/
theorem test_gears : (∀ n ∈ [16383, 16384, 32767, 32768], (gearing n 32768 .half).nextGear 0 = some (32768, .half)
      ∧ (gearing n 32768 .half).now = n)
    ∧ ((gearing 16384 32768 .full).wrFld (preg .htGear 0) 1 0 2).gearOf 0 = .half
    ∧ ((gearing 0 0 .half).region region).proving = false
    ∧ Gear.full.code < Gear.half.code ∧ 32768 ≤ 16384 + 16384 ∧ 16383 + 16384 < 32768
    ∧ (gearing 32768 32768 .full).gearHasVariant 0 .full = true ∧ forme.follow .half ((gearing 0 0 .half).part 0).promos = none
    ∧ (((running forme).modPart 0 fun p => { p with gearDown := true }).part 0).gearDown = true
    ∧ ((later (running forme) 16384).part 0).gearAt + 16384 ≤ (later (running forme) 16384).now
    ∧ (later (running forme) 16383).now < ((later (running forme) 16383).part 0).gearAt + 16384 := by decide +kernel

def losing (l : List ClkDom) : State := { idle with power := { idle.power with clkLost := l } }

/-- GearsAndClocks, DiesAreGuarded: a domain that is locked and one that is not; a region that is wanted and one that is
not. -/
theorem test_clocks : (losing []).power.clkLost.contains (.hbm 0) = false
    ∧ (losing [.hbm 0]).power.clkLost.contains (.hbm 0) = true
    ∧ idle.domainWanted region = true ∧ idle.powered = true
    ∧ ({ idle with fen := { idle.fen with regions := [region] } } : State).domainWanted region = false := by decide +kernel

def entry : ReplayEntry := ⟨region, unit, false, 3, false, 40, 2, 0x8000⟩
def replaying : Forme := { forme with replay := [entry], mailbox := [(region, 0x4000)], guests := [region] }
def mailed (p : List ProvEv) (rs : List ReplayRun) : State := let s := running replaying
  ({ s.modDie 0 fun x => { x with cache := x.cache.write 0x4000 (List.replicate 128 0) } with
    prov := p, replays := rs }).modRegion region fun r => { r with cyc := 100, live := 100 }
def event : ProvEv := ⟨unit, 3, false, false⟩
def spare (n : Fin 66) : PU := ⟨0, 0, n⟩
def replay (n : Fin 66) (on : Bool) : ReplayRun := ⟨spare n, entry, unit, 100, on, false, false⟩

/-- ReplaysRun: a request for unit 0's first entry, with its event standing and without, with both spares idle, one and
none; a spare whose cycle has come; the twin's request for a guest region. -/
theorem test_replays : (∀ s ∈ [mailed [event] [], mailed [] [], mailed [event] [replay 64 true, replay 65 true]],
      s.running region.d = some 0 ∧ s.formeOn region.d = some replaying ∧ (s.die region.d).blanks = []
        ∧ replayRequest ((s.die region.d).cache.bytes (0x4000 / 128 * 128) 128) = (0, 0))
    ∧ replaying.mailbox.find? (·.1 = region) = some (region, 0x4000) ∧ (replaying.replayOf region)[0]? = some entry
    ∧ entry.unit.n.val = 0 ∧ (mailed [event] []).idleSpares region = [spare 64, spare 65]
    ∧ (mailed [event] [replay 64 true, replay 65 true]).idleSpares region = []
    ∧ (mailed [event] [replay 64 false]).replays.find? (fun e => e.spare = spare 64 && !e.running) = some (replay 64 false)
    ∧ (mailed [event] [replay 64 false]).regionIssues region = true ∧ (mailed [event] [replay 64 false]).cycle region = 100
    ∧ replaying.guests.contains region = true ∧ replayRequest (List.replicate 128 0) = (0, 0) := by decide +kernel

def proving (f : Forme) (t : Nat) : State := (owed (later (running f) t) (.arm 1000)).modPart 0 fun p =>
  { p with running := false, proofUntil := some 1000 }
def fielded (t : Nat) : State := owed (later idle t) (.fieldProof 0xFFFF 1000 [⟨0, 0, 64⟩])
def blocked (t : Nat) : State := let s := owed (later idle t) .block
  { s with fw := { s.fw with block := some ⟨2, 1, 5⟩ }, fen := { s.fen with lds := [1] } }

/-- ProofsEnd: each proof a tick before its end and at it; a forme that fits and one that needs a unit that no position
carries. -/
theorem test_proofs : (∀ t ∈ [999, 1000], ((proving forme t).part 0).proofUntil = some 1000
      ∧ ((proving forme t).part 0).forme = some forme ∧ (proving forme t).now = t
      ∧ (fielded t).elapsed = t ∧ (fielded t).host.jobs = [⟨packet 0, .fieldProof 0xFFFF 1000 [⟨0, 0, 64⟩], 0⟩])
    ∧ ((proving forme 1000).modPart 0 fun ps => { ps with proofUntil := none }).fits forme = true
    ∧ (((proving { forme with needs := [unit] } 1000).wr (ureg .tuImpose unit) 127).modPart 0 fun ps => { ps with
      proofUntil := none }).fits { forme with needs := [unit] } = false
    ∧ (blocked (5 + 64 * 16384)).fw.block = some ⟨2, 1, 5⟩ ∧ 5 + 64 * 16384 ≤ (blocked (5 + 64 * 16384)).elapsed := by
  decide +kernel

/-- RegisterWrites, RegisterReads: a host that may reach a register and one whose word is no register; a quoin that is
latched and one that is open; a JTAG write refused in Production. -/
theorem test_register_writes : idle.busDead .host = false ∧ idle.allows .host (xreg .htSetHi).addr true = true
    ∧ regAt ((xreg .htSetHi).addr / 4 * 4) = some (xreg .htSetHi) ∧ regAt (0x3FFFFFF / 4 * 4) = none
    ∧ hostWords (xreg .htSetHi) = true ∧ (xreg .htSetHi).name.info.wq = 0
    ∧ regAt ((xreg .secFuseData).addr / 4 * 4) = some (xreg .secFuseData) ∧ (xreg .secFuseData).name.info.wq ≠ 0
    ∧ ((idle.wr (xreg .secQuoin) 0x7F).noteDebug .host true).rdBit (xreg .secQuoin)
      (xreg .secFuseData).name.info.quoin = true
    ∧ (idle.noteDebug .host true).rdBit (xreg .secQuoin) (xreg .secFuseData).name.info.quoin = false := by decide +kernel

/-- RegisterReads: a plain register, the two halves of a pair, with a copy of the high half kept and without; a debug
requester and one that is none. -/
theorem test_register_reads :
    (∀ r ∈ [dreg .hbmUeCnt 0, xreg .htNowLo, xreg .htNowHi], idle.allows .host r.addr false = true
      ∧ regAt (r.addr / 4 * 4) = some r)
    ∧ (dreg .hbmUeCnt 0).name.high = none ∧ (dreg .hbmUeCnt 0).name.isHigh = false
    ∧ (xreg .htNowLo).name.high = some .htNowHi ∧ (xreg .htNowHi).name.isHigh = true
    ∧ ((idle.setShadow .host (xreg .htNowHi).addr (some 9)).noteDebug .host false).shadow .host (xreg .htNowHi).addr = some 9
    ∧ (idle.noteDebug .host false).shadow .host (xreg .htNowHi).addr = none
    ∧ idle.busDead .firmware = false
    ∧ idle.allows .host (dreg .hbmUeAddrHi 0).addr false = true ∧ idle.allows .host (xreg .secAccessAddr).addr false = true
    ∧ (idle.noteDebug .host false).shadow .host (dreg .hbmUeAddrHi 0).addr = none ∧ idle.allows .firmware (xreg .htNowLo).addr false = true := by decide +kernel

/-- RegisterReads, RegisterWrites: the names of the clauses are different registers. -/
theorem test_registers_differ : (dreg .cdStep 0).name ≠ .pwrTj ∧ (dreg .cdStep 0).name ≠ .hbmTemp
    ∧ dreg .cdReact 0 ≠ dreg .cdReact 1 := by decide

/-- A partition free of armed formes, and one that has one. -/
def quiet : State := (later idle 0).wr (dreg .cdPartition 0) 8
def loud : State := running forme

/-- TypedWrites: every register of the clauses lets a host's write through, on a package with nothing armed and on one
with a forme armed. -/
theorem test_typed_writes : ∀ r ∈ [xreg .htSetLo, xreg .htConfig, xreg .htNodeId, dreg .cdPartition 0, ureg .tuImpose unit,
      vtabReg region .full, xreg .secQuoin, xreg .secDebugCtl, ⟨.ldSpareLo, 1, 0, 0⟩, ⟨.ldSpareHi, 1, 0, 0⟩, dreg .hbmCfg 0,
      tgReg .tgCtl 0 5],
    idle.allows .host r.addr true = true ∧ regAt (r.addr / 4 * 4) = some r
      ∧ (r.name.info.wq = 0 ∨ (idle.noteDebug .host true).rdBit (xreg .secQuoin) r.name.info.quoin = false) := by
  decide +kernel

/-- TypedWrites: the values at which the clauses part. -/
theorem test_typed_values : (atTime idle htFree).htState = htFree ∧ (atTime idle htLocked).htState ≠ htFree
    ∧ (idle.noteDebug .host true).anyArmed = false ∧ (loud.noteDebug .host true).anyArmed = true
    ∧ (idle.noteDebug .host true).dieArmed 0 = false ∧ (loud.noteDebug .host true).dieArmed 0 = true
    ∧ fld (2 : Word) 1 0 ≠ 3 ∧ fld (3 : Word) 1 0 = 3 ∧ fld (65 : Word) 6 0 < 66 ∧ fld (127 : Word) 6 0 = 127
    ∧ (66 ≤ fld (66 : Word) 6 0 ∧ fld (126 : Word) 6 0 ≠ 127)
    ∧ (idle.noteDebug .host true).unitFallow ⟨0, 0, 65⟩ = false ∧ (idle.noteDebug .host true).carried ⟨0, 0, 65⟩ = none
    ∧ (fld (0x0505 : Word) 7 0 ≤ fld (0x0505 : Word) 15 8 ∧ fld (0x0605 : Word) 15 8 > fld (0x0605 : Word) 7 0)
    ∧ fld (0x101 : Word) 7 0 ≠ 0 ∧ fld (0x100 : Word) 7 0 = 0 ∧ bit (0x4 : Word) 7 = false ∧ fld (setBit (0x4 : Word) 6 true) 4 2 < 5
    ∧ ((idle.wr (tgReg .tgLen 0 5) 1).noteDebug .host true).rdFld (tgReg .tgLen 0 5) 25 0 = 1
    ∧ ((idle.wr (tgReg .tgLen 0 5) 0x2000000).noteDebug .host true).rdFld (tgReg .tgLen 0 5) 25 0 = 2 ^ 25
    ∧ (idle.noteDebug .host true).rdBit (tgReg .tgCtl 0 5) 9 = false := by decide +kernel

def generating (mode : Nat) : State :=
  (((idle.wr (tgReg .tgLen 0 5) 1).wrBit (tgReg .tgCtl 0 5) 9 true).wrFld (tgReg .tgCtl 0 5) 1 0 mode)

/-- GeneratorsAndFuses: a generator at rest, one that runs a pass and one that goes on for ever. -/
theorem test_generators : idle.rdBit (tgReg .tgCtl 0 5) 9 = false ∧ (generating 3).rdBit (tgReg .tgCtl 0 5) 9 = true
    ∧ (generating 3).dieArmed 0 = false ∧ (running forme).dieArmed 0 = true
    ∧ ((generating 3).tgPass 0 5 1).rdFld (tgReg .tgCtl 0 5) 1 0 = 3
    ∧ ((generating 1).tgPass 0 5 1).rdFld (tgReg .tgCtl 0 5) 1 0 ≠ 3
    ∧ ((generating 1).noteDebug .host true).rdBit (tgReg .tgCtl 0 5) 9 = true
    ∧ idle.allows .host (tgReg .tgCtl 0 5).addr true = true := by decide +kernel

def inGrade (g : Nat) : State := { idle.wr (xreg .secState) (BitVec.ofNat 32 g) with sec := { idle.sec with fused := g } }

/-- GeneratorsAndFuses: Manufacturing and Owner-Debug, with the FUSE quoin open; a programming under way and none. -/
theorem test_fuses : ((inGrade 0).noteDebug .host true).secState = 0 ∧ ((inGrade 2).noteDebug .host true).secState ≠ 0
    ∧ (∀ g ∈ [0, 2], (inGrade g).allows .host (xreg .secFuseCtl).addr true = true
      ∧ ((inGrade g).noteDebug .host true).rdBit (xreg .secQuoin) (xreg .secFuseCtl).name.info.quoin = false
      ∧ ((inGrade g).noteDebug .host true).rdBit (xreg .secFuseCtl) 13 = false ∧ (inGrade g).busDead .host = false)
    ∧ ({ idle with sec := { idle.sec with progDue := some (3, 0xF0) } } : State).sec.progDue = some (3, 0xF0)
    ∧ ({ idle with sec := { idle.sec with progDue := none } } : State).sec.progDue = none := by decide +kernel

/-- FramesRoundTrip: a copy that fits its source exactly, and a window and a buffer record at the ends of their ranges. -/
theorem test_tables_read : runDelta [1, 2, 3] 2 (1 :: (natLe 4 1 ++ natLe 4 2 ++ [0])) [9] = some [9, 2, 3]
    ∧ (let w : RedWindow := { redWindow true true false with
        lines := 256, blocks := 2 ^ 20, expected := 256, openAt := 100, sealAt := 101, floor := 0xFE }
      w.lines % 256 = 0 ∧ w.blocks ≤ 2 ^ 20 ∧ w.expected ≤ 256 ∧ w.openAt < w.sealAt ∧ w.floor ≤ 0xFE)
    ∧ ((48 : Nat) ≤ 48 ∧ 7 < (if (48 : Nat) = 48 then 8 else 4)) := by decide +kernel

/-! ### Resets, firmware and the host's commands -/

/-- The package with its power in a mode and a stage of its boot. -/
def poweredAs (m : PowerMode) (g : BootStage) (brown : Bool) : State := let s := later (running forme) 16384
  { s with power := { s.power with mode := m, stage := g, brownOut := brown } }

/-- ResetsTake: a package that is on and in Standby, held by PERST_N, off, and after a brown-out. -/
theorem test_resets : (poweredAs .on .done false).power.mode = .on ∧ (poweredAs .on .done false).power.brownOut = false
    ∧ (poweredAs .standby .perst false).power.mode = .standby ∧ (poweredAs .standby .perst false).power.stage = .perst
    ∧ (poweredAs .off .perst false).power.mode = .off ∧ (poweredAs .standby .perst true).power.brownOut = true := by
  decide +kernel

def bootAt (g : BootStage) (src : Fin 4) (imgs : List (List Byte)) : State := { State.reset with
  power := { PowerS.reset with stage := g }
  straps := { State.reset.straps with bootSrc := src }
  fw := { State.reset.fw with active := false, images := imgs, sound := [true, true] } }

/-- BootRuns: the firmware stage with no image in either slot; the quoins stage. -/
theorem test_boot : (let s := bootAt .firmware 0 []
      s.booting = true ∧ s.pending = [] ∧ s.power.stage = .firmware ∧ s.straps.bootSrc ≠ 1 ∧ s.straps.bootSrc ≠ 2
        ∧ s.fw.slotOk s.fw.active = false ∧ s.fw.slotOk (!s.fw.active) = false)
    ∧ (bootAt .quoins 0 []).booting = true ∧ (bootAt .quoins 0 []).power.stage = .quoins := by
  decide +kernel

/-- BootRuns: an image that passes the checks, which ask what no state settles, in the active slot, or in the other alone. -/
theorem test_boot_slots (b : List Byte) (hb : b ≠ []) (h : imageFault b = none) :
    (bootAt .firmware 0 [b, []]).fw.slotOk false = true ∧ (bootAt .firmware 0 [[], b]).fw.slotOk false = false
    ∧ (bootAt .firmware 0 [[], b]).fw.slotOk true = true := by
  simp [bootAt, FwS.slotOk, hb, h]

/-- An image container of zeros with its magic word and its version (R627). -/
def container : List Byte := natLe 4 0x465A5753 ++ natLe 4 1 ++ List.replicate 88 0

/-- BootRuns: a loader that hears the host, a container whose format fails, an image staged and none. -/
theorem test_loader : let s := bootAt .loader 1 []
    s.power.stage = .loader ∧ s.power.mode = .standby ∧ s.loaderHears (.host 0) = true ∧ 0 + container.length ≤ 2 ^ 24
      ∧ (s.stage 1 container).imageCheck = .fails 5 ∧ (s.stage 0 container).fw.containerOk = true
      ∧ (s.stage 0 container).fw.deltaBase = none ∧ s.rdBit (xreg .rstFw) 2 = false ∧ (s.wrBit (xreg .rstFw) 2 true).rdBit (xreg .rstFw) 2 = true := by
  decide +kernel

/-- Flash slot 0 active, its settings in format 3. -/
def flashed : State := { idle with fw := { idle.fw with active := false, format := 3 } }
def checking : State := (owed (flashed.wrBit (xreg .rstFw) 3 true) .fwCheck).stage 0 container

/-- BootRuns, FirmwareRestarts: a container that opens, which no state settles, onto a body that passes or fails. -/
theorem test_check (s : State) (b : List Byte) (hc : s.fw.containerOk = true) (ho : s.fw.opened = some b)
    (hd : s.fw.deltaBase = none) (d : Option Nat) (h : imageFault b = d) :
    s.imageCheck = match d with
      | some n => .fails n
      | none => .passes b := by
  cases d <;> simp [State.imageCheck, FwS.check, FwS.yields, hc, ho, hd, h]
def trying (t : Nat) : State := let s := later flashed t
  { s with fw := { s.fw with trialFrom := some 7, trial := true } }

/-- FirmwareRestarts: an image under check that passes and one that fails; a trial in its last tick and over, with the
settings' format and with another; a package that neither pauses nor resets. -/
theorem test_firmware : checking.rdBit (xreg .rstFw) 3 = true ∧ checking.power.mode = .on ∧ checking.fw.warm = none
    ∧ checking.fw.containerOk = true ∧ flashed.fw.containerOk = false
    ∧ (flashed.stage 0 (natLe 4 0x445A5753 ++ natLe 4 1 ++ List.replicate 88 0)).fw.deltaBase = some (List.replicate 16 0)
    ∧ idle.rdBit (xreg .rstFw) 3 = false
    ∧ (trying 250000006).fw.trialFrom = some 7 ∧ (trying 250000006).elapsed < 7 + 250000000
    ∧ 7 + 250000000 ≤ (trying 250000007).elapsed ∧ flashed.fw.format ≠ 4 ∧ settingDefault 1 = some 921600
    ∧ idle.fw.pause = none ∧ idle.fw.warm = none
    ∧ ({ idle.fw with pause := some 0 } : FwS).pause.isSome = true := by decide +kernel

/-- A packet of host slot 2 that is due at a tick. -/
def due (t : Nat) : Req := { packet 0x0203 with at_ := some t }
def taking (s : State) (q : Req) : State := ((s.opens).getD s).taken q

theorem collects_of {s : State} {q : Req} (ho : s.opens.isSome = true) (hq : q.src.isSideband = false)
    (hs : (taking s q).rdBit (xreg .secState) 4 = false) : s.collects q (taking s q) := by
  obtain ⟨t, ht⟩ := Option.isSome_iff_exists.1 ho
  exact ⟨t, ht, by rw [taking, ht, Option.getD_some], hq, hs⟩

/-- Die 0 alone in partition 0, at a furrow boundary, with its regions on. -/
def alone (s : State) : State := later ((allDies.drop 1).foldl (fun s d => s.wr (dreg .cdPartition d) 9)
  (([0, 1, 2, 3] : List (Fin 4)).foldl (fun s r => s.wrBit (rreg .pwrRegionStat ⟨0, r⟩) 4 true) s)) 16384
def bare : State := alone idle
def busy : State := alone (running forme)
/-- A forme loaded, and armed or not, and a base that keeps time or has lost it. -/
def loaded (f : Forme) (arm : Bool) (st : Nat) : State := atTime (bare.modPart 0 fun p => { p with forme := some f, armed := arm }) st

/-- The premise of every host command's statement: a furrow boundary of a package that is on. -/
theorem test_collects : bare.collects (packet 0) (taking bare (packet 0)) ∧ bare.collects (due 81920) (taking bare (due 81920))
    ∧ busy.collects (packet 0) (taking busy (packet 0)) :=
  ⟨collects_of (by decide +kernel) rfl (by decide +kernel), collects_of (by decide +kernel) rfl (by decide +kernel),
    collects_of (by decide +kernel) rfl (by decide +kernel)⟩

def aside : Req := { packet 0x0201 with src := .sideband 3 }
def scanning : State := bare.wrBit (xreg .secState) 4 true

/-- CommandsAreJudged: a time at which nothing is collected; a command of the sideband that it may not send; a scan; a
time command without AT; a command whose AT is to come, and one whose AT is now; a SETTINGS_GET in a scan. -/
theorem test_judged : (later bare 5).opens.isNone = true ∧ (later bare 5).lowPower = false
    ∧ (aside.src.isSideband && !(Cmd.runAt.onSideband aside.op && Cmd.runAt.sidebandOk)) = true
    ∧ scanning.opens.isSome = true ∧ (taking scanning (packet 0)).rdBit (xreg .secState) 4 = true
    ∧ (Cmd.fieldProof 3).inScan = false ∧ (Cmd.settingsGet 1).inScan = true ∧ Cmd.runAt.timeOk (packet 0) = false
    ∧ Cmd.runAt.timed = true ∧ Cmd.runAt.timeOk (due 16385) = true ∧ (Cmd.fieldProof 3).timed = false
    ∧ (taking bare (due 16385)).now = 16384 ∧ hostCommand (.fieldProof (packet 0x0401) 3) = some (packet 0x0401, .fieldProof 3) :=
  by decide +kernel

/-- CommandsAreJudged: the ranges of the statement, and a message of the sideband that waits for its reply. -/
theorem test_replies : 65535 < 2 ^ 16 ∧ (List.replicate 4096 (6 : Byte)).length ≤ 4096
    ∧ ({ idle with sb := { idle.sb with slots := idle.sb.slots.set 3 (some ⟨4, [1], true⟩) } } : State).sb.slots[3]?
      = some (some ⟨4, [1], true⟩) := by decide +kernel

/-- A forme that passes FORME_LOAD: a cold variant for its base. -/
def loadable : Forme := { forme with variants := forme.variants ++ [⟨.cold, .full, [], none, none, []⟩] }

/-- FormesAreLoaded: a partition without dies, one with a forme armed, one without; formes that pass and fail the checks; a
partition with a forme loaded that is armed or not, regions on and off, a base that keeps time and one that does not; few
packages and more than 64. -/
theorem test_formes : (taking (bare.wr (dreg .cdPartition 0) 0) (packet 0)).partDies 0 = [] ∧ (taking bare (packet 0)).partDies 0 = [0]
    ∧ ((taking busy (packet 0)).partDies 0).any (taking busy (packet 0)).dieArmed = true
    ∧ ([0] : List Die).any (taking bare (packet 0)).dieArmed = false
    ∧ ((taking bare (packet 0)).unload 0).loadCheck 0 loadable = none
    ∧ (((taking bare (packet 0)).unload 0).loadCheck 0 forme).isSome = true
    ∧ ((taking bare (packet 0)).part 0).forme = none ∧ (taking (loaded forme false htLocked) (packet 0)).timed = true
    ∧ ((taking (loaded forme false htLocked) (packet 0)).part 0).armed = false
    ∧ ((taking (loaded forme true htLocked) (packet 0)).part 0).armed = true
    ∧ (taking (loaded forme true htLocked) (packet 0)).runAt? 0 = none
    ∧ (taking (owed (loaded forme true htLocked) (.runAt 16384)) (packet 0)).runAt? 0
      = some (taking (owed (loaded forme true htLocked) (.runAt 16384)) (packet 0)).now
    ∧ (taking (loaded forme false htLost) (packet 0)).timed = false ∧ forme.tree.packages ≤ 64 := by decide +kernel

/-- FormesAreLoaded: a forme without tables, and one whose tables lack a die. -/
theorem test_tables : loadable.withTables ⟨[], [], [], [], []⟩ = some loadable
    ∧ (reducing [] []).withTables ⟨[], [], [], [], []⟩ = none := by decide +kernel

/-- FormesAreLoaded: regions with their power on, and one with it off. -/
theorem test_regions_on :
    ((taking bare (packet 0)).partRegions 0).any (fun r => !(taking bare (packet 0)).regionFallow r
      && !(taking bare (packet 0)).rdBit (rreg .pwrRegionStat r) 4) = false
    ∧ let s := taking (bare.wrBit (rreg .pwrRegionStat region) 4 false) (packet 0)
      (s.partRegions 0).any (fun r => !s.regionFallow r && !s.rdBit (rreg .pwrRegionStat r) 4) = true := by decide +kernel

/-- TimesAreSet: RUN_AT off a boundary, too soon by one tick, in time, with a base that has lost time; HALT_AT now and
later; a gear that the forme has, at its boundary and off it, and beside another change; CANCEL of a command that waits
and of none. -/
theorem test_times : (81921 % 16384 ≠ 0 ∧ 65536 % 16384 = 0 ∧ 81920 % 16384 = 0)
    ∧ (65536 < 16384 + 65536 ∧ 16384 + 65536 ≤ 81920)
    ∧ (let u := taking (loaded forme true htLocked) (due 81920)
      u.now = 16384 ∧ u.runAt? 0 = none ∧ u.htState = htLocked ∧ (u.part 0).proofUntil = none ∧ (u.part 0).armed = true
        ∧ (u.part 0).running = false ∧ (taking busy (due 5)).gearBoundary 0 131072 = true
        ∧ (taking busy (due 5)).gearBoundary 0 131073 = false ∧ forme.hasGear (Gear.ofCode 2) = false ∧ forme.hasGear (Gear.ofCode 0) = true
        ∧ (u.gearAts 0).any (fun e => decide (e.1 < 131072 + 32768 ∧ 131072 < e.1 + 32768)) = false)
    ∧ (taking (loaded forme true htLost) (due 81920)).htState = htLost
    ∧ ((taking (owed (loaded forme true htLocked) (.gearAt 163839 .full)) (due 131072)).gearAts 0).any (fun e =>
      decide (e.1 < 131072 + 32768 ∧ 131072 < e.1 + 32768)) = true
    ∧ (let u := taking (owed (loaded forme true htLocked) (.haltAt 99999)) { packet 0 with src := .host 7 }
      (u.host.jobs.find? fun j => j.pending && (Src.host 7).slotIs j.req.src 2 && j.req.tag == 5
        && decide (u.now < j.due)).isSome = true
      ∧ (u.host.jobs.find? fun j => j.pending && (Src.host 7).slotIs j.req.src 63 && j.req.tag == 5
        && decide (u.now < j.due)).isNone = true) := by decide +kernel

def dmaOf (space off len : Nat) : DmaParams := ⟨0, space, off, len, 0x1000⟩
def bulk : BulkStream := ⟨4, true, 0, 0, 0x1000, 256, [0, 1], 0, 77, 88, 0, [], [], []⟩
def streaming (n : Nat) : State := { bare with host := { bare.host with streams := List.replicate n bulk } }

/-- At a boundary, with a forme armed that reserves 64 ticks from `n` for the host. -/
def slotted (n : Nat) : State :=
  taking (alone (running { forme with perDie := [{ onDie0 [] [] with hostSlots := [(n, 64)] }] })) (packet 0)

/-- DataMoves: a DMA that may be asked for and one of 65 bytes, on a die with
slots for the host and on one without; no stream, the sixteenth and one more; a transfer that a refused access marks and one that none does. -/
theorem test_data : (dmaOf 1 0x100000 128).ok = true ∧ (dmaOf 1 0 65).ok = false
    ∧ (taking bare (packet 0)).noHostSlots 0 = false
    ∧ (taking busy (packet 0)).noHostSlots 0 = true ∧ (taking bare (packet 0)).hostOpen 0 = true
    ∧ (∀ e ∈ [(0, true), (1, false)], (slotted e.1).noHostSlots 0 = false ∧ (slotted e.1).hostOpen 0 = e.2)
    ∧ bare.host.d3hot = false ∧ ({ bare with host := { bare.host with d3hot := true } } : State).host.d3hot = true
    ∧ (stream.dir ≤ 1 ∧ stream.die < 16 ∧ stream.target ≤ 1 ∧ stream.ports < 2 ^ 49)
    ∧ (taking bare (packet 0)).host.streams = [] ∧ (taking (streaming 16) (packet 0)).host.streams.length = 16
    ∧ (taking (streaming 1) (packet 0)).host.streams.find? (·.id = 4) = some bulk
    ∧ bare.dmaDetail 0 (dmaOf 1 0x100000 128) = none ∧ (bare.dmaDetail 0 (dmaOf 1 0xFFFFFFFF00 128)).isSome = true := by
  decide +kernel

def proofOf (k : Nat) : ProofParams := ⟨0, 0, 1, 1, 8, 8, false, false, false, k, false, false, 0x1000⟩
def unit9 : LU := ⟨0, 0, 9, none⟩

/-- BlocksAreCommanded: PROOF_RUN of unit 9 with 64 and 63 inner elements, on a die that is armed and one that is not, with
its region's power on and off, and of a unit that no position carries. -/
theorem test_proof_runs : (8 * 1 + 1 = unit9.n.val ∧ unit9.alt = none ∧ 64 ≤ (proofOf 64).k ∧ (proofOf 64).k ≤ 4096 ∧ (proofOf 63).k < 64)
    ∧ (taking busy (packet 0)).dieArmed 0 = true ∧ (taking bare (packet 0)).dieArmed 0 = false
    ∧ (taking bare (packet 0)).carrier unit9 = some ⟨0, 0, 9⟩ ∧ (taking bare (packet 0)).unitFallow ⟨0, 0, 9⟩ = false
    ∧ (taking bare (packet 0)).rdBit (rreg .pwrRegionStat region) 4 = true
    ∧ (taking (bare.wrBit (rreg .pwrRegionStat region) 4 false) (packet 0)).rdBit (rreg .pwrRegionStat region) 4 = false
    ∧ (taking (bare.wr (ureg .tuImpose unit9) 127) (packet 0)).carrier unit9 = none := by decide +kernel

/-- BlocksAreCommanded: operands of BF16, of which every run of 64 has its rate, and of no format; an engine that is bound. -/
theorem test_proof_operands : (proofRunOp (proofOf 64) [] true).isSome = true ∧ (proofRunOp (proofOf 64) [] false).isSome = true
    ∧ proofRunOp { proofOf 64 with fmtA := 63 } [] true = none
    ∧ ((taking bare (packet 0)).clusterS unit9.cluster).proof.isSome = false
    ∧ ((taking (bare.modCluster unit9.cluster fun c => { c with proof := some ⟨0, 0, [], false, true⟩ }) (packet 0)).clusterS
      unit9.cluster).proof.isSome = true := by decide +kernel

def sterile : State := { bare with fen := { bare.fen with units := [pos], regions := [region], dies := [0], lds := [1] } }

/-- BlocksAreCommanded: blocks that are fallow and blocks that are not; a page that may be retired and one under copy; a
block that an armed partition uses, one under a reset, and one that is free and cool. -/
theorem test_fences : (taking sterile (packet 0)).unitFallow pos = true ∧ (taking sterile (packet 0)).regionFallow region = true
    ∧ (taking sterile (packet 0)).fen.dies.contains 0 = true ∧ (taking sterile (packet 0)).fen.lds.contains 1 = true
    ∧ (taking bare (packet 0)).unitFallow pos = false ∧ (taking bare (packet 0)).regionFallow region = false
    ∧ (taking bare (packet 0)).fen.dies = [] ∧ (taking bare (packet 0)).fen.lds = []
    ∧ ((taking (copying bare 7) (packet 0)).die 0).retireRefused 77 = true ∧ ((taking bare (packet 0)).die 0).retireRefused 77 = false
    ∧ (taking busy (packet 0)).blockArmed 1 0 = true ∧ (taking bare (packet 0)).blockArmed 1 0 = false
    ∧ (taking bare (packet 0)).fw.block = none ∧ (taking bare (packet 0)).power.mode ≠ .latched
    ∧ (taking bare (packet 0)).fw.comesDue = false ∧ (∃ e ∈ blockDies 1 0, 90 < (taking (bare.wr (dreg .pwrTj 0) 91) (packet 0)).rdFld (dreg .pwrTj e) 7 0)
    ∧ (∀ e ∈ blockDies 1 0, (taking bare (packet 0)).rdFld (dreg .pwrTj e) 7 0 ≤ 90) := by decide +kernel

/-- PackageCommands: the ends of the cap's range, a key and a value of each kind. -/
theorem test_package : (∀ w ∈ [0, 200, 4000], w = 0 ∨ (200 ≤ w ∧ w ≤ 4000)) ∧ (∀ w ∈ [199, 4001], w ≠ 0 ∧ (w < 200 ∨ 4000 < w))
    ∧ settingDefault 5 = some 6 ∧ settingDefault 6 = none ∧ settingOk 5 255 = true ∧ settingOk 5 256 = false
    ∧ (taking busy (packet 0)).anyArmed = true ∧ (taking bare (packet 0)).anyArmed = false := by decide +kernel

def snapping : Forme := { forme with variants := forme.variants
  ++ [⟨.snapshot, .full, [], some 0, some ⟨0x1000, 256, 8⟩, []⟩] }
def shipped : State := alone (running snapping)
def tgOf (d : Nat) (mode : Byte) (stop : Bool) : TgParams := ⟨d, 5, mode, stop, 0, 5, 9⟩

/-- PackageCommands: a SNAPSHOT of a forme that has the variant, with none under way and with one; a variant that the
forme has not; generators to start, on an idle die and on an armed one, and to stop. -/
theorem test_snapshots : (let u := taking shipped (packet 0)
      u.partDies 0 = [0] ∧ (u.part 0).armed = true ∧ snapping.variants[1]?.map (fun v => (v.kind, v.snap))
          = some (.snapshot, some ⟨0x1000, 256, 8⟩) ∧ snapping.variants[2]? = none 
        ∧ u.shipping 0 ⟨0x1000, 256, 8⟩ = false ∧ u.host.streams = [])
    ∧ (taking { shipped with host := { shipped.host with streams := [{ bulk with addr := 0x1000, send := true }] } }
      (packet 0)).shipping 0 ⟨0x1000, 256, 8⟩ = true
    ∧ ((tgOf 0 4 false).die = (0 : Die).val ∧ (tgOf 0 4 false).channels ≠ 0 ∧ (tgOf 0 4 true).stop = true ∧ 16 ≤ (tgOf 16 4 false).die) := by
  decide +kernel

/-- PackageCommands: what a generator is after its start, on a die with no forme armed and on one with a forme. -/
theorem test_traffic :
    let started := fun (u : State) => ((List.finRange 32).filter fun c => bit (5 : Word) c.val).foldl (fun s c =>
      (((s.storeReg (tgReg .tgBase 0 c) 0).storeReg (tgReg .tgLen 0 c) 5).storeReg (tgReg .tgSeed 0 c) 9).tgStart 0 c 0x44) u
    (∀ c : Fin 32, (5 : Word).getLsbD c.val = true → (started (taking bare (packet 0))).rdBit (tgReg .tgCtl 0 c) 9 = true)
    ∧ (5 : Word).getLsbD 0 = true ∧ (started (taking busy (packet 0))).rdBit (tgReg .tgCtl 0 0) 9 = false := by decide +kernel

/-- FirmwareRestarts: images staged and not, under check and not, an activation under way and none, a pause or a block
reset that WARM_RESET meets and neither. -/
theorem test_staging : (∀ e ∈ [(2, true), (3, true), (2, false), (3, false)],
      (taking (bare.wrBit (xreg .rstFw) e.1 e.2) (packet 0)).rdBit (xreg .rstFw) e.1 = e.2)
    ∧ (taking bare (packet 0)).activating = false ∧ (taking (owed bare .fwActivate) (packet 0)).activating = true
    ∧ (2 ^ 24 - 2 + 2 ≤ 2 ^ 24) ∧ (taking bare (packet 0)).fw.pause = none ∧ (taking bare (packet 0)).fw.block = none
    ∧ (taking { bare with fw := { bare.fw with block := some ⟨2, 1, 5⟩ } } (packet 0)).fw.block.isSome = true := by
  decide +kernel

/-! ### Security and management -/

/-- The package in a security state, with its register showing it. -/
def secure (g : Nat) : State := (alone (inGrade g)).wr (xreg .secState) (BitVec.ofNat 32 g)

/-- SecurityMoves: an armed package; Owner-Debug back to Production without authorisation, and a path that the
table does not have. -/
theorem test_transitions : (taking busy (packet 0)).anyArmed = true
    ∧ (taking bare (packet 0)).anyArmed = false ∧ (taking (secure 2) (packet 0)).powerState = 1
    ∧ (taking (secure 2) (packet 0)).secState = 2
    ∧ secPath 2 1 = some none ∧ secPath 2 0 = none ∧ secPath 2 3 = some (some true)
    ∧ (∀ x ∈ List.replicate 133 (0 : Byte) ++ List.replicate 132 0, x = 0) := by decide +kernel

/-- SecurityMoves: the refusal of a key and of a signature, and their acceptance, follow what the digest and the
signature check answer, which no state settles. -/
theorem test_refusals (s : State) (key sig : List Byte) (h : s.secState = 2) (hk : Config.sha512 key = Config.vendorDigest)
    (b : Bool) (hv : Config.verifies key (Config.sha512 (s.secMessage 3)) sig = b) :
    s.secRefusal 3 key sig true = if b then none else some 1 := by
  cases b <;> simp [State.secRefusal, h, hk, hv]

/-- SecurityMoves: a mask of every measurement, and the first that names none. -/
theorem test_attest : (0xFFF : Word).toNat < 2 ^ 12 ∧ 2 ^ 12 ≤ (0x1000 : Word).toNat ∧ (List.replicate 32 (1 : Byte)).length = 32 := by
  decide

/-- SecurityMoves: a package that has its supply, and one that has not. -/
theorem test_tamper : bare.power.mode ≠ .off ∧ (poweredAs .off .perst false).power.mode = .off := by decide +kernel

def talking (n : Nat) : State := { bare with sb := { bare.sb with addr := some 5, phase := n, doePhase := n } }

/-- SidebandAnswers: each phase of the negotiation on both ways, in a package that signs and in one that cannot. -/
theorem test_spdm : (∀ n ∈ [0, 1, 2, 3], ∀ b, (talking n).spdmUp b = true ∧ (talking n).spdmPhase b = n)
    ∧ ({ talking 3 with sec := { (talking 3).sec with idkGone := true } } : State).canSign = false := by decide +kernel

/-- SidebandAnswers: where IDK stands and the state is not Vendor-Return, the package signs. -/
theorem test_signs : ({ talking 3 with sec := { (talking 3).sec with idkGone := false, fused := 1 } } : State).canSign = true := by
  decide +kernel

def slotAt (s : State) (i n : Nat) : State :=
  { s with host := { s.host with window := s.host.window.write (cmdSlot i + 60) (natLe 4 n) } }
def crowded : State := { talking 0 with sb := { (talking 0).sb with slots := List.replicate 8 (some ⟨4, [1], false⟩) } }

/-- CommandsAreCollected: a host slot that is TAKEN and one that is not, at the first byte and at the last two; a free
sideband slot and none. -/
theorem test_slots : bare.hostUp = true ∧ (slotAt bare 5 2).slotState 5 = 2 ∧ bare.slotState 5 ≠ 2 ∧ 8190 + 2 ≤ 0x2000
    ∧ (talking 0).sidebandUp = true ∧ (talking 0).sb.slots.findIdx? Option.isNone = some 0
    ∧ crowded.sb.slots.findIdx? Option.isNone = none ∧ crowded.sidebandUp = true := by decide +kernel

/-- A READY slot 5 with a CAP_SET. -/
def ready : State := slotAt { bare with host := { bare.host with window := bare.host.window.write (cmdSlot 5) (natLe 2 0x0501) } } 5 1
def held_ (t : Nat) : State := owed bare (.held .energyRead t)

/-- CommandsAreCollected: one READY slot alone, with its reply slot EMPTY and with a reply there; a held command whose AT
is now and one tick later. -/
theorem test_collection : (ready.opens.map fun (u : State) => (u.slotReady 5, u.slotEmpty 5, u.fw.warm.isNone)) = some (true, true, true)
    ∧ ((ready.winWrite (replySlot 5 + 60) (natLe 4 1)).opens.map fun (u : State) => (u.slotReady 5, u.slotEmpty 5)) = some (true, false)
    ∧ (slotAt bare 5 0).opens.map (fun (u : State) => u.slotReady 5) = some false
    ∧ ready.host.jobs = [] ∧ ready.sb.slots = List.replicate 8 none
    ∧ (held_ 16385).host.jobs = [⟨packet 0, .held .energyRead 16385, 0⟩] ∧ (held_ 16385).opens.isSome = true
    ∧ (64 ≤ 64 ∧ 58 + 2 ≤ 60 ∧ 59 < 64 ∧ 60 < 59 + 2 ∧ 63 < 64 ∧ 60 < 63 + 1) := by decide +kernel

/-- CommandsAreCollected: no other slot waits, and the command leaves the sideband alone. -/
theorem test_collection_alone : (∀ n : Fin 64, n ≠ 5 → ((ready.opens).getD ready).slotReady n.val = false)
    ∧ (let u := (ready.opens).getD ready
      let p := readPacket (.host 5) (u.host.window.bytes (cmdSlot 5) 0x2000) (.bytes [])
      (u.handle p.1 p.2).sb = u.sb) := by decide +kernel

def mail (op : Nat) : SbMsg := ⟨4, natLe 2 op ++ natLe 2 5 ++ List.replicate 120 0, false⟩
def resting (m : SbMsg) : State := { talking 0 with
  power := { (talking 0).power with mode := .standby }, sb := { (talking 0).sb with slots := (List.replicate 8 none).set 3 (some m) } }

/-- CommandsAreCollected: in Standby, a command of the sideband that runs anywhere, and one that does not. -/
theorem test_standby : (∀ e ∈ [(0x0502, true), (0x0602, false)], let s := resting (mail e.1)
      let c := (readPacket (.sideband 3) (mail e.1).bytes (.bytes [])).2
      s.lowPower = true ∧ s.sidebandUp = true ∧ s.power.stage ≠ .loader ∧ s.sb.slots[3]? = some (some (mail e.1))
        ∧ (c.onSideband (BitVec.ofNat 16 e.1) && c.sidebandOk) = true ∧ c.timed = false ∧ c.anywhere false = e.2
        ∧ (readPacket (.sideband 3) (mail e.1).bytes (.bytes [])).1.at_ = none) := by decide +kernel

/-- SidebandAnswers: a package with its supply, on, with the sideband up, and without. -/
theorem test_sideband : bare.power.mode = .on ∧ (talking 0).sidebandUp = true ∧ bare.sidebandUp = false := by decide +kernel

/-- MonitorAndJtag: a monitor that listens, at full grade, in Production, in Standby, and one that does not
listen; lines of 127 and 128 characters. -/
theorem test_monitor : (secure 2).monUp = true ∧ (secure 2).lowPower = false ∧ (secure 2).allows .monitor 0 true = true
    ∧ (secure 1).monUp = true ∧ (secure 1).allows .monitor 0 true = false
    ∧ (resting (mail 0)).lowPower = true ∧ (resting (mail 0)).monUp = true
    ∧ (poweredAs .off .perst false).monUp = false ∧ 127 < (List.replicate 128 (65 : Byte)).length := by decide +kernel

/-- MonitorAndJtag: the security states of the clauses in Idle and with a forme armed; JTAG accesses that the grade allows and
refuses, to a register behind a quoin that is open and one that is latched. -/
theorem test_jtag : (∀ g ∈ [0, 1, 2, 3], (secure g).secState = g ∧ (secure g).powerState = 1 ∧ (secure g).power.mode ≠ .off
      ∧ (secure g).rdBit (xreg .secDebugCtl) 1 = false) ∧ busy.powerState ≠ 1
    ∧ (secure 0).allows .jtag (xreg .htSetHi).addr false = true ∧ (secure 1).allows .jtag (xreg .htSetHi).addr false = false
    ∧ (secure 0).allows .jtag (xreg .htSetHi).addr true = true ∧ (secure 1).allows .jtag (xreg .htSetHi).addr true = false
    ∧ ((secure 0).noteDebug .jtag true).rdBit (xreg .secQuoin) (xreg .secFuseData).name.info.quoin = false
    ∧ (((secure 0).wr (xreg .secQuoin) 0x7F).noteDebug .jtag true).rdBit (xreg .secQuoin) (xreg .secFuseData).name.info.quoin = true := by decide +kernel

/-! ### Rules of the whole machine -/

/-- CarriedBlocksRoundTrip: the spec's bundle 00 11 01 05 (R226), and one whose header sets SEG_END. -/
theorem test_bundle : readSlot unit ([0x00, 0x11, 0x01, 0x05] ++ List.replicate 28 0) .m = .op (.mMma unit ⟨1, 4, 0, 5, 0, none, none⟩)
    ∧ readSlot unit ([0x01] ++ List.replicate 31 0) .m = .nop := by decide +kernel

/-- ResetLeaves: the contact of the spec's example (R674). -/
theorem test_contact : contact 47 112 = some (.laneRx ⟨3, 18⟩ false) ∧ contact 150 3 = none := by decide +kernel

/-- CountersAreKept, ElementsDecode: a counter of each group; a scale and an element of each kind. -/
theorem test_counters : ((bare.wr (dreg .hbmUeCnt 0) 0xFFFFFFFF).count (dreg .hbmUeCnt 0) 1).rd (dreg .hbmUeCnt 0) = 0xFFFFFFFF
    ∧ ((bare.count ⟨.ldLaneCw, 3, 0, 0⟩ 2).rd ⟨.ldLaneCw, 3, 0, 0⟩) = 2 ∧ (0 : Die) ∈ bare.partDies 0
    ∧ Elem.t2.decode 1 = .ofInt 1 0 := by decide +kernel
end Sys2Proof.Tests
end

section
/-!
PROOF. Element codes and elements under a scale code (03_number_formats.md R121, R124).
-/
namespace Sys2Proof.Machine

/-! ### The scale of a block -/

theorem decodeScaled_nan_scale (t : Elem) (c : Nat) : decodeScaled t 255 c = .nan := by
  simp only [decodeScaled, if_true]

theorem decodeScaled_of_lt (t : Elem) {s : Nat} (c : Nat) (hs : s < 255) :
    decodeScaled t s c = (t.decode c).scale ((s : Int) - 127) := by
  simp only [decodeScaled, if_neg (Nat.ne_of_lt hs)]

@[simp] theorem Val.scale_fin (k : Int) (n : Bool) (m : Nat) (e : Int) :
    (Val.fin n m e).scale k = .fin n m (e + k) := rfl

/-- A NaN and an infinity are the same at every scale. -/
theorem Val.scale_of_special (k : Int) {v : Val} (h : v = .nan ∨ ∃ n, v = .inf n) : v.scale k = v := by
  obtain rfl | ⟨n, rfl⟩ := h <;> rfl

/-! ### The statement -/

/-- Settles O8: the four ternary codes by evaluation; a scale code below 255 scales the decoded element, which changes
the exponent of a finite value alone. -/
theorem elementsDecode : Obligations.ElementsDecode := by
  refine ⟨by decide, fun t s c _ => ⟨?_, ?_, ?_⟩⟩
  · rintro rfl
    exact decodeScaled_nan_scale t c
  · intro n m e hs hc
    rw [decodeScaled_of_lt t c hs, hc, Val.scale_fin]
  · intro hs hc
    rw [decodeScaled_of_lt t c hs, Val.scale_of_special _ hc]

end Sys2Proof.Machine
end

section
/-!
PROOF. The V slot (06_unit_programming.md R222, R241, R242): what each operation leaves where its slot may issue.
-/
namespace Sys2Proof.Machine

/-! ### Lanes -/

theorem lanes2_eq_zipWith (f : Word → Word → Word) (a b : List Word) : lanes2 f a b = List.zipWith f a b :=
  List.map_uncurry_zip_eq_zipWith

theorem lanes3_eq_zipWith (f : Word → Word → Word → Word) (a b c : List Word) :
    lanes3 f a b c = List.zipWith (fun e x => f e.1 e.2 x) (a.zip b) c :=
  List.map_uncurry_zip_eq_zipWith (f := fun (e : Word × Word) x => f e.1 e.2 x)

/-! ### What an operation that issues leaves -/

/-- The state after a V-slot operation has issued whose lanes `v` show `lat` cycles later (R258). -/
def State.vDelivers (s : State) (u : LU) (p : PU) (vd : Fin 16) (lat : Nat) (v : List Word) : State :=
  s.setUnit p (((s.unit p).mark .v).vResult (s.cycle u.region + lat) vd v)

/-- The state after a V-slot operation has issued that moves lines of the scratchpad (R235). -/
def State.vLaunches (s : State) (u : LU) (p : PU) (accs : List LineAcc) (k : FlightKind) : State :=
  s.setUnit p (((s.unit p).mark .v).launch .v (s.cycle u.region) accs [] k)

variable {s : State} {u : LU} {p : PU}

/-- Every V-slot operation on registers does the same but for its latency and its lanes. -/
theorem State.vOp_eq (h : s.issuer u .v = some p) (vd : Fin 16) (lat : Nat) (f : UnitS → List Word) :
    s.vOp u vd lat f = s.vDelivers u p vd lat (f ((s.unit p).mark .v)) := by
  simp only [State.vOp, State.issue_eq _ h, State.cycle_marked, State.setUnit_marked, State.vDelivers]

/-! ### Operations on registers -/

theorem State.vAdd_eq (h : s.issuer u .v = some p) (vd va vb : Fin 16) :
    s.vAdd u vd va vb = s.vDelivers u p vd 4 (List.zipWith fAdd ((s.unit p).vreg va) ((s.unit p).vreg vb)) := by
  simp only [State.vAdd, State.vOp_eq h, lanes2_eq_zipWith, UnitS.vreg_mark]

theorem State.vSub_eq (h : s.issuer u .v = some p) (vd va vb : Fin 16) :
    s.vSub u vd va vb = s.vDelivers u p vd 4 (List.zipWith fSub ((s.unit p).vreg va) ((s.unit p).vreg vb)) := by
  simp only [State.vSub, State.vOp_eq h, lanes2_eq_zipWith, UnitS.vreg_mark]

theorem State.vMul_eq (h : s.issuer u .v = some p) (vd va vb : Fin 16) :
    s.vMul u vd va vb = s.vDelivers u p vd 4 (List.zipWith fMul ((s.unit p).vreg va) ((s.unit p).vreg vb)) := by
  simp only [State.vMul, State.vOp_eq h, lanes2_eq_zipWith, UnitS.vreg_mark]

theorem State.vFma_eq (h : s.issuer u .v = some p) (vd va vb vc : Fin 16) :
    s.vFma u vd va vb vc = s.vDelivers u p vd 4 (List.zipWith (fun e c => fFma e.1 e.2 c)
      (((s.unit p).vreg va).zip ((s.unit p).vreg vb)) ((s.unit p).vreg vc)) := by
  simp only [State.vFma, State.vOp_eq h, lanes3_eq_zipWith, UnitS.vreg_mark]

theorem State.vRcpOp_eq (h : s.issuer u .v = some p) (vd va : Fin 16) :
    s.vRcpOp u vd va = s.vDelivers u p vd 8 (((s.unit p).vreg va).map vRcp) :=
  State.vOp_eq h vd 8 _

theorem State.vRsqOp_eq (h : s.issuer u .v = some p) (vd va : Fin 16) :
    s.vRsqOp u vd va = s.vDelivers u p vd 8 (((s.unit p).vreg va).map vRsq) :=
  State.vOp_eq h vd 8 _

theorem State.vExpOp_eq (h : s.issuer u .v = some p) (vd va : Fin 16) :
    s.vExpOp u vd va = s.vDelivers u p vd 12 (((s.unit p).vreg va).map vExp) :=
  State.vOp_eq h vd 12 _

theorem State.vSum_eq (h : s.issuer u .v = some p) (vd va : Fin 16) :
    s.vSum u vd va = s.vDelivers u p vd 8 (List.replicate 64 (treeSum ((s.unit p).vreg va))) :=
  State.vOp_eq h vd 8 _

theorem State.vSplat_eq (h : s.issuer u .v = some p) (vd : Fin 16) (imm : Half) :
    s.vSplat u vd imm = s.vDelivers u p vd 1 (List.replicate 64 (toF32 (bf16 imm))) :=
  State.vOp_eq h vd 1 _

/-! ### A row of a group -/

/-- The row of a group that V.LDG names, each pair rounded once (R147, R204). -/
def UnitS.groupRow (x : UnitS) (g : Fin 4) (row : Nat) : List Word :=
  (List.range 64).map fun j => toF32 ((((x.group g).cells[64 * row + j]?).getD .zero).value)

/-- V.LDG delivers its row whatever the group's state; the flag alone depends on it (R204). -/
theorem State.vLdg_eq (h : s.issuer u .v = some p) (vd : Fin 16) (g : Fin 4) (imm : Fin 64) (reg : Fin 16) :
    s.vLdg u vd g imm reg =
      (s.vDelivers u p vd 5 ((s.unit p).groupRow g ((imm.val + ((s.unit p).areg reg).toNat) % 64))).accFlagIf
        u accOpenRd (((s.unit p).group g).st != .shut) := by
  simp only [State.vLdg, State.issue_eq _ h, State.cycle_marked, State.setUnit_marked, UnitS.group_mark, UnitS.areg_mark,
    State.vDelivers, UnitS.groupRow]

theorem State.vLdg_of_shut (h : s.issuer u .v = some p) (vd : Fin 16) {g : Fin 4} (imm : Fin 64) (reg : Fin 16)
    (hg : ((s.unit p).group g).st = .shut) :
    s.vLdg u vd g imm reg =
      s.vDelivers u p vd 5 ((s.unit p).groupRow g ((imm.val + ((s.unit p).areg reg).toNat) % 64)) := by
  simp only [State.vLdg_eq h, State.accFlagIf, hg, bne_self_eq_false, Bool.false_eq_true, if_false]

theorem State.vLdg_of_not_shut (h : s.issuer u .v = some p) (vd : Fin 16) {g : Fin 4} (imm : Fin 64) (reg : Fin 16)
    (hg : ((s.unit p).group g).st ≠ .shut) :
    s.vLdg u vd g imm reg =
      (s.vDelivers u p vd 5 ((s.unit p).groupRow g ((imm.val + ((s.unit p).areg reg).toNat) % 64))).accFlag
        u accOpenRd := by
  rw [State.vLdg_eq h, State.accFlagIf, if_pos (bne_iff_ne.mpr hg)]

/-! ### Lines of the scratchpad -/

theorem Opnd.vReads_of_fmt {o : Opnd} {f : Fmt} (hf : o.fmt = some f) (c : Nat) :
    o.vReads c = (o.vLines f).zipIdx.map fun e => ⟨c + 1, e.1, none, 0, e.2, .read⟩ := by
  simp only [Opnd.vReads, hf]

/-- V.LD of a local operand outside the galleys in a format that it reads (R241, R257). -/
theorem State.vLd_of_local (h : s.issuer u .v = some p) (vd : Fin 16) {desc : Fin 64} {reg : Fin 16} {f : Fmt}
    (hfar : (s.unit p).isFar desc = false) (hgal : ((s.unit p).opnd desc ((s.unit p).areg reg)).gal = none)
    (hfmt : ((s.unit p).opnd desc ((s.unit p).areg reg)).fmt = some f) (hreads : f.vectorReads = true) :
    let o := (s.unit p).opnd desc ((s.unit p).areg reg)
    s.vLd u vd desc reg = s.vLaunches u p (o.vReads (s.cycle u.region)) (.vld vd o) := by
  simp only [State.vLd, State.issue_eq _ h, State.cycle_marked, State.setUnit_marked, UnitS.isFar_mark, UnitS.areg_mark,
    UnitS.opnd_mark, State.vLaunches, hfar, hgal, hfmt, Option.map_some, Option.getD_some, hreads]
  rfl

/-- V.ST of a local operand outside the galleys in a format that it writes (R241, R257). -/
theorem State.vSt_of_local (h : s.issuer u .v = some p) (va : Fin 16) {desc : Fin 64} {reg : Fin 16} {f : Fmt}
    (hfar : (s.unit p).isFar desc = false) (hgal : ((s.unit p).opnd desc ((s.unit p).areg reg)).gal = none)
    (hfmt : ((s.unit p).opnd desc ((s.unit p).areg reg)).fmt = some f) (hwrites : f = .bf16 ∨ f = .fp32) :
    let o := (s.unit p).opnd desc ((s.unit p).areg reg)
    let b := vStore f ((s.unit p).vreg va)
    s.vSt u va desc reg = s.vLaunches u p ((linesOf o.eb b.length).zipIdx.map fun e =>
      ⟨s.cycle u.region + 3, e.1, none, 1, e.2, .data (lineOf o.eb b e.1) false⟩) .vst := by
  simp only [State.vSt, State.issue_eq _ h, State.cycle_marked, State.setUnit_marked, UnitS.isFar_mark, UnitS.areg_mark,
    UnitS.opnd_mark, UnitS.vreg_mark, State.vLaunches, hfar, hgal, hfmt, Option.getD_some]
  obtain rfl | rfl := hwrites <;> rfl

end Sys2Proof.Machine
end

section
/-!
PROOF. Every V-slot operation completes: what `exec` answers is the state that the laws of the V slot give.
-/
namespace Sys2Proof.Machine

/-- Settles O11: `exec` answers the operation's state, which its law above gives for a slot that may
issue. -/
theorem vSlotRuns : Obligations.VSlotRuns := by
  refine ⟨?registers, ?groups, ?lines⟩
  case registers =>
    intro s u p vd va vb vc imm h
    exact ⟨congrArg Host.Outcome.next (State.vAdd_eq h vd va vb),
      congrArg Host.Outcome.next (State.vSub_eq h vd va vb),
      congrArg Host.Outcome.next (State.vMul_eq h vd va vb),
      congrArg Host.Outcome.next (State.vFma_eq h vd va vb vc),
      congrArg Host.Outcome.next (State.vRcpOp_eq h vd va),
      congrArg Host.Outcome.next (State.vRsqOp_eq h vd va),
      congrArg Host.Outcome.next (State.vExpOp_eq h vd va),
      congrArg Host.Outcome.next (State.vSum_eq h vd va),
      congrArg Host.Outcome.next (State.vSplat_eq h vd imm)⟩
  case groups =>
    intro s u p vd g imm reg h
    exact ⟨fun hg => congrArg Host.Outcome.next (State.vLdg_of_shut h vd imm reg hg),
      fun hg => congrArg Host.Outcome.next (State.vLdg_of_not_shut h vd imm reg hg)⟩
  case lines =>
    intro s u p v desc reg h x o launched hfar hgal
    refine ⟨fun f hf hreads => ?_, fun f hf hwrites => ?_⟩
    · rw [← Opnd.vReads_of_fmt hf]
      exact congrArg Host.Outcome.next (State.vLd_of_local h v hfar hgal hf hreads)
    · exact congrArg Host.Outcome.next (State.vSt_of_local h v hfar hgal hf hwrites)

end Sys2Proof.Machine
end

section
/-!
PROOF. The W slot (04_operand_writer.md R155, R178, R180 to R186; 06_unit_programming.md R204, R239, R258): what
W.WRITE launches where it may issue, and where the counts of a write go.
-/
namespace Sys2Proof.Machine

variable {s : State} {u : LU} {p : PU}

/-! ### What a W.WRITE names -/

/-- The operand that a W.WRITE names as its source, and the one that it names as its destination (R229). -/
def UnitS.wSource (x : UnitS) (o : WriteOp) : Opnd := (x.opnd o.src (x.areg o.sreg)).aligned
def UnitS.wDest (x : UnitS) (o : WriteOp) : Opnd := (x.opnd o.dst (x.areg o.dreg)).aligned

/-- The groups that a source field names: under PAIR a group and its neighbour (R155). -/
def UnitS.wNamed (x : UnitS) (o : WriteOp) : List (Fin 4) :=
  let g : Fin 4 := ⟨o.src.val % 4, Nat.mod_lt _ (by decide)⟩
  if (Profile.ofWord (x.profileWord o.prof)).pair then [g, ⟨(g.val ^^^ 1) % 4, Nat.mod_lt _ (by decide)⟩] else [g]

/-- The groups that a W.WRITE reads: none where its source is an operand (R239). -/
def UnitS.wGroups (x : UnitS) (o : WriteOp) : List (Fin 4) := if !o.srcg then [] else x.wNamed o

/-- The extents of a W.WRITE's input (R155). -/
def UnitS.wSize (x : UnitS) (o : WriteOp) : Nat × Nat :=
  let pr := Profile.ofWord (x.profileWord o.prof)
  if o.srcg then (if !pr.pair then (64, 64) else if pr.rotCol then (128, 64) else (64, 128)) else (x.wSource o).presented

/-- Whether the writer can read a W.WRITE's source: a group always, an operand where it is local and in a format that
the writer reads (R239). -/
def UnitS.wReadable (x : UnitS) (o : WriteOp) : Bool :=
  o.srcg || (!x.isFar o.src && (match (x.wSource o).fmt with
    | some f => f.writerReads
    | none => false))

/-- Whether the writer refuses a W.WRITE for its profile, its source or its destination (R156, R239). -/
def UnitS.wRefused (x : UnitS) (o : WriteOp) : Bool :=
  (Profile.ofWord (x.profileWord o.prof)).refused o.srcg (x.wDest o).tr (x.wSize o).1 (x.wSize o).2
    || !x.wReadable o || x.isFar o.dst

/-- The cycles for which a W.WRITE holds the writer: 64 elements a cycle (R258). -/
def UnitS.wOcc (x : UnitS) (o : WriteOp) : Nat := max 1 ((x.wSize o).1 * (x.wSize o).2 / 64)

/-- What an operation in flight has latched of the W.WRITE `o` that a unit issued in cycle `c` (R155, R204). -/
structure WFlight.LatchedFrom (w : WFlight) (x : UnitS) (o : WriteOp) (c : Nat) : Prop where
  profile : w.profile = x.profileWord o.prof
  mask : w.mask = x.signMask (Profile.ofWord (x.profileWord o.prof)).rotMask
  limits : w.limits = x.tripLimits (Profile.ofWord (x.profileWord o.prof)).mon
  cells : w.cells = (x.wGroups o).flatMap fun k => (x.group k).cells
  src : w.src = if o.srcg then none else some (x.wSource o)
  rows : w.rows = (x.wSize o).1
  cols : w.cols = (x.wSize o).2
  refused : w.refused = x.wRefused o
  done : w.done = c + x.wOcc o + 12 + if (Profile.ofWord (x.profileWord o.prof)).rotEn then 4 else 0

theorem UnitS.wSize_eq (x : UnitS) (o : WriteOp) : x.wSize o =
    if !o.srcg then (x.wSource o).presented
    else if !(Profile.ofWord (x.profileWord o.prof)).pair then (64, 64)
    else if (Profile.ofWord (x.profileWord o.prof)).rotCol then (128, 64) else (64, 128) := by
  cases hg : o.srcg <;> simp only [UnitS.wSize, hg] <;> rfl

theorem UnitS.wGroups_of_group (x : UnitS) {o : WriteOp} (hg : o.srcg = true) : x.wGroups o = x.wNamed o := by
  simp only [UnitS.wGroups, hg, Bool.not_true, Bool.false_eq_true, if_false]

theorem UnitS.wGroups_of_opnd (x : UnitS) {o : WriteOp} (hg : o.srcg = false) : x.wGroups o = [] := by
  simp only [UnitS.wGroups, hg, Bool.not_false, if_true]

theorem UnitS.flatMap_wGroups {α : Type} (x : UnitS) (o : WriteOp) (cells : Fin 4 → List α) :
    (x.wGroups o).flatMap cells = if o.srcg then (x.wNamed o).flatMap cells else [] := by
  cases hg : o.srcg with
  | false => rw [x.wGroups_of_opnd hg]; rfl
  | true => rw [x.wGroups_of_group hg]; rfl

theorem UnitS.wReadable_iff (x : UnitS) (o : WriteOp) : x.wReadable o = true ↔
    (o.srcg = false → x.isFar o.src = false ∧ ∃ f, (x.wSource o).fmt = some f ∧ f.writerReads = true) := by
  cases hg : o.srcg <;> cases hf : (x.wSource o).fmt <;> simp [UnitS.wReadable, hg, hf]

theorem UnitS.wRefused_eq_false_iff (x : UnitS) (o : WriteOp) : x.wRefused o = false ↔
    (Profile.ofWord (x.profileWord o.prof)).refused o.srcg (x.wDest o).tr (x.wSize o).1 (x.wSize o).2 = false
      ∧ x.wReadable o = true ∧ x.isFar o.dst = false := by
  simp only [UnitS.wRefused, Bool.or_eq_false_iff, Bool.not_eq_false', and_assoc]

/-! ### Issue -/

/-- The unit after a W.WRITE has launched `w` with its lines and pops. -/
def UnitS.wLaunch (x : UnitS) (o : WriteOp) (c : Nat) (accs : List LineAcc) (pops : List PopDue) (w : WFlight) : UnitS :=
  { (x.mark .w).launch .w c accs pops (.write w) with wBusy := c + x.wOcc o }

/-- W.WRITE where the writer is free launches one operation, refused or not; the flags alone depend on its source, its
destination and its groups (R136, R204). -/
theorem State.wWrite_launches (h : s.issuer u .w = some p) {o : WriteOp} (hsrc : o.srcg = true → o.src.val < 4)
    (hfree : (s.unit p).wBusy ≤ s.cycle u.region) :
    ∃ accs pops w, s.wWrite u o =
        ((s.setUnit p ((s.unit p).wLaunch o (s.cycle u.region) accs pops w)).tuFlagIf u tuFmtBad
          ((s.unit p).wRefused o)).accFlagIf u accOpenRd
            (((s.unit p).wGroups o).any fun k => ((s.unit p).group k).st != .shut)
      ∧ w.LatchedFrom (s.unit p) o (s.cycle u.region) := by
  have hgroup : (o.srcg && decide (4 ≤ o.src.val)) = false := by
    cases hg : o.srcg with
    | false => rfl
    | true => simpa using hsrc hg
  have hbusy : ¬ s.cycle u.region < ((s.unit p).mark .w).wBusy := Nat.not_lt.mpr hfree
  rw [State.wWrite, hgroup, if_neg Bool.false_ne_true, State.issue_eq _ h]
  dsimp only [State.cycle_marked]
  rw [if_neg hbusy, State.setUnit_marked]
  exact ⟨_, _, _, rfl, ⟨rfl, rfl, rfl, rfl, rfl, rfl, rfl, rfl, rfl⟩⟩

@[simp] theorem State.tuFlagIf_false (s : State) (u : LU) (b : Nat) : s.tuFlagIf u b false = s := rfl
@[simp] theorem State.accFlagIf_false (s : State) (u : LU) (b : Nat) : s.accFlagIf u b false = s := rfl

/-- W.WRITE that is not refused, of groups that are SHUT, changes its unit alone. -/
theorem State.wWrite_of_accepted (h : s.issuer u .w = some p) {o : WriteOp} (hsrc : o.srcg = true → o.src.val < 4)
    (hfree : (s.unit p).wBusy ≤ s.cycle u.region) (haccepted : (s.unit p).wRefused o = false)
    (hshut : ∀ k ∈ (s.unit p).wGroups o, ((s.unit p).group k).st = .shut) :
    ∃ accs pops w, s.wWrite u o = s.setUnit p ((s.unit p).wLaunch o (s.cycle u.region) accs pops w)
      ∧ w.LatchedFrom (s.unit p) o (s.cycle u.region) := by
  have hopen : (((s.unit p).wGroups o).any fun k => ((s.unit p).group k).st != .shut) = false :=
    List.any_eq_false.mpr fun k hk => by simp only [hshut k hk, bne_self_eq_false, Bool.false_eq_true, not_false_eq_true]
  obtain ⟨accs, pops, w, hrun, hw⟩ := State.wWrite_launches h hsrc hfree
  refine ⟨accs, pops, w, ?_, hw⟩
  rw [hrun, haccepted, hopen, State.accFlagIf_false, State.tuFlagIf_false]

/-! ### Completion -/

/-- The unit with the write `w` of flight `f` marked as counted. -/
def UnitS.wCounted (x : UnitS) (f : Flight) (w : WFlight) : UnitS :=
  { x with flights := x.flights.map fun e => if e.id = f.id then { e with kind := .write { w with counted := true } } else e }

/-- A logical unit with counts added to monitor set `m` of its previous-step bank or of its live bank (R178). -/
def LuS.addMon (l : LuS) (crossed : Bool) (m : Nat) (k : Counts) (trip : Bool × Bool) : LuS :=
  if !crossed then { l with live := addSet l.live m k trip } else { l with prev := addSet l.prev m k trip }

theorem LuS.addMon_eq (l : LuS) (crossed : Bool) (m : Nat) (k : Counts) (trip : Bool × Bool) :
    l.addMon crossed m k trip =
      if crossed then { l with prev := addSet l.prev m k trip } else { l with live := addSet l.live m k trip } := by
  cases crossed <;> rfl

/-- W_WRITE_COMPLETE counts the oldest write that is due, and sets WTRIP where the profile is guarded
(R178, R182 to R184). -/
theorem State.wWriteComplete_eq {f : Flight} {w : WFlight} (hcarrier : s.carrier u = some p)
    (hrun : (s.region u.region).suppressed = false) (hdue : (s.unit p).dueWrite (s.cycle u.region) = some (f, w))
    (hrefused : w.refused = false) (hblank : w.blank = false) :
    s.wWriteComplete u =
      let pr := Profile.ofWord w.profile
      let k := (w.output f.caught (s.unit p).sp).counts
      let trip := if pr.guard then trips w.limits k else (false, false)
      let t := (s.setUnit p ((s.unit p).wCounted f w)).modLu u fun l => l.addMon w.crossed pr.mon k trip
      if pr.guard then t.wrBit (ureg .tuStat u) tuWtrip (trip.1 || trip.2) else t := by
  have hcounts : (w.refused || w.blank) = false := by rw [hrefused, hblank, Bool.or_self]
  simp only [State.wWriteComplete, hcarrier, hrun, hdue, hcounts, Bool.false_eq_true, if_false]
  rfl

end Sys2Proof.Machine
end

section
/-!
PROOF. W.WRITE launches and W_WRITE_COMPLETE counts: what `exec` answers is the state that the laws of the W slot give.
-/
namespace Sys2Proof.Machine

/-- Settles O15: the launch by the law of an accepted W.WRITE, whose extents, groups and source are those that the
statement names for a group and for an operand; the completion by its law, for a plain and for a guarded profile. -/
theorem writesRun : Obligations.WritesRun := by
  refine ⟨?launch, ?complete⟩
  case launch =>
    intro s u p o h x c pr g gs src dst size hfree hfar hprof hgroup hopnd
    have hsize : x.wSize o = size := x.wSize_eq o
    have haccepted : x.wRefused o = false :=
      (x.wRefused_eq_false_iff o).mpr ⟨hsize.symm ▸ hprof, (x.wReadable_iff o).mpr hopnd, hfar⟩
    have hshut : ∀ k ∈ x.wGroups o, (x.group k).st = .shut := by
      cases hg : o.srcg with
      | false => rw [x.wGroups_of_opnd hg]; exact fun k hk => absurd hk List.not_mem_nil
      | true => rw [x.wGroups_of_group hg]; exact (hgroup hg).2
    obtain ⟨accs, pops, w, hrun, hw⟩ := State.wWrite_of_accepted h (fun hg => (hgroup hg).1) hfree haccepted hshut
    have hocc : x.wOcc o = max 1 (size.1 * size.2 / 64) := by rw [UnitS.wOcc, hsize]
    refine ⟨_, accs, pops, w, congrArg Host.Outcome.next hrun, ?_, hw.profile, hw.mask, hw.limits,
      hw.cells.trans (x.flatMap_wGroups o _), hw.src, hsize ▸ hw.rows, hsize ▸ hw.cols, hw.refused.trans haccepted,
      hocc ▸ hw.done⟩
    rw [← hocc]; rfl
  case complete =>
    intro s u p f w hcarrier hrun hdue hrefused hblank pr k counted add
    have hcomplete := State.wWriteComplete_eq hcarrier hrun hdue hrefused hblank
    simp only [LuS.addMon_eq] at hcomplete
    refine ⟨fun hplain => congrArg Host.Outcome.next ?_, fun hguard => congrArg Host.Outcome.next ?_⟩
    · rw [hcomplete, hplain]; rfl
    · rw [hcomplete, hguard]; rfl

end Sys2Proof.Machine
end

section
/-!
PROOF. The exact accumulators of a proof engine (05_matrix_arithmetic.md R215, R217).
-/
namespace Sys2Proof.Machine

/-! ### Sums modulo 2^640 -/

/-- Wrapping may be done once, after a further addition. -/
theorem wrap640_add (i j : Int) : wrap640 (wrap640 i + j) = wrap640 (i + j) := by
  have hcancel : wrap640 i + j + 2 ^ 639 = (i + 2 ^ 639) % 2 ^ 640 + j := by
    rw [wrap640, Int.add_right_comm, Int.sub_add_cancel]
  rw [wrap640, hcancel, Int.emod_add_emod, wrap640, Int.add_right_comm]

/-! ### The order of the terms -/

/-- Two values enter an accumulator in either order: a special one only sets a flag of its own. -/
theorem Exact.add_right_comm (a : Exact) (v w : Val) : (a.add v).add w = (a.add w).add v := by
  cases v with
  | nan => cases w with
    | nan => rfl
    | inf n => cases n <;> rfl
    | fin => rfl
  | inf m => cases w with
    | nan => cases m <;> rfl
    | inf n => cases m <;> cases n <;> rfl
    | fin => cases m <;> rfl
  | fin n m e => cases w with
    | nan => rfl
    | inf n => cases n <;> rfl
    | fin n' m' e' => simp only [Exact.add, wrap640_add, Int.add_right_comm]

/-- Settles O14: by induction on the permutation, which swaps two neighbouring terms at a time. -/
theorem proofSumOrderFree : Obligations.ProofSumOrderFree := by
  intro vs ws a hperm
  induction hperm generalizing a with
  | nil => rfl
  | cons v _ ih => exact ih (a.add v)
  | swap v w l => exact congrArg (l.foldl Exact.add) (a.add_right_comm w v)
  | trans _ _ ih₁ ih₂ => exact (ih₁ a).trans (ih₂ a)

end Sys2Proof.Machine
end

section
/-!
PROOF. The M slot at issue (05_matrix_arithmetic.md R188, R189, R200 to R202, R216; 06_unit_programming.md R236, R237):
what M.MMA, GRP_OPEN and GRP_CLOSE leave where they may issue.
-/
namespace Sys2Proof.Machine

variable {s : State} {u : LU} {p : PU}

/-! ### M.MMA -/

/-- The operands that an M.MMA names, each from its line on (R229). -/
def UnitS.mmaA (x : UnitS) (o : MmaOp) : Opnd := (x.opnd o.adesc (x.areg o.areg)).aligned
def UnitS.mmaB (x : UnitS) (o : MmaOp) : Opnd := (x.opnd o.bdesc (x.areg o.breg)).aligned

/-- The unit after an M.MMA has launched `m` with its lines and pops. -/
def UnitS.mmaLaunch (x : UnitS) (c : Nat) (accs : List LineAcc) (pops : List PopDue) (m : MmaFlight) : UnitS :=
  { (x.mark .m).launch .m c accs pops (.mma m) with mBusy := c + m.occ }

/-- What an operation in flight holds of the M.MMA `o` that a unit has issued at rate class `r` (R189, R191, R237). -/
structure MmaFlight.LaunchedFrom (m : MmaFlight) (x : UnitS) (o : MmaOp) (r : RateClass) : Prop where
  op : m.op = o
  a : m.a = x.mmaA o
  b : m.b = x.mmaB o
  rate : m.rate = some r
  k : m.k = (x.mmaA o).presented.2
  runs : m.runs = (x.mmaA o).presented.2 / m.runLen
  next : m.next = 0
  dead : m.dead = false
  late : m.late = false
  proof : m.proof = ((x.group o.group).st == .proof)
  occ : m.occ = mmaOcc (some r) (x.mmaA o).presented.2 (o.oga.isSome || o.ogb.isSome) m.proof

/-- A proof group holds the array sixteen times as long, outliers for `k` cycles at the least (R189, R212, R217). -/
theorem mmaOcc_eq (rate : RateClass) (k : Nat) (a b : Option (Fin 8)) (proof : Bool) :
    mmaOcc (some rate) k (a.isSome || b.isSome) proof =
      (if proof then 16 else 1) * (if a.isSome ∨ b.isSome then max (rate.cycles k) k else rate.cycles k) := by
  cases proof <;> simp [mmaOcc]

/-- M.MMA of two local operands of a permitted pair and of good extents, into a group that is not SHUT, while the array is
free, changes its unit alone. -/
theorem State.mma_of_accepted (h : s.issuer u .m = some p) {o : MmaOp} {rate : RateClass}
    (hfree : (s.unit p).mBusy ≤ s.cycle u.region) (hfarA : (s.unit p).isFar o.adesc = false)
    (hfarB : (s.unit p).isFar o.bdesc = false) (hrate : pairRate ((s.unit p).mmaA o) ((s.unit p).mmaB o) = some rate)
    (hextents : extentsOk ((s.unit p).mmaA o) ((s.unit p).mmaB o) = true) (hgroup : ((s.unit p).group o.group).st ≠ .shut) :
    ∃ accs pops m, s.mma u o = s.setUnit p ((s.unit p).mmaLaunch (s.cycle u.region) accs pops m)
      ∧ m.LaunchedFrom (s.unit p) o rate := by
  have hbusy : ¬ s.cycle u.region < ((s.unit p).mark .m).mBusy := Nat.not_lt.mpr hfree
  have hopen : (((s.unit p).group o.group).st == .shut) = false := beq_eq_false_iff_ne.mpr hgroup
  rw [UnitS.mmaA, UnitS.mmaB] at hrate hextents
  rw [State.mma, State.issue_eq _ h]
  dsimp only [State.cycle_marked]
  rw [if_neg hbusy]
  simp only [UnitS.isFar_mark, UnitS.areg_mark, UnitS.opnd_mark, UnitS.group_mark, State.setUnit_marked, hfarA, hfarB,
    Bool.or_self, Bool.false_eq_true, if_false, hrate, hextents, hopen, Option.isSome_some, Bool.and_self, Bool.not_true,
    State.tuFlagIf_false, State.accFlagIf_false]
  exact ⟨_, _, _, rfl, ⟨rfl, rfl, rfl, rfl, rfl, rfl, rfl, rfl, rfl, rfl, rfl⟩⟩

/-! ### GRP_OPEN -/

/-- The source that a GRP_OPEN names for LOAD. -/
def UnitS.openSource (x : UnitS) (o : OpenOp) : Opnd := (x.opnd o.desc (x.areg o.areg)).aligned

/-- The unit after a GRP_OPEN has been taken in cycle `c`; its effect comes at the end of the cycle (R200). -/
def UnitS.opens (x : UnitS) (o : OpenOp) (bound : Bool) (c : Nat) : UnitS :=
  let y := { x.mark .m with mPend := some (.open_ o.group o.load bound) }
  if !o.load then y
  else { y.launch .m c (loadAccs c (x.openSource o)) [] (.load o.group false) with loadBusy := c + 64 }

theorem UnitS.opens_of_plain (x : UnitS) {o : OpenOp} (hload : o.load = false) (bound : Bool) (c : Nat) :
    x.opens o bound c = { x.mark .m with mPend := some (.open_ o.group false bound) } := by
  rw [UnitS.opens, hload]; rfl

theorem UnitS.opens_of_load (x : UnitS) {o : OpenOp} (hload : o.load = true) (bound : Bool) (c : Nat) :
    x.opens o bound c = { x.mark .m with
      mPend := some (.open_ o.group true bound)
      flights := x.flights ++ [⟨x.nextId, .m, c, x.ctl.fetch, x.ctl.verso, [], false,
        loadAccs c (x.openSource o), [], .start, .load o.group false⟩]
      nextId := x.nextId + 1, loadBusy := c + 64 } := by
  rw [UnitS.opens, hload]; rfl

/-- What a GRP_OPEN does beside its unit: a group that is open already raises GRP_REOPEN, what it held of the engine is
released, and a free engine is bound where PROOF asks for it (R200, R216). -/
def State.openBind (s : State) (u : LU) (p : PU) (o : OpenOp) : State × Bool :=
  (((s.marked p .m).accFlagIf u accReopen (!(((s.unit p).group o.group).st == .shut))).releaseProof u o.group).bindProof
    u o.group o.proof

theorem State.openBind_of_shut {o : OpenOp} (hg : ((s.unit p).group o.group).st = .shut) (hproof : o.proof = false) :
    s.openBind u p o = ((s.marked p .m).releaseProof u o.group, false) := by
  rw [State.openBind, hg, hproof]; rfl

theorem State.openBind_of_shut_proof {o : OpenOp} (hg : ((s.unit p).group o.group).st = .shut) (hproof : o.proof = true)
    (hfree : (((s.marked p .m).releaseProof u o.group).clusterS u.cluster).proof = none) :
    s.openBind u p o = (((s.marked p .m).releaseProof u o.group).modCluster u.cluster fun c =>
      { c with proof := some ⟨u.inCluster, o.group, List.replicate 4096 .zero, false, false⟩ }, true) := by
  have hquiet : (!(((s.unit p).group o.group).st == .shut)) = false := by rw [hg]; rfl
  simp only [State.openBind, hquiet, State.accFlagIf_false, State.bindProof, hproof, hfree, Bool.not_true,
    Bool.false_eq_true, if_false]

theorem State.openBind_of_not_shut {o : OpenOp} (hg : ((s.unit p).group o.group).st ≠ .shut) (hproof : o.proof = false) :
    s.openBind u p o = (((s.marked p .m).accFlag u accReopen).releaseProof u o.group, false) := by
  rw [State.openBind, beq_eq_false_iff_ne.mpr hg, hproof]; rfl

/-- GRP_OPEN whose LOAD, where it asks for one, finds the load path free and its source local and 64 × 64 FP32. -/
theorem State.grpOpen_of_accepted (h : s.issuer u .m = some p) {o : OpenOp}
    (hload : o.load = true → (s.unit p).loadBusy ≤ s.cycle u.region ∧ ((s.unit p).openSource o).loadable = true
      ∧ (s.unit p).isFar o.desc = false) :
    s.grpOpen u o =
      (s.openBind u p o).1.setUnit p ((s.unit p).opens o (s.openBind u p o).2 (s.cycle u.region)) := by
  have hbusy : ¬ (o.load && decide (s.cycle u.region < ((s.unit p).mark .m).loadBusy)) = true := by
    cases hl : o.load with
    | false => simp
    | true =>
      obtain ⟨hidle, _⟩ := hload hl
      exact fun hlt => Nat.not_lt.mpr hidle (of_decide_eq_true hlt)
  have hrefused : ¬ (o.load && (!((s.unit p).openSource o).loadable || (s.unit p).isFar o.desc)) = true := by
    cases hl : o.load with
    | false => simp
    | true =>
      obtain ⟨_, hsrc, hfar⟩ := hload hl
      simp [hsrc, hfar]
  rw [State.grpOpen, State.issue_eq _ h]
  exact (if_neg hbusy).trans (if_neg hrefused)

/-- The reads that a GRP_OPEN makes of a source that it refuses: those of a local one (R136, log 31). -/
def UnitS.refusedReads (x : UnitS) (o : OpenOp) (c : Nat) : List LineAcc :=
  if x.isFar o.desc then [] else loadAccs c (x.sized o.desc (x.areg o.areg)).aligned

theorem UnitS.refusedReads_of_far (x : UnitS) {o : OpenOp} (hfar : x.isFar o.desc = true) (c : Nat) :
    x.refusedReads o c = [] := if_pos hfar

theorem UnitS.refusedReads_of_local (x : UnitS) {o : OpenOp} (hfar : x.isFar o.desc = false) (c : Nat) :
    x.refusedReads o c = loadAccs c (x.sized o.desc (x.areg o.areg)).aligned := if_neg (Bool.eq_false_iff.mp hfar)

/-- GRP_OPEN with LOAD whose source is refused raises FMT_BAD and changes no group (R116, R136). -/
theorem State.grpOpen_of_refused (h : s.issuer u .m = some p) {o : OpenOp} (hload : o.load = true)
    (hbusy : (s.unit p).loadBusy ≤ s.cycle u.region)
    (hrefused : ((s.unit p).openSource o).loadable = false ∨ (s.unit p).isFar o.desc = true) :
    s.grpOpen u o = (s.setUnit p { ((s.unit p).mark .m).readsOnly .m (s.cycle u.region)
        ((s.unit p).refusedReads o (s.cycle u.region)) [] with loadBusy := s.cycle u.region + 64 }).tuFlag u tuFmtBad := by
  have hfree : ¬ (o.load && decide (s.cycle u.region < ((s.unit p).mark .m).loadBusy)) = true := by
    rw [hload]; exact fun hlt => Nat.not_lt.mpr hbusy (of_decide_eq_true hlt)
  have hbad : (o.load && (!((s.unit p).openSource o).loadable || (s.unit p).isFar o.desc)) = true := by
    rcases hrefused with hsrc | hfar
    · simp [hload, hsrc]
    · simp [hload, hfar]
  rw [State.grpOpen, State.issue_eq _ h]
  refine (if_neg hfree).trans ((if_pos hbad).trans ?_)
  dsimp only
  rw [State.setUnit_marked, State.cycle_marked]
  rfl

/-! ### GRP_CLOSE -/

theorem State.grpClose_of_shut (h : s.issuer u .m = some p) {g : Fin 4} (hg : ((s.unit p).group g).st = .shut) :
    s.grpClose u g = s.marked p .m := by
  simp only [State.grpClose, State.issue_eq _ h, UnitS.group_mark, hg, beq_self_eq_true, if_true]

theorem State.grpClose_of_not_shut (h : s.issuer u .m = some p) {g : Fin 4} (hg : ((s.unit p).group g).st ≠ .shut) :
    s.grpClose u g = s.setUnit p { (s.unit p).mark .m with
      mPend := some (.close g (s.unit p).ctl.fetch (s.unit p).ctl.verso) } := by
  simp only [State.grpClose, State.issue_eq _ h, UnitS.group_mark, beq_eq_false_iff_ne.mpr hg, Bool.false_eq_true, if_false,
    State.setUnit_marked]
  rfl

end Sys2Proof.Machine
end

section
/-!
PROOF. M.MMA, GRP_OPEN and GRP_CLOSE complete: what `exec` answers is the state that the laws of the M slot give.
-/
namespace Sys2Proof.Machine

/-- Settles O12: `exec` answers the operation's state, which its law above gives for a slot that may issue; GRP_OPEN by
the state of its group, its PROOF and its LOAD. -/
theorem matrixLaunches : Obligations.MatrixLaunches := by
  refine ⟨?multiply, ?groups⟩
  case multiply =>
    intro s u p o rate h x c a b k hfree hfarA hfarB hrate hextents hgroup
    obtain ⟨accs, pops, m, hrun, hm⟩ := State.mma_of_accepted h hfree hfarA hfarB hrate hextents hgroup
    exact ⟨_, accs, pops, m, congrArg Host.Outcome.next hrun, rfl, hm.op, hm.a, hm.b, hm.rate, hm.k, hm.runs,
      hm.next, hm.dead, hm.late, hm.proof, hm.occ.trans (mmaOcc_eq ..)⟩
  case groups =>
    intro s u p g pr desc reg h x o r opened
    refine ⟨?shut, ?shutProof, ?open_, ?load, ?close, ?closeShut⟩
    case shut =>
      rintro hg rfl
      have hrun := State.grpOpen_of_accepted (o := o) h nofun
      rw [State.openBind_of_shut hg rfl, UnitS.opens_of_plain _ rfl] at hrun
      exact congrArg Host.Outcome.next hrun
    case shutProof =>
      rintro hg rfl hengine
      have hrun := State.grpOpen_of_accepted (o := o) h nofun
      rw [State.openBind_of_shut_proof (o := o) hg rfl hengine, UnitS.opens_of_plain _ rfl] at hrun
      exact congrArg Host.Outcome.next hrun
    case open_ =>
      rintro hg rfl
      have hrun := State.grpOpen_of_accepted (o := o) h nofun
      rw [State.openBind_of_not_shut hg rfl, UnitS.opens_of_plain _ rfl] at hrun
      exact congrArg Host.Outcome.next hrun
    case load =>
      rintro hg rfl hbusy src load
      refine ⟨fun hsrc hfar => congrArg Host.Outcome.next ?_, fun hfar => congrArg Host.Outcome.next ?_,
        fun hsrc hfar => congrArg Host.Outcome.next ?_⟩
      · have hrun := State.grpOpen_of_accepted (o := { o with load := true }) h fun _ => ⟨hbusy, hsrc, hfar⟩
        rw [State.openBind_of_shut hg rfl, UnitS.opens_of_load _ (o := { o with load := true }) rfl] at hrun
        exact hrun
      · have hrun := State.grpOpen_of_refused (o := { o with load := true }) h rfl hbusy (.inr hfar)
        rw [UnitS.refusedReads_of_far _ (o := { o with load := true }) hfar] at hrun
        exact hrun
      · have hrun := State.grpOpen_of_refused (o := { o with load := true }) h rfl hbusy (.inl hsrc)
        rw [UnitS.refusedReads_of_local _ (o := { o with load := true }) hfar] at hrun
        exact hrun
    case close => exact fun hg => congrArg Host.Outcome.next (State.grpClose_of_not_shut h hg)
    case closeShut => exact fun hg => congrArg Host.Outcome.next (State.grpClose_of_shut h hg)

end Sys2Proof.Machine
end

section
/-!
PROOF. Runs, comparisons and proof results (05_matrix_arithmetic.md R190, R194 to R197, R202, R203, R218, R238, R269;
12_silent_errors_and_faults.md R467, R468): what each leaves where its unit has one that is due.
-/
namespace Sys2Proof.Machine

variable {s : State} {u : LU} {p : PU}

/-! ### RUN_PROMOTION -/

theorem State.runPromotion_eq {f : Flight} {m : MmaFlight} (ups : List (Nat × Word)) (hcarrier : s.carrier u = some p)
    (hissue : (s.region u.region).suppressed = false) (hdue : (s.unit p).nextRun (s.cycle u.region) = some (f, m)) :
    s.runPromotion u ups =
      let t := s.setUnit p ((s.unit p).ranRun f m)
      if m.crossed then t.crossedRun u p m.op.group
      else
        let t := t.accFlagIf u accOutBad (m.rate.isSome && decide (m.next + 1 = m.runs)
          && ((f.outliers m true).2 || (f.outliers m false).2))
        if m.late then t.accFlag u accLate else if m.dead then t else t.liveRun u p f m ups := by
  simp only [State.runPromotion, hcarrier, hissue, hdue, Bool.false_eq_true, if_false]

theorem State.runPromotion_of_crossed {f : Flight} {m : MmaFlight} (ups : List (Nat × Word))
    (hcarrier : s.carrier u = some p) (hissue : (s.region u.region).suppressed = false)
    (hdue : (s.unit p).nextRun (s.cycle u.region) = some (f, m)) (hcrossed : m.crossed = true) :
    s.runPromotion u ups = (s.setUnit p ((s.unit p).ranRun f m)).crossedRun u p m.op.group := by
  simp only [State.runPromotion_eq ups hcarrier hissue hdue, hcrossed, if_true]

/-- A run that is not its operation's last shows no bad outlier entry (R209). -/
theorem State.runPromotion_of_inner {f : Flight} {m : MmaFlight} (ups : List (Nat × Word))
    (hcarrier : s.carrier u = some p) (hissue : (s.region u.region).suppressed = false)
    (hdue : (s.unit p).nextRun (s.cycle u.region) = some (f, m)) (hcrossed : m.crossed = false)
    (hinner : m.next + 1 < m.runs) :
    s.runPromotion u ups =
      let t := s.setUnit p ((s.unit p).ranRun f m)
      if m.late then t.accFlag u accLate else if m.dead then t else t.liveRun u p f m ups := by
  simp only [State.runPromotion_eq ups hcarrier hissue hdue, hcrossed, Nat.ne_of_lt hinner, decide_false, Bool.and_false,
    Bool.false_and, State.accFlagIf_false, Bool.false_eq_true, if_false]

/-! ### A run in force -/

/-- An operation whose reads have all been made promotes what it has read. -/
theorem UnitS.ahead_of_read (x : UnitS) {f : Flight} (hread : f.accs = []) : x.ahead f = f := by
  cases f; cases hread; rfl

/-- The flights of a unit in which an operation keeps `kept` from now on (R190). -/
def UnitS.keepBase (x : UnitS) (f : Flight) (kept : Option MmaBase) : UnitS :=
  { x with flights := x.flights.map fun e => match e.kind with
    | .mma m => if e.id = f.id then { e with kind := .mma { m with base := kept } } else e
    | _ => e }

/-- An operation that keeps no base has none to drop after a run that is not its last. -/
theorem UnitS.keepBase_ranRun (x : UnitS) (f : Flight) {m : MmaFlight} (hbase : m.base = none)
    (hinner : m.next + 1 < m.runs) : (x.ranRun f m).keepBase f none = x.ranRun f m := by
  have hran : x.ranRun f m = { x with flights := x.flights.map fun e =>
      if e.id = f.id then { e with kind := .mma { m with next := m.next + 1 } } else e } := by
    simp only [UnitS.ranRun, if_pos hinner]
  simp only [hran, UnitS.keepBase, List.map_map]
  congr 1
  refine List.map_congr_left fun e _ => ?_
  by_cases he : e.id = f.id
  · simp [he, hbase]
  · cases hk : e.kind <;> simp [he, hk]

theorem AccFlags.or_default (f : AccFlags) : AccFlags.or {} f = f := by
  simp only [AccFlags.or, Bool.false_or]

theorem promoteRuns_singleton (rate : RateClass) (a b : Side) (len n : Nat) (ups : List (Nat × Word)) (checked : Bool)
    (g : Group) : promoteRuns rate a b len n [ups] checked g = promoteRun rate a b len n ups checked g := by
  simp only [promoteRuns, List.zipIdx_cons, List.zipIdx_nil, List.foldl_cons, List.foldl_nil, Nat.add_zero,
    AccFlags.or_default]

/-- What a promotion leaves: the group with its new pairs and terms, and the flags that it raises (R196, R197, R206). -/
def State.groupPromoted (s : State) (u : LU) (p : PU) (k : Fin 4) (g : Group × AccFlags) : State :=
  (s.modUnit p fun y => y.setGroup k g.1).accFlags u g.2

theorem State.groupPromoted_setUnit_self (s : State) (u : LU) (p : PU) (k : Fin 4) (g : Group × AccFlags) :
    (s.setUnit p (s.unit p)).groupPromoted u p k g = s.groupPromoted u p k g := by
  simp only [State.groupPromoted, State.modUnit, State.unit_setUnit, State.setUnit_setUnit]

/-- One run of an operation that has made its reads, into an OPEN group (R196, R197). -/
theorem State.liveRun_of_inner {f : Flight} {m : MmaFlight} (ups : List (Nat × Word)) (hproof : m.proof = false)
    (hbase : m.base = none) (hread : f.accs = []) (hinner : m.next + 1 < m.runs)
    (hkept : (s.unit p).keepBase f none = s.unit p) :
    s.liveRun u p f m ups = s.groupPromoted u p m.op.group
      (promoteRun (m.rate.getD .c16) (f.sides m (s.unit p).sp).1 (f.sides m (s.unit p).sp).2 m.runLen m.next ups
        (s.checksOn u.d) ((s.unit p).group m.op.group)) := by
  have hlast : ¬ m.next + 1 = m.runs := Nat.ne_of_lt hinner
  have hplan : ∀ b : MmaBase, m.plan b ups = (m.next, [ups]) := fun b => if_neg hlast
  have hsame : (s.modUnit p fun y => y.keepBase f none) = s.setUnit p (s.unit p) := by
    rw [State.modUnit, hkept]
  rw [← State.groupPromoted_setUnit_self, ← hsame]
  simp only [State.liveRun, UnitS.ahead_of_read _ hread, hproof, hbase, hread, hplan, hlast, promoteRuns_singleton,
    Option.getD_none, List.isEmpty_nil, Option.isNone_none, Bool.and_self, if_true, if_false, Bool.false_eq_true,
    List.foldl_nil]
  rfl

/-! ### CHECKSUM_COMPARISON -/

theorem State.checksumComparison_of_suppressed (hcarrier : s.carrier u = some p)
    (hstill : (s.region u.region).suppressed = true) : s.checksumComparison u = s := by
  simp only [State.checksumComparison, hcarrier, hstill, if_true]

/-- A comparison that no step boundary has crossed, of terms of which none is left out, in the unit's own position. -/
theorem State.checksumComparison_of_due {d : CmpDue} {row col : Option Nat} (hcarrier : s.carrier u = some p)
    (hissue : (s.region u.region).suppressed = false) (hown : u.alt = none)
    (hdue : (s.unit p).dueCmp false (s.cycle u.region) = some d) (hon : s.checksOn u.d = true) (hcrossed : d.crossed = false)
    (hterms : compareGroup (s.rdFld (dreg .cdChkCfg u.d) 7 4) d.cells = (row, col, false)) :
    s.checksumComparison u =
      let bad := row.isSome || col.isSome
      let t := s.setUnit p ((s.unit p).endCmp d bad)
      if bad then t.mismatch u d.group row col d.bundle d.verso else t.wrBit (ureg .tuStat u) tuChkFail false := by
  simp only [State.checksumComparison, hcarrier, hissue, hown, hdue, hon, hcrossed, hterms, Bool.not_true,
    Bool.false_eq_true, if_false, Option.isSome_none]

/-! ### PROOF_RESULT -/

theorem State.proofResult_of_suppressed (hcarrier : s.carrier u = some p)
    (hstill : (s.region u.region).suppressed = true) : s.proofResult u = s := by
  simp only [State.proofResult, hcarrier, hstill, if_true]

/-- The result `cells` of a proof goes into its group, and the engine is free (R218). -/
def State.proofLands (s : State) (u : LU) (p : PU) (x : UnitS) (d : CmpDue) (cells : List Pair) : State :=
  (s.setUnit p ((x.endCmp d false).setGroup d.group { x.group d.group with cells := cells })).modCluster u.cluster fun c =>
    { c with proof := none }

theorem State.proofResult_of_due {d : CmpDue} {e : ProofS} (hcarrier : s.carrier u = some p)
    (hissue : (s.region u.region).suppressed = false) (hdue : (s.unit p).dueCmp true (s.cycle u.region) = some d)
    (hengine : (s.clusterS u.cluster).proof = some e) (hhost : e.host = false) :
    s.proofResult u =
      (if d.crossed then { s with free := s.free + 1 } else s).proofLands u p (s.unit p) d
        (if d.crossed then freeCells s.free else e.acc.map fun a => ⟨a.result, 0⟩) := by
  simp only [State.proofResult, hcarrier, hissue, hdue, hengine, Option.filter_some, hhost, Bool.not_false, if_true,
    Bool.false_eq_true, if_false]
  rfl

end Sys2Proof.Machine
end

section
/-!
PROOF. RUN_PROMOTION, CHECKSUM_COMPARISON and PROOF_RESULT: what `exec` answers is the state that their laws give.
-/
namespace Sys2Proof.Machine

/-- Settles O13: `exec` answers the state that the laws above give, for a run by what its operation has become, for a
comparison by its terms, for a proof by whether a step boundary has crossed it. -/
theorem matrixGroupsFinish : Obligations.MatrixGroupsFinish := by
  refine ⟨?runs, ?comparisons, ?proofs⟩
  case runs =>
    intro s u p ups f m hcarrier hissue hdue s1 g
    refine ⟨?live, ?late, ?dead, ?crossed⟩
    case live =>
      intro hlate hdead hproof hcrossed hbase hread hinner
      have hrun := State.runPromotion_of_inner ups hcarrier hissue hdue hcrossed hinner
      have hkept : (s1.unit p).keepBase f none = s1.unit p := by
        rw [State.unit_setUnit]; exact (s.unit p).keepBase_ranRun f hbase hinner
      have hlive := State.liveRun_of_inner (u := u) ups hproof hbase hread hinner hkept
      simp only [hlate, hdead, Bool.false_eq_true, if_false] at hrun
      rw [hlive, State.unit_setUnit] at hrun
      exact congrArg Host.Outcome.next hrun
    case late =>
      intro hlate hcrossed hinner
      have hrun := State.runPromotion_of_inner ups hcarrier hissue hdue hcrossed hinner
      exact congrArg Host.Outcome.next (hrun.trans (if_pos hlate))
    case dead =>
      intro hlate hdead hcrossed hinner
      have hrun := State.runPromotion_of_inner ups hcarrier hissue hdue hcrossed hinner
      exact congrArg Host.Outcome.next (hrun.trans ((if_neg (Bool.eq_false_iff.mp hlate)).trans (if_pos hdead)))
    case crossed =>
      exact fun hcrossed => congrArg Host.Outcome.next (State.runPromotion_of_crossed ups hcarrier hissue hdue hcrossed)
  case comparisons =>
    intro s u p d hcarrier
    refine ⟨fun hstill => ⟨congrArg Host.Outcome.next (State.checksumComparison_of_suppressed hcarrier hstill),
      congrArg Host.Outcome.next (State.proofResult_of_suppressed hcarrier hstill)⟩, ?_⟩
    intro hissue hown hdue hon hcrossed q
    refine ⟨fun hagree => ?_, fun r c hdiffer hbad => ?_⟩
    · exact congrArg Host.Outcome.next
        (State.checksumComparison_of_due hcarrier hissue hown hdue hon hcrossed hagree)
    · have hrun := State.checksumComparison_of_due hcarrier hissue hown hdue hon hcrossed hdiffer
      have hmiss : (r.isSome || c.isSome) = true := Bool.or_eq_true_iff.mpr hbad
      rw [hmiss] at hrun
      exact congrArg Host.Outcome.next hrun
  case proofs =>
    intro s u p d e hcarrier hissue hdue hengine hhost x lands
    have hrun := State.proofResult_of_due hcarrier hissue hdue hengine hhost
    refine ⟨fun hcrossed => congrArg Host.Outcome.next ?_, fun hcrossed => congrArg Host.Outcome.next ?_⟩
    · rw [hrun, hcrossed]; rfl
    · rw [hrun, hcrossed]; rfl

end Sys2Proof.Machine
end

section
/-!
PROOF. Host commands that are carried out, and the unit that a PROOF_RUN leaves (14_host_and_management.md R554, R565).
-/
namespace Sys2Proof.Machine

/-! ### A command that is carried out -/

/-- A host command with no AT, of an opcode that needs none, is carried out in the state that it is judged in. -/
theorem State.command_of_collects {s u : State} {q : Req} {c : Cmd} (hcollects : s.collects q u) (hat : q.at_ = none)
    (hwell : ∀ st, c ≠ .bad st) (htime : c.timeOk q = true) : s.command q c = u.perform q c := by
  obtain ⟨t, hopens, hu, hhost, hscan⟩ := hcollects
  have htaken : (t.take q.src).count (xreg .cmdCount) 1 = u := hu.symm
  have hjudged : t.handle q c = u.perform q c := by
    simp only [State.handle, htaken, hhost, hscan, hat, htime, Bool.false_and, Bool.false_eq_true, if_false, Bool.not_true,
      ite_self]
  simp only [State.command, hopens, hjudged]

/-! ### The group that PROOF_RUN writes -/

@[simp] theorem State.accFlags_none (s : State) (u : LU) : s.accFlags u {} = s := rfl
@[simp] theorem State.unit_modCluster (s : State) (c : ClusterId) (f : ClusterS → ClusterS) (p : PU) :
    (s.modCluster c f).unit p = s.unit p := rfl
@[simp] theorem State.unit_addJob (s : State) (q : Req) (k : JobKind) (p : PU) : (s.addJob q k).unit p = s.unit p := rfl

/-- The groups that a write of one leaves. -/
theorem UnitS.group_of_set {x y : UnitS} {j k : Fin 4} {g : Group} (hne : j ≠ k)
    (hgroups : x.groups = y.groups.set j.val g) : x.group k = y.group k := by
  rw [UnitS.group, hgroups, List.getElem?_set_ne (Fin.val_ne_of_ne hne), UnitS.group]

/-- A unit whose scratchpad a PROOF_RUN has left undefined, in a state that has used a free value for it (log 1). -/
def State.proofSpent (s : State) (x : PU) : State :=
  { s with free := s.free + 1 }.modUnit x fun y => { y with sp := y.sp.lost (2 ^ 32 * s.free + x.index) }

/-- A PROOF_RUN that is not refused: its parameters name the unit `l`, which the position `x` carries in a region with
power, on a die with no forme armed (R565). -/
structure ProofParams.RunsOn (p : ProofParams) (s : State) (l : LU) (x : PU) : Prop where
  die : p.die = l.d.val
  region : p.region = l.r.val
  cluster : p.cluster < 8
  unit : p.unit < 8
  place : 8 * p.cluster + p.unit = l.n.val
  own : l.alt = none
  low : 64 ≤ p.k
  high : p.k ≤ 4096
  idle : s.dieArmed l.d = false
  carrier : s.carrier l = some x
  sound : s.unitFallow x = false
  power : s.rdBit (rreg .pwrRegionStat l.region) 4 = true

/-- The unit that a PROOF_RUN leaves in a cluster whose engine is free: what its outlier entries raise comes before its
result is written. -/
theorem State.proofRun_unit {s : State} {l : LU} {x : PU} (q : Req) {p : ProofParams} {data : List Byte} {ws : List Word}
    {bad : Bool} (hp : p.RunsOn s l x) (hfree : (s.clusterS l.cluster).proof.isSome = false)
    (hop : proofRunOp p data true = some (ws, {}, bad)) :
    (s.proofRun q p (.bytes data)).unit x = (((s.proofSpent x).accFlagIf l accOutBad bad).unit x).setGroup 0
      ⟨.shut, ws.map fun w => ⟨w, 0⟩, List.replicate 4096 .zero⟩ := by
  obtain ⟨hdie, hregion, hcluster, hunit, hplace, hown, hlow, hhigh, hidle, hcarrier, hsound, hpower⟩ := hp
  have hnamed : p.die < 16 ∧ p.region < 4 ∧ p.cluster < 8 ∧ p.unit < 8 :=
    ⟨hdie ▸ l.d.isLt, hregion ▸ l.r.isLt, hcluster, hunit⟩
  have hunitOf : (⟨⟨p.die, hnamed.1⟩, ⟨p.region, hnamed.2.1⟩, ⟨8 * p.cluster + p.unit, by omega⟩, none⟩ : LU) = l := by
    obtain ⟨d, r, n, alt⟩ := l
    simp only [LU.mk.injEq, Fin.ext_iff]
    exact ⟨hdie, hregion, hplace, hown.symm⟩
  have hk : ¬ (p.k < 64 ∨ 4096 < p.k) := by omega
  rw [State.proofRun, dif_pos hnamed, if_neg hk]
  have hunarmed : s.dieArmed ⟨p.die, hnamed.1⟩ = false := (congrArg s.dieArmed (Fin.ext hdie)).trans hidle
  simp only [hunitOf, hunarmed, hcarrier, hsound, hpower, hfree, hop, Bool.not_true, Bool.not_false, Bool.false_eq_true,
    if_false]
  simp only [State.accFlags_none, State.unit_addJob, State.unit_modCluster, State.unit_modUnit, State.proofSpent]

end Sys2Proof.Machine
end

section
/-!
PROOF. BlocksAreCommanded fails: PROOF_RUN raises what the outlier entries of its operation call for before it writes its
result (R209, R565). Where the reaction to OUT_BAD is the fence of the unit (R495), the unit is reset on the way (R498), and
the groups that PROOF_RUN does not write are not as they were.
-/
namespace Sys2Proof.Machine

/-! ### The package, the command and its operands -/

def fencedUnit : LU := ⟨0, 0, 0, none⟩
def fencedPos : PU := ⟨0, 0, 0⟩

/-- A package at a furrow boundary with nothing armed: group 1 of the unit at position 0 is open, and the reaction of die 0 to
OUT_BAD is the fence of the unit (CD_REACT, code 1 for bit 21 of TU_ACC_STAT). -/
def fencing : State := { State.reset with
  power := { PowerS.reset with mode := .on, stage := .done }
  regs := ⟨[(xreg .secState, 0), (rreg .pwrRegionStat fencedUnit.region, 16), (⟨.cdReact, 0, 1, 0⟩, 0x400)]⟩
  units := ⟨[(fencedPos, { UnitS.reset with groups := UnitS.reset.groups.set 1 { Group.reset with st := .open_ } })]⟩ }

def proofRequest : Req := ⟨.host 0, 0x0402, 0, none, false, 0, 0, 0, 0⟩

/-- The state in which the command is judged. -/
def fencingTaken : State := ((fencing.opens).getD fencing).taken proofRequest

/-- A PROOF_RUN of `fencedUnit` on BF16 operands of 64 × 64, A with outliers. -/
def proofOutliers : ProofParams := ⟨0, 0, 0, 0, 8, 8, false, false, false, 64, true, false, 0⟩

/-- Its bytes: each entry that they hold is valid, and has no place in an operand without blocks (R209). -/
def outlierBytes : List Byte := List.replicate 16388 1

/-! ### What the model answers -/

theorem fencing_collects : fencing.collects proofRequest fencingTaken := by
  obtain ⟨t, ht⟩ := Option.isSome_iff_exists.mp (by decide +kernel : fencing.opens.isSome = true)
  exact ⟨t, ht, by rw [fencingTaken, ht, Option.getD_some], rfl, by decide +kernel⟩

theorem proofOutliers_runsOn : proofOutliers.RunsOn fencingTaken fencedUnit fencedPos where
  die := rfl
  region := rfl
  cluster := by decide
  unit := by decide
  place := rfl
  own := rfl
  low := by decide
  high := by decide
  idle := by decide +kernel
  carrier := by decide +kernel
  sound := by decide +kernel
  power := by decide +kernel

theorem fencingTaken_engine_free : (fencingTaken.clusterS fencedUnit.cluster).proof.isSome = false := by decide +kernel

theorem proofRunOp_proofOutliers : ∃ ws, proofRunOp proofOutliers outlierBytes true = some (ws, {}, true) := by
  have hrest : (proofRunOp proofOutliers outlierBytes true).map (·.2) = some ({}, true) := by decide +kernel
  obtain ⟨⟨ws, _⟩, hop, rfl⟩ := Option.map_eq_some_iff.mp hrest
  exact ⟨ws, hop⟩

theorem group1_before : ((fencingTaken.unit fencedPos).group 1).st = .open_ := by decide +kernel

/-- OUT_BAD fences the unit, which is reset. -/
theorem group1_after_outBad :
    ((((fencingTaken.proofSpent fencedPos).accFlagIf fencedUnit accOutBad true).unit fencedPos).group 1).st = .shut := by
  decide +kernel

/-! ### The statement -/

/-- Refutes O55: a proved PROOF_RUN with a bad outlier entry, on a unit that the reaction to OUT_BAD fences, closes group 1,
which the statement says is as it was. -/
theorem not_blocksAreCommanded : ¬ Obligations.BlocksAreCommanded := by
  rintro ⟨hproofs, -⟩
  obtain ⟨ws, hop⟩ := proofRunOp_proofOutliers
  have hp := proofOutliers_runsOn
  have hstays : ∃ t : State, Machine.exec (.proofRun proofRequest proofOutliers (.bytes outlierBytes)) fencing = .next t
      ∧ (t.unit fencedPos).groups = (fencingTaken.unit fencedPos).groups.set 0
        ⟨.shut, ws.map fun w => ⟨w, 0⟩, List.replicate 4096 .zero⟩ := by
    obtain ⟨-, hruns, -⟩ := hproofs fencing fencingTaken proofRequest 0 proofOutliers fencedUnit fencedPos outlierBytes
      fencing_collects rfl
    obtain ⟨-, -, hcarried⟩ := hruns hp.die hp.region hp.cluster hp.unit hp.place hp.own hp.low hp.high
    obtain ⟨-, hpowered, -⟩ := hcarried hp.idle hp.carrier hp.sound
    rw [fencingTaken_engine_free] at hpowered
    obtain ⟨t, hrun, -, hgroups, -⟩ := hpowered hp.power ws {} true hop
    exact ⟨t, hrun, hgroups⟩
  obtain ⟨t, hrun, hgroups⟩ := hstays
  have ht : t = fencingTaken.proofRun proofRequest proofOutliers (.bytes outlierBytes) :=
    (Host.Outcome.next.inj hrun).symm.trans (State.command_of_collects fencing_collects rfl (fun _ => nofun) rfl)
  have hkept : (t.unit fencedPos).group 1 = (fencingTaken.unit fencedPos).group 1 :=
    UnitS.group_of_set (by decide : (0 : Fin 4) ≠ 1) hgroups
  have hreset : ((t.unit fencedPos).group 1).st = .shut := by
    rw [ht, State.proofRun_unit _ hp fencingTaken_engine_free hop,
      UnitS.group_of_set (by decide : (0 : Fin 4) ≠ 1) rfl, group1_after_outBad]
  rw [hkept, group1_before] at hreset
  exact absurd hreset (by decide)

end Sys2Proof.Machine
end

section
/-!
PROOF. The A slot (06_unit_programming.md R224, R246): what each operation leaves where its slot may issue.
-/
namespace Sys2Proof.Machine

variable {s : State} {u : LU} {p : PU}

/-! ### The immediate -/

theorem immA_eq_toNat (imm : Half) : immA imm = (BitVec.ofNat 12 imm.toNat).toNat :=
  (BitVec.toNat_ofNat imm.toNat 12).symm

theorem immSigned_eq_signExtend (imm : Half) : immSigned imm = (BitVec.ofNat 12 imm.toNat).signExtend 32 := by
  rw [immSigned, immA_eq_toNat, BitVec.ofNat_toNat, BitVec.setWidth_eq]

theorem ofNat_immA_eq_setWidth (imm : Half) : BitVec.ofNat 32 (immA imm) = (BitVec.ofNat 12 imm.toNat).setWidth 32 := by
  rw [immA_eq_toNat, BitVec.ofNat_toNat]

/-! ### What an operation that issues leaves -/

/-- The state after an A-slot operation has issued whose result `v` is on its way to register `d`; a0 takes none (R246). -/
def State.aDelivers (s : State) (p : PU) (d : Fin 16) (v : Word) : State :=
  s.setUnit p (if d = 0 then (s.unit p).mark .a else { (s.unit p).mark .a with apend := (s.unit p).apend ++ [(d, v)] })

/-- Every A-slot operation does the same but for its result. -/
theorem State.aOp_eq (h : s.issuer u .a = some p) (d : Fin 16) (f : UnitS → Word) :
    s.aOp u d f = s.aDelivers p d (f ((s.unit p).mark .a)) := by
  rw [State.aOp, State.issue_eq _ h, State.setUnit_marked]
  rfl

/-- A slot that is not as the tables say is marked, and raises OP_BAD (R224). -/
theorem State.badSlot_eq {sl : Slot} (h : s.issuer u sl = some p) :
    s.badSlot u sl = (s.marked p sl).tuFlag u tuOpBad :=
  State.issue_eq _ h

/-! ### Operations on two registers -/

theorem State.a_add_eq (h : s.issuer u .a = some p) (d a b : Fin 16) :
    s.a_add u d a b = s.aDelivers p d ((s.unit p).areg a + (s.unit p).areg b) :=
  State.aOp_eq h d _

theorem State.a_sub_eq (h : s.issuer u .a = some p) (d a b : Fin 16) :
    s.a_sub u d a b = s.aDelivers p d ((s.unit p).areg a - (s.unit p).areg b) :=
  State.aOp_eq h d _

theorem State.a_and_eq (h : s.issuer u .a = some p) (d a b : Fin 16) :
    s.a_and u d a b = s.aDelivers p d ((s.unit p).areg a &&& (s.unit p).areg b) :=
  State.aOp_eq h d _

theorem State.a_shl_eq (h : s.issuer u .a = some p) (d a b : Fin 16) :
    s.a_shl u d a b = s.aDelivers p d ((s.unit p).areg a <<< (((s.unit p).areg b).toNat % 32)) :=
  State.aOp_eq h d _

theorem State.a_shr_eq (h : s.issuer u .a = some p) (d a b : Fin 16) :
    s.a_shr u d a b = s.aDelivers p d ((s.unit p).areg a >>> (((s.unit p).areg b).toNat % 32)) :=
  State.aOp_eq h d _

/-! ### Operations with an immediate -/

theorem State.a_addi_eq (h : s.issuer u .a = some p) (d a : Fin 16) (imm : Half) :
    s.a_addi u d a imm = s.aDelivers p d ((s.unit p).areg a + (BitVec.ofNat 12 imm.toNat).signExtend 32) := by
  rw [State.a_addi, State.aOp_eq h, immSigned_eq_signExtend, UnitS.areg_mark]

theorem State.a_andi_eq (h : s.issuer u .a = some p) (d a : Fin 16) (imm : Half) :
    s.a_andi u d a imm = s.aDelivers p d ((s.unit p).areg a &&& (BitVec.ofNat 12 imm.toNat).setWidth 32) := by
  rw [State.a_andi, State.aOp_eq h, ofNat_immA_eq_setWidth, UnitS.areg_mark]

theorem State.a_shli_of_lt (h : s.issuer u .a = some p) (d a : Fin 16) {imm : Half}
    (hlow : (BitVec.ofNat 12 imm.toNat).toNat < 32) :
    s.a_shli u d a imm = s.aDelivers p d ((s.unit p).areg a <<< (BitVec.ofNat 12 imm.toNat).toNat) := by
  rw [State.a_shli, State.aOp_eq h, immA_eq_toNat, if_neg (Nat.not_le.mpr hlow), Nat.mod_eq_of_lt hlow, UnitS.areg_mark]

theorem State.a_shri_of_lt (h : s.issuer u .a = some p) (d a : Fin 16) {imm : Half}
    (hlow : (BitVec.ofNat 12 imm.toNat).toNat < 32) :
    s.a_shri u d a imm = s.aDelivers p d ((s.unit p).areg a >>> (BitVec.ofNat 12 imm.toNat).toNat) := by
  rw [State.a_shri, State.aOp_eq h, immA_eq_toNat, if_neg (Nat.not_le.mpr hlow), Nat.mod_eq_of_lt hlow, UnitS.areg_mark]

theorem State.a_shli_of_le (h : s.issuer u .a = some p) (d a : Fin 16) {imm : Half}
    (hhigh : 32 ≤ (BitVec.ofNat 12 imm.toNat).toNat) :
    s.a_shli u d a imm = (s.marked p .a).tuFlag u tuOpBad := by
  rw [State.a_shli, immA_eq_toNat, if_pos hhigh, State.badSlot_eq h]

theorem State.a_shri_of_le (h : s.issuer u .a = some p) (d a : Fin 16) {imm : Half}
    (hhigh : 32 ≤ (BitVec.ofNat 12 imm.toNat).toNat) :
    s.a_shri u d a imm = (s.marked p .a).tuFlag u tuOpBad := by
  rw [State.a_shri, immA_eq_toNat, if_pos hhigh, State.badSlot_eq h]

/-! ### Register a0 -/

theorem UnitS.areg_zero (x : UnitS) : x.areg 0 = 0 := if_pos rfl

end Sys2Proof.Machine
end

section
/-!
PROOF. Every A-slot operation completes: what `exec` answers is the state that the laws of the A slot give.
-/
namespace Sys2Proof.Machine

/-- Settles O9: `exec` answers the operation's state, which its law above gives for a slot that may issue; a shift by
whether its immediate is below 32. -/
theorem aSlotResults : Obligations.ASlotResults := by
  refine ⟨?operations, UnitS.areg_zero⟩
  case operations =>
    intro s u p d a b imm h
    exact ⟨congrArg Host.Outcome.next (State.a_add_eq h d a b),
      congrArg Host.Outcome.next (State.a_sub_eq h d a b),
      congrArg Host.Outcome.next (State.a_and_eq h d a b),
      congrArg Host.Outcome.next (State.a_shl_eq h d a b),
      congrArg Host.Outcome.next (State.a_shr_eq h d a b),
      congrArg Host.Outcome.next (State.a_addi_eq h d a imm),
      congrArg Host.Outcome.next (State.a_andi_eq h d a imm),
      fun hlow => ⟨congrArg Host.Outcome.next (State.a_shli_of_lt h d a hlow),
        congrArg Host.Outcome.next (State.a_shri_of_lt h d a hlow)⟩,
      fun hhigh => ⟨congrArg Host.Outcome.next (State.a_shli_of_le h d a hhigh),
        congrArg Host.Outcome.next (State.a_shri_of_le h d a hhigh)⟩⟩

end Sys2Proof.Machine
end

section
/-!
PROOF. The L slot (06_unit_programming.md R224, R247 to R255): what each operation leaves where its slot may issue, and
what the end of a hold leaves.
-/
namespace Sys2Proof.Machine

variable {s : State} {u : LU} {p : PU}

/-! ### What an operation that issues leaves -/

/-- The state after an L-slot operation has issued that leaves the sequencer as `k`. -/
def State.lLeaves (s : State) (p : PU) (k : Ctl) : State := s.setUnit p { (s.unit p).mark .l with ctl := k }

/-- The state after an L-slot operation has issued that changes nothing (R252). -/
theorem State.marked_eq_lLeaves (s : State) (p : PU) :
    s.marked p .l = s.lLeaves p ((s.unit p).mark .l).ctl := rfl

theorem State.lOp_eq (h : s.issuer u .l = some p) (f : Ctl → UnitS → Ctl) :
    s.lOp u f = s.lLeaves p (f ((s.unit p).mark .l).ctl ((s.unit p).mark .l)) := by
  rw [State.lOp, State.issue_eq _ h, State.setUnit_marked, State.lLeaves]

/-! ### ARM, ENTRY and HALT -/

theorem State.armOp_eq (h : s.issuer u .l = some p) :
    s.armOp u = s.lLeaves p { ((s.unit p).mark .l).ctl with armed := true } :=
  State.lOp_eq h _

theorem State.entryOp_eq (h : s.issuer u .l = some p) (entry : Fin 1024) :
    s.entryOp u entry.val = s.lLeaves p { ((s.unit p).mark .l).ctl with entry := entry.val } := by
  rw [State.entryOp, State.lOp_eq h, Nat.mod_eq_of_lt entry.isLt]

theorem State.haltOp_eq (h : s.issuer u .l = some p) :
    s.haltOp u = s.lLeaves p { ((s.unit p).mark .l).ctl with newHold := .halted } :=
  State.lOp_eq h _

/-! ### L.WAIT (R251) -/

theorem State.waitOp_eq (h : s.issuer u .l = some p) (t : Fin 16384) :
    let k := ((s.unit p).mark .l).ctl
    s.waitOp u t.val =
      s.lLeaves p (if s.waitEnd u.region t.val ≤ s.tickIn then k else { k with newHold := .untilTick t.val }) := by
  simp only [State.waitOp, State.lOp_eq h, Nat.mod_eq_of_lt t.isLt, decide_eq_true_eq]

theorem State.waitOp_of_ahead (h : s.issuer u .l = some p) {t : Fin 16384}
    (hahead : s.tickIn < s.waitEnd u.region t.val) :
    s.waitOp u t.val = s.lLeaves p { ((s.unit p).mark .l).ctl with newHold := .untilTick t.val } := by
  rw [State.waitOp_eq h, if_neg (Nat.not_le.mpr hahead)]

theorem State.waitOp_of_come (h : s.issuer u .l = some p) {t : Fin 16384}
    (hcome : s.waitEnd u.region t.val ≤ s.tickIn) :
    s.waitOp u t.val = s.lLeaves p ((s.unit p).mark .l).ctl := by
  rw [State.waitOp_eq h, if_pos hcome]

/-! ### L.IDLE (R248) -/

theorem State.idleOp_of_ne_zero (h : s.issuer u .l = some p) {n : Fin 16384} (hn : n.val ≠ 0) :
    s.idleOp u n.val =
      s.lLeaves p { ((s.unit p).mark .l).ctl with newHold := .untilCycle (s.cycle u.region + 1 + n.val) } := by
  simp only [State.idleOp, State.issue_eq _ h, Nat.mod_eq_of_lt n.isLt, if_neg hn, State.cycle_marked,
    State.setUnit_marked, State.lLeaves]

theorem State.idleOp_zero (h : s.issuer u .l = some p) : s.idleOp u 0 = (s.marked p .l).tuFlag u tuOpBad :=
  State.issue_eq _ h

/-! ### L.LOOP (R249, R250) -/

theorem State.loopOp_eq (h : s.issuer u .l = some p) (c : Fin 16) (len : Fin 1024) :
    s.loopOp u len.val c =
      if len.val = 0 then (s.marked p .l).tuFlag u tuOpBad
      else if ((s.unit p).mark .l).ctl.loopBad len.val then (s.marked p .l).tuFlag u tuLoopBad
      else s.lLeaves p { ((s.unit p).mark .l).ctl with
        newLoop := some (len.val, (((s.unit p).mark .l).areg c).toNat) } := by
  simp only [State.loopOp, State.issue_eq _ h, Nat.mod_eq_of_lt len.isLt, State.setUnit_marked, State.lLeaves]

theorem State.loopOp_of_fits (h : s.issuer u .l = some p) (c : Fin 16) {len : Fin 1024} (hlen : len.val ≠ 0)
    (hfits : ((s.unit p).mark .l).ctl.loopBad len.val = false) :
    s.loopOp u len.val c = s.lLeaves p { ((s.unit p).mark .l).ctl with
      newLoop := some (len.val, (((s.unit p).mark .l).areg c).toNat) } := by
  rw [State.loopOp_eq h, if_neg hlen, hfits, if_neg Bool.false_ne_true]

theorem State.loopOp_of_bad (h : s.issuer u .l = some p) (c : Fin 16) {len : Fin 1024} (hlen : len.val ≠ 0)
    (hbad : ((s.unit p).mark .l).ctl.loopBad len.val = true) :
    s.loopOp u len.val c = (s.marked p .l).tuFlag u tuLoopBad := by
  rw [State.loopOp_eq h, if_neg hlen, if_pos hbad]

theorem State.loopOp_zero (h : s.issuer u .l = some p) (c : Fin 16) :
    s.loopOp u 0 c = (s.marked p .l).tuFlag u tuOpBad :=
  State.loopOp_eq h c 0

/-! ### L.SKIP (R252, R255) -/

theorem State.skipOp_eq (h : s.issuer u .l = some p) (flag : Fin 16) (sense : Bool) (skip : Fin 1024) :
    s.skipOp u flag.val sense skip.val =
      if !((s.unit p).mark .l).ctl.segEnd then (s.marked p .l).tuFlag u tuOpBad
      else if (s.marked p .l).skipFlag u ((s.unit p).mark .l) flag.val == sense then
        s.lLeaves p { ((s.unit p).mark .l).ctl with skip := skip.val }
      else s.marked p .l := by
  simp only [State.skipOp, State.issue_eq _ h, Nat.mod_eq_of_lt flag.isLt, Nat.mod_eq_of_lt skip.isLt,
    State.setUnit_marked, State.lLeaves]

theorem State.skipOp_of_early (h : s.issuer u .l = some p) (flag : Fin 16) (sense : Bool) (skip : Fin 1024)
    (hearly : ((s.unit p).mark .l).ctl.segEnd = false) :
    s.skipOp u flag.val sense skip.val = (s.marked p .l).tuFlag u tuOpBad := by
  rw [State.skipOp_eq h, hearly]; rfl

theorem State.skipOp_of_taken (h : s.issuer u .l = some p) {flag : Fin 16} {sense : Bool} (skip : Fin 1024)
    (hend : ((s.unit p).mark .l).ctl.segEnd = true)
    (htaken : (s.marked p .l).skipFlag u ((s.unit p).mark .l) flag.val = sense) :
    s.skipOp u flag.val sense skip.val = s.lLeaves p { ((s.unit p).mark .l).ctl with skip := skip.val } := by
  rw [State.skipOp_eq h, hend, Bool.not_true, if_neg Bool.false_ne_true, if_pos (beq_iff_eq.mpr htaken)]

theorem State.skipOp_of_not_taken (h : s.issuer u .l = some p) {flag : Fin 16} {sense : Bool} (skip : Fin 1024)
    (hend : ((s.unit p).mark .l).ctl.segEnd = true)
    (hfails : (s.marked p .l).skipFlag u ((s.unit p).mark .l) flag.val ≠ sense) :
    s.skipOp u flag.val sense skip.val = s.lLeaves p ((s.unit p).mark .l).ctl := by
  rw [State.skipOp_eq h, hend, Bool.not_true, if_neg Bool.false_ne_true, if_neg (mt beq_iff_eq.mp hfails),
    State.marked_eq_lLeaves]

/-! ### The end of a hold (R248, R251) -/

/-- The state in which the unit at `p` is held no longer. -/
def State.releases (s : State) (p : PU) : State :=
  s.setUnit p { s.unit p with ctl := { (s.unit p).ctl with hold := .none } }

theorem State.waitExpiry_of_come {t : Nat} (hcarrier : s.carrier u = some p) (hissues : s.regionIssues u.region = true)
    (hhold : (s.unit p).ctl.hold = .untilTick t) (hcome : s.waitEnd u.region t ≤ s.tickIn) :
    s.waitExpiry u = s.releases p := by
  simp only [State.waitExpiry, hcarrier, hhold, hcome, hissues, decide_true, Bool.and_self, if_true]
  rfl

theorem State.idleExpiry_of_come {c : Nat} (hcarrier : s.carrier u = some p) (hissues : s.regionIssues u.region = true)
    (hhold : (s.unit p).ctl.hold = .untilCycle c) (hcome : c ≤ s.cycle u.region) :
    s.idleExpiry u = s.releases p := by
  simp only [State.idleExpiry, hcarrier, hhold, hcome, hissues, decide_true, Bool.and_self, if_true]
  rfl

end Sys2Proof.Machine
end

section
/-!
PROOF. Every L-slot operation completes: what `exec` answers is the state that the laws of the L slot give.
-/
namespace Sys2Proof.Machine

/-- Settles O10: `exec` answers the operation's state, which its law above gives for a slot that may issue, in its plain
form and in each NOP form; a hold ends by the law of its own kind. -/
theorem lSlotRuns : Obligations.LSlotRuns := by
  refine ⟨?operations, ?nops, ?holds⟩
  case operations =>
    intro s u p c len skip entry t n flag sense h
    exact ⟨congrArg Host.Outcome.next (State.armOp_eq h),
      congrArg Host.Outcome.next (State.entryOp_eq h entry),
      congrArg Host.Outcome.next (State.haltOp_eq h),
      fun hahead => congrArg Host.Outcome.next (State.waitOp_of_ahead h hahead),
      fun hcome => congrArg Host.Outcome.next (State.waitOp_of_come h hcome),
      fun hn => congrArg Host.Outcome.next (State.idleOp_of_ne_zero h hn),
      fun hlen hfits => congrArg Host.Outcome.next (State.loopOp_of_fits h c hlen hfits),
      fun hend htaken => congrArg Host.Outcome.next (State.skipOp_of_taken h skip hend htaken),
      fun hend hfails => congrArg Host.Outcome.next (State.skipOp_of_not_taken h skip hend hfails)⟩
  case nops =>
    intro s u p c len skip flag sense sl
    refine ⟨fun h => ?_, fun h => congrArg Host.Outcome.next (State.badSlot_eq h)⟩
    exact ⟨congrArg Host.Outcome.next (State.idleOp_zero h),
      congrArg Host.Outcome.next (State.loopOp_zero h c),
      fun hlen hbad => congrArg Host.Outcome.next (State.loopOp_of_bad h c hlen hbad),
      fun hearly => congrArg Host.Outcome.next (State.skipOp_of_early h flag sense skip hearly)⟩
  case holds =>
    intro s u p hcarrier hissues
    exact ⟨fun t hhold hcome => congrArg Host.Outcome.next (State.waitExpiry_of_come hcarrier hissues hhold hcome),
      fun c hhold hcome => congrArg Host.Outcome.next (State.idleExpiry_of_come hcarrier hissues hhold hcome)⟩

end Sys2Proof.Machine
end

section
/-!
PROOF. The landing of far moves and of pushed tiles (06_unit_programming.md R235, R243, R258, R260 to R262, R264 to R267,
R269): what the next line, and the next tile, of a move in flight leaves.
-/
namespace Sys2Proof.Machine

variable {s : State} {u : LU} {p : PU} {f : Flight} {m : MoveFlight} {t : Far} {b : List Byte}

/-! ### The line that is next -/

/-- The next line of a move in flight is due: the unit at `p`, which carries `u`, has the move `m` to or from `t` in
flight as `f`, and the line's tick has come (R235). -/
structure State.LineDue (s : State) (u : LU) (p : PU) (f : Flight) (m : MoveFlight) (t : Far) : Prop where
  carrier : s.carrier u = some p
  flight : (s.unit p).flight f.id = some f
  kind : f.kind = .move m
  far : m.far = some t
  more : m.next < m.total
  tick : m.landTick (s.region u.region).gear ≤ s.now

/-- A line that is due is brought in by a load, a receive and an X.ILOAD, once a receive has tested its tag (R266). -/
theorem State.moveLineLand_of_inbound (h : s.LineDue u p f m t) (hin : m.kind = .ld ∨ m.kind = .recv ∨ m.kind = .iload)
    (e : LineEcc) :
    s.moveLineLand u f.id e = (s.recvCheck u p f m).1.bringLine u p f (s.recvCheck u p f m).2 t e := by
  obtain ⟨hcarrier, hflight, hkind, hfar, hmore, htick⟩ := h
  simp only [State.moveLineLand, hcarrier, hflight, hkind, hfar, if_neg (Nat.not_le.mpr hmore), htick, decide_true,
    Bool.not_true, Bool.false_eq_true, if_false]
  obtain hk | hk | hk := hin <;> rw [hk]

/-- A line that is due and has been read is sent out by a store and a send. -/
theorem State.moveLineLand_of_outbound (h : s.LineDue u p f m t) (hout : m.kind = .st ∨ m.kind = .send) (e : LineEcc)
    (hread : f.caught.lines.get? (0, m.next) = some b) : s.moveLineLand u f.id e = s.sendLine u p f m t b := by
  obtain ⟨hcarrier, hflight, hkind, hfar, hmore, htick⟩ := h
  simp only [State.moveLineLand, hcarrier, hflight, hkind, hfar, if_neg (Nat.not_le.mpr hmore), htick, decide_true,
    if_true, hread]
  obtain hk | hk := hout <;> rw [hk]

/-! ### A line that comes in -/

/-- A move that is no receive, and a receive that has tested its tag, test none (R266). -/
theorem State.recvCheck_of_settled (h : m.kind ≠ .recv ∨ m.checked = true) : s.recvCheck u p f m = (s, m) := by
  have hsettled : (m.kind != .recv || m.checked || !m.carried) = true := by
    obtain hkind | hchecked := h
    · rw [bne_iff_ne.mpr hkind, Bool.true_or, Bool.true_or]
    · rw [hchecked, Bool.or_true, Bool.true_or]
  rw [State.recvCheck, if_pos hsettled]

/-- A load and an X.ILOAD land the bytes that the cache or the stack delivers. -/
theorem State.bringLine_of_data (hkind : m.kind = .ld ∨ m.kind = .iload) (hlive : m.dead = false) {e : LineEcc}
    (hdata : (s.farRead (m.issuer u.d) t (t.addr + 128 * m.next) e).2 = .data b) :
    s.bringLine u p f m t e =
      (s.farRead (m.issuer u.d) t (t.addr + 128 * m.next) e).1.landLine u p f m b false := by
  obtain hk | hk := hkind <;> simp only [State.bringLine, hlive, hk, hdata, Bool.false_eq_true, if_false]

/-- A receive lands the bytes of its buffer (R266). -/
theorem State.bringLine_of_buffer (hkind : m.kind = .recv) (hlive : m.dead = false) (e : LineEcc) {id : BufId}
    (hid : t.bufId = some id) (hwhole : (((s.recvBuf id).data.drop (128 * m.next)).take 128).length = 128) :
    s.bringLine u p f m t e =
      s.landLine u p f m (((s.recvBuf id).data.drop (128 * m.next)).take 128) false := by
  simp only [State.bringLine, hlive, hkind, hid, hwhole, Nat.sub_self, List.replicate_zero, List.append_nil,
    Bool.false_eq_true, if_false]

/-! ### Where a line that comes in goes -/

/-- The access by which a line that has come in enters scratchpad, in the cycle in which it lands (R258). -/
def State.landAcc (s : State) (u : LU) (m : MoveFlight) (b : List Byte) : LineAcc :=
  ⟨s.cycle u.region, (m.lines[m.next]?).getD 0, none, 1, m.next, .land (b.map some) false⟩

/-- The line of a load and of a receive, outside the galleys and before a step boundary, goes to its access. -/
theorem State.landLine_of_local (hkind : m.kind = .ld ∨ m.kind = .recv) (hgal : m.gal = none) (hown : m.own = true) :
    s.landLine u p f m b false = s.modUnit p fun x => x.moved f m [s.landAcc u m b] := by
  obtain hk | hk := hkind <;> simp only [State.landLine, hk, hgal, hown, if_true] <;> rfl

/-- A move that goes on changes its unit's flights alone. -/
theorem UnitS.moved_eq (x : UnitS) (f : Flight) (m : MoveFlight) (accs : List LineAcc) :
    x.moved f m accs = { x with flights := (x.moved f m accs).flights } := by
  simp only [UnitS.moved]
  split <;> rfl

/-- The unit with the bytes of line `n` in the instruction bank that `verso` names (R267). -/
def UnitS.fillBank (x : UnitS) (verso : Bool) (n : Nat) (b : List Byte) : UnitS :=
  if verso then { x with verso := x.verso.write (128 * n) b } else { x with recto := x.recto.write (128 * n) b }

/-- The line of an X.ILOAD goes to the bank that is not active, where no step boundary has passed (R267). -/
theorem State.landLine_of_iload (hkind : m.kind = .iload) (hown : m.own = true)
    (hidle : m.bank = !(s.unit p).ctl.verso) (blank : Bool) :
    s.landLine u p f m b blank = s.setUnit p (((s.unit p).moved f m []).fillBank m.bank m.next b) := by
  have hinactive : ((s.unit p).ctl.verso == m.bank) = false := by rw [hidle]; cases (s.unit p).ctl.verso <;> rfl
  simp only [State.landLine, hkind, hown, hinactive, beq_self_eq_true, if_true, Bool.false_eq_true, if_false,
    UnitS.fillBank]
  cases m.bank <;> simp only [State.modUnit, State.unit_setUnit, State.setUnit_setUnit, if_true, Bool.false_eq_true, if_false]

/-- What filling a bank leaves of a unit whose move has gone on: its scratchpad, its groups, its sequencer and the other
bank. -/
theorem UnitS.fillBank_moved (x : UnitS) (f : Flight) (m : MoveFlight) (b : List Byte) :
    let y := (x.moved f m []).fillBank m.bank m.next b
    y.sp = x.sp ∧ y.groups = x.groups ∧ y.ctl = x.ctl
      ∧ y.verso = (if m.bank then x.verso.write (128 * m.next) b else x.verso)
      ∧ y.recto = (if m.bank then x.recto else x.recto.write (128 * m.next) b) := by
  rw [UnitS.moved_eq]
  cases m.bank <;> exact ⟨rfl, rfl, rfl, rfl, rfl⟩

/-! ### A line that goes out -/

/-- A store of a unit in its own position is not barred, and goes to its target (R245, R482). -/
theorem State.sendLine_of_store (hkind : m.kind = .st) (hlive : m.dead = false) (hown : u.alt = none)
    (haccepted : (s.farWrite (m.issuer u.d) t (t.addr + 128 * m.next) b).2 ≠ .error) :
    s.sendLine u p f m t b =
      (s.farWrite (m.issuer u.d) t (t.addr + 128 * m.next) b).1.modUnit p fun x => x.moved f m [] := by
  have hgood := beq_eq_false_iff_ne.mpr haccepted
  simp only [State.sendLine, hkind, hlive, hown, hgood, Option.isSome_none, Bool.false_and, Bool.or_self,
    Bool.false_eq_true, if_false]
  rfl

/-- A send of a unit in its own position is not barred, and goes to its buffer (R265). -/
theorem State.sendLine_of_send (hkind : m.kind = .send) (hlive : m.dead = false) (hown : u.alt = none) :
    s.sendLine u p f m t b = (s.sendInto m t b f.caught.blank).modUnit p fun x => x.moved f m [] := by
  simp only [State.sendLine, hkind, hlive, hown, Option.isSome_none, Bool.false_and, Bool.or_self]
  rfl

/-! ### The tile that is next -/

/-- The next tile `k` of the move `m` is whole: the unit at `p`, which carries `u`, has the move in flight as `f`, its
region's cycle counts for it (R256), and the tile goes to galley `g` with the bytes `b`. -/
structure State.TileDue (s : State) (u : LU) (p : PU) (f : Flight) (m : MoveFlight) (k : Nat) (g : Fin 8)
    (b : List Byte) : Prop where
  carrier : s.carrier u = some p
  cycle : (s.region u.region).suppressed = false ∨ f.onHall = true
  flight : (s.unit p).flight f.id = some f
  kind : f.kind = .move m
  tile : (s.unit p).nextTile f (s.cycle u.region) = some (k, g, b)

variable {k : Nat} {g : Fin 8}

theorem State.galleyPushLand_eq (h : s.TileDue u p f m k g b) :
    s.galleyPushLand u f.id =
      if (f.tileAccs k).isEmpty then s.landTile u p f k g b
      else s.setUnit p ((s.unit p).setFlight { f with armed := true }) := by
  obtain ⟨hcarrier, hcycle, hflight, -, htile⟩ := h
  have hcounts : ((s.region u.region).suppressed && !f.onHall) = false := by
    obtain hrun | hhall := hcycle
    · rw [hrun, Bool.false_and]
    · rw [hhall, Bool.not_true, Bool.and_false]
  simp only [State.galleyPushLand, hcarrier, hflight, hcounts, htile, Bool.false_eq_true, if_false]

/-- A tile whose lines have all had their accesses lands now. -/
theorem State.galleyPushLand_of_read (h : s.TileDue u p f m k g b) (hread : f.tileAccs k = []) :
    s.galleyPushLand u f.id = s.landTile u p f k g b := by
  rw [State.galleyPushLand_eq h, hread, List.isEmpty_nil, if_pos rfl]

/-- A tile whose last line has its access in this cycle waits for the cycle's end (R262). -/
theorem State.galleyPushLand_of_waiting (h : s.TileDue u p f m k g b) (hwaits : f.tileAccs k ≠ []) :
    s.galleyPushLand u f.id = s.setUnit p ((s.unit p).setFlight { f with armed := true }) := by
  rw [State.galleyPushLand_eq h, if_neg (mt List.isEmpty_iff.mp hwaits)]

/-- The state in which the tile of `f` has been taken from the move, before its galley has it. -/
def State.tileTaken (s : State) (p : PU) (f : Flight) : State := s.setUnit p ((s.unit p).pushedOne f)

/-- The state in which galley `g` of the unit at `p` is undefined (R269, log 1). -/
def State.galleyLost (s : State) (p : PU) (g : Fin 8) : State :=
  { s.modUnit p fun y => y.freeGalley s.free g with free := s.free + 1 }

theorem State.landTile_of_move (hkind : f.kind = .move m) :
    s.landTile u p f k g b =
      let after := s.tileTaken p f
      if !after.galleyOn u g || decide (16 ≤ ((s.unit p).galley g).count) then
        after.moveSuspect u.d m (ureg .tuStat u) tuGalleyOver
      else if m.own then
        after.pushTile u p g ((s.unit p).tileBytes f g k b) f.caught.blank f.caught k
      else after.galleyLost p g := by
  simp only [State.landTile, hkind]
  rfl

/-- A galley that is on and has room takes the tile, or is undefined where the move has crossed a step boundary
(R262, R269). -/
theorem State.landTile_of_room (hkind : f.kind = .move m) (hon : (s.tileTaken p f).galleyOn u g = true)
    (hroom : ((s.unit p).galley g).count < 16) :
    s.landTile u p f k g b =
      if m.own then
        (s.tileTaken p f).pushTile u p g ((s.unit p).tileBytes f g k b) f.caught.blank f.caught k
      else (s.tileTaken p f).galleyLost p g := by
  have htakes : (!(s.tileTaken p f).galleyOn u g || decide (16 ≤ ((s.unit p).galley g).count)) = false := by
    rw [hon, decide_eq_false (Nat.not_le.mpr hroom)]; rfl
  rw [State.landTile_of_move hkind]
  exact if_neg (Bool.eq_false_iff.mp htakes)

/-- A galley that is off or full drops the tile (R260, R264). -/
theorem State.landTile_of_dropped (hkind : f.kind = .move m)
    (hdrops : (s.tileTaken p f).galleyOn u g = false ∨ 16 ≤ ((s.unit p).galley g).count) :
    s.landTile u p f k g b = (s.tileTaken p f).moveSuspect u.d m (ureg .tuStat u) tuGalleyOver := by
  have hover : (!(s.tileTaken p f).galleyOn u g || decide (16 ≤ ((s.unit p).galley g).count)) = true :=
    Bool.or_eq_true_iff.mpr (hdrops.imp (congrArg not) decide_eq_true)
  rw [State.landTile_of_move hkind]
  exact if_pos hover

end Sys2Proof.Machine
end

section
/-!
PROOF. MOVE_LINE_LAND and GALLEY_PUSH_LAND: what `exec` answers is the state that their laws give.
-/
namespace Sys2Proof.Machine

/-- Settles O17: a line by the kind of its move, which brings it in or sends it out; a tile by whether its lines have had
their accesses, then by what its galley does with it. -/
theorem movesLand : Obligations.MovesLand := by
  refine ⟨?lines, ?tiles⟩
  case lines =>
    intro s u p f m t e b hcarrier hflight hkind hfar hmore hlive hown htick n line read wrote here r
    have hdue : s.LineDue u p f m t := ⟨hcarrier, hflight, hkind, hfar, hmore, htick⟩
    refine ⟨?load, ?receive, ?iload, ?store, ?send⟩
    case load =>
      intro hk hgal hfirst hdata
      have hrun := State.moveLineLand_of_inbound hdue (.inl hk) e
      rw [State.recvCheck_of_settled (.inl (by rw [hk]; nofun)), State.bringLine_of_data (.inl hk) hlive hdata,
        State.landLine_of_local (.inl hk) hgal hfirst] at hrun
      exact congrArg Host.Outcome.next hrun
    case receive =>
      rintro id hk hgal hfirst hchecked hid rfl hwhole
      have hrun := State.moveLineLand_of_inbound hdue (.inr (.inl hk)) e
      rw [State.recvCheck_of_settled (.inr hchecked), State.bringLine_of_buffer hk hlive e hid hwhole,
        State.landLine_of_local (.inr hk) hgal hfirst] at hrun
      exact congrArg Host.Outcome.next hrun
    case iload =>
      intro hk hfirst hdata hidle x
      have hrun := State.moveLineLand_of_inbound hdue (.inr (.inr hk)) e
      rw [State.recvCheck_of_settled (.inl (by rw [hk]; nofun)), State.bringLine_of_data (.inr hk) hlive hdata,
        State.landLine_of_iload hk hfirst hidle] at hrun
      exact ⟨_, congrArg Host.Outcome.next hrun, x.fillBank_moved f m b⟩
    case store =>
      intro hk hread haccepted
      have hrun := State.moveLineLand_of_outbound hdue (.inl hk) e hread
      rw [State.sendLine_of_store hk hlive hown haccepted] at hrun
      exact congrArg Host.Outcome.next hrun
    case send =>
      intro hk hread
      have hrun := State.moveLineLand_of_outbound hdue (.inr hk) e hread
      rw [State.sendLine_of_send hk hlive hown] at hrun
      exact congrArg Host.Outcome.next hrun
  case tiles =>
    intro s u p f m k g b hcarrier hcycle hflight hkind htile x after
    have hdue : s.TileDue u p f m k g b := ⟨hcarrier, hcycle, hflight, hkind, htile⟩
    refine ⟨fun hread => ?read, fun hwaits => congrArg Host.Outcome.next (State.galleyPushLand_of_waiting hdue hwaits)⟩
    have hrun := State.galleyPushLand_of_read hdue hread
    refine ⟨fun hon hroom => ?room, fun hdrops => ?dropped⟩
    case room =>
      have hland := hrun.trans (State.landTile_of_room hkind hon hroom)
      exact ⟨fun hfirst => congrArg Host.Outcome.next (hland.trans (if_pos hfirst)),
        fun hcrossed => congrArg Host.Outcome.next (hland.trans (if_neg (Bool.eq_false_iff.mp hcrossed)))⟩
    case dropped => exact congrArg Host.Outcome.next (hrun.trans (State.landTile_of_dropped hkind hdrops))

end Sys2Proof.Machine
end

section
/-!
PROOF. The update engine: what a program word, an invocation's start and its end leave (07_training_step.md R292 to R303).
-/
namespace Sys2Proof.Machine

theorem State.modDie_modDie (s : State) (d : Die) (f g : DieS → DieS) :
    (s.modDie d f).modDie d g = s.modDie d (g ∘ f) := by
  simp [State.modDie, State.die]

/-! ### A program word at its turn (R294 to R296, R303) -/

/-- A program word at place `pc` leaves the run `r`: the next word comes, and after word 63 the band ends (R295). -/
def State.ranWord (s : State) (d : Die) (pc : Nat) (r : InvRun) : State :=
  let next := { r with pc := pc + 1 }
  let t := s.modUpd d fun u => { u with run := some next }
  if pc = 63 then t.endBand d next else t

section Words

variable {s : State} {d : Die} {r : InvRun} {x : Word} (hat : s.uAt d = some (r, x))
include hat

theorem State.uRun_of_at {w : Word} (hx : x = w) (f : UpdS → InvRun → InvRun) :
    s.uRun d w f = s.ranWord d r.pc (f (s.die d).upd r) := by
  have hlast : r.pc + 1 = 64 ↔ r.pc = 63 := by omega
  simp only [State.uRun, hat, hx, ne_eq, not_true_eq_false, if_false, hlast, State.ranWord]

theorem State.u1_of_at {op : Nat} {e : Fin 16} {a : Fin 32} (hx : x = uWord op e a 0 0 0 false)
    (f : List E40 → List E40) :
    s.u1 d op e a f = s.ranWord d r.pc (r.setReg e (f (r.operand (s.die d).upd.row a))) :=
  State.uRun_of_at hat hx _

theorem State.u2_of_at {op : Nat} {e : Fin 16} {a b : Fin 32} (hx : x = uWord op e a b 0 0 false)
    (f : Val → Val → Val) :
    s.u2 d op e a b f = s.ranWord d r.pc
      (r.setReg e (eLift2 f (r.operand (s.die d).upd.row a) (r.operand (s.die d).upd.row b))) :=
  State.uRun_of_at hat hx _

theorem State.u3_of_at {op : Nat} {e : Fin 16} {a b c : Fin 32} (hx : x = uWord op e a b c 0 false)
    (f : Val → Val → Val → Val) :
    s.u3 d op e a b c f = s.ranWord d r.pc (r.setReg e (eLift3 f (r.operand (s.die d).upd.row a)
      (r.operand (s.die d).upd.row b) (r.operand (s.die d).upd.row c))) :=
  State.uRun_of_at hat hx _

theorem State.uLd_of_at {e : Fin 16} {st : Fin 8} (hx : x = uWord 11 e 0 0 0 st false) :
    s.uLd d e st = s.ranWord d r.pc (r.setReg e (r.ins.getD st.val [])) :=
  State.uRun_of_at hat hx _

theorem State.uSt_of_at {a : Fin 32} {st : Fin 8} (hx : x = uWord 12 0 a 0 0 st false) :
    s.uSt d a st = s.ranWord d r.pc { r with outs := r.outs.set st.val (r.operand (s.die d).upd.row a) } :=
  State.uRun_of_at hat hx _

/-- Without SR no element's draw is looked at, so where it lies in the tensor does not matter (R303). -/
theorem State.uStw_of_at {a : Fin 32} {st : Fin 8} (hx : x = uWord 13 0 a 0 0 st false) :
    s.uStw d a st false = s.ranWord d r.pc
      { r with words := r.words.set st.val ((r.operand (s.die d).upd.row a).map fun y => stwWord y none) } := by
  have hplain (l : List E40) : (l.zipIdx.map fun e => stwWord e.1 none) = l.map fun y => stwWord y none := by
    have hmap := List.map_map (f := Prod.fst) (g := fun y : E40 => stwWord y none) (l := l.zipIdx)
    rw [List.zipIdx_map_fst] at hmap
    exact hmap.symm
  simp only [State.uStw, State.uRun_of_at hat hx, Bool.false_eq_true, if_false, hplain]

/-- U.END ends the band of the run that is at it (R295). -/
theorem State.uEnd_of_at (hx : x = uWord 0x3F 0 0 0 0 0 false) : s.uEnd d = s.endBand d r := by
  simp only [State.uEnd, hat, hx, if_true]

end Words

/-! ### The end of a band (R293) -/

/-- The last band of an invocation that has no output writes nothing. -/
theorem State.endBand_of_no_output {s : State} {d : Die} {r : InvRun} (hout : ∀ t ∈ r.inv.streams, t.en = false ∨ t.output = false)
    (hlast : r.inv.bands ≤ r.band + 1) :
    s.endBand d r = s.modUpd d fun u => { u with wrote := s.now, run := some { r with band := r.band + 1 } } := by
  have hwrites : r.inv.streams.zipIdx.foldl (fun s e => if e.1.en && e.1.output then s.bandOut d e.1 e.2 r else s) s = s := by
    refine List.foldlRecOn (motive := (· = s)) _ _ rfl fun t ht e he => ?_
    have hidle : (e.1.en && e.1.output) = false := Bool.and_eq_false_iff.mpr (hout e.1 (List.fst_mem_of_mem_zipIdx he))
    rw [hidle, ht]; rfl
  simp only [State.endBand, hwrites, Nat.not_lt.mpr hlast, if_false, State.modUpd, State.modDie_modDie, Function.comp_def]

/-! ### An invocation's start and end (R292, R297, R298, R301) -/

/-- The next invocation of a die is due: its predecessor has ended, its START tick has come in its furrow, and the die
runs (R292). -/
structure State.InvDue (s : State) (d : Die) (p : Part) (fd : FormeDie) (v : Invocation) : Prop where
  runs : s.running d = some p
  forme : s.formeDie d = some fd
  clock : s.clockOut (.uncore d) = false
  isOpen : s.dieClosed d = false
  idle : (s.die d).upd.run = none
  next : fd.schedule[(s.die d).upd.next]? = some v
  start : v.start ≤ s.stepTick p
  furrow : s.invFurrow p v = s.now / 16384

/-- The run of an invocation that begins as number `n` of the schedule. -/
def State.begunRun (s : State) (d : Die) (fd : FormeDie) (v : Invocation) (n : Nat) (bad : Bool) : InvRun :=
  ⟨n, v, s.now, s.now + v.ticks (s.queueRate d fd.queueBytes), s.now / 16384, 0, 0, .empty, .empty, .empty, .empty, bad⟩

/-- What the checks of an invocation raise (R297, R298): PROG_BAD and FMT_BAD, with one suspect event. -/
def State.invChecked (s : State) (d : Die) (bad fmt : Bool) : State :=
  match bad, fmt with
  | false, true => s
  | false, false => s.raiseSuspect (updReg d) 1
  | true, true => s.raiseSuspect (updReg d) 2
  | true, false => (s.raiseSuspect (updReg d) 2).raiseBit (updReg d) 1 true

theorem State.invChecked_of_refused (s : State) (d : Die) {bad fmt : Bool} (h : bad = true ∨ fmt = false) :
    s.invChecked d bad fmt = if bad = false then s.raiseSuspect (updReg d) 1
      else if fmt = true then s.raiseSuspect (updReg d) 2
      else (s.raiseSuspect (updReg d) 2).raiseBit (updReg d) 1 true :=
  match bad, fmt, h with
  | false, false, _ => rfl
  | true, true, _ => rfl
  | true, false, _ => rfl

/-- A run begins in the update engine, which goes on in its schedule. -/
def State.invBegins (s : State) (d : Die) (r : InvRun) : State :=
  s.modUpd d fun u => { u with run := some r, next := u.next + 1 }

section Invocations

variable {s : State} {d : Die} {p : Part} {fd : FormeDie} {v : Invocation}

/-- An invocation that is due is checked and begins; a good one loads its first band where it has one and the forme
gives it the HBM slots that it needs (R16, log 30). -/
theorem State.invStart_of_due (h : s.InvDue d p fd v) {bad fmt : Bool}
    (hprog : v.progBad ((fd.programs[v.prog]?).getD []) = bad) (hfmt : v.streams.all Stream.fmtOk = fmt) :
    let t := s.invChecked d bad fmt
    let r := t.begunRun d fd v (s.die d).upd.next (bad || !fmt)
    s.invStart d = if r.bad || v.bands == 0 || (fd.queueBytes == 0 && v.hbmBytes != 0) then t.invBegins d r
      else (t.invBegins d r).loadBand d r := by
  obtain ⟨hruns, hforme, hclock, hopen, hidle, hnext, hstart, hfurrow⟩ := h
  have hgo : (decide (s.stepTick p < v.start) || s.invFurrow p v != s.now / 16384 || s.dieClosed d
      || s.clockOut (.uncore d)) = false := by
    simp [hclock, hopen, hfurrow, hstart]
  simp only [State.invStart, hruns, hforme, hidle, hnext, hgo, hprog, hfmt, Bool.false_eq_true, if_false]
  cases bad <;> cases fmt <;> rfl

/-- An invocation whose ticks and bands are over ends (R301). -/
theorem State.invEnd_of_over {r : InvRun} (hrun : (s.die d).upd.run = some r) (hticks : r.ends ≤ s.now)
    (hbands : r.inv.bands ≤ r.band) : s.invEnd d = s.modUpd d fun u => { u with run := none } := by
  simp only [State.invEnd, hrun, hticks, hbands, or_true, and_self, if_true]

end Invocations

end Sys2Proof.Machine
end

section
/-!
PROOF. Every word of the update engine, and the course of its invocations: what `exec` answers is the state that the
engine's laws give.
-/
namespace Sys2Proof.Machine

/-- Settles O20: each word has its own law, whose right side is the word's result in the run's registers or streams. -/
theorem updateWordsRun : Obligations.UpdateWordsRun := by
  intro s die r x d a b c st hat u o set reg
  refine ⟨fun h => ?add, fun h => ?sub, fun h => ?mul, fun h => ?fma, fun h => ?div, fun h => ?sqrt, fun h => ?rsq,
    fun h => ?sign, fun h => ?abs, fun h => ?clamp, fun h => ?ld, fun h => ?st, fun h => ?stw⟩
  case add | sub | mul | div => exact congrArg Host.Outcome.next (State.u2_of_at hat h _)
  case fma | clamp => exact congrArg Host.Outcome.next (State.u3_of_at hat h _)
  case sqrt | rsq | sign | abs => exact congrArg Host.Outcome.next (State.u1_of_at hat h _)
  case ld => exact congrArg Host.Outcome.next (State.uLd_of_at hat h)
  case st => exact congrArg Host.Outcome.next (State.uSt_of_at hat h)
  case stw => exact congrArg Host.Outcome.next (State.uStw_of_at hat h)

/-- Settles O19: an invocation starts by what its checks find and ends when it is over; U.END ends the band, and the last
band of an invocation without outputs leaves only its count. That a refused one lasts its time is log 11's reading of R297,
and that no band is loaded where the forme gives no HBM slots is log 30's of R16. -/
theorem updatesRun : Obligations.UpdatesRun := by
  refine ⟨?course, ?words⟩
  case course =>
    intro s d p fd v r hruns hforme hclock hopen u begun bad fmt begins
    refine ⟨?starts, fun hrun hticks hbands => congrArg Host.Outcome.next (State.invEnd_of_over hrun hticks hbands)⟩
    intro hidle hnext hstart hfurrow
    have hdue : s.InvDue d p fd v := ⟨hruns, hforme, hclock, hopen, hidle, hnext, hstart, hfurrow⟩
    refine ⟨?good, ?refused⟩
    case good =>
      intro hprog hfmt hrows
      have hbands : (v.bands == 0) = false := beq_false_of_ne (by rw [Invocation.bands]; omega)
      have hrun := State.invStart_of_due hdue hprog hfmt
      refine ⟨fun hslots => ?loads, fun hqueue hbytes => ?waits⟩
      case loads =>
        have hfed : (fd.queueBytes == 0 && v.hbmBytes != 0) = false := by
          rw [Bool.and_eq_false_iff, beq_eq_false_iff_ne, bne_eq_false_iff_eq]; exact hslots
        refine congrArg Host.Outcome.next (hrun.trans (if_neg ?_))
        rw [hbands, hfed]; exact Bool.false_ne_true
      case waits =>
        have hstarved : (fd.queueBytes == 0 && v.hbmBytes != 0) = true :=
          Bool.and_eq_true_iff.mpr ⟨beq_iff_eq.mpr hqueue, bne_iff_ne.mpr hbytes⟩
        exact congrArg Host.Outcome.next (hrun.trans (if_pos (Bool.or_eq_true_iff.mpr (.inr hstarved))))
    case refused =>
      intro hrefused s1
      have hbad : (bad || !fmt) = true := by simpa using hrefused
      have hchecked : s.invChecked d bad fmt = s1 := s.invChecked_of_refused d hrefused
      have hrun := State.invStart_of_due hdue (rfl : _ = bad) (rfl : _ = fmt)
      rw [hbad, hchecked] at hrun
      exact congrArg Host.Outcome.next hrun
  case words =>
    intro s die r hat
    have hend := State.uEnd_of_at hat rfl
    exact ⟨congrArg Host.Outcome.next hend,
      fun hout hlast => congrArg Host.Outcome.next (hend.trans (State.endBand_of_no_output hout hlast))⟩

end Sys2Proof.Machine
end

section
/-!
PROOF. Fields of a word, what a reply leaves, and the commands on power, settings, telemetry, snapshots and traffic
(07_training_step.md R317; 10_memory_system.md R420, R426; 13_power_and_thermal.md R530; 14_host_and_management.md R558,
R568, R570).
-/
namespace Sys2Proof.Machine

/-! ### Fields and bits of a word (R9) -/

theorem testBit_fld {w : Nat} (x : BitVec w) (hi lo i : Nat) :
    (fld x hi lo).testBit i = (decide (i < hi + 1 - lo) && x.getLsbD (lo + i)) := by
  rw [fld, Nat.testBit_mod_two_pow, Nat.testBit_shiftRight, BitVec.testBit_toNat]

theorem getLsbD_setFld {w : Nat} (x : BitVec w) (hi lo v i : Nat) :
    (setFld x hi lo v).getLsbD i = if lo ≤ i ∧ i ≤ hi then decide (i < w) && v.testBit (i - lo) else x.getLsbD i := by
  by_cases hw : i < w
  case neg => simp only [BitVec.getLsbD_of_ge _ i (Nat.le_of_not_lt hw), hw, decide_false, Bool.false_and, ite_self]
  simp only [setFld, BitVec.getLsbD_or, BitVec.getLsbD_and, BitVec.getLsbD_not, BitVec.getLsbD_ofNat, hw, decide_true,
    Bool.true_and, Nat.testBit_shiftLeft, Nat.testBit_two_pow_sub_one, Nat.testBit_mod_two_pow]
  by_cases hin : lo ≤ i ∧ i ≤ hi
  · have hbit : i - lo < hi + 1 - lo := by omega
    simp only [hin, hbit, and_self, decide_true, Bool.true_and, Bool.not_true, Bool.and_false, Bool.false_or, if_true]
  · have hmask : (decide (i ≥ lo) && decide (i - lo < hi + 1 - lo)) = false := by
      rw [Bool.and_eq_false_iff, decide_eq_false_iff_not, decide_eq_false_iff_not]; omega
    simp only [hin, hmask, ← Bool.and_assoc, Bool.false_and, Bool.not_false, Bool.and_true, Bool.or_false, if_false]

theorem getLsbD_setBit_ne {w : Nat} (x : BitVec w) {i j : Nat} (b : Bool) (h : i ≠ j) :
    (setBit x j b).getLsbD i = x.getLsbD i := by
  by_cases hw : i < w
  case neg => simp only [BitVec.getLsbD_of_ge _ i (Nat.le_of_not_lt hw)]
  have hone : (1 <<< j).testBit i = false := by rw [Nat.one_shiftLeft, Nat.testBit_two_pow_of_ne (Ne.symm h)]
  cases b with
  | true => simp only [setBit, if_true, BitVec.getLsbD_or, BitVec.getLsbD_ofNat, hone, Bool.and_false, Bool.or_false]
  | false =>
    simp only [setBit, Bool.false_eq_true, if_false, BitVec.getLsbD_and, BitVec.getLsbD_not, BitVec.getLsbD_ofNat, hone, hw,
      decide_true, Bool.and_false, Bool.not_false, Bool.and_true]

theorem fld_congr {w : Nat} {x y : BitVec w} {hi lo : Nat} (h : ∀ i, lo ≤ i → i ≤ hi → x.getLsbD i = y.getLsbD i) :
    fld x hi lo = fld y hi lo := by
  refine Nat.eq_of_testBit_eq fun i => ?_
  rw [testBit_fld, testBit_fld]
  by_cases hi' : i < hi + 1 - lo
  · rw [h (lo + i) (by omega) (by omega)]
  · simp only [hi', decide_false, Bool.false_and]

/-- A field that lies in the word reads as it was written. -/
theorem fld_setFld_same {w : Nat} (x : BitVec w) {hi lo v : Nat} (hv : v < 2 ^ (hi + 1 - lo)) (hw : hi < w) :
    fld (setFld x hi lo v) hi lo = v := by
  refine Nat.eq_of_testBit_eq fun i => ?_
  rw [testBit_fld, getLsbD_setFld]
  by_cases hi' : i < hi + 1 - lo
  · rw [if_pos (by omega), Nat.add_sub_cancel_left]
    simp only [hi', decide_true, Bool.true_and, (by omega : lo + i < w)]
  · have : v.testBit i = false := Nat.testBit_lt_two_pow (Nat.lt_of_lt_of_le hv (Nat.pow_le_pow_right Nat.two_pos (by omega)))
    simp only [hi', decide_false, Bool.false_and, this]

/-- A field does not see a write of another field. -/
theorem fld_setFld_of_disjoint {w : Nat} (x : BitVec w) {hi lo hi' lo' : Nat} (v : Nat) (h : hi < lo' ∨ hi' < lo) :
    fld (setFld x hi' lo' v) hi lo = fld x hi lo :=
  fld_congr fun i hlo hhi => by rw [getLsbD_setFld, if_neg (by omega)]

/-- A field does not see a write of a bit outside it. -/
theorem fld_setBit_of_outside {w : Nat} (x : BitVec w) {hi lo j : Nat} (b : Bool) (h : j < lo ∨ hi < j) :
    fld (setBit x j b) hi lo = fld x hi lo :=
  fld_congr fun i hlo hhi => getLsbD_setBit_ne x b (by omega)

/-! ### What a reply leaves (R558) -/

section Replies

variable (s : State) (q : Req) (handledAt status detail : Nat) (b : List Byte)

/-- A reply is posted to its slot, the sideband or the monitor: registers, Hall Time, firmware and jobs are as they were. -/
theorem State.replyAt_keeps : (s.replyAt q handledAt status detail b).regs = s.regs
    ∧ (s.replyAt q handledAt status detail b).ht = s.ht ∧ (s.replyAt q handledAt status detail b).fw = s.fw
    ∧ (s.replyAt q handledAt status detail b).host.jobs = s.host.jobs := by
  unfold State.replyAt
  split
  case h_1 i => split <;> simp only [State.winWrite, State.vector, and_self]
  case h_2 j => simp only [and_self]
  case h_3 => simp only [and_self]

@[simp] theorem State.replyAt_regs : (s.replyAt q handledAt status detail b).regs = s.regs :=
  (s.replyAt_keeps q handledAt status detail b).1
@[simp] theorem State.replyAt_ht : (s.replyAt q handledAt status detail b).ht = s.ht :=
  (s.replyAt_keeps q handledAt status detail b).2.1
@[simp] theorem State.replyAt_fw : (s.replyAt q handledAt status detail b).fw = s.fw :=
  (s.replyAt_keeps q handledAt status detail b).2.2.1
@[simp] theorem State.replyAt_jobs : (s.replyAt q handledAt status detail b).host.jobs = s.host.jobs :=
  (s.replyAt_keeps q handledAt status detail b).2.2.2

@[simp] theorem State.reply_fw : (s.reply q status detail b).fw = s.fw := s.replyAt_fw q s.now status detail b

@[simp] theorem State.rd_addJob (k : JobKind) (r : Reg) : (s.addJob q k).rd r = s.rd r := rfl

variable (p : Job → Bool)

@[simp] theorem State.endJobs_regs : (s.endJobs p status detail b).regs = s.regs :=
  foldl_keep State.regs _ (fun (t : State) (j : Job) => t.replyAt_regs j.req j.at_ status detail b) _ _
@[simp] theorem State.endJobs_ht : (s.endJobs p status detail b).ht = s.ht :=
  foldl_keep State.ht _ (fun (t : State) (j : Job) => t.replyAt_ht j.req j.at_ status detail b) _ _

/-- The jobs that satisfy `p` are gone, the others wait on. -/
@[simp] theorem State.endJobs_jobs : (s.endJobs p status detail b).host.jobs = s.host.jobs.filter fun j => !p j :=
  foldl_keep (fun t : State => t.host.jobs) _ (fun (t : State) (j : Job) => t.replyAt_jobs j.req j.at_ status detail b) _ _

end Replies

/-! ### CAP_SET (R530) -/

/-- The jobs of a partition that wait for its cap. -/
def Job.capOf (p : Part) (j : Job) : Bool :=
  decide (j.req.part = p) && (match j.kind with
    | .cap _ => true
    | _ => false)

/-- A cap that is taken: the one that waited is cancelled, PWR_CAP shows the pending value, and the job waits. -/
def State.capTaken (s : State) (q : Req) (w : Nat) : State :=
  let t := s.endJobs (Job.capOf q.part) stCancelled
  ((t.wrFld (preg .pwrCap q.part) 28 16 w).wrBit (preg .pwrCap q.part) 31 true).addJob q (.cap w)

section CapSet

variable {s : State} {q : Req} {w : Nat}

theorem State.capSet_of_bad (hw : w ≠ 0 ∧ (w < 200 ∨ 4000 < w)) : s.capSet q w = s.reply q stBadParam := if_pos hw

theorem State.capSet_of_empty (hw : w = 0 ∨ (200 ≤ w ∧ w ≤ 4000)) (hdies : s.partDies q.part = []) :
    s.capSet q w = s.reply q stBadPart := by
  have hrange : ¬ (w ≠ 0 ∧ (w < 200 ∨ 4000 < w)) := by omega
  simp only [State.capSet, hrange, hdies, if_false, List.isEmpty_nil, if_true]

theorem State.capSet_of_taken (hw : w = 0 ∨ (200 ≤ w ∧ w ≤ 4000)) (hdies : s.partDies q.part ≠ []) :
    s.capSet q w = s.capTaken q w := by
  have hrange : ¬ (w ≠ 0 ∧ (w < 200 ∨ 4000 < w)) := by omega
  have hsome : ¬ (s.partDies q.part).isEmpty = true := mt List.isEmpty_iff.mp hdies
  exact (if_neg hrange).trans (if_neg hsome)

theorem State.rd_capTaken (s : State) (q : Req) (w : Nat) : (s.capTaken q w).rd (preg .pwrCap q.part) =
    setBit (setFld (s.rd (preg .pwrCap q.part)) 28 16 w) 31 true := by
  have hkept : (s.endJobs (Job.capOf q.part) stCancelled).rd (preg .pwrCap q.part) = s.rd (preg .pwrCap q.part) := by
    simp only [State.rd, State.endJobs_regs]
  rw [← hkept]
  simp only [State.capTaken, State.rd_addJob, State.wrBit, State.wrFld, State.modReg, State.rd_wr]

/-- PWR_CAP shows the pending cap, and the one in force as before. -/
theorem State.rdFld_capTaken (s : State) (q : Req) (hw : w ≤ 4000) :
    (s.capTaken q w).rdFld (preg .pwrCap q.part) 28 16 = w
    ∧ (s.capTaken q w).rdFld (preg .pwrCap q.part) 15 0 = s.rdFld (preg .pwrCap q.part) 15 0 := by
  simp only [State.rdFld, State.rd_capTaken]
  exact ⟨by rw [fld_setBit_of_outside _ _ (by decide), fld_setFld_same _ (by omega) (by decide)],
    by rw [fld_setBit_of_outside _ _ (by decide), fld_setFld_of_disjoint _ _ (by decide)]⟩

theorem State.jobs_capTaken (s : State) (q : Req) (w : Nat) : (s.capTaken q w).host.jobs =
    (s.host.jobs.filter fun j => !Job.capOf q.part j) ++ [⟨q, .cap w, s.now⟩] := by
  have hnow : (s.endJobs (Job.capOf q.part) stCancelled).now = s.now := by simp only [State.now, State.endJobs_ht]
  simp only [State.capTaken, State.addJob, State.wrBit, State.wrFld, State.modReg, State.wr_host, State.endJobs_jobs]
  rw [← hnow]
  rfl

/-- The new cap is the only one that the partition waits for. -/
theorem State.caps_capTaken (s : State) (q : Req) (w : Nat) :
    (s.capTaken q w).host.jobs.filter (Job.capOf q.part) = [⟨q, .cap w, s.now⟩] := by
  have hnew : Job.capOf q.part ⟨q, .cap w, s.now⟩ = true := by simp [Job.capOf]
  rw [State.jobs_capTaken, List.filter_append, List.filter_filter]
  simp [hnew]

end CapSet

/-! ### SETTINGS_GET and SETTINGS_SET (R570) -/

section Settings

variable {s : State} {q : Req} {key : Half} {v : Word}

theorem State.settingsGet_of_default {e : Word} (h : settingDefault key = some e) :
    s.settingsGet q key = s.reply q stOk 0 (natLe 4 (s.setting key).toNat ++ natLe 4 e.toNat) := by
  simp only [State.settingsGet, h]

theorem State.settingsGet_of_unknown (h : settingDefault key = none) : s.settingsGet q key = s.reply q stBadParam := by
  simp only [State.settingsGet, h]

/-- A key without a default takes no value. -/
theorem settingOk_of_unknown (h : settingDefault key = none) (v : Word) : settingOk key v = false := by
  unfold settingOk
  split
  case h_6 => rfl
  all_goals next hkey => simp [settingDefault, hkey] at h

theorem State.settingsSet_of_refused (h : settingOk key v = false) : s.settingsSet q key v = s.reply q stBadParam := by
  simp only [State.settingsSet, h, Bool.not_false, if_true]

theorem State.settingsSet_settings (h : settingOk key v = true) :
    (s.settingsSet q key v).fw.settings = (key, v) :: s.fw.settings.filter (·.1 ≠ key) := by
  simp only [State.settingsSet, h, Bool.not_true, Bool.false_eq_true, if_false]
  split <;> simp only [State.monSettings, State.reply_fw]

theorem State.setting_settingsSet (h : settingOk key v = true) : (s.settingsSet q key v).setting key = v := by
  simp [State.setting, State.settingsSet_settings h]

theorem State.setting_settingsSet_ne (h : settingOk key v = true) {k : Half} (hne : k ≠ key) :
    (s.settingsSet q key v).setting k = s.setting k := by
  have hother : ¬ key = k := Ne.symm hne
  simp only [State.setting, State.settingsSet_settings h, List.find?_cons, hother, decide_false,
    AMap.find_filter_ne _ key k hne]

end Settings

/-! ### TELEMETRY_READ (R568) -/

section Telemetry

variable {s : State} {q : Req} {sel i n host : Nat}

/-- A selector that TELEMETRY_READ answers: of a step or drop report and of the time registers only with a partition. -/
def State.telemetryNamed (s : State) (p : Part) (sel i n : Nat) : Prop :=
  sel = 3 ∨ sel = 5 ∨ (sel = 2 ∧ i < 256 ∧ n ≤ 256) ∨ ((sel = 0 ∨ sel = 1 ∨ sel = 4) ∧ s.partDies p ≠ [])

theorem State.telemetryRead_of_named (h : s.telemetryNamed q.part sel i n) :
    s.telemetryRead q sel i n host = if host ≠ 0 then s.addJob q (.hostWrite 0 0 host (s.telemetry q.part sel i n))
      else s.reply q stOk (if 4096 < (s.telemetry q.part sel i n).length then 1 else 0)
        ((s.telemetry q.part sel i n).take 4096) := by
  have hrange : ¬ (5 < sel ∨ (sel = 2 ∧ (256 ≤ i ∨ 256 < n))) := by unfold State.telemetryNamed at h; omega
  have hdies : ¬ ((sel = 0 ∨ sel = 1 ∨ sel = 4) ∧ (s.partDies q.part).isEmpty = true) := by
    rintro ⟨hsel, hempty⟩
    rcases h with h | h | ⟨h, -⟩ | ⟨-, hnonempty⟩
    case inr.inr.inr => exact hnonempty (List.isEmpty_iff.mp hempty)
    all_goals omega
  simp only [State.telemetryRead, hrange, hdies, if_false]

theorem State.telemetryRead_of_bad (h : 5 < sel) : s.telemetryRead q sel i n host = s.reply q stBadParam :=
  if_pos (.inl h)

end Telemetry

/-! ### SNAPSHOT (R317) -/

/-- What every SNAPSHOT asks first: its partition has dies, and the ports it names exist. -/
structure State.SnapNamed (s : State) (q : Req) (ship : Bool) (ports : Nat) : Prop where
  dies : s.partDies q.part ≠ []
  ports : ship = true → ports < 2 ^ 49

theorem State.SnapNamed.asked {s : State} {q : Req} {ship : Bool} {ports : Nat} (h : s.SnapNamed q ship ports) :
    (s.partDies q.part).isEmpty = false ∧ (ship && decide (2 ^ 49 ≤ ports)) = false :=
  ⟨List.isEmpty_eq_false_iff.mpr h.dies,
    Bool.and_eq_false_imp.mpr fun hship => decide_eq_false (Nat.not_le.mpr (h.ports hship))⟩

/-- A SNAPSHOT that waits for its step. -/
def State.snapWaits (s : State) (q : Req) (step : Word) (var : Nat) (ship : Bool) (id : Half) (ports : Nat) : State :=
  (s.modPart q.part fun ps => { ps with
    snaps := ps.snaps ++ [⟨q, step, var, ship, id, ports, s.now, false, false⟩] }).addJob q .snapshot

section Snapshot

variable {s : State} {q : Req} {ship : Bool} {ports : Nat} (step : Word) (id : Half)

theorem State.snapshot_of_unarmed (h : s.SnapNamed q ship ports) (var : Nat) (hunarmed : (s.part q.part).forme = none
    ∨ ((s.part q.part).armed = false ∧ (s.part q.part).running = false)) :
    s.snapshot q step var ship id ports = s.reply q stNotArmed := by
  obtain ⟨hdies, hports⟩ := h.asked
  cases hforme : (s.part q.part).forme with
  | none => simp only [State.snapshot, hdies, hports, hforme, Bool.false_eq_true, if_false]
  | some f =>
    obtain ⟨harmed, hrunning⟩ := hunarmed.resolve_left (by rw [hforme]; nofun)
    simp only [State.snapshot, hdies, hports, hforme, harmed, hrunning, Bool.false_eq_true, if_false, Bool.not_false,
      Bool.and_self, if_true]

variable {f : Forme} {var : Nat} (h : s.SnapNamed q ship ports) (hforme : (s.part q.part).forme = some f)
  (harmed : (s.part q.part).armed = true)
include h hforme harmed

theorem State.snapshot_of_no_variant (hvar : f.variants[var]? = none) :
    s.snapshot q step var ship id ports = s.reply q stNoVariant := by
  obtain ⟨hdies, hports⟩ := h.asked
  simp only [State.snapshot, hdies, hports, hforme, harmed, hvar, Bool.false_eq_true, if_false, Bool.not_true,
    Bool.false_and, Option.bind_none]

/-- With its variant in the forme a SNAPSHOT waits for its step, unless its buffer is still being shipped or its stream
cannot be opened. -/
theorem State.snapshot_of_variant {v : Variant} {b : SnapBuf} (hvar : f.variants[var]? = some v)
    (hkind : v.kind = .snapshot) (hbuf : v.snap = some b) :
    s.snapshot q step var ship id ports = if s.shipping q.part b
        || (ship && (s.host.streams.any (·.id = id) || decide (16 ≤ s.host.streams.length)))
      then s.reply q stBusy else s.snapWaits q step var ship id ports := by
  obtain ⟨hdies, hports⟩ := h.asked
  have hfound : ((some v).bind fun v => if v.kind == .snapshot then v.snap else none) = some b := by
    rw [Option.bind_some, hkind, hbuf]; rfl
  simp only [State.snapshot, hdies, hports, hforme, harmed, hvar, hfound, Bool.false_eq_true, if_false, Bool.not_true,
    Bool.false_and, State.snapWaits]

end Snapshot

/-! ### TRAFFIC_GEN (R420, R426) -/

def TgParams.mine (g : TgParams) : List (Fin 32) := (List.finRange 32).filter fun c => bit g.channels c.val

/-- The generators that a TRAFFIC_GEN names are given its parameters and START. -/
def State.tgBegun (s : State) (d : Die) (g : TgParams) : State :=
  g.mine.foldl (fun s c =>
    (((s.storeReg (tgReg .tgBase d c) g.base).storeReg (tgReg .tgLen d c) g.length).storeReg
      (tgReg .tgSeed d c) g.seed).tgStart d c ((g.mode &&& 0x3F).setWidth 32 ||| 0x40)) s

section Traffic

variable {s : State} {q : Req} {d : Die} {g : TgParams}

/-- The generators of a TRAFFIC_GEN that starts them run, or the command is refused for one that does not. -/
theorem State.trafficGen_of_start (hdie : g.die = d.val) (hstart : g.stop = false) :
    s.trafficGen q g = if (g.mine.any fun c => !(s.tgBegun d g).rdBit (tgReg .tgCtl d c) 9)
      then (s.tgBegun d g).reply q stRefused 10
      else if g.mine.isEmpty then (s.tgBegun d g).reply q stOk 0 ((s.tgBegun d g).tgResults d)
      else (s.tgBegun d g).addJob q (.traffic d g.channels) := by
  have hlt : g.die < 16 := hdie ▸ d.isLt
  obtain rfl : ⟨g.die, hlt⟩ = d := Fin.ext hdie
  have hstop : ¬ g.stop = true := Bool.eq_false_iff.mp hstart
  exact (dif_pos hlt).trans (if_neg hstop)

/-- A TRAFFIC_GEN that stops its generators answers with their results. -/
theorem State.trafficGen_of_stop (hdie : g.die = d.val) (hstop : g.stop = true) :
    let t := { g.mine.foldl (fun s c => s.tgStopFree d c) s with free := s.free + 1 }
    s.trafficGen q g = t.reply q stOk 0 (t.tgResults d) := by
  have hlt : g.die < 16 := hdie ▸ d.isLt
  obtain rfl : ⟨g.die, hlt⟩ = d := Fin.ext hdie
  exact (dif_pos hlt).trans (if_pos hstop)

theorem State.trafficGen_of_no_die (hdie : 16 ≤ g.die) : s.trafficGen q g = s.reply q stBadParam :=
  dif_neg (Nat.not_lt.mpr hdie)

theorem TgParams.mem_mine {c : Fin 32} : c ∈ g.mine ↔ g.channels.getLsbD c.val = true := by
  simp only [TgParams.mine, List.mem_filter, List.mem_finRange, true_and, bit]

theorem TgParams.mine_ne_nil (h : g.channels ≠ 0) : g.mine ≠ [] := by
  obtain ⟨i, hi, hbit⟩ : ∃ i, i < 32 ∧ g.channels.getLsbD i = true := by
    refine Classical.byContradiction fun hnone => h (BitVec.eq_of_getLsbD_eq fun i hi => ?_)
    rw [Bool.eq_false_iff.mpr fun hbit => hnone ⟨i, hi, hbit⟩]
    exact (BitVec.getLsbD_zero ..).symm
  exact List.ne_nil_of_mem (TgParams.mem_mine.mpr hbit : (⟨i, hi⟩ : Fin 32) ∈ g.mine)

/-- Where every generator named runs, the command waits for them. -/
theorem State.trafficGen_of_running (hdie : g.die = d.val) (hstart : g.stop = false) (hsome : g.channels ≠ 0)
    (hrun : ∀ c : Fin 32, g.channels.getLsbD c.val = true → (s.tgBegun d g).rdBit (tgReg .tgCtl d c) 9 = true) :
    s.trafficGen q g = (s.tgBegun d g).addJob q (.traffic d g.channels) := by
  have hall : ¬ (g.mine.any fun c => !(s.tgBegun d g).rdBit (tgReg .tgCtl d c) 9) = true := by
    rw [List.any_eq_true]
    rintro ⟨c, hc, hstill⟩
    rw [hrun c (TgParams.mem_mine.mp hc)] at hstill
    exact absurd hstill (by decide)
  rw [State.trafficGen_of_start hdie hstart, if_neg hall, if_neg (mt List.isEmpty_iff.mp (TgParams.mine_ne_nil hsome))]

/-- Where a generator named does not run, the command is refused with DETAIL 10. -/
theorem State.trafficGen_of_refused (hdie : g.die = d.val) (hstart : g.stop = false)
    (hstill : ∃ c : Fin 32, g.channels.getLsbD c.val = true ∧ (s.tgBegun d g).rdBit (tgReg .tgCtl d c) 9 = false) :
    s.trafficGen q g = (s.tgBegun d g).reply q stRefused 10 := by
  obtain ⟨c, hc, hbit⟩ := hstill
  have hany : (g.mine.any fun c => !(s.tgBegun d g).rdBit (tgReg .tgCtl d c) 9) = true :=
    List.any_eq_true.mpr ⟨c, TgParams.mem_mine.mpr hc, by rw [hbit]; rfl⟩
  rw [State.trafficGen_of_start hdie hstart, if_pos hany]

end Traffic

/-! ### The twin (R453) -/

section Twin

variable {s : State} {q : Req} {mode : Nat}

theorem State.twinMode_of_bad (h : 1 < mode) : s.twinMode q mode = s.reply q stBadParam := if_pos h

theorem State.twinMode_of_armed (h : mode ≤ 1) (harmed : s.anyArmed = true) :
    s.twinMode q mode = s.reply q stFormeArmed := (if_neg (Nat.not_lt.mpr h)).trans (if_pos harmed)

theorem State.twinMode_of_unarmed (h : mode ≤ 1) (harmed : s.anyArmed = false) :
    s.twinMode q mode = (s.wrBit (xreg .twCfg) 0 (mode == 1)).reply q stOk :=
  (if_neg (Nat.not_lt.mpr h)).trans (if_neg (Bool.eq_false_iff.mp harmed))

end Twin

end Sys2Proof.Machine
end

section
/-!
PROOF. The commands on power and the twin, on settings and telemetry, SNAPSHOT and TRAFFIC_GEN: what `exec` answers is the
state that their laws give.
-/
namespace Sys2Proof.Machine

/-- Settles O56: each command is carried out in the state that it is judged in, and its own law says what it leaves. That a
SNAPSHOT whose buffer is being shipped is answered BUSY is log 24's reading of R317, and the access at which a STOP ends a
pass is a free value (log 1). -/
theorem packageCommands : Obligations.PackageCommands := by
  refine ⟨?part, ?step⟩
  case part =>
    intro s u q w mode key v sel i n host hcollects hat p cap tele
    have hcap := State.command_of_collects (c := .capSet w) hcollects hat (fun _ => nofun) rfl
    have henergy := State.command_of_collects (c := .energyRead) hcollects hat (fun _ => nofun) rfl
    have htwin := State.command_of_collects (c := .twinMode mode) hcollects hat (fun _ => nofun) rfl
    have hdetach := State.command_of_collects (c := .twinDetach) hcollects hat (fun _ => nofun) rfl
    have hget := State.command_of_collects (c := .settingsGet key) hcollects hat (fun _ => nofun) rfl
    have hset := State.command_of_collects (c := .settingsSet key v) hcollects hat (fun _ => nofun) rfl
    have htele := State.command_of_collects (c := .telemetryRead sel i n host) hcollects hat (fun _ => nofun) rfl
    refine ⟨fun hw => ?capBad, fun hw hdies => ?capEmpty, fun hw hdies => ?capTaken, ?energy, fun harmed hmode => ?twinArmed,
      fun harmed hmode => ?twinSet, fun hmode => ?twinBad, ?detach, fun e hkey => ?get, fun hkey => ?unknown,
      fun hok => ?set, fun hbad => ?setBad, fun hnamed => ?telemetry, fun hsel => ?telemetryBad⟩
    case capBad => exact congrArg Host.Outcome.next (hcap.trans (State.capSet_of_bad hw))
    case capEmpty => exact congrArg Host.Outcome.next (hcap.trans (State.capSet_of_empty hw hdies))
    case capTaken =>
      obtain ⟨hpending, hinForce⟩ := u.rdFld_capTaken q (by omega : w ≤ 4000)
      refine ⟨u.capTaken q w, congrArg Host.Outcome.next (hcap.trans (State.capSet_of_taken hw hdies)), hpending, hinForce,
        ?_, congrArg List.length (u.caps_capTaken q w)⟩
      rw [State.jobs_capTaken, List.getLast?_concat]
    case energy => exact congrArg Host.Outcome.next henergy
    case twinArmed => exact congrArg Host.Outcome.next (htwin.trans (State.twinMode_of_armed hmode harmed))
    case twinSet => exact congrArg Host.Outcome.next (htwin.trans (State.twinMode_of_unarmed hmode harmed))
    case twinBad => exact congrArg Host.Outcome.next (htwin.trans (State.twinMode_of_bad hmode))
    case detach => exact congrArg Host.Outcome.next hdetach
    case get => exact congrArg Host.Outcome.next (hget.trans (State.settingsGet_of_default hkey))
    case unknown =>
      exact ⟨congrArg Host.Outcome.next (hget.trans (State.settingsGet_of_unknown hkey)),
        congrArg Host.Outcome.next (hset.trans (State.settingsSet_of_refused (settingOk_of_unknown hkey v)))⟩
    case set =>
      exact ⟨u.settingsSet q key v, congrArg Host.Outcome.next hset, State.setting_settingsSet hok,
        fun k hne => State.setting_settingsSet_ne hok hne⟩
    case setBad => exact congrArg Host.Outcome.next (hset.trans (State.settingsSet_of_refused hbad))
    case telemetry =>
      have hread := htele.trans (State.telemetryRead_of_named hnamed)
      exact ⟨fun hreply => congrArg Host.Outcome.next (hread.trans (if_neg (not_not_intro hreply))),
        fun hwrite => congrArg Host.Outcome.next (hread.trans (if_pos hwrite))⟩
    case telemetryBad => exact congrArg Host.Outcome.next (htele.trans (State.telemetryRead_of_bad hsel))
  case step =>
    intro s u q f v b step var ports ship id d g hcollects hat p snap ran
    have hsnap := State.command_of_collects (c := .snapshot step var ship id ports) hcollects hat (fun _ => nofun) rfl
    have htraffic := State.command_of_collects (c := .trafficGen g) hcollects hat (fun _ => nofun) rfl
    refine ⟨?variant, fun hdies hports hunarmed => ?unarmed, fun hdies hforme harmed hvar hports => ?noVariant,
      fun hdie hstart hsome => ⟨fun hrun => ?running, fun hstill => ?refused⟩, fun hdie hstop => ?stop, fun hdie => ?noDie⟩
    case variant =>
      intro hdies hforme harmed hvar hkind hbuf hports
      have hwait := hsnap.trans
        (State.snapshot_of_variant step id ⟨hdies, hports⟩ hforme harmed hvar hkind hbuf)
      refine ⟨fun hshipped hstream => congrArg Host.Outcome.next (hwait.trans (if_neg ?_)),
        fun hshipping => congrArg Host.Outcome.next (hwait.trans (if_pos (Bool.or_eq_true_iff.mpr (.inl hshipping))))⟩
      have hopens : (ship && (u.host.streams.any (·.id = id) || decide (16 ≤ u.host.streams.length))) = false :=
        Bool.and_eq_false_imp.mpr fun hship => Bool.or_eq_false_iff.mpr
          ⟨(hstream hship).1, decide_eq_false (Nat.not_le.mpr (hstream hship).2)⟩
      rw [hshipped, hopens]
      exact Bool.false_ne_true
    case unarmed =>
      exact congrArg Host.Outcome.next (hsnap.trans (State.snapshot_of_unarmed step id ⟨hdies, hports⟩ var hunarmed))
    case noVariant =>
      exact congrArg Host.Outcome.next
        (hsnap.trans (State.snapshot_of_no_variant step id ⟨hdies, hports⟩ hforme harmed hvar))
    case running =>
      exact congrArg Host.Outcome.next (htraffic.trans (State.trafficGen_of_running hdie hstart hsome hrun))
    case refused =>
      exact congrArg Host.Outcome.next (htraffic.trans (State.trafficGen_of_refused hdie hstart hstill))
    case stop => exact congrArg Host.Outcome.next (htraffic.trans (State.trafficGen_of_stop hdie hstop))
    case noDie => exact congrArg Host.Outcome.next (htraffic.trans (State.trafficGen_of_no_die hdie))

end Sys2Proof.Machine
end

section
/-!
PROOF. The engines of a cluster (09_irregular_work.md R373 to R380, R387, R392 to R396): the arrival of a command block, the
begin and the end of a command, and the rows that a SOW sends.
-/
namespace Sys2Proof.Machine

/-! ### What the engines of a cluster hold -/

theorem State.modCluster_modCluster (s : State) (c : ClusterId) (f g : ClusterS → ClusterS) :
    (s.modCluster c f).modCluster c g = s.modCluster c (g ∘ f) := by
  simp [State.modCluster, State.clusterS]

/-- An update of a cluster counts only by what it makes of the cluster as it stands. -/
theorem State.modCluster_congr {s : State} {c : ClusterId} {f g : ClusterS → ClusterS}
    (h : f (s.clusterS c) = g (s.clusterS c)) : s.modCluster c f = s.modCluster c g := by
  rw [State.modCluster, State.modCluster, h]

theorem ClusterS.setEngine_setEngine (x : ClusterS) (rake : Bool) (e e' : Option EngRun) :
    (x.setEngine rake e).setEngine rake e' = x.setEngine rake e' := by
  cases rake <;> rfl

theorem ClusterS.fly_setEngine (x : ClusterS) (rake : Bool) (e : Option EngRun) : (x.setEngine rake e).fly = x.fly := by
  cases rake <;> rfl

/-- The state in which an engine of a cluster runs `e`. -/
def State.setRun (s : State) (c : ClusterId) (rake : Bool) (e : EngRun) : State :=
  s.modCluster c fun x => x.setEngine rake (some e)

theorem State.setRun_setRun (s : State) (c : ClusterId) (rake : Bool) (e e' : EngRun) :
    (s.setRun c rake e).setRun c rake e' = s.setRun c rake e' :=
  (s.modCluster_modCluster c _ _).trans (State.modCluster_congr (ClusterS.setEngine_setEngine _ _ _ _))

/-! ### A command block arrives (R374, R375) -/

section Arrival

variable {s : State} {u : LU} {p : PU} {f : Flight} {m : MoveFlight}

/-- The command block of an X.ENG has come to its engine: the unit at `p`, which carries `u`, has the operation `m` in
flight as `f`, its lines have all been read, and its port cycles and two cycles more are over (R244, R375). -/
structure State.BlockDue (s : State) (u : LU) (p : PU) (f : Flight) (m : MoveFlight) : Prop where
  carrier : s.carrier u = some p
  flight : (s.unit p).flight f.id = some f
  kind : f.kind = .move m
  eng : m.kind = .eng
  read : f.accs = []
  come : f.issue + portCycles m.total + 2 ≤ s.cycle u.region
  counts : (s.region u.region).suppressed = false

/-- The bytes of the block that an X.ENG has read. -/
def Flight.block (f : Flight) (m : MoveFlight) : List Byte :=
  (List.range m.total).flatMap fun n => f.caught.lines.getD (0, n) zeroLine

theorem State.engineBlockArrive_of_due (h : s.BlockDue u p f m) :
    s.engineBlockArrive u f.id = (s.modUnit p fun x => x.dropFlight f.id).blockArrive u p (m.tag % 2 == 1) f.issue m.total
      (m.tag / 2) m.who (BitVec.ofNat 32 m.fixed) (f.block m) := by
  obtain ⟨hcarrier, hflight, hkind, heng, hread, hcome, hcounts⟩ := h
  have htakes : (m.kind != .eng || !f.accs.isEmpty || decide (s.cycle u.region < f.issue + portCycles m.total + 2)
      || (s.region u.region).suppressed) = false := by
    rw [heng, hread, decide_eq_false (Nat.not_lt.mpr hcome), hcounts]
    rfl
  simp only [State.engineBlockArrive, hcarrier, hflight, hkind, htakes, Bool.false_eq_true, if_false]
  rfl

variable {q : Part} {rake : Bool} {issue lines furrow : Nat} {who : Option (Part × Nat)} {add : Word} {b : List Byte}

/-- A block is refused with bit `k` of its engine's register and, where its X.ENG is no guest's (R488), one suspect event. -/
def State.blockRefused (s : State) (c : ClusterId) (rake : Bool) (who : Option (Part × Nat)) (k : Nat) : State :=
  match who with
  | some (q, ord) => (s.raiseBit (engReg c rake) k true).suspectOrd q ord c.d
  | none => s.raiseBit (engReg c rake) k true

/-- A block that comes to an engine that runs a command is dropped (ENG_COLLIDE, R375). -/
theorem State.blockArrive_of_busy (hpart : s.partOf u.cluster.d = some q)
    (hbusy : ((s.clusterS u.cluster).engine rake).isSome = true) :
    s.blockArrive u p rake issue lines furrow who add b = s.blockRefused u.cluster rake who (if rake then 1 else 2) := by
  simp only [State.blockArrive, hpart, hbusy, if_true]
  rfl

/-- A block that comes to a free engine and is malformed is dropped (FMT_BAD, R374). -/
theorem State.blockArrive_of_malformed (hpart : s.partOf u.cluster.d = some q)
    (hfree : (s.clusterS u.cluster).engine rake = none) (hbad : parseBlock rake (s.routes u.cluster) b add = none) :
    s.blockArrive u p rake issue lines furrow who add b = s.blockRefused u.cluster rake who (if rake then 2 else 3) := by
  simp only [State.blockArrive, hpart, hfree, hbad, Option.isSome_none, Bool.false_eq_true, if_false]
  rfl

/-- A free engine runs the command that a block spells. -/
theorem State.blockArrive_of_command (hpart : s.partOf u.cluster.d = some q)
    (hfree : (s.clusterS u.cluster).engine rake = none) {e : EngCmd}
    (hcmd : parseBlock rake (s.routes u.cluster) b add = some e) :
    s.blockArrive u p rake issue lines furrow who add b =
      (s.setRun u.cluster rake ⟨e, u, p, q, (who.map (·.2)).getD 0, who.isNone, furrow, issue + (lines + 1) / 2 + 3,
        e.occupancy (s.routes u.cluster), false, [], none, [], none, []⟩).setBusy u.cluster rake true := by
  simp only [State.blockArrive, hpart, hfree, hcmd, Option.isSome_none, Bool.false_eq_true, if_false]
  rfl

end Arrival

/-! ### A command begins (R376) -/

section Begin

variable {s : State} {c : ClusterId} {rake : Bool} {e : EngRun}

/-- The command that an engine runs may begin: it has started (R375), its cycle counts and has a clock, and it has not
begun. -/
structure State.EngReady (s : State) (c : ClusterId) (rake : Bool) (e : EngRun) : Prop where
  runs : (s.clusterS c).engine rake = some e
  started : e.start ≤ s.cycle c.region
  counts : (s.region c.region).suppressed = false
  clock : s.clockOut (.region c.region) = false
  fresh : e.made = false

/-- A run that has begun. -/
def EngRun.begun (e : EngRun) : EngRun := { e with made := true }

theorem EngRun.rake_begun (e : EngRun) {op : EngOp} (hop : e.cmd.op = op) : e.begun.cmd.op.rake = op.rake :=
  congrArg EngOp.rake hop

theorem State.engMake_of_ready {op : EngOp} (h : s.EngReady c op.rake e) (hop : e.cmd.op = op)
    (f : State → ClusterId → EngRun → State) : s.engMake c op f = f (s.setRun c op.rake e.begun) c e.begun := by
  obtain ⟨hruns, hstarted, hcounts, hclock, hfresh⟩ := h
  subst hop
  simp only [State.engMake, hruns, hfresh, hcounts, hclock, decide_eq_false (Nat.not_lt.mpr hstarted), bne_self_eq_false,
    Bool.or_self, Bool.false_eq_true, if_false]
  rfl

/-- A command that has begun does not begin again. -/
theorem State.engMake_of_made {op : EngOp} (hruns : (s.clusterS c).engine op.rake = some e) (hmade : e.made = true)
    (f : State → ClusterId → EngRun → State) : s.engMake c op f = s := by
  simp only [State.engMake, hruns, hmade, Bool.true_or, if_true]

theorem State.engBegin_setRun (hrake : e.cmd.op.rake = rake) (e' : EngRun) (plan : List (Nat × EngStep)) :
    (s.setRun c rake e').engBegin c e plan = s.setRun c rake { e with plan := plan } := by
  subst hrake
  exact State.setRun_setRun s c _ e' _

/-- An update of the cluster before a command begins, which leaves the engines alone. -/
theorem State.engBegin_modCluster_setRun (hrake : e.cmd.op.rake = rake) (e' : EngRun) (plan : List (Nat × EngStep))
    {g : ClusterS → ClusterS} (hg : ∀ x y, g (x.setEngine rake y) = (g x).setEngine rake y) :
    ((s.setRun c rake e').modCluster c g).engBegin c e plan = (s.modCluster c g).setRun c rake { e with plan := plan } := by
  subst hrake
  rw [State.setRun, State.modCluster_modCluster, State.engBegin, State.modCluster_modCluster, State.setRun,
    State.modCluster_modCluster]
  refine State.modCluster_congr ?_
  simp only [Function.comp_apply, hg, ClusterS.setEngine_setEngine]

/-! ### GATHER and PICK -/

/-- A GATHER that begins sends its requests, where its table is in the rake's registry (R392). -/
theorem State.gather_setRun_of_table (hrake : e.cmd.op.rake = true)
    (htable : ((s.tablesOf c).bind fun t => t.tables[e.cmd.target]?).isSome = true) (e' : EngRun) :
    (s.setRun c true e').gather c e = s.setRun c true { e with plan := e.cmd.fetchPlan } := by
  obtain ⟨t, ht⟩ := Option.isSome_iff_exists.mp htable
  have hfound : ((s.setRun c true e').tablesOf c).bind (fun t => t.tables[e.cmd.target]?) = some t := ht
  simp only [State.gather, hfound, State.engBegin_setRun hrake]

theorem State.gather_of_no_table (htable : ((s.tablesOf c).bind fun t => t.tables[e.cmd.target]?) = none) :
    s.gather c e = s.engSuspect c true e 2 := by
  simp only [State.gather, htable]

theorem State.fly_setRun : ((s.setRun c rake e).clusterS c).fly = (s.clusterS c).fly := by
  rw [State.setRun, State.clusterS_modCluster, ClusterS.fly_setEngine]

/-- A PICK that begins while rows are on their way leaves the reply buffers that have failed as they are (R394). -/
theorem State.pick_setRun_of_flying (hrake : e.cmd.op.rake = true) (hfly : (s.clusterS c).fly ≠ []) (e' : EngRun) :
    (s.setRun c true e').pick c e = s.setRun c true { e with plan := e.cmd.fetchPlan } := by
  have hkept : (s.setRun c true e').pick c e = (s.setRun c true e').engBegin c e e.cmd.fetchPlan := by
    rw [State.pick, State.engBegin, State.modCluster_modCluster]
    refine State.modCluster_congr ?_
    rw [Function.comp_apply, State.fly_setRun, if_neg (mt List.isEmpty_iff.mp hfly)]
  rw [hkept, State.engBegin_setRun hrake]

/-- A cluster that has forgotten which reply buffers have failed a PICK. -/
def ClusterS.noBlanks (x : ClusterS) : ClusterS := { x with blankBufs := [] }

/-- A PICK that begins while no row is on its way forgets the reply buffers that have failed (R394). -/
theorem State.pick_setRun_of_idle (hrake : e.cmd.op.rake = true) (hfly : (s.clusterS c).fly = []) (e' : EngRun) :
    (s.setRun c true e').pick c e =
      (s.modCluster c ClusterS.noBlanks).setRun c true { e with plan := e.cmd.fetchPlan } := by
  have hforgets : (s.setRun c true e').modCluster c (fun x => if x.fly.isEmpty then { x with blankBufs := [] } else x)
      = (s.setRun c true e').modCluster c ClusterS.noBlanks :=
    State.modCluster_congr (if_pos (List.isEmpty_iff.mpr (State.fly_setRun.trans hfly)))
  rw [State.pick, hforgets]
  exact State.engBegin_modCluster_setRun hrake e' _ fun _ _ => rfl

/-! ### DRAIN -/

/-- What a DRAIN does in each of its cycles: item `j` from cycle 8 + j·c on, then the placement words (R376, R387). -/
def EngCmd.drainPlan (m : EngCmd) : List (Nat × EngStep) :=
  ((List.range m.items.length).flatMap fun j =>
      (8 + j * m.rowCycles, EngStep.item j) :: (List.range m.rowCycles).map (fun i => (8 + j * m.rowCycles + i, .pair i m.rowLines))
        ++ [(8 + j * m.rowCycles + m.rowCycles - 1, .send)])
    ++ wordSteps (8 + m.items.length * m.rowCycles) (m.items.map (·.pos))

theorem EngCmd.item_mem_drainPlan (m : EngCmd) {j : Nat} (h : j < m.items.length) :
    (8 + j * m.rowCycles, EngStep.item j) ∈ m.drainPlan :=
  List.mem_append_left _ (List.mem_flatMap.mpr ⟨j, List.mem_range.mpr h, List.mem_cons_self⟩)

/-- The headland positions that the DRAINs of a furrow have taken: none in a furrow that is new (R387). -/
def ClusterS.headland (x : ClusterS) (furrow : Nat) : ClusterS :=
  if x.headFurrow = furrow then x else { x with headFurrow := furrow, head := .empty }

theorem ClusterS.headland_setEngine (furrow : Nat) (x : ClusterS) (rake : Bool) (e : Option EngRun) :
    (x.setEngine rake e).headland furrow = (x.headland furrow).setEngine rake e := by
  by_cases h : x.headFurrow = furrow <;> cases rake <;> simp [ClusterS.headland, ClusterS.setEngine, h]

theorem ClusterS.rake_headland (x : ClusterS) (furrow : Nat) : (x.headland furrow).rake = x.rake := by
  rw [ClusterS.headland]
  split <;> rfl

/-- A DRAIN that begins has its plan, in a cluster whose headland is that of its furrow. -/
theorem State.drain_setRun (hrake : e.cmd.op.rake = false) (e' : EngRun) :
    (s.setRun c false e').drain c e =
      (s.modCluster c fun x => x.headland e.furrow).setRun c false { e with plan := e.cmd.drainPlan } :=
  State.engBegin_modCluster_setRun (g := fun x => x.headland e.furrow) hrake e' _ fun x =>
    ClusterS.headland_setEngine e.furrow x false

/-! ### The end of a command -/

/-- An engine whose command's occupancy is over is free (R376). -/
theorem State.engDone_of_over (hruns : (s.clusterS c).engine rake = some e) (hmade : e.made = true)
    (hover : e.start + e.occ ≤ s.cycle c.region) :
    s.engDone c rake = (s.modCluster c fun x => x.setEngine rake none).setBusy c rake false := by
  simp only [State.engDone, hruns, hmade, decide_eq_true hover, Bool.and_self, if_true]

end Begin

/-! ### The rows of a SOW (R377, R379) -/

section Rows

variable {s : State} {c : ClusterId} {e : EngRun}

/-- What a SOW sends for item `j` that is not null. -/
def State.sowItem (s : State) (c : ClusterId) (m : EngCmd) (i : Item) (j : Nat) : List (Nat × EngStep) :=
  if i.index = 0xFFFFFFFF then [] else
    m.sendRow (8 + j * m.rowCycles) (.sow (s.sowDie c m.target) m.target i.index.toNat m.col0 (m.row i))

/-- A SOW that begins sends its items in their order. -/
theorem State.sow_setRun (hrake : e.cmd.op.rake = false) (e' : EngRun) :
    (s.setRun c false e').sow c e =
      s.setRun c false { e with plan := e.cmd.items.zipIdx.flatMap fun q => s.sowItem c e.cmd q.1 q.2 } :=
  State.engBegin_setRun hrake e' _

/-- A row that comes to a die whose wrapper is closed is answered with an error (R617). -/
theorem State.flyArrives_sow_of_closed {d : Die} (hclosed : s.dieClosed d = true) (at_ w row col0 : Nat) (b : List Byte)
    (lost : List Nat) : s.flyArrives c ⟨at_, e, .sow d w row col0 b, lost⟩ = s.engIso c e 2 :=
  if_pos hclosed

/-- A row that comes to a die that is open is contributed to its window (R379). -/
theorem State.flyArrives_sow_of_open {d : Die} (hopen : s.dieClosed d = false) (at_ w row col0 : Nat) (b : List Byte)
    (lost : List Nat) : s.flyArrives c ⟨at_, e, .sow d w row col0 b, lost⟩ =
      (s.intake d e.cmd.rowBytes).sowRow d c.port w row col0 e.cmd.fmt e.cmd.cols b lost :=
  if_neg (Bool.eq_false_iff.mp hopen)

/-- Both lines of a pair that lies within its row. -/
theorem filter_pair_of_lt {n k : Nat} (h : 2 * n + 1 < k) : [2 * n, 2 * n + 1].filter (· < k) = [2 * n, 2 * n + 1] := by
  refine List.filter_eq_self.mpr fun i hi => decide_eq_true ?_
  obtain rfl | htail := List.mem_cons.mp hi
  · exact Nat.lt_of_succ_lt h
  · exact (List.mem_singleton.mp htail).symm ▸ h

/-- Two lines that an engine puts in a port cycle of another's are dropped, each with a suspect event (R377). -/
theorem State.engStep_pair_of_foreign {rake : Bool} {n k : Nat} (hruns : (s.clusterS c).engine rake = some e)
    (hcur : e.cur.isSome = true) (hport : s.engPort c rake false = false) (hpair : 2 * n + 1 < k) :
    s.engStep c rake (.pair n k) =
      (s.setRun c rake { e with lost := e.lost ++ [2 * n, 2 * n + 1] }).portDrop c rake e 2 := by
  have hplaces : (e.cur.isNone || s.engPort c rake false) = false := by
    rw [hport, Option.isNone_eq_false_iff.mpr hcur, Bool.or_self]
  simp only [State.engStep, hruns, hplaces, filter_pair_of_lt hpair, Bool.false_eq_true, if_false]
  rfl

end Rows

end Sys2Proof.Machine
end

section
/-!
PROOF. ENGINE_BLOCK_ARRIVE, the commands of the drill and the rake and ENGINE_COMMAND_DONE: what `exec` answers is the state
that their laws give.
-/
namespace Sys2Proof.Machine

/-- Settles O18: a block by what its engine does and what it spells, a command by whether it is ready or has begun, a row by
whether its die is open and its port cycle is the engine's. That the row of a command begins it, and that the engine then
does its steps cycle by cycle, is log 8's choice for R376. -/
theorem engineCommandsRun : Obligations.EngineCommandsRun := by
  refine ⟨?blocks, ?commands, ?rows⟩
  case blocks =>
    rintro s u p f m q b hcarrier hflight hkind heng hread hcome hcounts hpart rfl c rake s1 add ord bad
    have hrun := State.engineBlockArrive_of_due ⟨hcarrier, hflight, hkind, heng, hread, hcome, hcounts⟩
    have hpart1 : s1.partOf u.cluster.d = some q := hpart
    exact ⟨fun hbusy => congrArg Host.Outcome.next (hrun.trans (State.blockArrive_of_busy hpart1 hbusy)),
      fun hfree hbad => congrArg Host.Outcome.next (hrun.trans (State.blockArrive_of_malformed hpart1 hfree hbad)),
      fun e hfree hcmd => congrArg Host.Outcome.next (hrun.trans (State.blockArrive_of_command hpart1 hfree hcmd))⟩
  case commands =>
    intro s c e rake hruns m k made begun ready requests
    have hturn : ready → s.EngReady c rake e := fun ⟨hstarted, hcounts, hclock, hfresh⟩ =>
      ⟨hruns, hstarted, hcounts, hclock, hfresh⟩
    refine ⟨?pack, ?drain, ?gather, ?pickFlying, ?pickIdle, ?again, ?done⟩
    case pack =>
      rintro hop rfl hready
      exact congrArg Host.Outcome.next (State.engMake_of_ready (op := .pack) (hturn hready) hop State.pack)
    case drain =>
      rintro hop rfl hready
      have hrun := State.engMake_of_ready (op := .drain) (hturn hready) hop State.drain
      refine ⟨_, congrArg Host.Outcome.next (hrun.trans (State.drain_setRun (e.rake_begun hop) _)), ?_⟩
      rw [State.setRun, State.modCluster_modCluster, State.clusterS_modCluster]
      exact ⟨rfl, fun j hj => ⟨_, rfl, m.item_mem_drainPlan hj⟩, rfl, rfl, rfl, ClusterS.rake_headland _ _⟩
    case gather =>
      rintro hop rfl hready
      have hrun := State.engMake_of_ready (op := .gather) (hturn hready) hop State.gather
      exact ⟨fun htable => congrArg Host.Outcome.next
          (hrun.trans (State.gather_setRun_of_table (e.rake_begun hop) htable _)),
        fun htable => congrArg Host.Outcome.next (hrun.trans (State.gather_of_no_table htable))⟩
    case pickFlying =>
      rintro hop rfl hready hfly
      have hrun := State.engMake_of_ready (op := .pick) (hturn hready) hop State.pick
      exact congrArg Host.Outcome.next (hrun.trans (State.pick_setRun_of_flying (e.rake_begun hop) hfly _))
    case pickIdle =>
      rintro hop rfl hready hfly
      have hrun := State.engMake_of_ready (op := .pick) (hturn hready) hop State.pick
      exact congrArg Host.Outcome.next (hrun.trans (State.pick_setRun_of_idle (e.rake_begun hop) hfly _))
    case again =>
      rintro hmade rfl
      exact ⟨congrArg Host.Outcome.next (State.engMake_of_made (op := .pack) hruns hmade State.pack),
        congrArg Host.Outcome.next (State.engMake_of_made (op := .drain) hruns hmade State.drain)⟩
    case done =>
      exact fun hmade hover => congrArg Host.Outcome.next (State.engDone_of_over hruns hmade hover)
  case rows =>
    intro s c e hruns hfresh hop hstarted hcounts hclock m k row sent
    refine ⟨congrArg Host.Outcome.next ?begins, fun t at_ row d b lost => ⟨?closed, ?opens⟩, ?foreign⟩
    case begins =>
      have hrun := State.engMake_of_ready (op := .sow) ⟨hruns, hstarted, hcounts, hclock, hfresh⟩ hop State.sow
      exact hrun.trans (State.sow_setRun (e.rake_begun hop) _)
    case closed => exact fun hclosed => State.flyArrives_sow_of_closed hclosed _ _ _ _ _ _
    case opens => exact fun hopen => State.flyArrives_sow_of_open hopen _ _ _ _ _ _
    case foreign => exact fun t r n hr hcur hport hpair => State.engStep_pair_of_foreign (rake := false) hr hcur hport hpair

end Sys2Proof.Machine
end

section
/-!
PROOF. What a source that is raised leaves of the registers (12_silent_errors_and_faults.md R492, R495 to R501): its record,
its reaction and the fences they make write seven families, and beside them a raise only ever sets bits.
-/
namespace Sys2Proof.Machine

/-! ### A write of another register -/

theorem Reg.ne_of_name {q r : Reg} (h : q.name ≠ r.name) : q ≠ r := fun e => h (congrArg Reg.name e)

section Writes

variable (s : State) {q r : Reg} (h : q ≠ r)
include h

theorem State.rd_modReg_ne (f : Word → Word) : (s.modReg r f).rd q = s.rd q := s.rd_wr_ne r q _ h
theorem State.rd_wrFld_ne (hi lo v : Nat) : (s.wrFld r hi lo v).rd q = s.rd q := s.rd_wr_ne r q _ h
theorem State.rd_wrBit_ne (i : Nat) (b : Bool) : (s.wrBit r i b).rd q = s.rd q := s.rd_wr_ne r q _ h
theorem State.rd_count_ne (n : Nat) : (s.count r n).rd q = s.rd q := s.rd_wr_ne r q _ h

end Writes

/-! ### A bit that is set -/

theorem bit_setBit_true {w : Nat} (x : BitVec w) {i : Nat} (h : i < w) : bit (setBit x i true) i = true := by
  simp only [bit, setBit, if_true, BitVec.getLsbD_or, BitVec.getLsbD_ofNat, h, decide_true, Nat.one_shiftLeft,
    Nat.testBit_two_pow_self, Bool.true_and, Bool.or_true]

theorem State.rdBit_wrBit_true (s : State) (r : Reg) {i : Nat} (h : i < 32) : (s.wrBit r i true).rdBit r i = true := by
  simp only [State.rdBit, State.wrBit, State.modReg, State.rd_wr, bit_setBit_true _ h]

/-- Setting a bit leaves every bit set that is set. -/
theorem State.rdBit_wrBit_of_set {s : State} {q : Reg} {b : Nat} (hset : s.rdBit q b = true) (r : Reg) (i : Nat) :
    (s.wrBit r i true).rdBit q b = true := by
  by_cases hreg : q = r
  · subst hreg
    simp only [State.rdBit, bit] at hset
    simp only [State.rdBit, State.wrBit, State.modReg, State.rd_wr, bit, setBit, if_true, BitVec.getLsbD_or, hset,
      Bool.true_or]
  · simpa only [State.rdBit, State.rd_wrBit_ne s hreg] using hset

/-! ### Records, fences and reactions -/

/-- The families that a fault record, a fence and the registers that show the fallow state write. -/
def RegName.byFence : RegName → Bool
  | .rstFaultNext | .rstFaultCnt | .rstReplace | .tuImpose | .tuRegionStat | .cdFault | .pwrRegionStat => true
  | _ => false

theorem foldl_rd {β : Type} (q : Reg) (f : State → β → State) (h : ∀ a b, (f a b).rd q = a.rd q) (l : List β)
    (a : State) : (l.foldl f a).rd q = a.rd q := foldl_keep (fun t : State => t.rd q) f h l a

theorem foldl_rd1 {β δ : Type} (q : Reg) (f : State × δ → β → State × δ) (h : ∀ a b, (f a b).1.rd q = a.1.rd q)
    (l : List β) (a : State × δ) : (l.foldl f a).1.rd q = a.1.rd q :=
  foldl_keep (fun a : State × δ => a.1.rd q) f h l a

section Fences

variable {q : Reg} (hq : q.name.byFence = false)
include hq

/-- A register of another family than those is none of them. -/
theorem Reg.ne_of_byFence {r : Reg} (hr : r.name.byFence = true) : q ≠ r :=
  Reg.ne_of_name fun h => by rw [h, hr] at hq; exact absurd hq (by decide)

theorem State.rd_record (s : State) (f : FaultRec) : (s.record f).rd q = s.rd q := by
  simp only [State.record, State.rd_count_ne _ (Reg.ne_of_byFence hq (r := xreg .rstFaultCnt) rfl),
    State.rd_wrFld_ne _ (Reg.ne_of_byFence hq (r := xreg .rstFaultNext) rfl)]
  rfl

omit hq in
theorem State.rd_sendMsg (s : State) (ports : List Port) (part : Part) (t : Nat) (b : MsgBody) :
    (s.sendMsg ports part t b).rd q = s.rd q := foldl_rd q _ (fun _ _ => by rfl) ports s

theorem State.rd_setReplace (s : State) (causes : Nat) : (s.setReplace causes).rd q = s.rd q := by
  have hwrite := s.rd_wr_ne (xreg .rstReplace) q (BitVec.ofNat 32 causes) (Reg.ne_of_byFence hq rfl)
  unfold State.setReplace
  extract_lets old s1 s2 new
  split
  · exact hwrite
  · exact (foldl_rd q _ (fun t _ => t.rd_sendMsg _ _ _ _) _ _).trans hwrite

theorem State.rd_syncFence (s : State) : s.syncFence.rd q = s.rd q := by
  have hregion (t : State) (r : RegionId) (v w : Nat) :
      ((t.wrFld (rreg .tuRegionStat r) 8 2 v).wrFld (rreg .tuRegionStat r) 1 0 w).rd q = t.rd q := by
    rw [State.rd_wrFld_ne _ (Reg.ne_of_byFence hq rfl), State.rd_wrFld_ne _ (Reg.ne_of_byFence hq rfl)]
  have hdie (t : State) (d : Die) (v : Bool) (w : Nat) :
      ((t.wrBit (dreg .cdFault d) 5 v).wrFld (dreg .cdFault d) 3 0 w).rd q = t.rd q := by
    rw [State.rd_wrFld_ne _ (Reg.ne_of_byFence hq rfl), State.rd_wrBit_ne _ (Reg.ne_of_byFence hq rfl)]
  unfold State.syncFence
  generalize allDies = dies, allRegions = regions
  simp only [State.rd_setReplace hq]
  show State.rd (dies.foldl _ (regions.foldl _ s)) q = s.rd q
  refine (foldl_rd q _ (fun t d => ?_) _ _).trans (foldl_rd q _ (fun t r => ?_) _ _)
  · split
    · exact hdie t d _ _
    · rfl
  · split
    · exact hregion t r _ _
    · rfl

omit hq in
theorem State.rd_loadBanks (s : State) (l : LU) (p : PU) : (s.loadBanks l p).rd q = s.rd q := by
  simp only [State.loadBanks]
  (repeat' split) <;> rfl

theorem State.rd_substitute (s : State) (l : LU) : (s.substitute l).1.rd q = s.rd q := by
  have hwrite (v : Word) : (s.wr (ureg .tuImpose l) v).rd q = s.rd q := s.rd_wr_ne _ q v (Reg.ne_of_byFence hq rfl)
  unfold State.substitute
  split
  · dsimp only
    split
    · rw [State.rd_loadBanks, hwrite]
    · exact hwrite _
  · exact hwrite _

theorem State.rd_applyFences (s : State) (r : RegionId) (t : Nat) : (s.applyFences r t).1.rd q = s.rd q := by
  unfold State.applyFences
  split
  · exact foldl_rd q _ (fun a l => a.rd_wr_ne _ q _ (Reg.ne_of_byFence hq rfl)) _ s
  · extract_lets ready
    split
    · rfl
    · split
      next heq =>
        refine (congrArg (fun z : State × List Raise => z.1.rd q) heq).symm.trans (foldl_rd1 q _ (fun acc l => ?_) _ _)
        split
        · split
          · exact State.rd_substitute hq _ _
          · rfl
        · rfl

omit hq in
theorem State.rd_fenceSuspect (s : State) (d : Die) (inBlock : PU → Bool) : (s.fenceSuspect d inBlock).rd q = s.rd q := by
  unfold State.fenceSuspect
  (repeat' split) <;> rfl

theorem State.rd_fenceUnit (s : State) (p : PU) : (s.fenceUnit p).1.rd q = s.rd q := by
  simp only [State.fenceUnit]
  split
  · rfl
  · split
    · exact (State.rd_applyFences hq _ _ _).trans (State.rd_fenceSuspect s _ _)
    · exact State.rd_fenceSuspect s _ _

theorem State.rd_fenceRegion (s : State) (r : RegionId) : (s.fenceRegion r).1.rd q = s.rd q := by
  have hoff (t : State) : (t.wrBit (rreg .pwrRegionStat r) 4 false).rd q = t.rd q :=
    State.rd_wrBit_ne t (Reg.ne_of_byFence hq rfl) 4 false
  simp only [State.fenceRegion]
  split
  · rfl
  · split
    · exact (State.rd_applyFences hq _ _ _).trans ((hoff _).trans (State.rd_fenceSuspect s _ _))
    · exact (hoff _).trans (State.rd_fenceSuspect s _ _)

theorem State.rd_fenceDie (s : State) (d : Die) : (s.fenceDie d).1.rd q = s.rd q := by
  have hoff (l : List RegionId) (t : State) :
      (l.foldl (fun s r => s.wrBit (rreg .pwrRegionStat r) 4 false) t).rd q = t.rd q :=
    foldl_rd q _ (fun a r => State.rd_wrBit_ne a (Reg.ne_of_byFence hq rfl) 4 false) l t
  have happly (l : List RegionId) (acc : State × List Raise) : (l.foldl (fun acc r =>
      ((acc.1.applyFences r acc.1.now).1, acc.2 ++ (acc.1.applyFences r acc.1.now).2)) acc).1.rd q = acc.1.rd q :=
    foldl_rd1 q _ (fun acc r => by exact State.rd_applyFences hq acc.1 r acc.1.now) l acc
  simp only [State.fenceDie]
  split
  · rfl
  · split
    · dsimp only
      rw [happly, hoff]
      exact State.rd_fenceSuspect s _ _
    · exact (hoff _ _).trans (State.rd_fenceSuspect s _ _)

omit hq in
theorem State.rd_fenceLd (s : State) (k : LinkDie) : (s.fenceLd k).rd q = s.rd q := by
  unfold State.fenceLd
  split
  · rfl
  · exact foldl_rd q _ (fun _ _ => by rfl) (s.claimantsOf k) _

theorem State.rd_react (s : State) (r : Reg) (code : Nat) : (s.react r code).1.rd q = s.rd q := by
  unfold State.react
  split
  case isTrue => rfl
  split
  case h_1 => rfl
  case h_2 =>
    show State.rd (if code = 3 then s.fenceLd _ else s) q = s.rd q
    split
    · exact s.rd_fenceLd _
    · rfl
  case h_3 =>
    extract_lets d region
    split
    · split
      · exact State.rd_fenceUnit hq s _
      · rfl
    · exact State.rd_fenceRegion hq s _
    · exact State.rd_fenceDie hq s _

end Fences

/-! ### A raised source -/

/-- What a source that rises does, and what is raised with it (R492, R495). -/
def State.raised (s : State) (r : Raise) : State × List Raise :=
  let s := s.wrBit r.reg r.bit true
  let code := match r.fixed with
    | some c => c
    | none => s.reacts r.reg r.bit
  let s := match r.reg.name.source with
    | some i => s.record ⟨r.reg.dieOf r.bit, i, r.bit, code, r.reg.place.1, r.reg.place.2, s.sourcePart r.reg, r.suspect,
        r.late, s.detailOf r.reg r.detail⟩
    | none => s
  let s := s.vector r.reg.vector
  let t := if r.fixed.isSome then (s, []) else s.react r.reg code
  (if t.1.fen = s.fen then t.1 else t.1.syncFence, t.2)

theorem State.raiseAll_cons (n : Nat) (r : Raise) (rest : List Raise) (s : State) :
    s.raiseAll (n + 1) (r :: rest) = if s.rdBit r.reg r.bit then s.raiseAll n rest
      else (s.raised r).1.raiseAll n ((s.raised r).2 ++ rest) := rfl

/-- Of a register that no fence writes, a source that rises writes its own bit alone. -/
theorem State.rd_raised {q : Reg} (hq : q.name.byFence = false) (s : State) (r : Raise) :
    (s.raised r).1.rd q = (s.wrBit r.reg r.bit true).rd q := by
  unfold State.raised
  extract_lets s1 code s2 s3 t
  have h2 : s2.rd q = s1.rd q := by
    show State.rd (match r.reg.name.source with | some i => _ | none => s1) q = _
    split
    · exact State.rd_record hq _ _
    · rfl
  have ht : t.1.rd q = s3.rd q := by
    show (if r.fixed.isSome then (s3, []) else s3.react r.reg code : State × List Raise).1.rd q = _
    split
    · rfl
    · exact State.rd_react hq s3 _ _
  dsimp only
  split
  · exact ht.trans h2
  · rw [State.rd_syncFence hq]
    exact ht.trans h2

/-- Raising sources clears no bit of a register that no fence writes. -/
theorem State.rdBit_raiseAll_of_set {q : Reg} (hq : q.name.byFence = false) {b : Nat} (n : Nat) (rs : List Raise)
    {s : State} (hset : s.rdBit q b = true) : (s.raiseAll n rs).rdBit q b = true := by
  induction n generalizing rs s with
  | zero => exact hset
  | succ n ih =>
    cases rs with
    | nil => exact hset
    | cons r rest =>
      rw [State.raiseAll_cons]
      split
      · exact ih rest hset
      · refine ih _ ?_
        rw [State.rdBit, State.rd_raised hq]
        exact State.rdBit_wrBit_of_set hset r.reg r.bit

/-- A source that is raised shows its bit. -/
theorem State.rdBit_raiseBit {q : Reg} (hq : q.name.byFence = false) {b : Nat} (hb : b < 32) (s : State) (suspect : Bool)
    (detail : Nat) : (s.raiseBit q b suspect detail).rdBit q b = true := by
  refine (congrArg (fun t : State => t.rdBit q b) (s.raiseAll_cons 15 ⟨q, b, suspect, false, detail, none⟩ [])).trans ?_
  split
  next hset => exact State.rdBit_raiseAll_of_set hq _ _ hset
  next =>
    refine State.rdBit_raiseAll_of_set hq _ _ ?_
    rw [State.rdBit, State.rd_raised hq]
    exact s.rdBit_wrBit_true q hb

@[simp] theorem State.rd_suspectDie (s : State) (d : Die) (ahead : Bool) (r : Reg) :
    (s.suspectDie d ahead).rd r = s.rd r := by
  unfold State.suspectDie
  split <;> rfl

end Sys2Proof.Machine
end

section
/-!
PROOF. Accesses to a stack and to a shared cache (10_memory_system.md R398 to R419): what each leaves and delivers, and what the
next read of the place finds.
-/
namespace Sys2Proof.Machine

/-! ### The bytes of an access -/

/-- An access that brings all its bytes brings those. -/
theorem map_range_getD {n : Nat} {b : List Byte} (h : b.length = n) :
    ((List.range n).map fun k => (b[k]?).getD 0) = b := by
  subst h
  refine List.ext_getElem (by rw [List.length_map, List.length_range]) fun i _ hi => ?_
  rw [List.getElem_map, List.getElem_range, List.getElem?_eq_getElem hi, Option.getD_some]

theorem Memory.bytes_write_same (m : Memory) (a : Nat) {n : Nat} {b : List Byte} (h : b.length = n) :
    (m.write a b).bytes a n = b := by
  subst h
  refine List.ext_getElem (by rw [Memory.bytes, List.length_map, List.length_range]) fun i _ hi => ?_
  simp only [Memory.bytes, List.getElem_map, List.getElem_range, Memory.byte_write_in m a i b hi]

theorem Memory.bytes_write_of_apart (m : Memory) {a q n : Nat} {b : List Byte} (h : q + n ≤ a ∨ a + b.length ≤ q) :
    (m.write a b).bytes q n = m.bytes q n := by
  refine List.map_congr_left fun i hi => m.byte_write_out a (q + i) b ?_
  have := List.mem_range.mp hi
  omega

/-! ### Stacks -/

/-- Two changes of a die that leave the same die leave the same state. -/
theorem State.modDie_congr (s : State) {d : Die} {f g : DieS → DieS} (h : f (s.die d) = g (s.die d)) :
    s.modDie d f = s.modDie d g := by
  simp only [State.modDie, h]

/-- An access of a stack that answers: the dies have power, the die is not closed, its clock runs, and the offset names the
address `a` outside the state pair (R283, R405). -/
structure State.StackAnswers (s : State) (d : Die) (off a : Nat) : Prop where
  powered : s.powered = true
  opened : s.dieClosed d = false
  clock : s.clockOut (.hbm d) = false
  place : s.resolve d (off / 64 * 64) = some (a, false)

/-- The state after a write of 64 bytes that is served (R406, R455). -/
def State.hbmWritten (s : State) (d : Die) (a : Nat) (b : List Byte) : State :=
  if s.inPairs d a then (s.hbmStore d a b).modDie d fun y => { y with digest := y.digest + writeDigest d a b }
  else s.hbmStore d a b

/-- The state after a read has found `n` bad symbols at an address (R408). -/
def State.hbmFound (s : State) (d : Die) (a n : Nat) : State :=
  s.modDie d fun x => x.setSyms ((s.die d).physical a) n

section Stack

variable {s : State} {d : Die} {off a : Nat} (h : s.StackAnswers d off a) (i : Issuer)
include h

theorem State.hbmAccess_read (upset : Nat) :
    s.hbmAccess d i off none upset = State.deliver d (s.hbmRead d off i upset) := by
  simp only [State.hbmAccess, h.powered, Bool.not_true, Bool.false_eq_true, if_false]

theorem State.hbmAccess_write (b : List Byte) (upset : Nat) : s.hbmAccess d i off (some b) upset =
    State.deliver d (s.hbmWrite d off i ((List.range 64).map fun k => (b[k]?).getD 0)) := by
  simp only [State.hbmAccess, h.powered, Bool.not_true, Bool.false_eq_true, if_false]

/-- In its bank's refresh window, or in FENCED, a read is refused (R402, R405, R406). -/
theorem State.hbmRead_of_refused (hrefuses : s.refuses d a = true) (upset : Nat) :
    s.hbmRead d off i upset = (s.refuse d a i, .blank) := by
  simp only [State.hbmRead, h.opened, h.clock, h.place, State.notePair, hrefuses, Bool.not_false, Bool.false_eq_true, if_false,
    if_true]

theorem State.hbmWrite_of_refused (hrefuses : s.refuses d a = true) (b : List Byte) :
    s.hbmWrite d off i b = (s.refuse d a i, .blank) := by
  simp only [State.hbmWrite, h.opened, h.clock, h.place, State.notePair, hrefuses, Bool.not_false, Bool.false_eq_true, if_false,
    if_true]

/-- A write that is served is stored, and joins the digest where it lies in a pair (R406, R455). -/
theorem State.hbmWrite_of_served (hserves : s.refuses d a = false) (b : List Byte) :
    s.hbmWrite d off i b = (s.hbmWritten d a b, .data b) := by
  simp only [State.hbmWrite, h.opened, h.clock, h.place, State.notePair, hserves, Bool.not_false, Bool.false_eq_true, if_false,
    if_true]
  rfl

/-- A read that is served goes by the bad symbols it finds (R408 to R410). -/
theorem State.hbmRead_of_served (hserves : s.refuses d a = false) {upset n : Nat}
    (hn : (s.die d).symsAt ((s.die d).physical a) + upset = n) :
    s.hbmRead d off i upset =
      if n = 0 then (s.hbmFound d a n, .data ((s.die d).hbm.bytes ((s.die d).physical a) 64))
      else if n = 1 then (((s.hbmFound d a n).count (dreg .hbmCeCnt d) 1).raiseBit (dreg .hbmStat d) 5 false a,
        .data ((s.die d).hbm.bytes ((s.die d).physical a) 64))
      else (((s.hbmFound d a n).uncorrectable d a 0 6 (i != .host)).chargeAccess i, .blank) := by
  subst hn
  simp only [State.hbmRead, h.opened, h.clock, h.place, State.notePair, hserves, Bool.not_false, Bool.false_eq_true, if_false,
    if_true, State.hbmFound]

end Stack

/-! ### What a stack's write leaves -/

/-- A stack with 64 bytes written at a place after the remap table, its symbols good (R408). -/
def DieS.putHbm (x : DieS) (q : Nat) (b : List Byte) : DieS := { x with hbm := x.hbm.write q b }.setSyms q 0

/-- Where the byte of an address goes in spare `k` (R412, R413). -/
def spareAddr (k a : Nat) : Nat := spareBase + k * 65536 + a % 65536

/-- A die after a write to its stack: to the address after the remap table, and during a copy of the page to the spare too. -/
def DieS.stored (x : DieS) (a : Nat) (b : List Byte) : DieS :=
  match x.copy with
  | some c => if c.page = a / 65536 then (x.putHbm (x.physical a) b).putHbm (spareAddr c.spare a) b
      else x.putHbm (x.physical a) b
  | none => x.putHbm (x.physical a) b

theorem State.hbmStore_eq (s : State) (d : Die) (a : Nat) (b : List Byte) :
    s.hbmStore d a b = s.modDie d fun x => x.stored a b := rfl

/-- What a stack's write does to the die, whatever copy is under way. -/
theorem DieS.stored_cases (x : DieS) (a : Nat) (b : List Byte) : x.stored a b = x.putHbm (x.physical a) b
    ∨ ∃ k, x.stored a b = (x.putHbm (x.physical a) b).putHbm (spareAddr k a) b := by
  unfold DieS.stored
  split
  next c hcopy =>
    split
    · exact .inr ⟨c.spare, rfl⟩
    · exact .inl rfl
  next => exact .inl rfl

/-- A write leaves the remap table and the digest as they were. -/
theorem DieS.stored_keeps (x : DieS) (a : Nat) (b : List Byte) :
    (x.stored a b).remap = x.remap ∧ (x.stored a b).digest = x.digest := by
  obtain h | ⟨k, h⟩ := x.stored_cases a b <;> rw [h] <;> exact ⟨rfl, rfl⟩

theorem DieS.symsAt_setSyms_zero (x : DieS) (q : Nat) : (x.setSyms q 0).symsAt q = 0 := by
  have hnone : (x.syms.filter (·.1 ≠ q / 64)).find? (·.1 = q / 64) = none :=
    List.find?_eq_none.mpr fun e he hsame => of_decide_eq_true (List.mem_filter.mp he).2 (of_decide_eq_true hsame)
  simp only [DieS.symsAt, DieS.setSyms, if_true, hnone, Option.map_none, Option.getD_none]

/-- Symbols made good elsewhere leave a good access good. -/
theorem DieS.symsAt_setSyms_of_zero {x : DieS} {q : Nat} (h : x.symsAt q = 0) (p : Nat) : (x.setSyms p 0).symsAt q = 0 := by
  by_cases hsame : q / 64 = p / 64
  · have hread : (x.setSyms p 0).symsAt q = (x.setSyms p 0).symsAt p := by rw [DieS.symsAt, DieS.symsAt, hsame]
    rw [hread, DieS.symsAt_setSyms_zero]
  · simpa only [DieS.symsAt, DieS.setSyms, if_true, AMap.find_filter_ne _ _ _ hsame] using h

theorem DieS.symsAt_stored (x : DieS) (a : Nat) (b : List Byte) : (x.stored a b).symsAt (x.physical a) = 0 := by
  have hput : (x.putHbm (x.physical a) b).symsAt (x.physical a) = 0 := DieS.symsAt_setSyms_zero _ _
  obtain h | ⟨k, h⟩ := x.stored_cases a b <;> rw [h]
  · exact hput
  · exact DieS.symsAt_setSyms_of_zero (x := { x.putHbm (x.physical a) b with hbm := _ }) hput (spareAddr k a)

/-- An address of a stack lies before the spares (R398). -/
theorem State.resolve_lt {s : State} {d : Die} {off a : Nat} {pair : Bool} (h : s.resolve d off = some (a, pair)) :
    a < spareBase := by
  have hin {x y : Nat} {p q : Bool} (hif : (if x < spareBase then some (x, p) else none) = some (y, q)) : y < spareBase := by
    split at hif
    next hlt => cases hif; exact hlt
    next => cases hif
  unfold State.resolve at h
  extract_lets o inStack at h
  split at h
  case isTrue =>
    split at h
    · exact hin h
    · cases h
  split at h
  case isTrue => cases h
  split at h
  case isTrue =>
    split at h
    · exact hin h
    · cases h
  split at h
  case isTrue => cases h
  split at h
  next =>
    split at h
    · exact hin h
    · cases h
  next => cases h

/-- Two places of one address, in a spare and after the remap table, are the same or whole pages apart. -/
theorem DieS.physical_apart (x : DieS) {a : Nat} (h : a < spareBase) (k : Nat) : x.physical a = spareAddr k a
    ∨ x.physical a + 65536 ≤ spareAddr k a ∨ spareAddr k a + 65536 ≤ x.physical a := by
  unfold DieS.physical spareAddr
  unfold spareBase at h ⊢
  split <;> omega

theorem DieS.bytes_stored (x : DieS) {a : Nat} (h : a < spareBase) {b : List Byte} (hlen : b.length = 64) :
    (x.stored a b).hbm.bytes (x.physical a) 64 = b := by
  have hput : (x.hbm.write (x.physical a) b).bytes (x.physical a) 64 = b := Memory.bytes_write_same _ _ hlen
  obtain hone | ⟨k, htwo⟩ := x.stored_cases a b
  · rw [hone]; exact hput
  rw [htwo]
  show ((x.hbm.write (x.physical a) b).write (spareAddr k a) b).bytes (x.physical a) 64 = b
  obtain hsame | hapart := x.physical_apart h k
  · rw [← hsame]; exact Memory.bytes_write_same _ _ hlen
  · rw [Memory.bytes_write_of_apart _ (by omega), hput]

/-- The state after a write that is served differs in its die alone. -/
theorem State.hbmWritten_eq (s : State) (d : Die) (a : Nat) (b : List Byte) :
    s.hbmWritten d a b = s.modDie d fun x => { x.stored a b with
      digest := if s.inPairs d a then x.digest + writeDigest d a b else x.digest } := by
  have hdigest := ((s.die d).stored_keeps a b).2
  unfold State.hbmWritten
  split
  next =>
    rw [State.hbmStore_eq, State.modDie_modDie]
    exact s.modDie_congr (by simp only [Function.comp_apply, hdigest])
  next =>
    rw [State.hbmStore_eq]
    exact s.modDie_congr (by rw [← hdigest])

/-- What becomes of a die changes nothing that decides whether and where its stack answers. -/
theorem State.StackAnswers.modDie {s : State} {d : Die} {off a : Nat} (h : s.StackAnswers d off a) (e : Die)
    (f : DieS → DieS) : (s.modDie e f).StackAnswers d off a := ⟨h.powered, h.opened, h.clock, h.place⟩

theorem State.deliver_hbmWritten (s : State) (d : Die) (a : Nat) (b : List Byte) (r : Delivery) :
    State.deliver d (s.hbmWritten d a b, r) = s.modDie d fun x => { x.stored a b with
      digest := if s.inPairs d a then x.digest + writeDigest d a b else x.digest
      delivered := some r } := by
  rw [State.deliver, State.hbmWritten_eq, State.modDie_modDie]
  rfl

/-- A stack answers after a write that is served as it did before. -/
theorem State.StackAnswers.written {s : State} {d : Die} {off a : Nat} (h : s.StackAnswers d off a) (b : List Byte)
    (r : Delivery) : (State.deliver d (s.hbmWritten d a b, r)).StackAnswers d off a := by
  rw [State.deliver_hbmWritten]
  exact h.modDie d _

/-- The next read of a place finds what was written there (R406, R412, R413). -/
theorem State.hbmRead_hbmWritten {s : State} {d : Die} {off a : Nat} (h : s.StackAnswers d off a)
    (hserves : s.refuses d a = false) {b : List Byte} (hlen : b.length = 64) (r : Delivery) (j : Issuer) :
    ((State.deliver d (s.hbmWritten d a b, r)).hbmRead d off j).2 = .data b := by
  have hwritten := s.deliver_hbmWritten d a b r
  have hdie := (congrArg (fun t : State => t.die d) hwritten).trans (s.die_modDie d _)
  have hphysical : ((State.deliver d (s.hbmWritten d a b, r)).die d).physical a = (s.die d).physical a := by
    rw [hdie]; simp only [DieS.physical, ((s.die d).stored_keeps a b).1]
  have hclean : ((State.deliver d (s.hbmWritten d a b, r)).die d).symsAt ((s.die d).physical a) = 0 := by
    rw [hdie]; exact (s.die d).symsAt_stored a b
  have hbytes : ((State.deliver d (s.hbmWritten d a b, r)).die d).hbm.bytes ((s.die d).physical a) 64 = b := by
    rw [hdie]; exact (s.die d).bytes_stored (State.resolve_lt h.place) hlen
  have hserves' : (State.deliver d (s.hbmWritten d a b, r)).refuses d a = false := by rw [hwritten]; exact hserves
  rw [State.hbmRead_of_served (h.written b r) j hserves' (n := 0) (by rw [hphysical, hclean]), if_pos rfl, hphysical, hbytes]

/-! ### The shared cache -/

/-- A die whose shared cache answers: the dies have power, the die is not closed and its clock runs. -/
structure State.CacheAnswers (s : State) (d : Die) : Prop where
  powered : s.powered = true
  opened : s.dieClosed d = false
  clock : s.clockOut (.uncore d) = false

/-- Whether another access of the tick has taken a line's bank (R418). -/
def State.bankBusy (s : State) (d : Die) (l : Nat) (c : Source) : Bool :=
  (s.die d).banks.any fun e => e.1 == l % 64 && !(c.spread && e.2 == c.rank)

/-- A line's bank taken by an access (R418). -/
def State.bankClaimed (s : State) (d : Die) (l : Nat) (c : Source) : State :=
  s.modDie d fun x => { x with banks := (l % 64, c.rank) :: x.banks }

/-- A line's bank taken and the line's symbols looked at by a read that turns no bit bad (R418, R419). -/
def State.lineChecked (s : State) (d : Die) (l : Nat) (c : Source) : State :=
  (s.bankClaimed d l c).modDie d fun x => x.setWordBad (l * 16) (x.wordBad (l * 16))

theorem State.claimBank_of_busy {s : State} {d : Die} {l : Nat} {c : Source} (h : s.bankBusy d l c = true) :
    s.claimBank d l c = (s.raiseSuspect (dreg .scStat d) 1 (l * 128), false) := if_pos h

theorem State.claimBank_of_free {s : State} {d : Die} {l : Nat} {c : Source} (h : s.bankBusy d l c = false) :
    s.claimBank d l c = (s.bankClaimed d l c, true) := if_neg (Bool.eq_false_iff.mp h)

section Serve

variable {s : State} {d : Die} {l : Nat} {c : Source}

theorem State.cacheServe_of_busy (h : s.bankBusy d l c = true) :
    s.cacheServe d l c 0 = (s.raiseSuspect (dreg .scStat d) 1 (l * 128), false) := by
  simp only [State.cacheServe, State.claimBank_of_busy h, Bool.not_false, if_true]

variable (hfree : s.bankBusy d l c = false)
include hfree

/-- A read that gets its bank goes by the worst word of its line (R419). -/
theorem State.cacheServe_of_free : s.cacheServe d l c 0 =
    if ((s.lineChecked d l c).die d).lineBad l |>.any (2 ≤ ·.2) then
      (((if (s.lineChecked d l c).rdBit (dreg .scUeAddr d) 31 then s.lineChecked d l c else
        ((s.lineChecked d l c).wrFld (dreg .scUeAddr d) 27 7 l).wrBit (dreg .scUeAddr d) 31 true).raiseBit
          (dreg .scStat d) 2 true (l * 128)).suspectDie d, false)
    else (if (((s.lineChecked d l c).die d).lineBad l).isEmpty then s.lineChecked d l c
      else (s.lineChecked d l c).count (dreg .scCeCnt d) 1, true) := by
  simp only [State.cacheServe, State.claimBank_of_free hfree, Bool.not_true, Bool.false_eq_true, if_false]
  rfl

theorem State.cacheServe_of_clean (hclean : ((s.lineChecked d l c).die d).lineBad l = []) :
    s.cacheServe d l c 0 = (s.lineChecked d l c, true) := by
  simp only [State.cacheServe_of_free hfree, hclean, List.any_nil, Bool.false_eq_true, if_false, List.isEmpty_nil, if_true]

/-- Single bad bits are corrected, and the read counts (R419). -/
theorem State.cacheServe_of_single (hbad : ((s.lineChecked d l c).die d).lineBad l ≠ [])
    (hsingle : ∀ e ∈ ((s.lineChecked d l c).die d).lineBad l, e.2 < 2) :
    s.cacheServe d l c 0 = ((s.lineChecked d l c).count (dreg .scCeCnt d) 1, true) := by
  have hnone : ¬ (((s.lineChecked d l c).die d).lineBad l |>.any (2 ≤ ·.2)) = true := by
    rw [List.any_eq_true]
    rintro ⟨e, he, hworse⟩
    exact Nat.not_le.mpr (hsingle e he) (of_decide_eq_true hworse)
  rw [State.cacheServe_of_free hfree, if_neg hnone, if_neg (mt List.isEmpty_iff.mp hbad)]

/-- A word with more bad bits is not delivered, and SC_STAT shows it (R419, R427). -/
theorem State.cacheServe_of_double (hdouble : ∃ e ∈ ((s.lineChecked d l c).die d).lineBad l, 2 ≤ e.2) :
    ∃ t, s.cacheServe d l c 0 = (t, false) ∧ t.rdBit (dreg .scStat d) 2 = true := by
  obtain ⟨e, he, hworse⟩ := hdouble
  have hany : (((s.lineChecked d l c).die d).lineBad l |>.any (2 ≤ ·.2)) = true :=
    List.any_eq_true.mpr ⟨e, he, decide_eq_true hworse⟩
  refine ⟨_, (State.cacheServe_of_free hfree).trans (if_pos hany), ?_⟩
  rw [State.rdBit, State.rd_suspectDie]
  exact State.rdBit_raiseBit rfl (by decide) _ _ _

end Serve

section Cache

variable {s : State} {d : Die} (h : s.CacheAnswers d) (i : Issuer) {off : Nat}
include h

theorem State.cacheAccess_read : s.cacheAccess d i off none 0 = State.deliver d (s.cacheRead d off i) := by
  simp only [State.cacheAccess, h.powered, Bool.not_true, Bool.false_eq_true, if_false]

theorem State.cacheAccess_write {b : List Byte} (hlen : b.length = 128) :
    s.cacheAccess d i off (some b) 0 = State.deliver d (s.cacheWrite d off i b) := by
  simp only [State.cacheAccess, h.powered, Bool.not_true, Bool.false_eq_true, if_false, map_range_getD hlen]

/-- The host's read beyond the cache delivers zeros with a range error (R416). -/
theorem State.cacheRead_of_beyond (hoff : cacheSize ≤ off) : s.cacheRead d off .host =
    (s.raiseBit (dreg .scStat d) 0 false off, .data (List.replicate 128 0)) := by
  simp only [State.cacheRead, State.cacheLine, h.opened, Bool.false_eq_true, if_false, hoff, if_true]
  rfl

variable (hoff : off < cacheSize)
include hoff

/-- A read within the cache delivers its line where it is served and the line is not blank (R418, R480). -/
theorem State.cacheRead_of_within : s.cacheRead d off i =
    if !(s.cacheServe d (off / 128) (i.source d) 0).2
      || ((s.cacheServe d (off / 128) (i.source d) 0).1.die d).blanks.contains (off / 128)
    then ((s.cacheServe d (off / 128) (i.source d) 0).1, .blank)
    else ((s.cacheServe d (off / 128) (i.source d) 0).1,
      .data (((s.cacheServe d (off / 128) (i.source d) 0).1.die d).cache.bytes (off / 128 * 128) 128)) := by
  simp only [State.cacheRead, State.cacheLine, h.opened, h.clock, Bool.false_eq_true, if_false, Nat.not_le.mpr hoff]

theorem State.cacheRead_of_unserved {t : State} (hserve : s.cacheServe d (off / 128) (i.source d) 0 = (t, false)) :
    s.cacheRead d off i = (t, .blank) := by
  simp only [State.cacheRead_of_within h i hoff, hserve, Bool.not_false, Bool.true_or, if_true]

/-- The bytes of a served line are those that stood there before the access (R418). -/
theorem State.cacheRead_of_served {t : State} (hserve : s.cacheServe d (off / 128) (i.source d) 0 = (t, true))
    (hcache : (t.die d).cache = (s.die d).cache) (hblanks : (t.die d).blanks = (s.die d).blanks)
    (hfull : (s.die d).blanks.contains (off / 128) = false) :
    s.cacheRead d off i = (t, .data ((s.die d).cache.bytes (off / 128 * 128) 128)) := by
  simp only [State.cacheRead_of_within h i hoff, hserve, hcache, hblanks, hfull, Bool.not_true, Bool.or_self,
    Bool.false_eq_true, if_false]

theorem State.cacheWrite_of_within (b : List Byte) : s.cacheWrite d off i b =
    if !(s.claimBank d (off / 128) (i.source d)).2 then ((s.claimBank d (off / 128) (i.source d)).1, .blank)
    else ((s.claimBank d (off / 128) (i.source d)).1.modDie d fun x => x.putLine (off / 128) b, .data b) := by
  have hin : ¬ cacheSize ≤ off / 128 * 128 := by omega
  have hline : off / 128 * 128 / 128 = off / 128 := Nat.mul_div_cancel _ (by decide)
  simp only [State.cacheWrite, State.cachePut, h.opened, h.clock, Bool.false_eq_true, if_false, hin, hline, DieS.putLine]

theorem State.cacheWrite_of_busy (hbusy : s.bankBusy d (off / 128) (i.source d) = true) (b : List Byte) :
    s.cacheWrite d off i b = (s.raiseSuspect (dreg .scStat d) 1 (off / 128 * 128), .blank) := by
  simp only [State.cacheWrite_of_within h i hoff, State.claimBank_of_busy hbusy, Bool.not_false, if_true]

theorem State.cacheWrite_of_free (hfree : s.bankBusy d (off / 128) (i.source d) = false) (b : List Byte) :
    s.cacheWrite d off i b =
      ((s.bankClaimed d (off / 128) (i.source d)).modDie d fun x => x.putLine (off / 128) b, .data b) := by
  simp only [State.cacheWrite_of_within h i hoff, State.claimBank_of_free hfree, Bool.not_true, Bool.false_eq_true, if_false]

/-- A line whose words are all good reads as it stands (R418, R419). -/
theorem State.cacheRead_of_clean (hfree : s.bankBusy d (off / 128) (i.source d) = false)
    (hclean : ((s.lineChecked d (off / 128) (i.source d)).die d).lineBad (off / 128) = [])
    (hfull : (s.die d).blanks.contains (off / 128) = false) :
    s.cacheRead d off i = (s.lineChecked d (off / 128) (i.source d),
      .data ((s.die d).cache.bytes (off / 128 * 128) 128)) := by
  have hdie : (s.lineChecked d (off / 128) (i.source d)).die d = _ := State.die_modDie _ _ _
  refine State.cacheRead_of_served h i hoff (State.cacheServe_of_clean hfree hclean) ?_ ?_ hfull
  · rw [hdie, State.bankClaimed, State.die_modDie]; rfl
  · rw [hdie, State.bankClaimed, State.die_modDie]; rfl

/-- A line with single bad bits reads as it stands, and the read counts (R419). -/
theorem State.cacheRead_of_single (hfree : s.bankBusy d (off / 128) (i.source d) = false)
    (hbad : ((s.lineChecked d (off / 128) (i.source d)).die d).lineBad (off / 128) ≠ [])
    (hsingle : ∀ e ∈ ((s.lineChecked d (off / 128) (i.source d)).die d).lineBad (off / 128), e.2 < 2)
    (hfull : (s.die d).blanks.contains (off / 128) = false) :
    s.cacheRead d off i = ((s.lineChecked d (off / 128) (i.source d)).count (dreg .scCeCnt d) 1,
      .data ((s.die d).cache.bytes (off / 128 * 128) 128)) := by
  have hdie : (s.lineChecked d (off / 128) (i.source d)).die d = _ := State.die_modDie _ _ _
  refine State.cacheRead_of_served h i hoff (State.cacheServe_of_single hfree hbad hsingle) ?_ ?_ hfull
  · rw [State.count, State.modReg, State.die_wr, hdie, State.bankClaimed, State.die_modDie]; rfl
  · rw [State.count, State.modReg, State.die_wr, hdie, State.bankClaimed, State.die_modDie]; rfl

end Cache

/-! ### What a cache's write leaves -/

/-- A line written whole has no bad word (R419). -/
theorem DieS.lineBad_putLine (x : DieS) (l : Nat) {b : List Byte} (hlen : b.length = 128) : (x.putLine l b).lineBad l = [] := by
  simp only [DieS.lineBad, DieS.putLine, DieS.putBytes, List.filter_filter, List.filter_eq_nil_iff, hlen, Bool.and_eq_true,
    Bool.not_eq_true', decide_eq_true_eq, decide_eq_false_iff_not]
  intro e _
  omega

/-- A line written whole is not blank (R480). -/
theorem DieS.blanks_putLine (x : DieS) (l : Nat) {b : List Byte} (hlen : b.length = 128) :
    (x.putLine l b).blanks.contains l = false := by
  rw [DieS.putLine, DieS.putBytes, hlen, Bool.eq_false_iff, ne_eq, List.contains_iff_mem]
  intro hmem
  have hstays := (List.mem_filter.mp hmem).2
  rw [Bool.not_eq_true', decide_eq_false_iff_not] at hstays
  omega

theorem DieS.wordBad_of_clean {x : DieS} {l : Nat} (h : x.lineBad l = []) : x.wordBad (l * 16) = 0 := by
  have hnone : x.cacheBad.find? (·.1 = l * 16) = none := by
    refine List.find?_eq_none.mpr fun e he hword => ?_
    have hline := List.filter_eq_nil_iff.mp h e he
    simp only [decide_eq_true_eq] at hword hline
    omega
  simp only [DieS.wordBad, hnone, Option.map_none, Option.getD_none]

/-- A read finds a good line good (R419). -/
theorem DieS.lineBad_checked_of_clean {x : DieS} {l : Nat} (h : x.lineBad l = []) :
    (x.setWordBad (l * 16) (x.wordBad (l * 16))).lineBad l = [] := by
  rw [DieS.wordBad_of_clean h]
  simp only [DieS.lineBad, List.filter_eq_nil_iff] at h ⊢
  exact fun e he => h e (List.mem_filter.mp he).1

/-- The next read of a line, in a later tick, finds what was written there (R416, R418). -/
theorem State.cacheRead_putLine {s : State} {d : Die} (h : s.CacheAnswers d) {off : Nat} (hoff : off < cacheSize)
    {b : List Byte} (hlen : b.length = 128) {x : DieS} {r : Option Delivery}
    (hdie : s.die d = { x.putLine (off / 128) b with banks := [], delivered := r }) (j : Issuer) :
    (s.cacheRead d off j).2 = .data b := by
  have hfree : s.bankBusy d (off / 128) (j.source d) = false := by simp only [State.bankBusy, hdie, List.any_nil]
  have hclean : ((s.lineChecked d (off / 128) (j.source d)).die d).lineBad (off / 128) = [] := by
    rw [State.lineChecked, State.die_modDie]
    refine DieS.lineBad_checked_of_clean ?_
    rw [State.bankClaimed, State.die_modDie, hdie]
    exact x.lineBad_putLine (off / 128) hlen
  have hfull : (s.die d).blanks.contains (off / 128) = false := by rw [hdie]; exact x.blanks_putLine _ hlen
  rw [State.cacheRead_of_clean h j hoff hfree hclean hfull, hdie]
  exact congrArg Delivery.data (Memory.bytes_write_same _ _ hlen)

end Sys2Proof.Machine
end

section
/-!
PROOF. The background work of a stack's controller (10_memory_system.md R400, R403 to R405, R409, R412 to R415): refresh, scrub,
calibration, temperature bands and the copies of retirement.
-/
namespace Sys2Proof.Machine

/-! ### Refresh (R400, R405, R407) -/

/-- A die after the refresh of bank `n` begins in its stack, unless the die is closed (R31). -/
def State.dieRefreshed (s : State) (n : Nat) (e : Die) : DieS :=
  if s.dieClosed e then s.die e else { s.die e with
    refreshed := some n
    added := if s.band e = 0 then (s.die e).added else some ((n + 16) % 32) }

/-- The refresh of bank `n` begins in one stack. -/
def State.refreshDie (n : Nat) (s : State) (d : Die) : State :=
  if s.dieClosed d then s else
    s.modDie d fun x => { x with refreshed := some n, added := if s.band d != 0 then some ((n + 16) % 32) else x.added }

theorem State.refreshDie_frame (n : Nat) (s : State) (d : Die) : ∃ m, s.refreshDie n d = { s with dies := m } := by
  unfold State.refreshDie
  split <;> exact ⟨_, rfl⟩

theorem State.die_refreshDie_same (n : Nat) (s : State) (d : Die) : (s.refreshDie n d).die d = s.dieRefreshed n d := by
  unfold State.refreshDie State.dieRefreshed
  split
  · rfl
  · rw [State.die_modDie]
    by_cases hband : s.band d = 0
    · simp only [hband, bne_self_eq_false, Bool.false_eq_true, if_false, if_true]
    · simp only [hband, bne_iff_ne.mpr hband, if_false, if_true]

theorem State.die_refreshDie_ne (n : Nat) (s : State) {d e : Die} (h : e ≠ d) : (s.refreshDie n d).die e = s.die e := by
  unfold State.refreshDie
  split
  · rfl
  · exact State.die_modDie_ne s d e _ h

/-- What the refresh of one stack leaves of the others stands for their own. -/
theorem State.dieRefreshed_refreshDie_ne (n : Nat) (s : State) {d e : Die} (h : e ≠ d) :
    (s.refreshDie n d).dieRefreshed n e = s.dieRefreshed n e := by
  obtain ⟨m, hframe⟩ := s.refreshDie_frame n d
  have hclosed : (s.refreshDie n d).dieClosed e = s.dieClosed e := by rw [hframe]; rfl
  have hband : (s.refreshDie n d).band e = s.band e := by rw [hframe]; rfl
  simp only [State.dieRefreshed, hclosed, hband, State.die_refreshDie_ne n s h]

/-- A refresh step of some dies leaves each of them refreshed and everything else alone. -/
theorem State.foldl_refreshDie (n : Nat) {l : List Die} (hl : l.Nodup) (s : State) :
    (∃ m, l.foldl (State.refreshDie n) s = { s with dies := m })
    ∧ ∀ e, (l.foldl (State.refreshDie n) s).die e = if e ∈ l then s.dieRefreshed n e else s.die e := by
  induction l generalizing s with
  | nil => exact ⟨⟨_, rfl⟩, fun e => (if_neg List.not_mem_nil).symm⟩
  | cons d l ih =>
    obtain ⟨hd, hnodup⟩ := List.nodup_cons.mp hl
    obtain ⟨⟨m, hrest⟩, hdies⟩ := ih hnodup (s.refreshDie n d)
    refine ⟨?frame, fun e => ?die⟩
    case frame =>
      obtain ⟨k, hone⟩ := s.refreshDie_frame n d
      exact ⟨m, by rw [List.foldl_cons, hrest, hone]⟩
    case die =>
      rw [List.foldl_cons, hdies e]
      by_cases hsame : e = d
      · subst hsame
        rw [if_neg hd, if_pos List.mem_cons_self, State.die_refreshDie_same]
      · simp only [List.mem_cons, hsame, false_or, State.dieRefreshed_refreshDie_ne n s hsame, State.die_refreshDie_ne n s hsame]

theorem State.refreshStep_of_due {s : State} (hpowered : s.powered = true) (hawake : s.selfRefresh = false)
    (htick : s.now % 64 = 0) : s.refreshStep = allDies.foldl (State.refreshDie (s.now / 64 % 32)) s := by
  simp only [State.refreshStep, hpowered, hawake, htick, Bool.not_true, Bool.or_self, ne_eq, not_true_eq_false, decide_false,
    Bool.false_eq_true, if_false]
  rfl

/-! ### Patrol scrub (R403, R409) -/

/-- The index that the patrol scrub of a die reads next. -/
def State.scrubIndex (s : State) (d : Die) : Nat := s.rdFld (dreg .hbmScrubPtr d) 29 0

/-- Where the patrol scrub reads next: through the remap table, but for the spares. -/
def State.scrubPlace (s : State) (d : Die) : Nat :=
  if s.scrubIndex d * 64 < spareBase then (s.die d).physical (s.scrubIndex d * 64) else s.scrubIndex d * 64

/-- The scrub's interval is used. -/
def State.scrubbed (s : State) (d : Die) : State := s.modDie d fun x => { x with scrubAt := s.interval }

/-- The scrub goes on to the next index, and round all of memory. -/
def State.scrubOn (s : State) (d : Die) (i : Nat) : State :=
  if i + 1 = 2 ^ 30 then (s.wrFld (dreg .hbmScrubPtr d) 29 0 (i + 1)).count (dreg .hbmScrubPass d) 1
  else s.wrFld (dreg .hbmScrubPtr d) 29 0 (i + 1)

section Scrub

variable {s : State} {d : Die} (hwindow : s.scrubWindow d = true) (hturn : s.background d (·.scrubAt) = true)
  (hgood : (s.die d).symsAt (s.scrubPlace d) = 0)
include hwindow hturn hgood

/-- What a scrub of a place without bad symbols does goes by the symbols that go bad under it. -/
theorem State.patrolScrub_of_due (upset : Nat) : s.patrolScrub d upset =
    ((if upset = 0 then s.scrubbed d
      else if upset = 1 then (((s.scrubbed d).count (dreg .hbmCeCnt d) 1).raiseBit (dreg .hbmStat d) 5 false
        (s.scrubIndex d * 64)).modDie d fun x => x.setSyms (s.scrubPlace d) 0
      else ((s.scrubbed d).modDie d fun x => x.setSyms (s.scrubPlace d) upset).uncorrectable d (s.scrubIndex d * 64) 1 7
        false).scrubOn d (s.scrubIndex d)) := by
  have hdue : ¬ (!s.scrubWindow d || !s.background d (·.scrubAt)) = true := by rw [hwindow, hturn]; exact Bool.false_ne_true
  unfold State.patrolScrub
  rw [if_neg hdue]
  extract_lets s1 i a x q n s2 s3
  have hdie : x = { s.die d with scrubAt := s.interval } := State.die_modDie _ _ _
  have hplace : q = s.scrubPlace d := by
    show (if a < spareBase then x.physical a else a) = _
    rw [hdie]; rfl
  have hsyms : n = upset := by
    show x.symsAt q + upset = upset
    rw [hplace, hdie]
    exact (congrArg (· + upset) hgood).trans (Nat.zero_add upset)
  have hread : s2 = if upset = 0 then s.scrubbed d
      else if upset = 1 then (((s.scrubbed d).count (dreg .hbmCeCnt d) 1).raiseBit (dreg .hbmStat d) 5 false
        (s.scrubIndex d * 64)).modDie d fun x => x.setSyms (s.scrubPlace d) 0
      else ((s.scrubbed d).modDie d fun x => x.setSyms (s.scrubPlace d) upset).uncorrectable d (s.scrubIndex d * 64) 1 7
        false := by
    rw [← hplace, ← hsyms]; rfl
  rw [← hread]
  rfl

theorem State.patrolScrub_clean : s.patrolScrub d 0 = (s.scrubbed d).scrubOn d (s.scrubIndex d) :=
  State.patrolScrub_of_due hwindow hturn hgood 0

/-- One bad symbol is corrected, counted and written back (R409). -/
theorem State.patrolScrub_corrected : s.patrolScrub d 1 =
    ((((s.scrubbed d).count (dreg .hbmCeCnt d) 1).raiseBit (dreg .hbmStat d) 5 false (s.scrubIndex d * 64)).modDie d
      fun x => x.setSyms (s.scrubPlace d) 0).scrubOn d (s.scrubIndex d) :=
  State.patrolScrub_of_due hwindow hturn hgood 1

end Scrub

theorem State.scrubWindow_of_slot {s : State} {d : Die}
    (hfurrow : s.now / 16384 % (max (s.rdFld (dreg .hbmCfg d) 7 0) 1) = 0) (htick : s.tickIn < 128) :
    s.scrubWindow d = true :=
  Bool.and_eq_true_iff.mpr ⟨beq_iff_eq.mpr hfurrow, decide_eq_true htick⟩

/-! ### Calibration (R403) -/

section Calibrate

variable {s : State} {d : Die} {n : Nat} (hinterval : s.interval = some n)
include hinterval

theorem State.calibrate_of_even (hturn : s.background d (·.calAt) = true) (heven : n % 2 = 0) (fails : Bool) :
    s.calibrate d fails =
      if fails then (s.modDie d fun x => { x with calAt := some n, calCount := n / 2 }).raiseBit (dreg .hbmStat d) 10
      else s.modDie d fun x => { x with calAt := some n, calCount := n / 2 } := by
  simp only [State.calibrate, hinterval, hturn, heven, Option.getD_some, Bool.not_true, ne_eq, not_true_eq_false, decide_false,
    Bool.or_self, Bool.false_eq_true, if_false]

theorem State.calibrate_of_odd (hodd : n % 2 = 1) (fails : Bool) : s.calibrate d fails = s := by
  have hskip : (!s.background d (·.calAt) || decide (n % 2 ≠ 0)) = true := by
    rw [hodd, decide_eq_true (by decide : 1 ≠ 0), Bool.or_true]
  simp only [State.calibrate, hinterval, Option.getD_some, hskip, if_true]

end Calibrate

/-! ### Temperature bands (R404) -/

/-- A reading of a stack's temperature latched, with the highest one. -/
def State.tempLatched (s : State) (d : Die) (t : Nat) : State :=
  (((s.modDie d fun x => { x with tempAt := some s.elapsed }).wrFld (dreg .hbmTemp d) 7 0 t).wrFld (dreg .hbmTemp d) 15 8
    (max (s.rdFld (dreg .hbmTemp d) 15 8) t)).wrBit (dreg .hbmTemp d) 16 true

/-- Where a reading moves the band. -/
def State.bandMoved (s : State) (d : Die) (t : Nat) : State :=
  match s.band d with
  | 0 => if 106 ≤ t then s.setBand d 2 else if 96 ≤ t then s.setBand d 1 else s
  | 1 => if 106 ≤ t then s.setBand d 2 else if t ≤ 93 then s.setBand d 0 else s
  | _ => s.modDie d fun x => { x with exitArmed := decide (t ≤ 100) }

theorem State.band_tempLatched (s : State) (d : Die) (t : Nat) : (s.tempLatched d t).band d = s.band d := by
  have hne : dreg .hbmStat d ≠ dreg .hbmTemp d := Reg.ne_of_name fun h => RegName.noConfusion h
  simp only [State.band, State.rdFld, State.tempLatched, State.rd_wrBit_ne _ hne, State.rd_wrFld_ne _ hne, State.rd_modDie]

section Temperature

variable {s : State} {d : Die} (hpowered : s.powered = true) (htick : s.tickIn = 128)

theorem State.hbmTemp_of_read (hread : (s.die d).tempAt = some s.elapsed) (t : Nat) : s.hbmTemp d (some t) = s := by
  simp only [State.hbmTemp, hread, beq_self_eq_true, Bool.or_true, if_true]

include hpowered htick in
theorem State.hbmTemp_of_due (hdue : (s.die d).tempAt ≠ some s.elapsed) (t : Nat) :
    s.hbmTemp d (some t) = (s.tempLatched d t).bandMoved d t := by
  have hfresh : ((s.die d).tempAt == some s.elapsed) = false := beq_false_of_ne hdue
  simp only [State.hbmTemp, hpowered, htick, hfresh, Bool.not_true, ne_eq, not_true_eq_false, decide_false, Bool.or_self,
    Bool.false_eq_true, if_false, Option.getD_some, Option.isSome_some, if_true, State.rdFld, State.rd_modDie]
  rfl

end Temperature

section Bands

variable {s : State} {d : Die}

theorem State.setBand_hot (h : s.band d = 0) :
    s.setBand d 1 = (s.wrFld (dreg .hbmStat d) 1 0 1).raiseBit (dreg .hbmStat d) 2 := by
  simp only [State.setBand, h, Nat.one_ne_zero, if_false, if_true]

theorem State.setBand_fenced (h : s.band d < 2) :
    s.setBand d 2 = (s.wrFld (dreg .hbmStat d) 1 0 2).raiseBit (dreg .hbmStat d) 3 := by
  have hmoves : ¬ 2 = s.band d := by omega
  simp only [State.setBand, hmoves, if_false, if_true, (by decide : ¬ 2 = 1)]

theorem State.setBand_normal (h : s.band d = 1) : s.setBand d 0 = s.wrFld (dreg .hbmStat d) 1 0 0 := by
  simp only [State.setBand, h, Nat.zero_ne_one, if_false, (by decide : ¬ 0 = 2)]

variable {t : Nat}

theorem State.bandMoved_normal (h : s.band d = 0) (ht : t < 96) : s.bandMoved d t = s := by
  have hcool : ¬ 106 ≤ t := by omega
  simp only [State.bandMoved, h, hcool, Nat.not_le.mpr ht, if_false]

theorem State.bandMoved_normal_hot (h : s.band d = 0) (hlow : 96 ≤ t) (hhigh : t < 106) :
    s.bandMoved d t = (s.wrFld (dreg .hbmStat d) 1 0 1).raiseBit (dreg .hbmStat d) 2 := by
  simp only [State.bandMoved, h, Nat.not_le.mpr hhigh, hlow, if_false, if_true, State.setBand_hot h]

theorem State.bandMoved_to_fenced (h : s.band d = 0 ∨ s.band d = 1) (ht : 106 ≤ t) :
    s.bandMoved d t = (s.wrFld (dreg .hbmStat d) 1 0 2).raiseBit (dreg .hbmStat d) 3 := by
  rw [← State.setBand_fenced (show s.band d < 2 by omega)]
  obtain h | h := h <;> simp only [State.bandMoved, h, ht, if_true]

theorem State.bandMoved_hot (h : s.band d = 1) (hlow : 93 < t) (hhigh : t < 106) : s.bandMoved d t = s := by
  simp only [State.bandMoved, h, Nat.not_le.mpr hhigh, Nat.not_le.mpr hlow, if_false]

theorem State.bandMoved_hot_normal (h : s.band d = 1) (ht : t ≤ 93) :
    s.bandMoved d t = s.wrFld (dreg .hbmStat d) 1 0 0 := by
  have hcool : ¬ 106 ≤ t := by omega
  simp only [State.bandMoved, h, hcool, ht, if_false, if_true, State.setBand_normal h]

/-- In FENCED a reading only arms the exit. -/
theorem State.bandMoved_fenced (h : s.band d = 2) :
    s.bandMoved d t = s.modDie d fun x => { x with exitArmed := decide (t ≤ 100) } := by
  simp only [State.bandMoved, h]

end Bands

/-! ### Retirement (R412 to R415) -/

section Copy

variable {s : State} {d : Die} {c : CopyRun} (hcopy : (s.die d).copy = some c)
include hcopy

/-- The next 64 bytes of the page, where their symbols are good, are copied to the spare (R413). -/
theorem State.copyAccess_of_due (hmore : c.done < 1024) (hscrub : s.scrubWindow d = false)
    (hturn : s.background d (·.copyAt) = true)
    (hgood : (s.die d).symsAt ((s.die d).physical (c.page * 65536 + c.done * 64)) = 0) :
    s.copyAccess d 0 = s.modDie d fun x =>
      ({ x with
        hbm := x.hbm.write (spareBase + c.spare * 65536 + c.done * 64)
          (x.hbm.bytes (x.physical (c.page * 65536 + c.done * 64)) 64)
        copyAt := s.interval, copy := some { c with done := c.done + 1 } }.setSyms
          (x.physical (c.page * 65536 + c.done * 64)) 0).setSyms (spareBase + c.spare * 65536 + c.done * 64) 0 := by
  have hnext : (decide (1024 ≤ c.done) || s.scrubWindow d || !s.background d (·.copyAt)) = false := by
    rw [hscrub, hturn, decide_eq_false (Nat.not_le.mpr hmore)]; rfl
  simp only [State.copyAccess, hcopy, hnext, hgood, Bool.false_eq_true, if_false, if_true, State.modDie_modDie,
    (by decide : ¬ 2 ≤ 0 + 0)]
  exact s.modDie_congr rfl

/-- A copy that is complete waits for the step boundary while a forme is armed on the die (R413). -/
theorem State.copyDone_of_armed (hall : 1024 ≤ c.done) (harmed : s.dieArmed d = true) :
    s.copyDone d = s.modDie d fun x => { x with copy := some { c with waits := true } } := by
  simp only [State.copyDone, hcopy, Nat.not_lt.mpr hall, harmed, if_false, if_true]

theorem State.copyDone_of_free (hall : 1024 ≤ c.done) (hfree : s.dieArmed d = false) : s.copyDone d = s.switchPage d := by
  simp only [State.copyDone, hcopy, Nat.not_lt.mpr hall, hfree, Bool.false_eq_true, if_false]

/-- A page retired for the first time leaves no spare bad (R413, R414). -/
theorem State.switchPage_of_new (hnew : ((s.die d).remap.any (·.1 = c.page)) = false) :
    let t := s.modDie d fun x => { x with remap := (c.page, c.spare) :: x.remap.filter (·.1 ≠ c.page), copy := none }
    let t := { t with fw := { t.fw with retired := t.fw.retired.filter (fun (e : Die × RetEntry) =>
      !(decide (e.1 = d) && e.2.page == c.page && !e.2.badSpare)) ++ [(d, RetEntry.mk c.page c.spare false)] } }
    s.switchPage d = (((t.wrBit (dreg .hbmRetire d) 13 false).wrFld (dreg .hbmRetire d) 12 0
      (t.die d).remap.length).raiseBit (dreg .hbmStat d) 8).endJobs (fun j => j.kind == .pageRetire d) stOk := by
  have hold : (s.die d).remap.filter (·.1 = c.page) = [] := by
    rw [List.filter_eq_nil_iff]
    exact fun e he => (List.any_eq_false.mp hnew) e he
  simp only [State.switchPage, hcopy, hold, List.map_nil, List.nil_append, List.append_nil]

end Copy

end Sys2Proof.Machine
end

section
/-!
PROOF. Register reads (15_registers.md R581, R586 to R590, R600), the traffic generators (10_memory_system.md R420, R426) and the
fuses (17_security_states.md R658).
-/
namespace Sys2Proof.Machine

/-! ### What a read clears (R586) -/

/-- Whether a register's highest reading falls back to the last where it is read (R404, R532). -/
def RegName.peaks (n : RegName) : Prop := n = .pwrTj ∨ n = .hbmTemp

theorem State.clearRead_of_peaks {r : Reg} (h : r.name.peaks) (s : State) (v : Word) :
    s.clearRead r v = s.wrFld r 15 8 (s.rdFld r 7 0) := by
  obtain h | h := h <;> simp only [State.clearRead, h]

theorem State.clearRead_of_plain {r : Reg} (h : ¬ r.name.peaks) (s : State) (v : Word) : s.clearRead r v =
    if v &&& r.name.info.rc = 0 then s else s.modReg r fun w => w &&& ~~~(v &&& r.name.info.rc) := by
  unfold State.clearRead
  split
  next hname => exact absurd (.inl hname) h
  next hname => exact absurd (.inr hname) h
  next => rfl

/-- A read clears in its own register alone. -/
theorem State.clearRead_cases (s : State) (r : Reg) (v : Word) :
    s.clearRead r v = s ∨ ∃ w, s.clearRead r v = s.wr r w := by
  by_cases hpeaks : r.name.peaks
  · exact .inr ⟨_, State.clearRead_of_peaks hpeaks s v⟩
  · rw [State.clearRead_of_plain hpeaks]
    split
    · exact .inl rfl
    · exact .inr ⟨_, rfl⟩

theorem State.clearRead_regs (s : State) (r : Reg) (v : Word) : s.clearRead r v = { s with regs := (s.clearRead r v).regs } := by
  obtain h | ⟨w, h⟩ := s.clearRead_cases r v
  · rw [h]
  · rw [h]; rfl

theorem State.rd_clearRead_ne (s : State) {q r : Reg} (h : q ≠ r) (v : Word) : (s.clearRead r v).rd q = s.rd q := by
  obtain hsame | ⟨w, hwrite⟩ := s.clearRead_cases r v
  · rw [hsame]
  · rw [hwrite, State.rd_wr_ne _ _ _ _ h]

theorem State.rd_clearRead_of_plain {r : Reg} (h : ¬ r.name.peaks) (s : State) (v : Word) :
    (s.clearRead r v).rd r = s.rd r &&& ~~~(v &&& r.name.info.rc) := by
  rw [State.clearRead_of_plain h]
  split
  next hnone => rw [hnone, (by decide : ~~~(0 : Word) = BitVec.allOnes 32), BitVec.and_allOnes]
  next => exact State.rd_wr _ _ _

theorem State.rdFld_clearRead_of_peaks {r : Reg} (h : r.name.peaks) (s : State) (v : Word) :
    (s.clearRead r v).rdFld r 15 8 = s.rdFld r 7 0 ∧ (s.clearRead r v).rdFld r 7 0 = s.rdFld r 7 0 := by
  have hlast : s.rdFld r 7 0 < 2 ^ (15 + 1 - 8) := Nat.mod_lt _ (by decide)
  rw [State.clearRead_of_peaks h]
  simp only [State.wrFld, State.modReg, State.rdFld, State.rd_wr] at hlast ⊢
  exact ⟨fld_setFld_same _ hlast (by decide), fld_setFld_of_disjoint _ _ (by decide)⟩

/-! ### Ordinary reads (R586, R589, R590) -/

section Reads

variable {r : Reg} (s : State) (who : Requester)

theorem State.readReg_of_single (hlow : r.name.high = none) (hhigh : r.name.isHigh = false) :
    s.readReg who r = (s.clearRead r (s.view r)).out (s.view r) := by
  simp only [State.readReg, hlow, hhigh, Bool.false_eq_true, if_false]

/-- A read of a pair's low half keeps the high half for its requester. -/
theorem State.readReg_of_low {h : RegName} (hlow : r.name.high = some h) : s.readReg who r =
    ((s.setShadow who (Reg.addr { r with name := h }) (some (s.view { r with name := h }))).clearRead r (s.view r)).out
      (s.view r) := by
  simp only [State.readReg, hlow]

/-- A high half that is kept is delivered, once. -/
theorem State.readReg_of_kept (hlow : r.name.high = none) (hhigh : r.name.isHigh = true) {v : Word}
    (hkept : s.shadow who r.addr = some v) : s.readReg who r = ((s.setShadow who r.addr none).clearRead r v).out v := by
  simp only [State.readReg, hlow, hhigh, hkept, if_true]

theorem State.readReg_of_unkept (hlow : r.name.high = none) (hhigh : r.name.isHigh = true)
    (hkept : s.shadow who r.addr = none) : s.readReg who r = (s.clearRead r (s.view r)).out (s.view r) := by
  simp only [State.readReg, hlow, hhigh, hkept, if_true]

end Reads

/-! ### Reads at an address (R581, R588, R649) -/

section Bus

variable {s : State} {who : Requester} {a : Nat} {r : Reg}

theorem State.busRead_of_denied (hbus : s.busDead who = false) (hdenied : s.allows who a false = false) :
    s.busRead who a = (s.refused who a 0).out 0 := by
  simp only [State.busRead, hbus, hdenied, Bool.false_eq_true, Bool.not_false, if_false, if_true]

theorem State.busRead_of_mapped (hbus : s.busDead who = false) (hallowed : s.allows who a false = true)
    (hreg : regAt (a / 4 * 4) = some r) : s.busRead who a = (s.noteDebug who false).readReg who r := by
  simp only [State.busRead, hbus, hallowed, hreg, Bool.false_eq_true, Bool.not_true, if_false]

/-- The debug path is the firmware's, the monitor's and JTAG's, and clears nothing (R588). -/
theorem State.debugRead_of_mapped (hallowed : s.allows who a false = true) (hreg : regAt (a / 4 * 4) = some r)
    (hwho : who = .firmware ∨ who = .monitor ∨ who = .jtag) :
    s.debugRead who a = (s.noteDebug who false).out ((s.noteDebug who false).view r) := by
  obtain rfl | rfl | rfl := hwho <;> simp only [State.debugRead, hallowed, hreg] <;> rfl

theorem State.debugRead_of_other (hwho : who = .host ∨ who = .sideband) :
    s.debugRead who a = (s.refused who a 0).out 0 := by
  have hrefused : (!s.allows who a false || who == .host || who == .sideband) = true := by
    obtain rfl | rfl := hwho
    · rw [beq_self_eq_true, Bool.or_true, Bool.true_or]
    · rw [beq_self_eq_true, Bool.or_true]
  simp only [State.debugRead, hrefused, if_true]

/-- A read of a pair's low half is an ordinary read. -/
theorem exec_shadowLoRead {h : RegName} (hreg : regAt (a / 4 * 4) = some r) (hlow : r.name.high = some h) :
    exec (.shadowLoRead who a) s = .next (s.busRead who a) := by
  show execShadowLoRead who a s = _
  simp only [execShadowLoRead, hreg, hlow, Option.isSome_some, if_true]

/-- A read of a pair's high half is an ordinary read. -/
theorem exec_hiRead (hreg : regAt (a / 4 * 4) = some r) (hhigh : r.name.isHigh = true) :
    exec (.hiRead who a) s = .next (s.busRead who a) := by
  show execHiRead who a s = _
  simp only [execHiRead, hreg, hhigh, if_true]

end Bus

/-- The latched address of a stack's uncorrectable read lies where the map has it (R594 to R596). -/
theorem regAt_hbmUeAddrHi (d : Die) : regAt ((dreg .hbmUeAddrHi d).addr / 4 * 4) = some (dreg .hbmUeAddrHi d) := by
  revert d; decide +kernel

theorem regAt_secAccessAddr : regAt ((xreg .secAccessAddr).addr / 4 * 4) = some (xreg .secAccessAddr) := by decide +kernel

theorem regAt_secFuseCtl : regAt ((xreg .secFuseCtl).addr / 4 * 4) = some (xreg .secFuseCtl) := by decide +kernel

/-! ### Traffic generators (R420, R426) -/

section Generators

variable {s : State} {d : Die} {c : Fin 32}

theorem State.tgDone_of_idle (h : s.rdBit (tgReg .tgCtl d c) 9 = false ∨ s.dieArmed d = true) : s.tgDone d c = s := by
  have hstill : (!s.rdBit (tgReg .tgCtl d c) 9 || s.dieArmed d) = true := by
    obtain h | h := h
    · rw [h, Bool.not_false, Bool.true_or]
    · rw [h, Bool.or_true]
  simp only [State.tgDone, hstill, if_true]

theorem State.tgDone_of_running (hruns : s.rdBit (tgReg .tgCtl d c) 9 = true) (hfree : s.dieArmed d = false) :
    s.tgDone d c =
      if (s.tgPass d c (s.rdFld (tgReg .tgLen d c) 25 0)).rdFld (tgReg .tgCtl d c) 1 0 = 3
      then (s.tgPass d c (s.rdFld (tgReg .tgLen d c) 25 0)).count (tgReg .tgPass d c) 1
      else (s.tgPass d c (s.rdFld (tgReg .tgLen d c) 25 0)).tgEnd d c := by
  simp only [State.tgDone, hruns, hfree, Bool.not_true, Bool.or_self, Bool.false_eq_true, if_false]

theorem State.tgStop_of_running (hruns : s.rdBit (tgReg .tgCtl d c) 9 = true) (n : Nat) :
    s.tgStop d c n = (s.tgPass d c (min n (s.rdFld (tgReg .tgLen d c) 25 0))).tgEnd d c := by
  simp only [State.tgStop, hruns, Bool.not_true, Bool.false_eq_true, if_false]

/-- A write of STOP that is let through stops the generator and keeps the rest of the register's bits. -/
theorem exec_tgStop {who : Requester} (hallowed : s.allows who (tgReg .tgCtl d c).addr true = true)
    (hbus : s.busDead who = false) (v : Word) (n : Nat) : exec (.tgStop who d c v n) s =
      .next (((s.noteDebug who true).tgStop d c n).storeReg (tgReg .tgCtl d c) (v &&& ~~~(0xC0 : Word))) := by
  show execTgStop who d c v n s = _
  simp only [execTgStop, hallowed, hbus, Bool.not_false, Bool.and_self, if_true]

end Generators

/-! ### Fuses (R658) -/

/-- The state after a programming has begun: PROG_BUSY, and the word and address that will burn. -/
def State.fuseBegun (s : State) (v : Word) : State :=
  let t := (s.storeReg (xreg .secFuseCtl) (v &&& ~~~(0x1000 : Word))).wrBit (xreg .secFuseCtl) 13 true
  { t with sec := { t.sec with progDue := some (fld v 11 0, s.rd (xreg .secFuseData)) } }

section Fuses

variable {s : State} {who : Requester} {v : Word}

@[simp] theorem State.noteDebug_dies (write : Bool) : (s.noteDebug who write).dies = s.dies := by
  unfold State.noteDebug
  split <;> rfl

/-- A write of the fuse control register that the grade and the quoin let through (R592). -/
theorem State.busWrite_secFuseCtl (hbus : s.busDead who = false)
    (hallowed : s.allows who (xreg .secFuseCtl).addr true = true)
    (hquoin : (s.noteDebug who true).rdBit (xreg .secQuoin) (xreg .secFuseCtl).name.info.quoin = false) :
    s.busWrite who (xreg .secFuseCtl).addr true v = (s.noteDebug who true).fuseCtlWrite who v := by
  have hopen : ¬ ((xreg .secFuseCtl).name.info.wq ≠ 0
      ∧ (s.noteDebug who true).rdBit (xreg .secQuoin) (xreg .secFuseCtl).name.info.quoin = true) := by
    rw [hquoin]; exact fun h => absurd h.2 Bool.false_ne_true
  have hwords : hostWords (xreg .secFuseCtl) = true := rfl
  simp only [State.busWrite, hbus, hallowed, regAt_secFuseCtl, hwords, Bool.false_eq_true, Bool.not_true, if_false,
    Bool.true_or, if_true, State.judgedWrite, hopen]
  rfl

variable (hprog : bit v 12 = true)
include hprog

theorem State.fuseCtlWrite_of_refused (hstate : s.secState ≠ 0) :
    s.fuseCtlWrite who v = s.refused who (xreg .secFuseCtl).addr 0 := by
  simp only [State.fuseCtlWrite, hprog, hstate, ne_eq, not_false_eq_true, if_true]

theorem State.fuseCtlWrite_of_free (hstate : s.secState = 0) (hfree : s.rdBit (xreg .secFuseCtl) 13 = false) :
    s.fuseCtlWrite who v = s.fuseBegun v := by
  have hdata : ((s.storeReg (xreg .secFuseCtl) (v &&& ~~~(0x1000 : Word))).wrBit (xreg .secFuseCtl) 13 true).rd
      (xreg .secFuseData) = s.rd (xreg .secFuseData) := by
    have hne : xreg .secFuseData ≠ xreg .secFuseCtl := Reg.ne_of_name (by decide)
    rw [State.rd_wrBit_ne _ hne, State.storeReg, State.rd_modReg_ne _ hne]
  simp only [State.fuseCtlWrite, hprog, hstate, hfree, ne_eq, not_true_eq_false, Bool.false_eq_true, if_false, if_true, hdata,
    State.fuseBegun]

end Fuses

/-- The state after a word that verified has burned into what stood at its address. -/
def State.fuseBurnt (s : State) (a : Nat) (w : Word) : State :=
  let old := ((s.sec.burnt.find? (·.1 = a)).map (·.2)).getD 0
  let t := { s with
    free := s.free + 1
    sec := { s.sec with progDue := none, burnt := (a, old ||| w) :: s.sec.burnt.filter (·.1 ≠ a) } }
  t.wrBit (xreg .secFuseCtl) 13 false

section Burn

variable {s : State} {a : Nat} {w : Word}

theorem State.fuseDone_of_idle (h : s.sec.progDue = none) (verified : Bool) : s.fuseDone verified = s := by
  simp only [State.fuseDone, h]

theorem State.fuseDone_verified (h : s.sec.progDue = some (a, w)) : s.fuseDone true = s.fuseBurnt a w := by
  simp only [State.fuseDone, h, if_true]
  rfl

/-- A word burns into the bits that stood at its address. -/
theorem State.fuse_fuseBurnt_same : (s.fuseBurnt a w).fuse a = s.fuse a ||| w := by
  simp only [State.fuse, State.fuseBurnt, State.wrBit_sec, List.find?_cons, decide_true, Option.map_some, Option.getD_some,
    BitVec.or_assoc]

theorem State.fuse_fuseBurnt_ne {b : Nat} (h : b ≠ a) : (s.fuseBurnt a w).fuse b = s.fuse b := by
  have hother : ¬ a = b := Ne.symm h
  simp only [State.fuse, State.fuseBurnt, State.wrBit_sec, List.find?_cons, hother, decide_false,
    AMap.find_filter_ne _ _ _ h]

end Burn

end Sys2Proof.Machine
end

section
/-!
PROOF. The memory system and the registers that reach it: what `exec` answers is the state that the laws above give.
-/
namespace Sys2Proof.Machine

/-- Settles O26: an access that answers goes by its address's window or its line's bank, and then by the bad symbols it finds.
That the first access of a tick is served and the second dropped, whatever their sources, is log 31's reading of R418. -/
theorem memoriesAccess : Obligations.MemoriesAccess := by
  refine ⟨?stack, ?cache⟩
  case stack =>
    intro s d i off a b upset hpowered hopened hclock hplace x q n done got rd wrote
    have h : s.StackAnswers d off a := ⟨hpowered, hopened, hclock, hplace⟩
    have hrd : rd = .next (State.deliver d (s.hbmRead d off i upset)) :=
      congrArg Host.Outcome.next (State.hbmAccess_read h i upset)
    have hwr : exec (.hbmAccess d i off (some b) upset) s = .next (State.deliver d
        (s.hbmWrite d off i ((List.range 64).map fun k => (b[k]?).getD 0))) :=
      congrArg Host.Outcome.next (State.hbmAccess_write h i b upset)
    refine ⟨fun hserves => ⟨fun hlen => ?write, fun hn => ?clean, fun hn => ?corrected, fun hn => ?lost⟩,
      fun hrefuses => ⟨?readRefused, ?writeRefused⟩⟩
    case write => rw [hwr, map_range_getD hlen, State.hbmWrite_of_served h i hserves]; rfl
    case clean => rw [hrd, State.hbmRead_of_served h i hserves rfl, if_pos hn]; rfl
    case corrected => rw [hrd, State.hbmRead_of_served h i hserves hn, if_neg (by decide), if_pos rfl, ← hn]; rfl
    case lost =>
      rw [hrd, State.hbmRead_of_served h i hserves rfl, if_neg (show ¬ n = 0 by omega), if_neg (show ¬ n = 1 by omega)]
      rfl
    case readRefused => rw [hrd, State.hbmRead_of_refused h i hrefuses]; rfl
    case writeRefused => rw [hwr, State.hbmWrite_of_refused h i hrefuses]; rfl
  case cache =>
    intro s d i off b hpowered hopened hclock hlen l x done c busy claimed read bad rd wr
    have h : s.CacheAnswers d := ⟨hpowered, hopened, hclock⟩
    have hrd : rd = .next (State.deliver d (s.cacheRead d off i)) := congrArg Host.Outcome.next (State.cacheAccess_read h i)
    have hwr : wr = .next (State.deliver d (s.cacheWrite d off i b)) :=
      congrArg Host.Outcome.next (State.cacheAccess_write h i hlen)
    rw [hrd, hwr]
    refine ⟨fun hoff hfree => ⟨?write, fun hclean hfull => ?clean, fun hbad hsingle hfull => ?single,
        fun hdouble => ?double⟩,
      fun hoff hbusy => ⟨?readDropped, ?writeDropped⟩, fun hoff hhost => ?beyond⟩
    case write => rw [State.cacheWrite_of_free h i hoff hfree]; rfl
    case clean => rw [State.cacheRead_of_clean h i hoff hfree hclean hfull]; rfl
    case single => rw [State.cacheRead_of_single h i hoff hfree hbad hsingle hfull]; rfl
    case double =>
      obtain ⟨t, hserve, hbit⟩ := State.cacheServe_of_double hfree hdouble
      exact ⟨t, by rw [State.cacheRead_of_unserved h i hoff hserve]; rfl, hbit⟩
    case readDropped => rw [State.cacheRead_of_unserved h i hoff (State.cacheServe_of_busy hbusy)]; rfl
    case writeDropped => rw [State.cacheWrite_of_busy h i hoff hbusy]; rfl
    case beyond => rw [hhost, State.cacheRead_of_beyond h hoff]; rfl

/-- Settles O27: neither the remap table nor a page copy parts a read from the write before it, and a line written whole has no
bad word and is not blank. -/
theorem memoriesReadBack : Obligations.MemoriesReadBack := by
  refine ⟨?stack, ?cache⟩
  case stack =>
    intro s t d i j off a b hpowered hopened hclock hplace hserves hlen hwrite
    have h : s.StackAnswers d off a := ⟨hpowered, hopened, hclock, hplace⟩
    obtain rfl : State.deliver d (s.hbmWritten d a b, .data b) = t := by
      rw [← State.hbmWrite_of_served h i hserves, ← map_range_getD hlen, ← State.hbmAccess_write h i b 0]
      exact Host.Outcome.next.inj hwrite
    refine ⟨_, congrArg Host.Outcome.next (State.hbmAccess_read (h.written b (.data b)) j 0), ?_⟩
    rw [State.deliver, State.die_modDie]
    exact congrArg some (State.hbmRead_hbmWritten h hserves hlen (.data b) j)
  case cache =>
    intro s t d i j off b hpowered hopened hclock hoff hlen hbanks hwrite later
    have h : s.CacheAnswers d := ⟨hpowered, hopened, hclock⟩
    have hfree : s.bankBusy d (off / 128) (i.source d) = false := by
      refine List.any_eq_false.mpr fun e he => ?_
      exact fun hbusy => List.any_eq_false.mp hbanks e he (Bool.and_eq_true_iff.mp hbusy).1
    obtain rfl : State.deliver d ((s.bankClaimed d (off / 128) (i.source d)).modDie d fun x => x.putLine (off / 128) b,
        .data b) = t := by
      rw [← State.cacheWrite_of_free h i hoff hfree, ← State.cacheAccess_write h i hlen]
      exact Host.Outcome.next.inj hwrite
    have hanswers : later.CacheAnswers d := ⟨hpowered, hopened, hclock⟩
    have hdie : later.die d = { (s.bankClaimed d (off / 128) (i.source d)).die d |>.putLine (off / 128) b with
        delivered := some (.data b), banks := [] } := by
      simp only [later, State.deliver, State.die_modDie]
    refine ⟨_, congrArg Host.Outcome.next (State.cacheAccess_read hanswers j), ?_⟩
    rw [State.deliver, State.die_modDie]
    exact congrArg some (State.cacheRead_putLine hanswers hoff hlen hdie j)

/-- Settles O28: each piece of background work has its law. Which tramline intervals calibrate is log 31's choice. -/
theorem stacksAreKept : Obligations.StacksAreKept := by
  refine ⟨fun s d => ⟨?refresh, ?scrub, ?calibrate⟩, ?temperature, ?retirement⟩
  case refresh =>
    intro hpowered hawake htick
    obtain ⟨⟨m, hframe⟩, hdies⟩ := State.foldl_refreshDie (s.now / 64 % 32) (l := allDies) (List.nodup_finRange 16) s
    have hstep := State.refreshStep_of_due hpowered hawake htick
    refine ⟨_, congrArg Host.Outcome.next hstep, ?_, fun e => ?_⟩
    · rw [hframe]
    · exact (hdies e).trans (if_pos (List.mem_finRange e))
  case scrub =>
    intro i x q s1 on hfurrow htick hturn
    have hwindow := State.scrubWindow_of_slot hfurrow htick
    refine ⟨fun hgood hmore => ?inside, fun hgood hround => ?round, fun hgood hmore => ?corrected⟩
    case inside =>
      exact congrArg Host.Outcome.next ((State.patrolScrub_clean hwindow hturn hgood).trans (if_neg (Nat.ne_of_lt hmore)))
    case round => exact congrArg Host.Outcome.next ((State.patrolScrub_clean hwindow hturn hgood).trans (if_pos hround))
    case corrected =>
      exact congrArg Host.Outcome.next ((State.patrolScrub_corrected hwindow hturn hgood).trans (if_neg (Nat.ne_of_lt hmore)))
  case calibrate =>
    intro n hturn hinterval cal
    exact ⟨fun heven => ⟨congrArg Host.Outcome.next (State.calibrate_of_even hinterval hturn heven false),
        congrArg Host.Outcome.next (State.calibrate_of_even hinterval hturn heven true)⟩,
      fun hodd fails => congrArg Host.Outcome.next (State.calibrate_of_odd hinterval hodd fails)⟩
  case temperature =>
    intro s d t hpowered htick m s0 s1 r
    refine ⟨fun hread => congrArg Host.Outcome.next (State.hbmTemp_of_read hread t), fun hdue => ?_⟩
    intro goes
    have hr : r = .next ((s.tempLatched d t).bandMoved d t) :=
      congrArg Host.Outcome.next (State.hbmTemp_of_due hpowered htick hdue t)
    rw [hr, ← State.band_tempLatched s d t]
    exact ⟨fun h ht => congrArg Host.Outcome.next (State.bandMoved_normal h ht),
      fun h hlow hhigh => congrArg Host.Outcome.next (State.bandMoved_normal_hot h hlow hhigh),
      fun h ht => congrArg Host.Outcome.next (State.bandMoved_to_fenced (.inl h) ht),
      fun h hlow hhigh => congrArg Host.Outcome.next (State.bandMoved_hot h hlow hhigh),
      fun h ht => congrArg Host.Outcome.next (State.bandMoved_hot_normal h ht),
      fun h ht => congrArg Host.Outcome.next (State.bandMoved_to_fenced (.inr h) ht),
      fun h => congrArg Host.Outcome.next (State.bandMoved_fenced h)⟩
  case retirement =>
    intro s d c hcopy x a goes
    exact ⟨fun hmore hscrub hturn hgood =>
        congrArg Host.Outcome.next (State.copyAccess_of_due hcopy hmore hscrub hturn hgood),
      fun hall harmed => congrArg Host.Outcome.next (State.copyDone_of_armed hcopy hall harmed),
      fun hall hfree hnew => congrArg Host.Outcome.next
        ((State.copyDone_of_free hcopy hall hfree).trans (State.switchPage_of_new hcopy hnew))⟩

/-- Settles O45: a read goes by the grade, then by whether its register is a pair's half; what it clears is in its own
register. -/
theorem registerReads : Obligations.RegisterReads := by
  refine ⟨?reads, ?clears, ?latched⟩
  case reads =>
    intro s who a r hbus hreg s1 rd out
    refine ⟨fun hdenied => congrArg Host.Outcome.next (State.busRead_of_denied hbus hdenied), fun hallowed => ?_⟩
    have hread : s.busRead who a = s1.readReg who r := State.busRead_of_mapped hbus hallowed hreg
    refine ⟨fun hlow hhigh => ?single, fun h hlow => ?low, fun hlow hhigh => ⟨fun v hkept => ?kept, fun hkept => ?unkept⟩,
      fun hwho => ?debug, fun hwho => ?other⟩
    case single => exact congrArg Host.Outcome.next (hread.trans (s1.readReg_of_single who hlow hhigh))
    case low =>
      have hpair := hread.trans (s1.readReg_of_low who hlow)
      exact ⟨(exec_shadowLoRead hreg hlow).trans (congrArg Host.Outcome.next hpair), congrArg Host.Outcome.next hpair⟩
    case kept =>
      exact (exec_hiRead hreg hhigh).trans (congrArg Host.Outcome.next (hread.trans (s1.readReg_of_kept who hlow hhigh hkept)))
    case unkept =>
      exact (exec_hiRead hreg hhigh).trans
        (congrArg Host.Outcome.next (hread.trans (s1.readReg_of_unkept who hlow hhigh hkept)))
    case debug => exact congrArg Host.Outcome.next (State.debugRead_of_mapped hallowed hreg hwho)
    case other => exact congrArg Host.Outcome.next (State.debugRead_of_other hwho)
  case clears =>
    intro s r v t
    exact ⟨s.clearRead_regs r v, fun q hq => s.rd_clearRead_ne hq v,
      fun hcore hstack => State.rd_clearRead_of_plain (not_or.mpr ⟨hcore, hstack⟩) s v,
      fun hpeaks => State.rdFld_clearRead_of_peaks hpeaks s v⟩
  case latched =>
    intro s who d hbus s1 h a
    refine ⟨fun hallowed hkept => congrArg Host.Outcome.next ?stack, fun hallowed => congrArg Host.Outcome.next ?access⟩
    case stack =>
      exact (State.busRead_of_mapped hbus hallowed (regAt_hbmUeAddrHi d)).trans
        (s1.readReg_of_unkept who rfl rfl hkept)
    case access =>
      exact (State.busRead_of_mapped hbus hallowed regAt_secAccessAddr).trans (s1.readReg_of_single who rfl rfl)

/-- Settles O47: a generator's pass ends it but in MODE 0b11; a programming begins in Manufacturing alone, and its end burns the
word. -/
theorem generatorsAndFuses : Obligations.GeneratorsAndFuses := by
  refine ⟨?generators, ?fuses⟩
  case generators =>
    intro s who d c v n ctl len pass
    refine ⟨fun hidle => congrArg Host.Outcome.next (State.tgDone_of_idle (.inl hidle)),
      fun harmed => congrArg Host.Outcome.next (State.tgDone_of_idle (.inr harmed)),
      fun hruns hfree hmode => ?again, fun hruns hfree hmode => ?ends, fun hallowed hbus hruns => ?stop⟩
    case again => exact congrArg Host.Outcome.next ((State.tgDone_of_running hruns hfree).trans (if_pos hmode))
    case ends => exact congrArg Host.Outcome.next ((State.tgDone_of_running hruns hfree).trans (if_neg hmode))
    case stop => rw [exec_tgStop hallowed hbus, State.tgStop_of_running hruns]
  case fuses =>
    intro s who v a w hbus r s1
    have hprog : bit (setBit v 12 true) 12 = true := bit_setBit_true v (by decide)
    refine ⟨fun hallowed hquoin => ?prog, fun hdue => ?burn,
      fun hidle => congrArg Host.Outcome.next (State.fuseDone_of_idle hidle true)⟩
    case prog =>
      have hwrite : exec (.fuseProg who v) s = .next (s1.fuseCtlWrite who (setBit v 12 true)) :=
        congrArg Host.Outcome.next (State.busWrite_secFuseCtl hbus hallowed hquoin)
      rw [hwrite]
      refine ⟨fun hstate hfree => ?_, fun hstate => by rw [State.fuseCtlWrite_of_refused hprog hstate]⟩
      refine ⟨_, congrArg Host.Outcome.next (State.fuseCtlWrite_of_free hprog hstate hfree), rfl, ?_, ?_, ?_⟩
      · exact State.rdBit_wrBit_true _ r (by decide)
      · show s1.sec.burnt = s.sec.burnt
        rw [State.noteDebug_sec]
      · exact s.noteDebug_dies true
    case burn =>
      exact ⟨_, congrArg Host.Outcome.next (State.fuseDone_verified hdue), State.fuse_fuseBurnt_same, rfl,
        fun b hb => State.fuse_fuseBurnt_ne hb⟩

end Sys2Proof.Machine
end

section
/-!
PROOF. Management messages and the twin's heartbeat (11_links_and_twin.md R445, R454, R456).
-/
namespace Sys2Proof.Machine

/-! ### Messages received (R445, R456) -/

/-- A message's number is put down to be acknowledged in the port's next tramlines (R445). -/
def State.acknowledge (s : State) (p : Port) (seq : Half) : State :=
  s.modLinks fun k => { k with acks := k.acks.set p (k.acks.getD p [] ++ [seq]) }

/-- The digest of a partition's step takes the place of the one kept for it (R456). -/
def State.keepDigest (s : State) (q : Part) (job step : Word) (d : DWord) : State :=
  s.modTwin fun t => { t with twinDigests := (q, job, step, d) :: t.twinDigests.filter fun e => e.1 ≠ q }

section Messages

variable {s : State} {p : Port} {seq : Half} {m : Msg}

/-- A heartbeat is not acknowledged; every other message is, and one whose number is known does nothing else. -/
theorem State.message_of_repeat (hbody : ∀ a b c d, m.body ≠ .heartbeat a b c d)
    (hknown : (s.links.accepted.getD p []).contains seq = true) : s.message p seq m = s.acknowledge p seq := by
  unfold State.message
  split
  next a b c d hbeat => exact absurd hbeat (hbody a b c d)
  next => exact if_pos hknown

variable {job step : Word} {d : DWord}

theorem State.message_of_digest (hbody : m.body = .digest job step d)
    (hnew : (s.links.accepted.getD p []).contains seq = false) :
    s.message p seq m =
      if p.val ≠ 48 || (s.links.twin.conflict && s.twinModeBit) then (s.acknowledge p seq).accept p seq
      else ((s.acknowledge p seq).accept p seq).keepDigest m.part job step d := by
  unfold State.message
  rw [hbody]
  exact if_neg (Bool.eq_false_iff.mp hnew)

theorem State.message_of_twinDigest_missing (hbody : m.body = .digest job step d)
    (hnew : (s.links.accepted.getD p []).contains seq = false) (hconflict : s.links.twin.conflict = true)
    (hmirror : s.twinModeBit = true) : s.message p seq m = (s.acknowledge p seq).accept p seq := by
  rw [State.message_of_digest hbody hnew, hconflict, hmirror]
  exact if_pos (Bool.or_true _)

theorem State.message_of_twinDigest (hbody : m.body = .digest job step d)
    (hnew : (s.links.accepted.getD p []).contains seq = false) (hport : p = 48)
    (hmodes : s.links.twin.conflict = false ∨ s.twinModeBit = false) :
    s.message p seq m = ((s.acknowledge p seq).accept p seq).keepDigest m.part job step d := by
  have hagree : (s.links.twin.conflict && s.twinModeBit) = false := Bool.and_eq_false_iff.mpr hmodes
  rw [State.message_of_digest hbody hnew, hagree, hport]
  exact if_neg (by decide)

end Messages

/-! ### Missing heartbeats (R454) -/

/-- One more expected heartbeat in a row is missing. -/
def State.countMissing (s : State) : State := s.modTwin fun t => { t with missing := t.missing + 1 }

section Heartbeats

variable {s : State}

theorem State.heartbeatMissing_of_lost (hlost : s.rdFld (xreg .twStatus) 2 0 = 3) : s.heartbeatMissing = s := if_pos hlost

theorem State.heartbeatMissing_of_expected (hexpected : s.rdFld (xreg .twStatus) 2 0 ≠ 3) :
    s.heartbeatMissing = if s.links.twin.missing + 1 = 4 then s.countMissing.twinLost 6 else s.countMissing :=
  if_neg hexpected

end Heartbeats

/-- Settles O38: a message's number is looked up among those accepted on its port before anything but its acknowledgement is
done, and the missing heartbeats are counted before they are compared with four. -/
theorem messagesOnce : Obligations.MessagesOnce := by
  intro s p seq m hbody acked missed
  refine ⟨?again, ?dropped, ?kept, ?lost, ?counted, ?fourth⟩
  case again => exact State.message_of_repeat hbody
  case dropped =>
    rintro job step d hnew hdigest rfl hconflict hmirror
    exact State.message_of_twinDigest_missing hdigest hnew hconflict hmirror
  case kept =>
    rintro job step d hnew hdigest rfl hmodes
    exact State.message_of_twinDigest hdigest hnew rfl hmodes
  case lost =>
    exact fun hlost => congrArg Host.Outcome.next (State.heartbeatMissing_of_lost hlost)
  case counted =>
    exact fun hexpected hfewer =>
      congrArg Host.Outcome.next ((State.heartbeatMissing_of_expected hexpected).trans (if_neg hfewer))
  case fourth =>
    exact fun hexpected hfour =>
      congrArg Host.Outcome.next ((State.heartbeatMissing_of_expected hexpected).trans (if_pos hfour))

end Sys2Proof.Machine
end

section
/-!
PROOF. The queue: a step takes the command at its front, every command of the table completes, and no command touches the others
(notes/assumptions 6).
-/
namespace Sys2Proof.Machine

theorem step_of_front {s : State} {c : Instr} {rest : List Instr} (h : s.pending = c :: rest) :
    step s = exec c { s with pending := rest } := by
  simp only [step, h]

/-- Every command answers a next state, and leaves the queue as it was. -/
theorem exec_keeps_queue (c : Instr) (s : State) : ∃ t, exec c s = .next t ∧ t.pending = s.pending := by
  cases c
  case shadowLoRead who a =>
    refine ⟨_, rfl, ?_⟩
    split
    · split
      · exact s.busRead_pending who a
      · rfl
    · rfl
  case hiRead who a =>
    refine ⟨_, rfl, ?_⟩
    split
    · split
      · exact s.busRead_pending who a
      · rfl
    · rfl
  case tgStop who d c v n =>
    refine ⟨_, rfl, ?_⟩
    split
    · simp
    · exact s.refused_pending who _ 0
  all_goals exact ⟨_, rfl, by simp⟩

/-- Settles O1: with a command at the front of the queue, a step is that command's meaning. -/
theorem stepRunsFront : Obligations.StepRunsFront := fun _ _ _ => step_of_front rfl

/-- Settles O3: by the case of each command, through the laws that say of every shared operation that it leaves the queue. -/
theorem queueFifo : Obligations.QueueFifo := by
  intro c rest s t
  obtain ⟨u, hu, -⟩ := exec_keeps_queue c s
  refine ⟨⟨u, hu⟩, fun hfront => ?_⟩
  obtain ⟨v, hv, hrest⟩ := exec_keeps_queue c { s with pending := rest }
  have hstep : step s = .next v := (step_of_front hfront).trans hv
  refine ⟨⟨v, hstep⟩, fun ht => ?_⟩
  have hvt : v = t := Host.Outcome.next.inj (hstep.symm.trans ht)
  exact hvt ▸ hrest

end Sys2Proof.Machine
end

section
/-!
PROOF. What the enclave holds only moves forward (17_security_states.md R638, R644, R646, R658): each operation that reaches it sets
bits and latches and takes none back; every other leaves it, by the laws of the enclave.
-/
namespace Sys2Proof.Machine

/-! ### The order -/

/-- What the enclave holds has only moved forward from `s` to `t` (R638, R644, R646, R658). -/
structure State.Onward (s t : State) : Prop where
  fuse : ∀ a b, (s.fuse a).getLsbD b = true → (t.fuse a).getLsbD b = true
  fused : ∀ b, s.sec.fused.getLsbD b = true → t.sec.fused.getLsbD b = true
  tampered : s.sec.tampered = true → t.sec.tampered = true
  revoked : s.sec.revoked = true → t.sec.revoked = true
  idkGone : s.sec.idkGone = true → t.sec.idkGone = true

section Order

variable {s t u : State}

theorem State.Onward.refl (s : State) : s.Onward s := ⟨fun _ _ h => h, fun _ h => h, id, id, id⟩

theorem State.Onward.trans (h : s.Onward t) (k : t.Onward u) : s.Onward u where
  fuse a b hb := k.fuse a b (h.fuse a b hb)
  fused b hb := k.fused b (h.fused b hb)
  tampered hb := k.tampered (h.tampered hb)
  revoked hb := k.revoked (h.revoked hb)
  idkGone hb := k.idkGone (h.idkGone hb)

theorem State.fuse_congr (h : t.sec.burnt = s.sec.burnt) (a : Nat) : t.fuse a = s.fuse a := by
  simp only [State.fuse, h]

/-- An operation that leaves the burnt words and the latches of the enclave, whatever else of it changes. -/
theorem State.Onward.of_keeps (hburnt : t.sec.burnt = s.sec.burnt) (hfused : t.sec.fused = s.sec.fused)
    (htampered : t.sec.tampered = s.sec.tampered) (hrevoked : t.sec.revoked = s.sec.revoked)
    (hidk : t.sec.idkGone = s.sec.idkGone) : s.Onward t where
  fuse a _ hb := by rwa [State.fuse_congr hburnt a]
  fused _ hb := by rwa [hfused]
  tampered hb := by rwa [htampered]
  revoked hb := by rwa [hrevoked]
  idkGone hb := by rwa [hidk]

theorem State.Onward.of_sec (h : t.sec = s.sec) : s.Onward t := by
  refine .of_keeps ?_ ?_ ?_ ?_ ?_ <;> rw [h]

/-- An operation after one that leaves the enclave as it was. -/
theorem State.Onward.after_sec (h : t.sec = s.sec) (k : t.Onward u) : s.Onward u := (State.Onward.of_sec h).trans k

/-- An operation before one that leaves the enclave as it was. -/
theorem State.Onward.then_sec (k : s.Onward t) (h : u.sec = t.sec) : s.Onward u := k.trans (.of_sec h)

theorem State.Onward.foldl {β : Type} {f : State → β → State} (h : ∀ a b, State.Onward a (f a b)) (l : List β) (s : State) :
    s.Onward (l.foldl f s) := by
  induction l generalizing s with
  | nil => exact .refl s
  | cons b l ih => exact (h s b).trans (ih (f s b))

theorem State.Onward.ite {c : Prop} [Decidable c] (ht : s.Onward t) (hu : s.Onward u) : s.Onward (if c then t else u) := by
  split
  · exact ht
  · exact hu

end Order

/-! ### Fuses and the registers (R658) -/

theorem State.fuseBurnt_onward (s : State) (a : Nat) (w : Word) : s.Onward (s.fuseBurnt a w) where
  fuse b i hb := by
    by_cases h : b = a
    · subst h
      rw [State.fuse_fuseBurnt_same, BitVec.getLsbD_or, hb, Bool.true_or]
    · rwa [State.fuse_fuseBurnt_ne h]
  fused _ hb := hb
  tampered := id
  revoked := id
  idkGone := id

theorem State.fuseDone_onward (s : State) (verified : Bool) : s.Onward (s.fuseDone verified) := by
  cases hdue : s.sec.progDue with
  | none => rw [State.fuseDone_of_idle hdue]; exact .refl s
  | some e =>
    refine (s.fuseBurnt_onward e.1 (if verified then e.2 else e.2 &&& Config.freeWord s.free e.1)).then_sec ?_
    simp only [State.fuseDone, hdue]
    cases verified <;> rfl

theorem State.fuseCtlWrite_onward (s : State) (who : Requester) (v : Word) : s.Onward (s.fuseCtlWrite who v) := by
  unfold State.fuseCtlWrite
  refine .ite (.ite (.of_sec (s.refused_sec ..)) (.ite (.refl s) ?_)) (.of_sec (s.storeReg_sec ..))
  exact .of_keeps rfl rfl rfl rfl rfl

theorem State.ownWrite_onward (s : State) (who : Requester) (r : Reg) (v : Word) : s.Onward (s.ownWrite who r v) := by
  unfold State.ownWrite
  split
  case h_8 => exact s.fuseCtlWrite_onward who v  -- SEC_FUSE_CTL
  all_goals exact .of_sec (by simp [ite_sec])

theorem State.judgedWrite_onward (s : State) (who : Requester) (r : Reg) (v : Word) : s.Onward (s.judgedWrite who r v) :=
  .ite (.of_sec (s.refused_sec ..)) (s.ownWrite_onward who r v)

theorem State.busWrite_onward (s : State) (who : Requester) (a : Nat) (whole : Bool) (v : Word) :
    s.Onward (s.busWrite who a whole v) := by
  unfold State.busWrite
  refine .ite (.refl s) (.ite (.of_sec (s.refused_sec ..)) (.after_sec (s.noteDebug_sec who true) ?_))
  refine .ite (.of_sec (State.refused_sec ..)) ?_
  split
  · exact .of_sec (State.refused_sec ..)
  · exact .ite (State.judgedWrite_onward ..) (.of_sec (State.refused_sec ..))

/-! ### Security states (R640 to R646) -/

theorem State.drawChallenge_onward (s : State) : s.Onward s.drawChallenge :=
  State.Onward.then_sec (t := { s with sec := { s.sec with draws := s.sec.draws + 1 } }) (.of_keeps rfl rfl rfl rfl rfl)
    (foldl_sec _ (fun _ _ => State.wr_sec ..) _ _)

/-- Every bit of the fused state is 1 in Vendor-Return (R638). -/
theorem fused_of_vendorReturn (x : BitVec 2) {b : Nat} (h : x.getLsbD b = true) : (3 : BitVec 2).getLsbD b = true := by
  have hb : b < 2 := BitVec.lt_of_getLsbD h
  interval_cases b <;> rfl

theorem State.vendorReturn_sec (s : State) :
    s.vendorReturn.sec = { s.sec with fused := 3, owner := false, idkGone := true, revoked := true } := by
  simp only [State.vendorReturn, State.wrBit_sec, foldl_sec, State.wr_sec, implies_true]

/-- The enclave enters Vendor-Return (R646). -/
theorem State.returned_onward (s : State) :
    s.Onward { s with sec := { s.sec with fused := 3, owner := false, idkGone := true, revoked := true } } :=
  ⟨fun _ _ hb => hb, fun _ hb => fused_of_vendorReturn _ hb, id, fun _ => rfl, fun _ => rfl⟩

theorem State.vendorReturn_onward (s : State) : s.Onward s.vendorReturn :=
  s.returned_onward.then_sec s.vendorReturn_sec

/-- TAMPERED is fused (R644). -/
theorem State.tampered_onward (s : State) : s.Onward { s with sec := { s.sec with tampered := true } } :=
  ⟨fun _ _ hb => hb, fun _ hb => hb, fun _ => rfl, id, id⟩

/-- Whether the package is in Owner-Debug is no fuse (R638). -/
theorem State.owner_onward (s : State) (b : Bool) : s.Onward { s with sec := { s.sec with owner := b } } :=
  .of_keeps rfl rfl rfl rfl rfl

theorem State.tamper_onward (s : State) : s.Onward s.tamper := by
  refine .ite (.refl s) (.after_sec (s.latch_sec 2 false) ?_)
  exact ((State.vendorReturn_onward _).trans (State.tampered_onward _)).then_sec (State.wrBit_sec ..)

theorem State.secEnter_onward (s : State) (target : Nat) : s.Onward (s.secEnter target) := by
  unfold State.secEnter
  split
  · refine .then_sec ?_ (State.syncSec_sec _)
    refine ⟨fun _ _ hb => hb, fun b hb => ?_, id, id, id⟩
    show (if s.secState = 0 then s.sec.fused ||| 1 else s.sec.fused).getLsbD b = true
    split
    · rw [BitVec.getLsbD_or, hb, Bool.true_or]
    · exact hb
  · exact (s.owner_onward true).then_sec (State.syncSec_sec _)
  · exact s.vendorReturn_onward.then_sec (by simp)

theorem State.secTransition_onward (s : State) (q : Req) (target : Nat) (key sig : List Byte) :
    s.Onward (s.secTransition q target key sig) := by
  have hdone : ∀ (t : State) (st det : Nat), s.Onward t → s.Onward (t.drawChallenge.reply q st det) :=
    fun t _ _ h => (h.trans t.drawChallenge_onward).then_sec (State.reply_sec ..)
  have hrefused := fun st det => hdone s st det (.refl s)
  have hentered := fun st det => hdone (s.secEnter target) st det (s.secEnter_onward target)
  unfold State.secTransition
  refine .ite (hrefused _ _) (.ite (hrefused _ _) ?_)
  split
  · exact hrefused _ _
  · exact .ite (hentered _ _) (hrefused _ _)
  · split
    · exact hrefused _ _
    · exact hentered _ _

/-! ### Commands -/

theorem State.perform_onward (s : State) (q : Req) (c : Cmd) : s.Onward (s.perform q c) := by
  cases c
  case secTransition t k g => exact s.secTransition_onward q t k g
  all_goals exact .of_sec (by simp [State.perform])

theorem State.turnAway_onward (s : State) (q : Req) (c : Cmd) (st : Nat) : s.Onward (s.turnAway q c st) := by
  have hdrawn : s.Onward (s.drawChallenge.reply q st) := s.drawChallenge_onward.then_sec (State.reply_sec ..)
  have hreply : s.Onward (s.reply q st) := .of_sec (State.reply_sec ..)
  unfold State.turnAway
  split
  · exact hdrawn
  · exact .ite hdrawn hreply
  · exact hreply

/-- A command that is collected leaves the enclave as it was until it is judged. -/
theorem State.taken_sec (s : State) (q : Req) : (s.taken q).sec = s.sec := by simp [State.taken]

theorem State.handle_onward (s : State) (q : Req) (c : Cmd) : s.Onward (s.handle q c) := by
  unfold State.handle
  refine .after_sec (s.taken_sec q) (.ite (.of_sec (State.reply_sec ..)) (.ite (State.turnAway_onward ..) ?_))
  split
  · exact State.turnAway_onward ..
  · refine .ite (.of_sec (State.reply_sec ..)) (.ite (State.perform_onward ..) ?_)
    split
    · exact State.perform_onward ..
    · refine .ite ?_ (State.perform_onward ..)
      split <;> exact .of_sec (by simp [State.taken])

theorem State.handleLow_onward (s : State) (q : Req) (c : Cmd) : s.Onward (s.handleLow q c) := by
  unfold State.handleLow
  refine .after_sec (s.taken_sec q) (.ite (.of_sec (State.reply_sec ..)) ?_)
  split
  · exact State.turnAway_onward ..
  · exact .ite (State.turnAway_onward ..) (.ite (State.perform_onward ..) (State.turnAway_onward ..))

theorem State.opens_sec {s t : State} (h : s.opens = some t) : t.sec = s.sec := by
  simp only [State.opens] at h
  split at h
  · cases h
  · split at h
    · cases h
    · split at h
      · cases h
        simp
      · cases h

theorem State.command_onward (s : State) (q : Req) (c : Cmd) : s.Onward (s.command q c) := by
  unfold State.command
  split
  next t hopens => exact .after_sec (State.opens_sec hopens) (t.handle_onward q c)
  next => exact .ite (s.handleLow_onward q c) (.refl s)

theorem State.dueJob_onward (s : State) (j : Job) : s.Onward (s.dueJob j) := by
  unfold State.dueJob
  split
  · refine .ite (.refl s) (.after_sec ?_ (State.perform_onward ..))
    split <;> simp
  · exact .refl s

theorem State.pendingDue_onward (s : State) (src : Src) : s.Onward (s.pendingDue src) := by
  unfold State.pendingDue
  split
  · exact .refl s
  · next t hopens =>
    refine .after_sec (State.opens_sec hopens) ?_
    split
    · exact t.dueJob_onward _
    · exact .refl t

theorem State.collectSlot_onward (s : State) (i : Fin 64) (r : HostRead) : s.Onward (s.collectSlot i r) :=
  .ite (.refl s) (.ite (.of_sec (State.raiseBit_sec ..)) (State.handle_onward ..))

theorem State.collectSideband_onward (s : State) (j : Fin 8) (low : Bool) : s.Onward (s.collectSideband j low) := by
  unfold State.collectSideband
  split
  · exact .ite (.refl s) (.ite (State.handleLow_onward ..) (State.handle_onward ..))
  · exact .refl s

theorem State.collectOne_onward (s : State) {f : State → State} (hf : s.Onward (f s)) (src : Src) :
    s.Onward (s.collectOne f src) := .ite (.of_sec (s.take_sec src)) hf

theorem State.collect_onward (s : State) (data : List (Fin 64 × HostRead)) : s.Onward (s.collect data) := by
  unfold State.collect
  split
  · exact .refl s
  next t hopens =>
    refine .after_sec (State.opens_sec hopens) (.then_sec ?_ (State.modFw_sec _ _))
    refine .trans (.trans (.after_sec (t.modFw_sec _) (.foldl State.dueJob_onward _ _)) (.foldl (fun a i => ?slot) _ _))
      (.foldl (fun a j => ?message) _ _)
    case slot => exact .ite (a.collectOne_onward (a.collectSlot_onward ..) _) (a.collectSlot_onward ..)
    case message =>
      split
      · exact .ite (.refl a) (a.collectOne_onward (a.collectSideband_onward ..) _)
      · exact .refl a

theorem State.collectFree_onward (s : State) : s.Onward s.collectFree :=
  .ite (.refl s) (.foldl (fun a j => a.collectSideband_onward j true) _ _)

/-! ### The sideband, the monitor and JTAG -/

theorem State.privateWrite_onward (s : State) (offset : Nat) (data : Option Word) : s.Onward (s.privateWrite offset data) := by
  unfold State.privateWrite
  refine .ite (.refl s) (.after_sec (t := { s with sb := { s.sb with offset := offset } }) rfl ?_)
  cases data with
  | some v => exact State.busWrite_onward ..
  | none => exact .refl _

theorem State.monitor_onward (s : State) (l : MonLevel) {f : State → State} (hf : ∀ t, State.Onward t (f t)) :
    s.Onward (s.monitor l f) :=
  .ite (.refl s) (.ite (.ite (hf s) (.of_sec rfl)) (.ite (.ite (.after_sec (s.noteDebug_sec ..) (hf _)) (.of_sec rfl)) (hf s)))

theorem State.poke_onward (s : State) (a : Nat) (v : Word) : s.Onward (s.poke a v) :=
  s.monitor_onward .full fun t => (t.busWrite_onward .monitor a true v).then_sec (State.monOk_sec ..)

theorem State.monCommand_onward (s : State) (name : List Byte) (args : List Nat) : s.Onward (s.monCommand name args) := by
  have hbad : s.Onward (s.monitor .always fun s => s.monErr "cmd") := s.monitor_onward _ fun _ => .of_sec rfl
  unfold State.monCommand
  refine .ite (.of_sec (by simp)) (.ite ?_ (.ite ?_ (.ite ?_ (.ite ?_ (.ite (.of_sec (by simp)) (.ite ?_ (.ite ?_
    (.ite (.of_sec (by simp)) (.ite (.of_sec (by simp)) hbad)))))))))
  case refine_2 =>
    split
    · exact s.poke_onward _ _
    · exact hbad
  all_goals
    split <;> first
      | exact hbad
      | exact .of_sec (by simp)

theorem State.monAnswer_onward (s : State) (line : List Byte) : s.Onward (s.monAnswer line) := by
  unfold State.monAnswer
  refine .ite (.of_sec rfl) ?_
  split
  · exact .refl s
  · split
    · exact s.monCommand_onward _ _
    · exact .of_sec rfl

theorem State.monLine_onward (s : State) (line : List Byte) : s.Onward (s.monLine line) := by
  unfold State.monLine
  refine .ite (.refl s) (.after_sec ?_ (.trans (State.monAnswer_onward _ line) (.ite (.refl _) (.of_sec rfl))))
  split <;> rfl

theorem State.jtagIdcode_onward (s : State) : s.Onward s.jtagIdcode := .ite (.refl s) (.of_keeps rfl rfl rfl rfl rfl)

theorem State.jtagAccess_onward (s : State) (a : Nat) (data : Option Word) : s.Onward (s.jtagAccess a data) := by
  unfold State.jtagAccess
  refine .ite (.refl s) ?_
  cases data with
  | some v => exact s.busWrite_onward ..
  | none => exact .of_sec (s.debugRead_sec ..)

/-! ### Resets and boot -/

theorem State.afterReset_sec (s : State) (k : Keeps) (stage : BootStage) :
    (s.afterReset k stage).sec = { s.sec with progDue := none, tapReset := true } := by
  simp [State.afterReset]

theorem State.afterReset_onward (s : State) (k : Keeps) (stage : BootStage) : s.Onward (s.afterReset k stage) := by
  refine .of_keeps ?_ ?_ ?_ ?_ ?_ <;> rw [s.afterReset_sec]

theorem State.coldReset_onward (s : State) (st : Straps) : s.Onward (s.coldReset st) := by
  have hreset : ∀ k stage, s.Onward { s.afterReset k stage with straps := st } := fun k stage =>
    (s.afterReset_onward k stage).then_sec rfl
  unfold State.coldReset
  exact .ite (hreset _ _) (.ite ((hreset _ _).then_sec (State.wrBit_sec ..)) (.ite (.of_sec rfl) (.refl s)))

theorem State.fundamental_onward (s : State) : s.Onward s.fundamental :=
  .ite (.refl s) ((s.afterReset_onward ..).then_sec (State.wrFld_sec ..))

theorem State.supplyRemoval_onward (s : State) : s.Onward s.supplyRemoval := by
  unfold State.supplyRemoval
  refine (s.owner_onward false).trans ?_
  exact (State.afterReset_onward _ .nothing .failed).then_sec rfl

theorem State.romLoader_onward (s : State) (q : Req) (c : Cmd) (format : Nat) : s.Onward (s.romLoader q c format) := by
  unfold State.romLoader
  refine .ite (.refl s) ?_
  cases c
  case secTransition => exact s.drawChallenge_onward.then_sec (State.reply_sec ..)
  case fwStage =>
    refine .of_sec ?_
    dsimp only
    (repeat' split) <;> simp
  case fwActivate =>
    refine .of_sec ?_
    dsimp only
    (repeat' split) <;> simp
  all_goals exact .of_sec (State.reply_sec ..)

theorem State.bootStep_onward (s : State) : s.Onward s.bootStep := by
  unfold State.bootStep
  cases s.power.stage
  case selftest =>
    refine .then_sec (t := if s.rdFld (xreg .rstCause) 2 0 = 0 then s.drawChallenge else s)
      (.ite s.drawChallenge_onward (.refl s)) ?_
    simp
  all_goals exact .of_sec (by simp [foldl_sec, ite_sec])

theorem State.idle_onward (s : State) : s.Onward s.idle := .ite s.bootStep_onward (.of_sec s.tick_sec)

/-! ### Every command -/

theorem exec_onward (c : Instr) (s : State) : ∃ t, exec c s = .next t ∧ s.Onward t := by
  cases c
  case formeLoad | formeArm | formeDisarm | runAt | haltAt | gearAt | cancel | snapshot | pageRetire | dmaRead | dmaWrite
      | streamOpen | streamClose | fieldProof | proofRun | fence | capSet | energyRead | twinMode | twinDetach | fwStage
      | fwActivate | settingsGet | settingsSet | warmReset | blockReset | attest | secTransition | trafficGen
      | telemetryRead => exact ⟨_, rfl, s.command_onward ..⟩
  case registerWrite | htSetLoWrite | htConfigWrite | htNodeIdWrite | cdPartitionWrite | tuImposeWrite | pwrVtabWrite
      | secQuoinWrite | secDebugCtlWrite | ldSpareWrite | hbmCfgWrite | tgStart | fuseProg =>
    exact ⟨_, rfl, s.busWrite_onward ..⟩
  case commandCollection => exact ⟨_, rfl, s.collect_onward ..⟩
  case pendingCommandDue => exact ⟨_, rfl, s.pendingDue_onward ..⟩
  case sidebandFreeCollection => exact ⟨_, rfl, s.collectFree_onward⟩
  case sidebandPrivateWrite => exact ⟨_, rfl, s.privateWrite_onward ..⟩
  case monitorLine => exact ⟨_, rfl, s.monLine_onward ..⟩
  case poke => exact ⟨_, rfl, s.poke_onward ..⟩
  case jtagIdcode => exact ⟨_, rfl, s.jtagIdcode_onward⟩
  case jtagAccess => exact ⟨_, rfl, s.jtagAccess_onward ..⟩
  case fuseProgDone => exact ⟨_, rfl, s.fuseDone_onward ..⟩
  case coldReset => exact ⟨_, rfl, s.coldReset_onward ..⟩
  case fundamentalReset => exact ⟨_, rfl, s.fundamental_onward⟩
  case supplyRemoval => exact ⟨_, rfl, s.supplyRemoval_onward⟩
  case tamper => exact ⟨_, rfl, s.tamper_onward⟩
  case romLoader => exact ⟨_, rfl, s.romLoader_onward ..⟩
  case shadowLoRead who a =>
    refine ⟨_, rfl, .of_sec ?_⟩
    split
    · split
      · exact s.busRead_sec who a
      · rfl
    · rfl
  case hiRead who a =>
    refine ⟨_, rfl, .of_sec ?_⟩
    split
    · split
      · exact s.busRead_sec who a
      · rfl
    · rfl
  case tgStop who d c v n => exact ⟨_, rfl, .ite (.of_sec (by simp)) (.of_sec (s.refused_sec who _ 0))⟩
  all_goals exact ⟨_, rfl, .of_sec (by simp)⟩

theorem step_onward (s : State) : ∃ t, step s = .next t ∧ s.Onward t := by
  cases hqueue : s.pending with
  | nil => exact ⟨s.idle, by simp only [step, hqueue], s.idle_onward⟩
  | cons c rest =>
    obtain ⟨t, ht, h⟩ := exec_onward c { s with pending := rest }
    exact ⟨t, (step_of_front hqueue).trans ht, .after_sec (t := { s with pending := rest }) rfl h⟩

/-- Settles O4: the enclave only moves forward in each operation that reaches it, so in every command and in a tick. -/
theorem fusesNeverReturn : Obligations.FusesNeverReturn := by
  intro s t hstep
  obtain ⟨u, hu, h⟩ := step_onward s
  have htu : u = t := Host.Outcome.next.inj (hu.symm.trans hstep)
  subst htu
  exact ⟨h.fuse, h.fused, h.tampered, h.revoked, h.idkGone⟩

end Sys2Proof.Machine
end

section
/-!
PROOF. What every host command is judged by where commands are collected (14_host_and_management.md R554, R556, R573, R651), and
what a reply leaves of the command window and of the sideband (R557, R558, R571).
-/
namespace Sys2Proof.Machine

/-! ### Host commands -/

/-- A host command's meaning is that of its opcode with its parameters. -/
theorem exec_of_hostCommand {i : Instr} {q : Req} {c : Cmd} (h : hostCommand i = some (q, c)) (s : State) :
    exec i s = .next (s.command q c) := by
  cases i <;> cases h <;> rfl

/-- A host command is no malformed packet. -/
theorem ne_bad_of_hostCommand {i : Instr} {q : Req} {c : Cmd} (h : hostCommand i = some (q, c)) (st : BitVec 16) :
    c ≠ .bad st := by
  cases i <;> cases h <;> nofun

theorem Cmd.timeOk_of_untimed {c : Cmd} (h : c.timed = false) (q : Req) : c.timeOk q = true := by
  cases c <;> simp [Cmd.timed, Cmd.timeOk] at h ⊢

/-! ### A command that is judged (R556, R573, R651) -/

/-- Whether the sideband's grade of opcodes does not hold a command (R573). -/
def Cmd.denied (c : Cmd) (q : Req) : Bool := q.src.isSideband && !(c.onSideband q.op && c.sidebandOk)

section Judged

variable {s t : State} {q : Req} {c : Cmd}

theorem State.command_of_open (h : s.opens = some t) (q : Req) (c : Cmd) : s.command q c = t.handle q c := by
  simp only [State.command, h]

theorem State.command_of_closed (h : s.opens = none) (hlow : s.lowPower = false) (q : Req) (c : Cmd) : s.command q c = s := by
  simp only [State.command, h, hlow, Bool.false_and, Bool.false_eq_true, if_false]

theorem State.handle_of_denied (h : c.denied q = true) : t.handle q c = (t.taken q).reply q stDeniedSideband := if_pos h

theorem State.handle_of_scan (h : c.denied q = false) (hscan : (t.taken q).rdBit (xreg .secState) 4 = true)
    (hclocks : c.inScan = false) : t.handle q c = (t.taken q).turnAway q c stBusy := by
  have hbusy : ((t.taken q).rdBit (xreg .secState) 4 && !c.inScan) = true := by rw [hscan, hclocks]; rfl
  exact (if_neg (Bool.eq_false_iff.mp h)).trans (if_pos hbusy)

/-- What becomes of a well-formed command that is heard: judged by its AT bit, held for its AT, or carried out (R556). -/
def State.timeJudged (t : State) (q : Req) (c : Cmd) : State :=
  if !c.timeOk q then (t.taken q).reply q stBadParam
  else if c.timed then (t.taken q).perform q c
  else match q.at_ with
    | none => (t.taken q).perform q c
    | some d =>
      if (t.taken q).now < d then (match c with
        | .fwActivate => (t.taken q).fwActivate q (some d)
        | _ => (t.take q.src).addJob q (.held c d))
      else (t.taken q).perform q c

theorem State.handle_of_heard (h : c.denied q = false) (hscan : (t.taken q).rdBit (xreg .secState) 4 = true → c.inScan = true)
    (hwell : ∀ st, c ≠ .bad st) : t.handle q c = t.timeJudged q c := by
  have hclocks : ¬ ((t.taken q).rdBit (xreg .secState) 4 && !c.inScan) = true := by
    rw [Bool.and_eq_true, Bool.not_eq_true']
    exact fun hand => Bool.false_ne_true (hand.2.symm.trans (hscan hand.1))
  refine (if_neg (Bool.eq_false_iff.mp h)).trans ((if_neg hclocks).trans ?_)
  split
  next st => exact absurd rfl (hwell st)
  next => rfl

theorem State.timeJudged_of_bad_time (htime : c.timeOk q = false) : t.timeJudged q c = (t.taken q).reply q stBadParam := by
  simp only [State.timeJudged, htime, Bool.not_false, if_true]

theorem State.timeJudged_of_timed (htimed : c.timed = true) (htime : c.timeOk q = true) :
    t.timeJudged q c = (t.taken q).perform q c := by
  simp only [State.timeJudged, htime, htimed, Bool.not_true, Bool.false_eq_true, if_false, if_true]

section Untimed

variable (huntimed : c.timed = false)
include huntimed

theorem State.timeJudged_of_no_at (hat : q.at_ = none) : t.timeJudged q c = (t.taken q).perform q c := by
  simp only [State.timeJudged, Cmd.timeOk_of_untimed huntimed, huntimed, hat, Bool.not_true, Bool.false_eq_true, if_false]

variable {d : Nat} (hat : q.at_ = some d)
include hat

theorem State.timeJudged_of_due (hdue : d ≤ (t.taken q).now) : t.timeJudged q c = (t.taken q).perform q c := by
  simp only [State.timeJudged, Cmd.timeOk_of_untimed huntimed, huntimed, hat, Bool.not_true, Bool.false_eq_true, if_false,
    Nat.not_lt.mpr hdue]

theorem State.timeJudged_of_ahead (hahead : (t.taken q).now < d) (hactivates : c ≠ .fwActivate) :
    t.timeJudged q c = (t.take q.src).addJob q (.held c d) := by
  simp only [State.timeJudged, Cmd.timeOk_of_untimed huntimed, huntimed, hat, Bool.not_true, Bool.false_eq_true, if_false,
    if_pos hahead]

end Untimed

end Judged

/-! ### Numbers in memory (R114) -/

@[simp] theorem length_natLe (n v : Nat) : (natLe n v).length = n := by
  induction n generalizing v with
  | zero => rfl
  | succ n ih => rw [natLe, List.length_cons, ih]

/-- Two halves, the first of them 16 bits, are one word. -/
theorem natLe_halves {a : Nat} (b : Nat) (ha : a < 2 ^ 16) : natLe 2 a ++ natLe 2 b = natLe 4 (a + 65536 * b) := by
  have hbyte : ∀ {x y : Nat}, x % 256 = y % 256 → BitVec.ofNat 8 x = BitVec.ofNat 8 y := fun h => BitVec.eq_of_toNat_eq h
  simp only [natLe, List.cons_append, List.nil_append, List.cons.injEq, and_true]
  exact ⟨hbyte (by omega), hbyte (by omega), hbyte (by omega), hbyte (by omega)⟩

theorem Memory.byte_write_inner (m : Memory) (a : Nat) (x y z : List Byte) {k : Nat} (hk : k < y.length) :
    (m.write a (x ++ (y ++ z))).byte (a + x.length + k) = y[k] := by
  have hi : x.length + k < (x ++ (y ++ z)).length := by simp only [List.length_append]; omega
  rw [Nat.add_assoc, m.byte_write_in a _ _ hi, List.getElem_append_right (Nat.le_add_right ..)]
  simp only [Nat.add_sub_cancel_left, List.getElem_append_left hk]

/-- A word among the bytes that are written reads as it was written. -/
theorem Memory.word_write_inner (m : Memory) (a v : Nat) (x z : List Byte) :
    (m.write a (x ++ (natLe 4 v ++ z))).word (a + x.length) = BitVec.ofNat 32 v := by
  have hbyte : ∀ k (hk : k < 4), (m.write a (x ++ (natLe 4 v ++ z))).byte (a + x.length + k) =
      (natLe 4 v)[k]'(by rwa [length_natLe]) := fun k hk => m.byte_write_inner a x _ z _
  have h0 := hbyte 0 (by decide)
  rw [Nat.add_zero] at h0
  rw [Memory.word, h0, hbyte 1 (by decide), hbyte 2 (by decide), hbyte 3 (by decide)]
  refine BitVec.eq_of_toNat_eq ?_
  simp only [natLe, List.getElem_cons_zero, List.getElem_cons_succ, BitVec.toNat_ofNat]
  omega

theorem Memory.word_write_of_apart (m : Memory) {a p : Nat} {b : List Byte} (h : p + 4 ≤ a ∨ a + b.length ≤ p) :
    (m.write a b).word p = m.word p := by
  simp only [Memory.word]
  rw [m.byte_write_out, m.byte_write_out, m.byte_write_out, m.byte_write_out] <;> omega

/-! ### A reply (R557, R558) -/

theorem replyHead_eq (q : Req) (rlen : Nat) {status : Nat} (detail handledAt doneAt src : Nat) (hstatus : status < 2 ^ 16) :
    replyHead q rlen status detail handledAt doneAt src = natLe 4 (q.op.toNat + 65536 * q.tag.toNat) ++ (natLe 4 rlen
      ++ (natLe 8 q.raw.toNat ++ (natLe 4 q.crc.toNat ++ (natLe 4 (status + 65536 * detail)
      ++ (natLe 8 handledAt ++ (natLe 8 doneAt ++ (natLe 1 src ++ List.replicate 19 0))))))) := by
  rw [← natLe_halves _ q.op.isLt, ← natLe_halves _ hstatus]
  simp only [replyHead, List.append_assoc]

/-- Status and DETAIL stand 20 bytes into the header. -/
theorem replyHead_eq_status (q : Req) (rlen : Nat) {status : Nat} (detail handledAt doneAt src : Nat)
    (hstatus : status < 2 ^ 16) : ∃ x z : List Byte, x.length = 20
      ∧ replyHead q rlen status detail handledAt doneAt src = x ++ (natLe 4 (status + 65536 * detail) ++ z) := by
  refine ⟨natLe 4 (q.op.toNat + 65536 * q.tag.toNat) ++ natLe 4 rlen ++ natLe 8 q.raw.toNat ++ natLe 4 q.crc.toNat,
    natLe 8 handledAt ++ (natLe 8 doneAt ++ (natLe 1 src ++ List.replicate 19 0)), ?_, ?_⟩
  · simp only [List.length_append, length_natLe]
  · rw [replyHead_eq q rlen detail handledAt doneAt src hstatus]
    simp only [List.append_assoc]

@[simp] theorem length_replyHead (q : Req) (rlen status detail handledAt doneAt src : Nat) :
    (replyHead q rlen status detail handledAt doneAt src).length = 60 := by
  simp only [replyHead, List.length_append, length_natLe, List.length_replicate]

/-- The state after a reply of header `h` stands in a reply slot, the command slot free. -/
def State.posted (s : State) (i : Nat) (h b : List Byte) : State :=
  ((s.winWrite (replySlot i + 64) b).winWrite (replySlot i) (h ++ natLe 4 1)).winWrite (cmdSlot i + 60) (natLe 4 0)

theorem State.window_winWrite (s : State) (a : Nat) (b : List Byte) :
    (s.winWrite a b).host.window = s.host.window.write a b := rfl

section Posted

variable (s : State) (i : Nat) {h : List Byte} (b : List Byte)

theorem State.slotState_posted : (s.posted i h b).slotState i = 0 := by
  have hfree : (s.posted i h b).host.window.word (cmdSlot i + 60) = BitVec.ofNat 32 0 := by
    rw [State.posted, State.window_winWrite]
    simpa only [List.nil_append, List.append_nil, List.length_nil, Nat.add_zero] using
      Memory.word_write_inner _ (cmdSlot i + 60) 0 [] []
  simp only [State.slotState, hfree]
  rfl

theorem State.rstate_posted (hlen : h.length = 60) : (s.posted i h b).host.window.word (replySlot i + 60) = 1 := by
  have happart : cmdSlot i + 60 + (natLe 4 0).length ≤ replySlot i + 60 := by
    rw [length_natLe, cmdSlot, replySlot]; omega
  refine (Memory.word_write_of_apart _ (.inr happart)).trans ?_
  rw [State.window_winWrite, ← hlen, ← List.append_nil (natLe 4 1)]
  exact Memory.word_write_inner _ (replySlot i) 1 h []

/-- A word of the header. -/
theorem State.word_posted {v : Nat} {x z : List Byte} (hword : h = x ++ (natLe 4 v ++ z)) :
    (s.posted i h b).host.window.word (replySlot i + x.length) = BitVec.ofNat 32 v := by
  have happart : cmdSlot i + 60 + (natLe 4 0).length ≤ replySlot i + x.length := by
    rw [length_natLe, cmdSlot, replySlot]; omega
  refine (Memory.word_write_of_apart _ (.inr happart)).trans ?_
  rw [State.window_winWrite, hword, List.append_assoc, List.append_assoc]
  exact Memory.word_write_inner ..

theorem State.bytes_posted (hlen : h.length = 60) : (s.posted i h b).host.window.bytes (replySlot i + 64) b.length = b := by
  have hslot : cmdSlot i + 60 + (natLe 4 0).length ≤ replySlot i + 64 := by rw [length_natLe, cmdSlot, replySlot]; omega
  have hhead : replySlot i + (h ++ natLe 4 1).length ≤ replySlot i + 64 := by rw [List.length_append, hlen, length_natLe]
  exact ((Memory.bytes_write_of_apart _ (.inr hslot)).trans (Memory.bytes_write_of_apart _ (.inr hhead))).trans
    (Memory.bytes_write_same _ _ rfl)

end Posted

section Reply

variable {s : State} {q : Req} {status detail : Nat} {b : List Byte}

theorem State.reply_host {i : Fin 64} (hsrc : q.src = .host i) : s.reply q status detail b =
    let t := s.posted i.val (replyHead q b.length status detail s.now s.now i.val) b
    if q.irq then t.vector (192 + q.vec.val) else t := by
  simp only [State.reply, State.replyAt, hsrc]
  rfl

theorem State.reply_sideband {j : Fin 8} {m : SbMsg} (hsrc : q.src = .sideband j) (hslot : s.sb.slots[j.val]? = some (some m)) :
    s.reply q status detail b = { s with sb := { s.sb with
      slots := s.sb.slots.set j.val none
      out := s.sb.out ++ [.reply m.eid (replyHead q b.length status detail s.now s.now j.val ++ natLe 4 1 ++ b)] } } := by
  simp only [State.reply, State.replyAt, hsrc, hslot]

theorem State.vectors_vector (s : State) {v : Nat} (hv : v < 256) : (s.vector v).host.vectors.getLsbD v = true := by
  simp only [State.vector, BitVec.getLsbD_or, BitVec.getLsbD_ofNat, hv, decide_true, Bool.true_and, Nat.one_shiftLeft,
    Nat.testBit_two_pow_self, Bool.or_true]

end Reply

/-- Settles O51: a collected command is judged by the sideband's grade, a scan, its AT bit and its AT, in this order; and a reply
is the window with its results, its header and the free command slot written in turn. -/
theorem commandsAreJudged : Obligations.CommandsAreJudged := by
  refine ⟨?judged, ?replies⟩
  case judged =>
    intro i q c s hhost r
    have hwell := ne_bad_of_hostCommand hhost
    have hr : r = .next (s.command q c) := exec_of_hostCommand hhost s
    refine ⟨fun hclosed hlow => hr.trans (congrArg _ (State.command_of_closed hclosed hlow q c)), fun t hopens => ?_⟩
    intro u denied
    have hhandled : ∀ {v : State}, t.handle q c = v → r = .next v := fun hv =>
      hr.trans (congrArg _ ((State.command_of_open hopens q c).trans hv))
    have hheard : denied = false → (u.rdBit (xreg .secState) 4 = true → c.inScan = true) → t.handle q c = t.timeJudged q c :=
      fun hd hscan => State.handle_of_heard hd hscan hwell
    have hclear : denied = false → u.rdBit (xreg .secState) 4 = false → t.handle q c = t.timeJudged q c := fun hd hscan =>
      hheard hd fun hset => absurd (hscan.symm.trans hset) Bool.false_ne_true
    exact ⟨fun hd => hhandled (State.handle_of_denied hd),
      fun hd hscan hclocks => hhandled (State.handle_of_scan hd hscan hclocks),
      fun hd hscan htime => hhandled ((hclear hd hscan).trans (State.timeJudged_of_bad_time htime)),
      fun d hd hscan huntimed hactivates hat hahead =>
        hhandled ((hclear hd hscan).trans (State.timeJudged_of_ahead huntimed hat hahead hactivates)),
      fun d hd hscan huntimed _ hat hdue => hhandled ((hclear hd hscan).trans (State.timeJudged_of_due huntimed hat hdue)),
      fun hd hscan huntimed hat => hhandled ((hheard hd hscan).trans (State.timeJudged_of_no_at huntimed hat)),
      fun hd hscan htimed htime => hhandled ((hclear hd hscan).trans (State.timeJudged_of_timed htimed htime))⟩
  case replies =>
    intro s q status detail b hstatus hdetail hlen t
    refine ⟨fun i hsrc => ?host, fun j m hsrc hslot => ?sideband⟩
    case host =>
      intro r
      let h := replyHead q b.length status detail s.now s.now i.val
      have ht : t = if q.irq then (s.posted i.val h b).vector (192 + q.vec.val) else s.posted i.val h b := State.reply_host hsrc
      have hwindow : t.host.window = (s.posted i.val h b).host.window := by rw [ht]; split <;> rfl
      have hstate : t.slotState i.val = (s.posted i.val h b).slotState i.val := by rw [State.slotState, hwindow, State.slotState]
      have hhead : h = _ := replyHead_eq q b.length detail s.now s.now i.val hstatus
      have hlength : h.length = 60 := length_replyHead ..
      rw [hwindow, hstate]
      refine ⟨?rstate, ?status, ?echo, ?count, s.bytes_posted i.val b hlength, s.slotState_posted i.val b, ?vector, ?frame⟩
      case rstate => exact s.rstate_posted i.val b hlength
      case echo => exact s.word_posted i.val b (x := []) hhead
      case count => exact s.word_posted i.val b (x := natLe 4 _) hhead
      case status =>
        obtain ⟨x, z, hx, hstatusAt⟩ := replyHead_eq_status q b.length detail s.now s.now i.val hstatus
        have := s.word_posted i.val b hstatusAt
        rwa [hx] at this
      case vector =>
        intro hirq
        rw [ht, if_pos hirq]
        exact State.vectors_vector _ (by omega)
      case frame => rw [ht]; split <;> rfl
    case sideband =>
      have hj : j.val < s.sb.slots.length := (List.getElem?_eq_some_iff.mp hslot).1
      have ht := State.reply_sideband (status := status) (detail := detail) (b := b) hsrc hslot
      refine ⟨_, by rw [show t = _ from ht], length_replyHead .., ?_, ?_⟩
      · rw [show t = _ from ht]
        exact List.getElem?_set_self hj
      · rw [show t = _ from ht]

end Sys2Proof.Machine
end

section
/-!
PROOF. What the shared operations leave of the partitions, the jobs, the time and the sideband: raised
sources and fences (12_silent_errors_and_faults.md R492, R495 to R501), voltages and gears, replies, page switches, the end of a forme (R413, R520, R562).
-/
namespace Sys2Proof.Machine

/-- What the host has planned: the partitions, the jobs whose replies are to come, Hall Time; and the sideband. -/
def State.plans (s : State) : AMap Part PartS × List Job × HtS × SidebandS := (s.parts, s.host.jobs, s.ht, s.sb)

theorem foldl_plans {β : Type} (f : State → β → State) (h : ∀ a b, (f a b).plans = a.plans) (l : List β) (a : State) :
    (l.foldl f a).plans = a.plans := foldl_keep State.plans f h l a

theorem foldl_plans1 {β δ : Type} (f : State × δ → β → State × δ) (h : ∀ a b, (f a b).1.plans = a.1.plans) (l : List β)
    (a : State × δ) : (l.foldl f a).1.plans = a.1.plans := foldl_keep (fun a : State × δ => a.1.plans) f h l a

/-! ### Raised sources and fences leave them -/

section Raises

variable (s : State)

theorem State.plans_setReplace (causes : Nat) : (s.setReplace causes).plans = s.plans := by
  unfold State.setReplace
  extract_lets old s1 s2 new
  split
  · rfl
  · exact foldl_plans _ (fun _ _ => foldl_plans _ (fun _ _ => by rfl) _ _) _ s2

theorem State.plans_syncFence : s.syncFence.plans = s.plans := by
  unfold State.syncFence
  generalize allDies = dies, allRegions = regions
  simp only [State.plans_setReplace]
  show State.plans (dies.foldl _ (regions.foldl _ s)) = s.plans
  refine (foldl_plans _ (fun t d => ?_) _ _).trans (foldl_plans _ (fun t r => ?_) _ _) <;> split <;> rfl

theorem State.plans_substitute (l : LU) : (s.substitute l).1.plans = s.plans := by
  have hbanks (t : State) (p : PU) : (t.loadBanks l p).plans = t.plans := by
    simp only [State.loadBanks]
    (repeat' split) <;> rfl
  unfold State.substitute
  split
  · dsimp only
    split
    · exact hbanks _ _
    · rfl
  · rfl

theorem State.plans_applyFences (r : RegionId) (t : Nat) : (s.applyFences r t).1.plans = s.plans := by
  unfold State.applyFences
  split
  · exact foldl_plans _ (fun a l => by rfl) _ s
  · extract_lets ready
    split
    · rfl
    · split
      next heq =>
        refine (congrArg (fun z : State × List Raise => z.1.plans) heq).symm.trans (foldl_plans1 _ (fun acc l => ?_) _ _)
        split
        · split
          · exact State.plans_substitute _ _
          · rfl
        · rfl

theorem State.plans_fenceSuspect (d : Die) (inBlock : PU → Bool) : (s.fenceSuspect d inBlock).plans = s.plans := by
  unfold State.fenceSuspect
  (repeat' split) <;> rfl

theorem State.plans_fenceUnit (p : PU) : (s.fenceUnit p).1.plans = s.plans := by
  simp only [State.fenceUnit]
  split
  · rfl
  · split
    · exact (State.plans_applyFences _ _ _).trans (s.plans_fenceSuspect _ _)
    · exact s.plans_fenceSuspect _ _

theorem State.plans_fenceRegion (r : RegionId) : (s.fenceRegion r).1.plans = s.plans := by
  simp only [State.fenceRegion]
  split
  · rfl
  · split
    · exact (State.plans_applyFences _ _ _).trans (s.plans_fenceSuspect _ _)
    · exact s.plans_fenceSuspect _ _

theorem State.plans_fenceDie (d : Die) : (s.fenceDie d).1.plans = s.plans := by
  have hoff (l : List RegionId) (t : State) : (l.foldl (fun s r => s.wrBit (rreg .pwrRegionStat r) 4 false) t).plans = t.plans :=
    foldl_plans _ (fun a r => by rfl) l t
  have happly (l : List RegionId) (acc : State × List Raise) : (l.foldl (fun acc r =>
      ((acc.1.applyFences r acc.1.now).1, acc.2 ++ (acc.1.applyFences r acc.1.now).2)) acc).1.plans = acc.1.plans :=
    foldl_plans1 _ (fun acc r => by exact acc.1.plans_applyFences r acc.1.now) l acc
  simp only [State.fenceDie]
  split
  · rfl
  · split
    · dsimp only
      rw [happly, hoff]
      exact s.plans_fenceSuspect _ _
    · exact (hoff _ _).trans (s.plans_fenceSuspect _ _)

theorem State.plans_fenceLd (k : LinkDie) : (s.fenceLd k).plans = s.plans := by
  unfold State.fenceLd
  split
  · rfl
  · exact foldl_plans _ (fun _ _ => by rfl) (s.claimantsOf k) _

theorem State.plans_react (r : Reg) (code : Nat) : (s.react r code).1.plans = s.plans := by
  unfold State.react
  split
  case isTrue => rfl
  split
  case h_1 => rfl
  case h_2 =>
    show State.plans (if code = 3 then s.fenceLd _ else s) = s.plans
    split
    · exact s.plans_fenceLd _
    · rfl
  case h_3 =>
    extract_lets d region
    split
    · split
      · exact s.plans_fenceUnit _
      · rfl
    · exact s.plans_fenceRegion _
    · exact s.plans_fenceDie _

theorem State.plans_raised (r : Raise) : (s.raised r).1.plans = s.plans := by
  unfold State.raised
  extract_lets s1 code s2 s3 t
  have h2 : s2.plans = s.plans := by
    show State.plans (match r.reg.name.source with | some i => _ | none => s1) = _
    split <;> rfl
  have ht : t.1.plans = s3.plans := by
    show (if r.fixed.isSome then (s3, []) else s3.react r.reg code : State × List Raise).1.plans = _
    split
    · rfl
    · exact s3.plans_react _ _
  dsimp only
  split
  · exact ht.trans h2
  · exact (State.plans_syncFence _).trans (ht.trans h2)

theorem State.plans_raiseAll (n : Nat) (rs : List Raise) (s : State) : (s.raiseAll n rs).plans = s.plans := by
  induction n generalizing rs s with
  | zero => rfl
  | succ n ih =>
    cases rs with
    | nil => rfl
    | cons r rest =>
      rw [State.raiseAll_cons]
      split
      · exact ih rest s
      · exact (ih _ _).trans (s.plans_raised r)

theorem State.plans_raiseBit (r : Reg) (b : Nat) (suspect : Bool) (detail : Nat) :
    (s.raiseBit r b suspect detail).plans = s.plans := State.plans_raiseAll ..

end Raises

/-! ### Operations on the regions and their units alone -/

/-- From `s` to `t` only what the regions and the physical units hold has changed. -/
def State.OnlyTensors (s t : State) : Prop := ∃ x y, t = { s with regions := x, units := y }

namespace State.OnlyTensors

variable {s t u : State}

theorem refl (s : State) : s.OnlyTensors s := ⟨_, _, rfl⟩

theorem trans (h : s.OnlyTensors t) (k : t.OnlyTensors u) : s.OnlyTensors u := by
  obtain ⟨x, y, rfl⟩ := h
  obtain ⟨x', y', rfl⟩ := k
  exact ⟨x', y', rfl⟩

theorem foldl {β : Type} {f : State → β → State} (h : ∀ a b, State.OnlyTensors a (f a b)) (l : List β) (s : State) :
    s.OnlyTensors (l.foldl f s) := by
  induction l generalizing s with
  | nil => exact refl s
  | cons b l ih => exact (h s b).trans (ih (f s b))

theorem plans_eq (h : s.OnlyTensors t) : t.plans = s.plans := by
  obtain ⟨x, y, rfl⟩ := h
  rfl

theorem regs_eq (h : s.OnlyTensors t) : t.regs = s.regs := by
  obtain ⟨x, y, rfl⟩ := h
  rfl

end State.OnlyTensors

section Frames

variable (s : State)

theorem State.onlyTensors_modRegion (r : RegionId) (f : RegionS → RegionS) : s.OnlyTensors (s.modRegion r f) := ⟨_, _, rfl⟩

theorem State.onlyTensors_modUnit (q : PU) (f : UnitS → UnitS) : s.OnlyTensors (s.modUnit q f) := ⟨_, _, rfl⟩

theorem State.onlyTensors_syncRegionGear (d : Die) : s.OnlyTensors (s.syncRegionGear d) := by
  refine .foldl (fun a r => ?_) (dieRegions d) s
  dsimp only
  split
  · exact .refl a
  · exact (a.onlyTensors_modRegion r _).trans (State.onlyTensors_modRegion _ r _)

theorem State.onlyTensors_proofOn (r : RegionId) : s.OnlyTensors (s.proofOn r) := s.onlyTensors_modRegion r _

theorem State.onlyTensors_proofOff (r : RegionId) : s.OnlyTensors (s.proofOff r) := by
  unfold State.proofOff
  split
  · exact (s.onlyTensors_modRegion r _).trans (State.onlyTensors_modRegion _ r _)
  · exact .refl s

theorem State.onlyTensors_endProof (p : Part) : s.OnlyTensors (s.endProof p) :=
  .foldl State.onlyTensors_proofOff (s.partRegions p) s

theorem State.onlyTensors_loadBanks (l : LU) (q : PU) : s.OnlyTensors (s.loadBanks l q) := by
  unfold State.loadBanks
  dsimp only
  (repeat' split) <;> exact ⟨_, _, rfl⟩

theorem State.onlyTensors_loadVariant (p : Part) : s.OnlyTensors (s.loadVariant p) := by
  refine .foldl (fun a d => .foldl (fun a r => .foldl (fun a l => ?_) _ a) _ a) (s.partDies p) s
  split
  · exact a.onlyTensors_loadBanks l _
  · exact .refl a

theorem State.onlyTensors_loadReplay (p : Part) : s.OnlyTensors (s.loadReplay p) := by
  unfold State.loadReplay
  split
  · exact .refl s
  · refine .foldl (fun a r => ?_) (s.partRegions p) s
    split
    · exact .refl a
    · exact .foldl (fun a q => a.onlyTensors_modUnit q _) (a.freeSpares r) a

end Frames

/-! ### Replies and jobs -/

section Replies

variable (s : State) (q : Req) (handledAt status detail : Nat) (b : List Byte)

@[simp] theorem State.replyAt_parts : (s.replyAt q handledAt status detail b).parts = s.parts := by
  unfold State.replyAt
  split
  case h_1 i => split <;> rfl
  all_goals rfl

variable (p : Job → Bool)

@[simp] theorem State.endJobs_parts : (s.endJobs p status detail b).parts = s.parts :=
  foldl_keep State.parts _ (fun (t : State) (j : Job) => t.replyAt_parts j.req j.at_ status detail b) _ _

theorem State.mem_jobs_endJobs {j : Job} (h : j ∈ (s.endJobs p status detail b).host.jobs) : j ∈ s.host.jobs := by
  rw [State.endJobs_jobs] at h
  exact (List.mem_filter.mp h).1

end Replies

/-! ### A forme that ends (R413, R475, R562) -/

theorem State.dropProv_plans (s : State) (p : Part) : (s.dropProv p).plans = s.plans := by
  unfold State.dropProv
  extract_lets mine s'
  have hs' : s'.plans = s.plans := foldl_plans _ (fun a e => by rfl) _ s
  exact hs'

/-- A switch that has waited leaves the partitions, and answers the jobs of retirement. -/
theorem State.switchPage_frame (s : State) (d : Die) :
    (s.switchPage d).parts = s.parts ∧ ∀ j ∈ (s.switchPage d).host.jobs, j ∈ s.host.jobs := by
  unfold State.switchPage
  split
  · exact ⟨rfl, fun _ h => h⟩
  · extract_lets old s1 kept s2 s3 s4
    have h4 : s4.plans = s.plans := s3.plans_raiseBit _ _ _ _
    refine ⟨(s4.endJobs_parts _ _ _ _).trans (congrArg Prod.fst h4), fun j hj => ?_⟩
    have hjobs : s4.host.jobs = s.host.jobs := congrArg (fun x => x.2.1) h4
    exact hjobs ▸ s4.mem_jobs_endJobs _ _ _ _ hj

theorem State.switchWaiting_frame (s : State) (p : Part) :
    (s.switchWaiting p).parts = s.parts ∧ ∀ j ∈ (s.switchWaiting p).host.jobs, j ∈ s.host.jobs := by
  have hone (a : State) (d : Die) : (match (a.die d).copy with
      | some c => if c.waits then a.switchPage d else a
      | none => a).parts = a.parts ∧ ∀ j ∈ (match (a.die d).copy with
      | some c => if c.waits then a.switchPage d else a
      | none => a).host.jobs, j ∈ a.host.jobs := by
    split
    · split
      · exact a.switchPage_frame d
      · exact ⟨rfl, fun _ h => h⟩
    · exact ⟨rfl, fun _ h => h⟩
  unfold State.switchWaiting
  generalize s.partDies p = ds
  induction ds generalizing s with
  | nil => exact ⟨rfl, fun _ h => h⟩
  | cons d ds ih =>
    obtain ⟨hparts, hjobs⟩ := ih (match (s.die d).copy with
      | some c => if c.waits then s.switchPage d else s
      | none => s)
    exact ⟨hparts.trans (hone s d).1, fun j hj => (hone s d).2 j (hjobs j hj)⟩

end Sys2Proof.Machine
end

section
/-!
PROOF. FORME_LOAD, FORME_ARM and FORME_DISARM (14_host_and_management.md R555, R562, R603, R687).
-/
namespace Sys2Proof.Machine

/-! ### FORME_LOAD (R687) -/

section Load

variable {s : State} {q : Req} {r : FormeRead} {f0 f : Forme} {tb : TableImage}

theorem State.formeLoad_of_empty (h : s.partDies q.part = []) : s.formeLoad q r = s.reply q stBadPart := by
  simp only [State.formeLoad, h, List.isEmpty_nil, if_true]

variable (hdies : s.partDies q.part ≠ [])
include hdies

theorem State.formeLoad_of_armed (harmed : (s.partDies q.part).any s.dieArmed = true) :
    s.formeLoad q r = s.reply q stFormeArmed := by
  simp only [State.formeLoad, List.isEmpty_eq_false_iff.mpr hdies, harmed, Bool.false_eq_true, if_false, if_true]

variable (hfree : (s.partDies q.part).any s.dieArmed = false)
include hfree

/-- A load that may begin leaves the partition with no forme, whatever the image says. -/
theorem State.formeLoad_of_free : s.formeLoad q r = match r with
    | .dmaError => (s.unload q.part).reply q stDmaFault
    | .badDigest => (s.unload q.part).reply q stFormeBad 1
    | .badFormat => (s.unload q.part).reply q stFormeBad 2
    | .ok f0 tb => match f0.withTables tb with
      | none => (s.unload q.part).reply q stFormeBad 2
      | some f => match (s.unload q.part).loadCheck q.part f with
        | some (st, det) => (s.unload q.part).reply q st det
        | none =>
          let t := (s.unload q.part).loadForme q.part f
          t.reply q stOk 0 (natLe 2 (t.mappedUnits q.part) ++ natLe 2 f.needs.length) := by
  simp only [State.formeLoad, List.isEmpty_eq_false_iff.mpr hdies, hfree, Bool.false_eq_true, if_false] <;> rfl

theorem State.formeLoad_of_checked (htables : f0.withTables tb = some f) {e : Nat × Nat}
    (hcheck : (s.unload q.part).loadCheck q.part f = some e) :
    s.formeLoad q (.ok f0 tb) = (s.unload q.part).reply q e.1 e.2 := by
  simp only [State.formeLoad_of_free hdies hfree, htables, hcheck]

theorem State.formeLoad_of_loaded (htables : f0.withTables tb = some f)
    (hcheck : (s.unload q.part).loadCheck q.part f = none) :
    s.formeLoad q (.ok f0 tb) =
      let t := (s.unload q.part).loadForme q.part f
      t.reply q stOk 0 (natLe 2 (t.mappedUnits q.part) ++ natLe 2 f.needs.length) := by
  simp only [State.formeLoad_of_free hdies hfree, htables, hcheck]

theorem State.formeLoad_of_bad_tables (htables : f0.withTables tb = none) :
    s.formeLoad q (.ok f0 tb) = (s.unload q.part).reply q stFormeBad 2 := by
  simp only [State.formeLoad_of_free hdies hfree, htables]

end Load

/-! ### The dies of a partition that is armed (R41) -/

/-- ARMED is no part of what says which partition a die is in. -/
theorem State.partOf_wrBit_armed (s : State) (d e : Die) (b : Bool) :
    (s.wrBit (dreg .cdPartition d) 4 b).partOf e = s.partOf e := by
  by_cases hd : dreg .cdPartition e = dreg .cdPartition d
  · have hrd : (s.wrBit (dreg .cdPartition d) 4 b).rd (dreg .cdPartition e) = setBit (s.rd (dreg .cdPartition e)) 4 b := by
      rw [hd]; exact s.rd_wr _ _
    have hbit : bit (setBit (s.rd (dreg .cdPartition e)) 4 b) 3 = bit (s.rd (dreg .cdPartition e)) 3 :=
      getLsbD_setBit_ne _ b (by decide)
    have hfld : fld (setBit (s.rd (dreg .cdPartition e)) 4 b) 2 0 = fld (s.rd (dreg .cdPartition e)) 2 0 :=
      fld_setBit_of_outside _ b (.inr (by decide))
    simp only [State.partOf, hrd, hbit, hfld]
  · simp only [State.partOf, State.rd_wrBit_ne s hd]

theorem State.partDies_setArmed (s : State) (p q : Part) (b : Bool) : (s.setArmed p b).partDies q = s.partDies q := by
  have hfold : ((s.partDies p).foldl (fun s d => s.wrBit (dreg .cdPartition d) 4 b) s).partOf = s.partOf :=
    foldl_keep State.partOf _ (fun a d => funext fun e => a.partOf_wrBit_armed d e b) _ _
  show allDies.filter (fun d => decide (State.partOf _ d = some q)) = _
  exact congrArg (fun g : Die → Option Part => allDies.filter fun d => decide (g d = some q)) hfold

theorem State.part_setArmed (s : State) (p : Part) (b : Bool) :
    (s.setArmed p b).part p = { s.part p with armed := b } := by
  have hfold : ((s.partDies p).foldl (fun s d => s.wrBit (dreg .cdPartition d) 4 b) s).part p = s.part p :=
    foldl_keep (fun t : State => t.part p) _ (fun _ _ => by rfl) _ _
  rw [State.setArmed, State.part_modPart, hfold]

/-- Registers of a list of dies that are all given one value show it. -/
theorem State.rd_foldl_wr {n : RegName} {ds : List Die} {d : Die} (h : d ∈ ds) (v : Word) (s : State) :
    (ds.foldl (fun s d => s.wr (dreg n d) v) s).rd (dreg n d) = v := by
  have hkeeps : ∀ (l : List Die) (t : State), t.rd (dreg n d) = v →
      (l.foldl (fun s d => s.wr (dreg n d) v) t).rd (dreg n d) = v := by
    intro l
    induction l with
    | nil => exact fun t ht => ht
    | cons e l ih =>
      intro t ht
      refine ih _ ?_
      by_cases he : dreg n d = dreg n e
      · rw [he, State.rd_wr]
      · rw [t.rd_wr_ne _ _ _ he, ht]
  induction ds generalizing s with
  | nil => exact absurd h (List.not_mem_nil)
  | cons e l ih =>
    rcases List.mem_cons.mp h with rfl | hl
    · exact hkeeps l _ (s.rd_wr _ _)
    · exact ih hl _

/-! ### FORME_ARM (R562) -/

/-- The partition as FORME_ARM leaves it, its field proof to run until `until_`. -/
def PartS.armedFor (x : PartS) (v : Nat) (cold : Bool) (until_ : Option Nat) : PartS :=
  { x with
    variant := v, banksOf := v, coldArm := cold, coldNext := false, hallCounts := [], hallCold := []
    ord := 0, vcount := 0, vnext := 0, coldReq := false, vdone := false, commitDone := false, haltOnBoundary := false
    proofUntil := until_ }

/-- The dies are armed, CD_STEP stands at the first step and the job's energy counts from here. -/
def State.armBegun (s : State) (p : Part) (start : Word) : State :=
  let s := { s with susp := s.susp.filter fun e => e.part ≠ p }.setArmed p true
  let s := (s.partDies p).foldl (fun s d => s.wr (dreg .cdStep d) start) s
  { s with power := { s.power with jobBase := s.power.jobBase.set p.val ((s.power.acc.part[p.val]?).getD 0) } }

theorem State.armBegun_ht (s : State) (p : Part) (start : Word) : (s.armBegun p start).ht = s.ht :=
  (foldl_keep State.ht _ (fun _ _ => by rfl) _ _).trans (foldl_keep State.ht _ (fun _ _ => by rfl) _ _)

/-- The partition is armed. -/
def State.armSet (s : State) (p : Part) (f : Forme) (start : Word) (cold : Bool) : State :=
  (s.armBegun p start).modPart p fun x => x.armedFor ((s.variantInForce p f).getD (s.part p).variant) cold
    (if decide (f.tree.packages ≤ 64) then some (s.now + 192 * 16384) else none)

theorem State.part_armSet (s : State) (p : Part) (f : Forme) (start : Word) (cold : Bool) :
    (s.armSet p f start cold).part p = { s.part p with armed := true }.armedFor
      ((s.variantInForce p f).getD (s.part p).variant) cold
      (if decide (f.tree.packages ≤ 64) then some (s.now + 192 * 16384) else none) := by
  have hbegun : (s.armBegun p start).part p = { s.part p with armed := true } :=
    (foldl_keep (fun t : State => t.part p) _ (fun _ _ => by rfl) _ _).trans
      (State.part_setArmed { s with susp := s.susp.filter fun e => e.part ≠ p } p true)
  rw [State.armSet, State.part_modPart, hbegun]

theorem State.rd_armBegun (s : State) {p : Part} (start : Word) {d : Die} (h : d ∈ s.partDies p) :
    (s.armBegun p start).rd (dreg .cdStep d) = start :=
  State.rd_foldl_wr (by rwa [State.partDies_setArmed]) start _

/-- The regions of a partition follow its gear, and prove themselves where the tree has 64 packages or fewer; the images are in
the banks. -/
def State.armReady (s : State) (p : Part) (f : Forme) : State :=
  let s := (s.partDies p).foldl (fun s d => s.syncRegionGear d) s
  let s := if decide (f.tree.packages ≤ 64) then
      (s.partRegions p).foldl (fun s r => if s.regionFallow r then s else s.proofOn r) s
    else s
  (s.loadVariant p).loadReplay p

theorem State.onlyTensors_armReady (s : State) (p : Part) (f : Forme) : s.OnlyTensors (s.armReady p f) := by
  unfold State.armReady
  refine .trans (.trans (.foldl State.onlyTensors_syncRegionGear (s.partDies p) s) ?_)
    ((State.onlyTensors_loadVariant _ p).trans (State.onlyTensors_loadReplay _ p))
  split
  · refine .foldl (fun a r => ?_) _ _
    split
    · exact .refl a
    · exact a.onlyTensors_proofOn r
  · exact .refl _

section Arm

variable {s : State} {q : Req} {f : Forme} {start : Word} {cold : Bool}

theorem State.formeArm_of_empty (h : s.partDies q.part = []) : s.formeArm q start cold = s.reply q stBadPart := by
  simp only [State.formeArm, h, List.isEmpty_nil, if_true]

variable (hdies : s.partDies q.part ≠ [])
include hdies

theorem State.formeArm_of_unloaded (hforme : (s.part q.part).forme = none) :
    s.formeArm q start cold = s.reply q stNotArmed := by
  simp only [State.formeArm, List.isEmpty_eq_false_iff.mpr hdies, hforme, Bool.false_eq_true, if_false]

variable (hforme : (s.part q.part).forme = some f)
include hforme

theorem State.formeArm_of_armed (harmed : (s.part q.part).armed = true) :
    s.formeArm q start cold = s.reply q stFormeArmed := by
  simp only [State.formeArm, List.isEmpty_eq_false_iff.mpr hdies, hforme, harmed, Bool.false_eq_true, if_false, if_true]

variable (harmed : (s.part q.part).armed = false)
include harmed

theorem State.formeArm_of_busy (hpower : (s.partRegions q.part).any (fun r => !s.regionFallow r
    && !s.rdBit (rreg .pwrRegionStat r) 4) = true) : s.formeArm q start cold = s.reply q stBusy := by
  simp only [State.formeArm, List.isEmpty_eq_false_iff.mpr hdies, hforme, harmed, hpower, Bool.false_eq_true, if_false, if_true]

variable (hpower : (s.partRegions q.part).any (fun r => !s.regionFallow r && !s.rdBit (rreg .pwrRegionStat r) 4) = false)
include hpower

theorem State.formeArm_of_untimed (htimed : s.timed = false) : s.formeArm q start cold = s.reply q stTimeState := by
  simp only [State.formeArm, List.isEmpty_eq_false_iff.mpr hdies, hforme, harmed, hpower, htimed, Bool.false_eq_true, if_false,
    Bool.not_false, if_true]

theorem State.formeArm_of_timed (htimed : s.timed = true) : s.formeArm q start cold =
    let t := (s.armSet q.part f start cold).armReady q.part f
    if decide (f.tree.packages ≤ 64) then t.addJob q (.arm (s.now + 192 * 16384)) else t.reply q stOk := by
  have hnow : (s.armBegun q.part start).now = s.now := congrArg (fun h : HtS => h.now.toNat) (s.armBegun_ht q.part start)
  have hbegins : s.formeArm q start cold =
      let t := ((s.armBegun q.part start).modPart q.part fun x => x.armedFor ((s.variantInForce q.part f).getD
        (s.part q.part).variant) cold (if decide (f.tree.packages ≤ 64) then some ((s.armBegun q.part start).now + 192 * 16384)
        else none)).armReady q.part f
      if decide (f.tree.packages ≤ 64) then t.addJob q (.arm ((s.armBegun q.part start).now + 192 * 16384))
      else t.reply q stOk := by
    simp only [State.formeArm, List.isEmpty_eq_false_iff.mpr hdies, hforme, harmed, hpower, htimed, Bool.false_eq_true, if_false,
      Bool.not_true]
    rfl
  rw [hbegins, hnow]
  rfl

/-- An armed partition: what FORME_ARM says of it, CD_STEP of its dies, and its reply, which waits for the field proof (R489). -/
theorem State.formeArm_leaves (htimed : s.timed = true) : ∃ t, s.formeArm q start cold = t ∧ (t.part q.part).armed = true
    ∧ (t.part q.part).coldArm = cold ∧ (t.part q.part).forme = some f
    ∧ (∀ d ∈ s.partDies q.part, t.rd (dreg .cdStep d) = start)
    ∧ (64 < f.tree.packages → (t.part q.part).proofUntil = none)
    ∧ (f.tree.packages ≤ 64 → (t.part q.part).proofUntil = some (s.now + 192 * 16384)
      ∧ ⟨q, .arm (s.now + 192 * 16384), s.now⟩ ∈ t.host.jobs) := by
  let a := s.armSet q.part f start cold
  let t := a.armReady q.part f
  have hframe : a.OnlyTensors t := a.onlyTensors_armReady q.part f
  have hparts : t.parts = a.parts := congrArg Prod.fst hframe.plans_eq
  have hnow : t.now = s.now :=
    (congrArg (fun x => x.2.2.1.now.toNat) hframe.plans_eq).trans (congrArg (fun h : HtS => h.now.toNat) (s.armBegun_ht _ _))
  have hpart := s.part_armSet q.part f start cold
  have hstep : ∀ d ∈ s.partDies q.part, t.rd (dreg .cdStep d) = start := fun d hd =>
    (congrArg (fun m : AMap Reg Word => m.getD _ _) hframe.regs_eq).trans (s.rd_armBegun start hd)
  have hanswer := State.formeArm_of_timed (start := start) (cold := cold) hdies hforme harmed hpower htimed
  have hleaves : ∀ {u : State}, u.parts = t.parts → u.part q.part = { s.part q.part with armed := true }.armedFor
      ((s.variantInForce q.part f).getD (s.part q.part).variant) cold
      (if decide (f.tree.packages ≤ 64) then some (s.now + 192 * 16384) else none) := fun hu =>
    (congrArg (fun m : AMap Part PartS => m.getD q.part .reset) (hu.trans hparts)).trans hpart
  by_cases hproof : f.tree.packages ≤ 64
  · have hu := hleaves (u := t.addJob q (.arm (s.now + 192 * 16384))) rfl
    refine ⟨_, hanswer.trans (if_pos (decide_eq_true hproof)), ?_⟩
    rw [show (t.addJob q (.arm (s.now + 192 * 16384))).part q.part = _ from hu, decide_eq_true hproof]
    refine ⟨rfl, rfl, hforme, hstep, fun hlarge => absurd hproof (Nat.not_le.mpr hlarge), fun _ => ⟨rfl, ?_⟩⟩
    exact List.mem_append_right _ (List.mem_singleton.mpr (by rw [hnow]))
  · have hu := hleaves (t.replyAt_parts q t.now stOk 0 [])
    refine ⟨_, hanswer.trans (if_neg (fun h => hproof (of_decide_eq_true h))), ?_⟩
    rw [show (t.reply q stOk).part q.part = _ from hu, decide_eq_false hproof]
    refine ⟨rfl, rfl, hforme, fun d hd => ?_, fun _ => rfl, fun hsmall => absurd hsmall hproof⟩
    exact (congrArg (fun m : AMap Reg Word => m.getD _ _) (t.replyAt_regs q t.now stOk 0 [])).trans (hstep d hd)

end Arm

/-! ### FORME_DISARM (R555, R562) -/

section Disarm

variable {s : State} {q : Req} {p : Part}

theorem State.formeDisarm_of_empty (h : s.partDies q.part = []) : s.formeDisarm q = s.reply q stBadPart := by
  simp only [State.formeDisarm, h, List.isEmpty_nil, if_true]

/-- A disarmed partition keeps its forme, and no RUN_AT waits for it. -/
theorem State.disarm_part (s : State) (p : Part) (status : Nat) : ((s.disarm p status).part p).armed = false
    ∧ ((s.disarm p status).part p).forme = (s.part p).forme ∧ ((s.disarm p status).part p).proofUntil = none
    ∧ (s.disarm p status).runAt? p = none := by
  unfold State.disarm
  extract_lets s1 s2 s3
  have h1 : s1.parts = (s.setArmed p false).parts :=
    congrArg Prod.fst ((State.dropProv_plans _ p).trans ((s.setArmed p false).onlyTensors_endProof p).plans_eq)
  obtain ⟨hparts, hjobs⟩ := s3.switchWaiting_frame p
  have hpart : (s3.switchWaiting p).part p =
      { s.part p with armed := false, vnext := 0, coldReq := false, proofUntil := none } := by
    have h2 : s2.part p = { s1.part p with vnext := 0, coldReq := false, proofUntil := none } := s1.part_modPart p _
    have h1p : s1.part p = { s.part p with armed := false } :=
      (congrArg (fun m : AMap Part PartS => m.getD p .reset) h1).trans (s.part_setArmed p false)
    exact (congrArg (fun m : AMap Part PartS => m.getD p .reset) (hparts.trans (s2.endJobs_parts _ _ _ _))).trans
      (h2.trans (by rw [h1p]))
  rw [hpart]
  refine ⟨rfl, rfl, rfl, List.findSome?_eq_none_iff.mpr fun j hj => ?_⟩
  have hends := hjobs j hj
  rw [State.endJobs_jobs, List.mem_filter] at hends
  obtain ⟨-, hkeeps⟩ := hends
  split
  next t hkind =>
    rw [hkind] at hkeeps
    refine if_neg fun hp => ?_
    rw [hp] at hkeeps
    simp at hkeeps
  next => rfl

theorem State.part_reply (s : State) (q : Req) (status : Nat) (p : Part) : (s.reply q status).part p = s.part p :=
  congrArg (fun m : AMap Part PartS => m.getD p .reset) (s.replyAt_parts q s.now status 0 [])

theorem State.runAt?_reply (s : State) (q : Req) (status : Nat) (p : Part) : (s.reply q status).runAt? p = s.runAt? p := by
  simp only [State.runAt?, State.reply, State.replyAt_jobs]

variable (hdies : s.partDies q.part ≠ [])
include hdies

theorem State.formeDisarm_of_running (h : (s.part q.part).running = true
    ∨ (s.part q.part).armed = true ∧ s.runAt? q.part = some s.now) : s.formeDisarm q = s.reply q stFormeArmed := by
  have hruns : ((s.part q.part).running || (s.part q.part).armed && s.runAt? q.part == some s.now) = true := by
    simpa only [Bool.or_eq_true, Bool.and_eq_true, beq_iff_eq] using h
  simp only [State.formeDisarm, List.isEmpty_eq_false_iff.mpr hdies, hruns, Bool.false_eq_true, if_false, if_true]

variable (hstill : (s.part q.part).running = false)
include hstill

theorem State.formeDisarm_of_unarmed (harmed : (s.part q.part).armed = false) : s.formeDisarm q = s.reply q stNotArmed := by
  simp only [State.formeDisarm, List.isEmpty_eq_false_iff.mpr hdies, hstill, harmed, Bool.false_eq_true, if_false, Bool.or_false,
    Bool.false_and, Bool.not_false, if_true]

theorem State.formeDisarm_of_armed (harmed : (s.part q.part).armed = true) (hrun : s.runAt? q.part ≠ some s.now) :
    s.formeDisarm q = (s.disarm q.part stCancelled).reply q stOk := by
  have hlater : (s.runAt? q.part == some s.now) = false := beq_eq_false_iff_ne.mpr hrun
  simp only [State.formeDisarm, List.isEmpty_eq_false_iff.mpr hdies, hstill, harmed, hlater, Bool.false_eq_true, if_false,
    Bool.or_false, Bool.and_false, Bool.not_true]

end Disarm

/-- Settles O52: each refusal is judged in the order of FORME_LOAD, FORME_ARM and FORME_DISARM; an arm writes the partition and
CD_STEP before anything that only reaches regions and units, and a disarmed partition's jobs hold no RUN_AT. -/
theorem formesAreLoaded : Obligations.FormesAreLoaded := by
  intro s u q r f0 f tb start cold hcollects hat p un load arm disarm
  have hload : load = .next (u.formeLoad q r) := congrArg _ (State.command_of_collects hcollects hat nofun rfl)
  have harm : arm = .next (u.formeArm q start cold) := congrArg _ (State.command_of_collects hcollects hat nofun rfl)
  have hdisarm : disarm = .next (u.formeDisarm q) := congrArg _ (State.command_of_collects hcollects hat nofun rfl)
  rw [hload, harm, hdisarm]
  simp only [Host.Outcome.next.injEq]
  refine ⟨fun hempty => ⟨State.formeLoad_of_empty hempty, State.formeArm_of_empty hempty, State.formeDisarm_of_empty hempty⟩,
    fun hdies => ⟨State.formeLoad_of_armed hdies, fun hfree => ?load, State.formeArm_of_unloaded hdies, fun hforme => ?arm,
      State.formeDisarm_of_running hdies, State.formeDisarm_of_unarmed hdies, fun hstill harmed hrun => ?disarm⟩⟩
  case load =>
    refine ⟨?_, ?_, ?_, ?_, ?_, ?_⟩
    · rintro rfl; exact State.formeLoad_of_free hdies hfree
    · rintro rfl; exact State.formeLoad_of_free hdies hfree
    · rintro rfl; exact State.formeLoad_of_free hdies hfree
    · rintro rfl htables; exact State.formeLoad_of_bad_tables hdies hfree htables
    · rintro e rfl htables hcheck; exact State.formeLoad_of_checked hdies hfree htables hcheck
    · rintro rfl htables hcheck; exact State.formeLoad_of_loaded hdies hfree htables hcheck
  case arm =>
    exact ⟨State.formeArm_of_armed hdies hforme, State.formeArm_of_busy hdies hforme,
      fun harmed hpower => ⟨State.formeArm_of_untimed hdies hforme harmed hpower,
        State.formeArm_leaves hdies hforme harmed hpower⟩⟩
  case disarm =>
    obtain ⟨harmedOff, hkept, -, hnone⟩ := u.disarm_part p stCancelled
    refine ⟨_, State.formeDisarm_of_armed hdies hstill harmed hrun, ?_⟩
    rw [State.part_reply, State.runAt?_reply]
    exact ⟨harmedOff, hnone, hkept⟩

end Sys2Proof.Machine
end

section
/-!
PROOF. What reaches the slots, and its collection (14_host_and_management.md R553 to R556, R558, R572).
-/
namespace Sys2Proof.Machine

/-! ### Folds and filters over the slots -/

section Slots

variable {α β : Type}

theorem foldl_of_idle {f : α → β → α} {a : α} {l : List β} (h : ∀ b ∈ l, f a b = a) : l.foldl f a = a := by
  induction l with
  | nil => rfl
  | cons b l ih => rw [List.foldl_cons, h b List.mem_cons_self, ih fun c hc => h c (List.mem_cons_of_mem b hc)]

/-- A fold in which one slot alone does something, whatever of `P` its work keeps. -/
theorem foldl_of_single {f : α → β → α} (P : α → Prop) {i : β} {l : List β} (hl : l.Nodup) (hi : i ∈ l)
    (hidle : ∀ k, k ≠ i → ∀ a, P a → f a k = a) {a : α} (ha : P a) (hdone : P (f a i)) : l.foldl f a = f a i := by
  induction l generalizing a with
  | nil => exact absurd hi List.not_mem_nil
  | cons k l ih =>
    obtain ⟨hk, hl'⟩ := List.nodup_cons.mp hl
    rw [List.foldl_cons]
    rcases List.mem_cons.mp hi with rfl | hil
    · exact foldl_of_idle fun c hc => hidle c (fun h => hk (h ▸ hc)) _ hdone
    · have hki : k ≠ i := fun h => hk (h ▸ hil)
      rw [hidle k hki a ha]
      exact ih hl' hil ha hdone

theorem filter_of_single [DecidableEq β] {p : β → Bool} {i : β} {l : List β} (hl : l.Nodup) (hi : i ∈ l)
    (hp : ∀ k ∈ l, p k = decide (k = i)) : l.filter p = [i] := by
  rw [List.filter_congr hp, List.filter_eq, List.count_eq_one_of_mem hl hi]
  rfl

end Slots

/-! ### Host writes (R553, R558) -/

section Writes

variable {s : State} {b : List Byte} {a : Nat}

/-- A write that misses a command slot does nothing to it. -/
theorem State.slotWrite_of_apart {i : Nat} (h : a + b.length ≤ cmdSlot i ∨ cmdSlot (i + 1) ≤ a) : s.slotWrite a b i = s := by
  refine if_pos ?_
  omega

variable {i : Fin 64} {o : Nat} (hfits : o + b.length ≤ 0x2000) (hsome : 0 < b.length)
include hfits hsome

theorem State.slotWrite_within : s.slotWrite (cmdSlot i.val + o) b i.val =
    if s.slotState i.val = 2 then s.raiseBit (xreg .cmdStat) 0
    else ({ s with host := { s.host with wroteAt := s.host.wroteAt.set i.val s.elapsed } }).winWrite (cmdSlot i.val + o) b := by
  have hlo : max (cmdSlot i.val + o) (cmdSlot i.val) = cmdSlot i.val + o := Nat.max_eq_left (Nat.le_add_right ..)
  have hhi : min (cmdSlot i.val + o + b.length) (cmdSlot (i.val + 1)) = cmdSlot i.val + o + b.length := by
    refine Nat.min_eq_left ?_
    simp only [cmdSlot]
    omega
  have htaken : (b.drop (cmdSlot i.val + o - (cmdSlot i.val + o))).take (cmdSlot i.val + o + b.length - (cmdSlot i.val + o)) =
      b := by
    rw [Nat.sub_self, Nat.add_sub_cancel_left, List.drop_zero, List.take_length]
  have hnonempty : ¬ cmdSlot i.val + o + b.length ≤ cmdSlot i.val + o := by omega
  simp only [State.slotWrite, hlo, hhi, htaken, hnonempty, if_false]

/-- A write into a command slot reaches that slot alone. -/
theorem State.hostSlotWrite_command (hup : s.hostUp = true) :
    s.hostSlotWrite (cmdSlot i.val + o) b = s.slotWrite (cmdSlot i.val + o) b i.val := by
  have hwindow : ¬ bar4 ≤ cmdSlot i.val + o := by simp only [bar4, cmdSlot]; omega
  have hslots : (List.range 64).foldl (fun s k => s.slotWrite (cmdSlot i.val + o) b k) s =
      s.slotWrite (cmdSlot i.val + o) b i.val := by
    refine foldl_of_single (fun _ => True) List.nodup_range (List.mem_range.mpr i.isLt) (fun k hk t _ => ?_) trivial trivial
    refine State.slotWrite_of_apart ?_
    simp only [cmdSlot]
    omega
  have hreplies : min (cmdSlot i.val + o + b.length) (replySlot 64) ≤ max (cmdSlot i.val + o) (replySlot 0) := by
    simp only [cmdSlot, replySlot]
    omega
  simp only [State.hostSlotWrite, hup, Bool.not_true, Bool.false_eq_true, if_false, hwindow, hslots, hreplies, if_true]

/-- A write into a reply slot is applied; one that covers its RSTATE is noted with its tick (R554). -/
theorem State.hostSlotWrite_reply (hup : s.hostUp = true) : s.hostSlotWrite (replySlot i.val + o) b =
    if o < 64 ∧ 60 < o + b.length then ({ s with host := { s.host with
      wroteAt := s.host.wroteAt.set (64 + i.val) s.elapsed } }).winWrite (replySlot i.val + o) b
    else s.winWrite (replySlot i.val + o) b := by
  have hwindow : ¬ bar4 ≤ replySlot i.val + o := by simp only [bar4, replySlot]; omega
  have hslots : (List.range 64).foldl (fun s k => s.slotWrite (replySlot i.val + o) b k) s = s := by
    refine foldl_of_idle fun k hk => State.slotWrite_of_apart (.inr ?_)
    have := List.mem_range.mp hk
    simp only [cmdSlot, replySlot]
    omega
  have hlo : max (replySlot i.val + o) (replySlot 0) = replySlot i.val + o := by
    refine Nat.max_eq_left ?_
    simp only [replySlot]
    omega
  have hhi : min (replySlot i.val + o + b.length) (replySlot 64) = replySlot i.val + o + b.length := by
    refine Nat.min_eq_left ?_
    simp only [replySlot]
    omega
  have htaken : (b.drop (replySlot i.val + o - (replySlot i.val + o))).take
      (replySlot i.val + o + b.length - (replySlot i.val + o)) = b := by
    rw [Nat.sub_self, Nat.add_sub_cancel_left, List.drop_zero, List.take_length]
  have hnonempty : ¬ replySlot i.val + o + b.length ≤ replySlot i.val + o := by omega
  have htouched : (List.range 64).filter (fun k => decide (replySlot i.val + o < replySlot k + 64
      ∧ replySlot k + 60 < replySlot i.val + o + b.length)) = if o < 64 ∧ 60 < o + b.length then [i.val] else [] := by
    split
    next h =>
      refine filter_of_single List.nodup_range (List.mem_range.mpr i.isLt) fun k _ => decide_eq_decide.mpr ?_
      simp only [replySlot]
      omega
    next h =>
      refine List.filter_eq_nil_iff.mpr fun k _ htouches => h ?_
      have := of_decide_eq_true htouches
      simp only [replySlot] at this
      omega
  simp only [State.hostSlotWrite, hup, Bool.not_true, Bool.false_eq_true, if_false, hwindow, hslots, hlo, hhi, hnonempty,
    htaken, htouched]
  split <;> rfl

end Writes

/-! ### Sideband messages (R572) -/

theorem State.sidebandMessage_of_free {s : State} {eid : Byte} {b : List Byte} {j : Nat} (hup : s.sidebandUp = true)
    (hslot : s.sb.slots.findIdx? Option.isNone = some j) : s.sidebandMessage eid b =
      { s with sb := { s.sb with slots := s.sb.slots.set j (some ⟨eid, b, false⟩) } } := by
  simp only [State.sidebandMessage, hup, hslot, Bool.not_true, Bool.false_eq_true, if_false]

theorem State.sidebandMessage_of_full {s : State} {eid : Byte} {b : List Byte} (hup : s.sidebandUp = true)
    (hslot : s.sb.slots.findIdx? Option.isNone = none) : s.sidebandMessage eid b = s.raiseBit (xreg .cmdStat) 4 := by
  simp only [State.sidebandMessage, hup, hslot, Bool.not_true, Bool.false_eq_true, if_false]

/-! ### Collection (R554 to R556) -/

/-- Whether an FW_ACTIVATE comes due at the collection under way is noted. -/
def State.noteDue (s : State) (b : Bool) : State := s.modFw fun f => { f with comesDue := b }

/-- The READY slots are collected, each with the data that the host has for it. -/
def State.collectSlots (s : State) (data : List (Fin 64 × HostRead)) (ready : List (Fin 64)) : State :=
  ready.foldl (fun s i =>
    let r := ((data.find? (·.1 = i)).map (·.2)).getD (.bytes [])
    if s.slotEmpty i.val then s.collectOne (fun s => s.collectSlot i r) (.host i) else s.collectSlot i r) s

/-- The sideband slots are collected. -/
def State.collectMessages (s : State) : State :=
  (List.finRange 8).foldl (fun s j => match s.sb.slots[j.val]? with
    | some (some m) => if m.taken then s else s.collectOne (fun s => s.collectSideband j false) (.sideband j)
    | _ => s) s

section Collection

variable {s u : State} {i : Fin 64} {r : HostRead}

theorem State.collectMessages_of_empty (h : ∀ n : Nat, s.sb.slots[n]? = some none ∨ s.sb.slots[n]? = none) :
    s.collectMessages = s := by
  refine foldl_of_idle fun j _ => ?_
  rcases h j.val with hj | hj <;> rw [hj]

/-- A collection at which no command is held and no message waits. -/
theorem State.collect_of_alone {data : List (Fin 64 × HostRead)} {ready : List (Fin 64)} {t : State} (hopens : s.opens = some u)
    (hjobs : u.host.jobs = []) (hready : ((List.finRange 64).filter fun n => u.slotReady n.val) = ready)
    (hslots : (u.noteDue (u.activates ready)).collectSlots data ready = t)
    (hempty : ∀ n : Nat, t.sb.slots[n]? = some none ∨ t.sb.slots[n]? = none) : s.collect data = t.noteDue false := by
  subst hready hslots
  have hdue : s.collect data = ((u.host.jobs.foldl (fun s j => s.dueJob j) (u.noteDue (u.activates
      ((List.finRange 64).filter fun n => u.slotReady n.val)))).collectSlots data
      ((List.finRange 64).filter fun n => u.slotReady n.val)).collectMessages.noteDue false := by
    simp only [State.collect, hopens]
    rfl
  rw [hdue, hjobs, List.foldl_nil, State.collectMessages_of_empty hempty]

theorem ready_of_single (hready : u.slotReady i.val = true) (hother : ∀ n : Fin 64, n ≠ i → u.slotReady n.val = false) :
    ((List.finRange 64).filter fun n => u.slotReady n.val) = [i] := by
  refine filter_of_single (List.nodup_finRange 64) (List.mem_finRange i) fun n _ => ?_
  by_cases hn : n = i
  · rw [hn, hready, decide_eq_true rfl]
  · rw [hother n hn, decide_eq_false hn]

theorem State.collectSlots_single (s : State) : s.collectSlots [(i, r)] [i] =
    if s.slotEmpty i.val then s.collectOne (fun s => s.collectSlot i r) (.host i) else s.collectSlot i r := by
  simp only [State.collectSlots, List.foldl_cons, List.foldl_nil, List.find?_cons, decide_true, Option.map_some, Option.getD_some]

/-- A slot that is found READY is READY (R554). -/
theorem State.slotState_of_ready {n : Nat} (h : u.slotReady n = true) : u.slotState n = 1 :=
  eq_of_beq (Bool.and_eq_true_iff.mp h).1

theorem State.collectSlot_of_empty (hready : s.slotState i.val = 1) (hempty : s.slotEmpty i.val = true) :
    s.collectSlot i r = s.handle (readPacket (.host i) (s.host.window.bytes (cmdSlot i.val) 0x2000) r).1
      (readPacket (.host i) (s.host.window.bytes (cmdSlot i.val) 0x2000) r).2 := by
  simp only [State.collectSlot, hready, hempty, ne_eq, not_true_eq_false, Bool.not_true, Bool.false_eq_true, if_false]

theorem State.collectSlot_of_posted (hready : s.slotState i.val = 1) (hposted : s.slotEmpty i.val = false) :
    s.collectSlot i r = s.raiseBit (xreg .cmdStat) 1 := by
  simp only [State.collectSlot, hready, hposted, ne_eq, not_true_eq_false, Bool.not_false, if_false, if_true]

theorem State.collectOne_of_running (hwarm : s.fw.warm = none) (f : State → State) (src : Src) : s.collectOne f src = f s := by
  simp only [State.collectOne, hwarm, Option.isSome_none, Bool.false_eq_true, if_false]

end Collection

/-! ### A held command (R556) -/

theorem State.pendingDue_of_held {s u : State} {q : Req} {c : Cmd} {d k : Nat} (hopens : s.opens = some u)
    (hjobs : u.host.jobs = [⟨q, .held c d, k⟩]) : s.pendingDue q.src = u.dueJob ⟨q, .held c d, k⟩ := by
  simp only [State.pendingDue, hopens, hjobs, List.find?_cons, decide_true, Bool.true_and]

theorem State.dueJob_of_come {u : State} {q : Req} {c : Cmd} {d k : Nat} (hjobs : u.host.jobs = [⟨q, .held c d, k⟩])
    (hcome : d ≤ u.now) : u.dueJob ⟨q, .held c d, k⟩ =
      let free := { u with host := { u.host with jobs := [] } }
      (if c = .fwActivate then free else free.count (xreg .cmdCount) 1).perform q c := by
  have hahead : ¬ u.now < d := Nat.not_lt.mpr hcome
  simp only [State.dueJob, hahead, if_false, hjobs, List.filter_cons, List.filter_nil, ne_eq, not_true_eq_false, decide_false,
    Bool.false_eq_true, beq_iff_eq]

theorem State.dueJob_of_ahead {u : State} {q : Req} {c : Cmd} {d k : Nat} (hahead : u.now < d) :
    u.dueJob ⟨q, .held c d, k⟩ = u := if_pos hahead

/-! ### The sideband in Standby and Latched (R572, R573) -/

section Low

variable {s t : State} {q : Req} {c : Cmd} {j : Fin 8}

/-- The other slots of the sideband. -/
def State.sameBut (s t : State) (j : Fin 8) : Prop := ∀ n : Fin 8, n ≠ j → t.sb.slots[n.val]? = s.sb.slots[n.val]?

theorem State.collectFree_of_single {m : SbMsg} (hlow : s.lowPower = true) (hup : s.sidebandUp = true)
    (hstage : s.power.stage ≠ .loader) (hm : s.sb.slots[j.val]? = some (some m)) (htaken : m.taken = false)
    (hother : ∀ n : Fin 8, n ≠ j → s.sb.slots[n.val]? = some none)
    (hdone : s.sameBut (s.handleLow (readPacket (.sideband j) m.bytes (.bytes [])).1
      (readPacket (.sideband j) m.bytes (.bytes [])).2) j) :
    s.collectFree = s.handleLow (readPacket (.sideband j) m.bytes (.bytes [])).1
      (readPacket (.sideband j) m.bytes (.bytes [])).2 := by
  have hone : s.collectSideband j true = s.handleLow (readPacket (.sideband j) m.bytes (.bytes [])).1
      (readPacket (.sideband j) m.bytes (.bytes [])).2 := by
    simp only [State.collectSideband, hm, htaken, Bool.false_eq_true, if_false, if_true]
  have hloader : (s.power.stage == .loader) = false := beq_eq_false_iff_ne.mpr hstage
  simp only [State.collectFree, hlow, hup, hloader, Bool.not_true, Bool.or_false, Bool.false_eq_true, if_false]
  rw [← hone] at hdone ⊢
  refine foldl_of_single (fun t => ∀ n : Fin 8, n ≠ j → t.sb.slots[n.val]? = some none) (List.nodup_finRange 8)
    (List.mem_finRange j) (fun n hn t ht => ?_) hother fun n hn => (hdone n hn).trans (hother n hn)
  simp only [State.collectSideband, ht n hn]

section Heard

variable (hside : (c.onSideband q.op && c.sidebandOk) = true) (hwell : ∀ n, c ≠ .bad n)
include hside hwell

theorem State.handleLow_of_heard : s.handleLow q c =
    if (q.at_.isSome || c.timed) = true then (s.taken q).turnAway q c stTimeState
    else if c.anywhere ((s.taken q).power.mode == .latched) = true then (s.taken q).perform q c
    else (s.taken q).turnAway q c stBusy := by
  have hheld : ¬ (!(c.onSideband q.op && c.sidebandOk)) = true := by rw [hside]; exact Bool.false_ne_true
  refine (if_neg hheld).trans ?_
  split
  next st => exact absurd rfl (hwell st)
  next => rfl

theorem State.handleLow_of_timed (htime : q.at_.isSome = true ∨ c.timed = true) :
    s.handleLow q c = (s.taken q).turnAway q c stTimeState := by
  rw [State.handleLow_of_heard hside hwell]
  exact if_pos (Bool.or_eq_true_iff.mpr htime)

theorem State.handleLow_of_untimed (hat : q.at_ = none) (huntimed : c.timed = false) : s.handleLow q c =
    if c.anywhere ((s.taken q).power.mode == .latched) = true then (s.taken q).perform q c
    else (s.taken q).turnAway q c stBusy := by
  rw [State.handleLow_of_heard hside hwell, hat, huntimed]
  rfl

end Heard

theorem State.taken_power (s : State) (q : Req) : (s.taken q).power = s.power := by
  unfold State.taken State.take
  split <;> rfl

/-! ### The other slots of the sideband -/

theorem State.sameBut.trans {u : State} (h : s.sameBut t j) (k : t.sameBut u j) : s.sameBut u j := fun n hn =>
  (k n hn).trans (h n hn)

theorem State.sameBut.of_sb (h : t.sb = s.sb) : s.sameBut t j := fun n _ => by rw [h]

theorem State.drawChallenge_sb (s : State) : s.drawChallenge.sb = s.sb :=
  foldl_keep State.sb _ (fun _ _ => by rfl) _ _

section Asked

variable (hsrc : q.src = .sideband j)
include hsrc

theorem State.sameBut_reply (s : State) (status detail : Nat) (b : List Byte) : s.sameBut (s.reply q status detail b) j := by
  intro n hn
  simp only [State.reply, State.replyAt, hsrc]
  exact List.getElem?_set_ne (Fin.val_ne_of_ne (Ne.symm hn))

/-- What is answered after a change that is none of the sideband's. -/
theorem State.sameBut_reply_of_sb (h : t.sb = s.sb) (status detail : Nat) (b : List Byte) :
    s.sameBut (t.reply q status detail b) j := .trans (.of_sb h) (State.sameBut_reply hsrc t status detail b)

theorem State.sameBut_taken (s : State) : s.sameBut (s.taken q) j := by
  intro n hn
  have htake : s.take q.src = { s with sb := { s.sb with slots := match s.sb.slots[j.val]? with
      | some (some m) => s.sb.slots.set j.val (some { m with taken := true })
      | _ => s.sb.slots } } := by rw [hsrc]; rfl
  show (s.take q.src).sb.slots[n.val]? = _
  rw [htake]
  dsimp only
  split
  · exact List.getElem?_set_ne (Fin.val_ne_of_ne (Ne.symm hn))
  · rfl

theorem State.sameBut_turnAway (s : State) (c : Cmd) (st : Nat) : s.sameBut (s.turnAway q c st) j := by
  unfold State.turnAway
  split
  · exact State.sameBut_reply_of_sb hsrc s.drawChallenge_sb _ _ _
  · split
    · exact State.sameBut_reply_of_sb hsrc s.drawChallenge_sb _ _ _
    · exact State.sameBut_reply hsrc s _ _ _
  · exact State.sameBut_reply hsrc s _ _ _

/-- The commands that need no powered block answer their own slot. -/
theorem State.sameBut_perform (s : State) {c : Cmd} {latched : Bool} (hany : c.anywhere latched = true) :
    s.sameBut (s.perform q c) j := by
  have hreply := State.sameBut_reply hsrc s
  cases c
  case telemetryRead sel i n h =>
    simp only [State.perform, State.telemetryRead]
    split
    · exact hreply _ _ _
    · split
      · exact hreply _ _ _
      · split
        · exact .of_sb rfl
        · exact hreply _ _ _
  case energyRead => exact hreply _ _ _
  case attest n m =>
    simp only [State.perform, State.attest]
    split
    · exact hreply _ _ _
    · exact State.sameBut_reply_of_sb hsrc rfl _ _ _
  case settingsGet k =>
    simp only [State.perform, State.settingsGet]
    split
    · exact hreply _ _ _
    · exact hreply _ _ _
  case settingsSet k v =>
    simp only [State.perform, State.settingsSet]
    split
    · exact hreply _ _ _
    · split
      · exact State.sameBut_reply_of_sb hsrc (t := { s with fw := _ }) rfl _ _ _
      · exact State.sameBut_reply_of_sb hsrc rfl _ _ _
  all_goals exact absurd hany Bool.false_ne_true

end Asked

end Low

/-- Settles O57: a write reaches the one slot that its bytes lie in; at a collection the one slot that waits is handled on the state
in which the collection began, and the sideband's one message where Hall Time does not run. -/
theorem commandsAreCollected : Obligations.CommandsAreCollected := by
  refine ⟨?writes, ?collection⟩
  case writes =>
    intro s i o b eid j hfits hsome
    refine ⟨fun hup htaken => ?taken, fun hup hfree => ?free, fun hup => ⟨fun hapart => ?plain, fun hlow hhigh => ?rstate⟩,
      fun hup hslot => ?takes, fun hup hslot => ?full⟩
    case taken =>
      exact congrArg _ ((State.hostSlotWrite_command hfits hsome hup).trans
        ((State.slotWrite_within hfits hsome).trans (if_pos htaken)))
    case free =>
      exact congrArg _ ((State.hostSlotWrite_command hfits hsome hup).trans
        ((State.slotWrite_within hfits hsome).trans (if_neg hfree)))
    case plain =>
      exact congrArg _ ((State.hostSlotWrite_reply hfits hsome hup).trans (if_neg (by omega)))
    case rstate => exact congrArg _ ((State.hostSlotWrite_reply hfits hsome hup).trans (if_pos ⟨hlow, hhigh⟩))
    case takes => exact congrArg _ (State.sidebandMessage_of_free hup hslot)
    case full => exact congrArg _ (State.sidebandMessage_of_full hup hslot)
  case collection =>
    intro s u i j m r c q d k p e alone note v
    refine ⟨fun hopens halone hready => ⟨fun hempty hwarm hsb => ?handled, fun hposted => ?posted⟩,
      fun hopens halone hready => ?none, fun hopens hjobs => ⟨fun hcome => ?come, fun hahead => ?ahead⟩,
      fun hlow hup hstage htaken hm hother hside hwell => ⟨fun htime => ?timed, fun hat huntimed hany => ?performed,
        fun hat huntimed hany => ?busy⟩⟩
    case handled =>
      obtain ⟨hnone, hjobs, hothers⟩ := halone
      have hslots : v.collectSlots [(i, r)] [i] = v.handle p.1 p.2 :=
        (v.collectSlots_single.trans (if_pos hempty)).trans ((State.collectOne_of_running (s := v) hwarm _ _).trans
          (State.collectSlot_of_empty (s := v) (State.slotState_of_ready hready) hempty))
      exact congrArg _ (State.collect_of_alone hopens hjobs (ready_of_single hready hothers) hslots (by rwa [hsb]))
    case posted =>
      obtain ⟨hnone, hjobs, hothers⟩ := halone
      have hslots : v.collectSlots [(i, r)] [i] = v.raiseBit (xreg .cmdStat) 1 :=
        (v.collectSlots_single.trans (if_neg (Bool.eq_false_iff.mp hposted))).trans
          (State.collectSlot_of_posted (s := v) (State.slotState_of_ready hready) hposted)
      have hsb : (v.raiseBit (xreg .cmdStat) 1).sb = u.sb := congrArg (fun x => x.2.2.2) (v.plans_raiseBit (xreg .cmdStat) 1 _ _)
      exact congrArg _ (State.collect_of_alone hopens hjobs (ready_of_single hready hothers) hslots (by rwa [hsb]))
    case none =>
      obtain ⟨hnone, hjobs, hothers⟩ := halone
      have hidle : ((List.finRange 64).filter fun n => u.slotReady n.val) = [] := by
        refine List.filter_eq_nil_iff.mpr fun n _ => ?_
        by_cases hn : n = i
        · rw [hn, hready]; exact Bool.false_ne_true
        · rw [hothers n hn]; exact Bool.false_ne_true
      exact congrArg _ (State.collect_of_alone hopens hjobs hidle rfl hnone)
    case come => exact congrArg _ ((State.pendingDue_of_held hopens hjobs).trans (State.dueJob_of_come hjobs hcome))
    case ahead => exact congrArg _ ((State.pendingDue_of_held hopens hjobs).trans (State.dueJob_of_ahead hahead))
    case timed =>
      have hdone := State.handleLow_of_timed (s := s) hside hwell htime
      refine congrArg _ ((State.collectFree_of_single hlow hup hstage hm htaken hother ?_).trans hdone)
      rw [hdone]
      exact (State.sameBut_taken rfl s).trans (State.sameBut_turnAway rfl _ _ _)
    case performed =>
      have hdone := (State.handleLow_of_untimed (s := s) hside hwell hat huntimed).trans
        (if_pos ((congrArg (fun x : PowerS => e.2.anywhere (x.mode == .latched)) (s.taken_power e.1)).trans hany))
      refine congrArg _ ((State.collectFree_of_single hlow hup hstage hm htaken hother ?_).trans hdone)
      rw [hdone]
      exact (State.sameBut_taken rfl s).trans (State.sameBut_perform rfl _ hany)
    case busy =>
      have hdone := (State.handleLow_of_untimed (s := s) hside hwell hat huntimed).trans
        (if_neg (Bool.eq_false_iff.mp
          ((congrArg (fun x : PowerS => e.2.anywhere (x.mode == .latched)) (s.taken_power e.1)).trans hany)))
      refine congrArg _ ((State.collectFree_of_single hlow hup hstage hm htaken hother ?_).trans hdone)
      rw [hdone]
      exact (State.sameBut_taken rfl s).trans (State.sameBut_turnAway rfl _ _ _)

end Sys2Proof.Machine
end

section
/-!
PROOF. SPDM, MCTP control, direct register transfers and DOE discovery (14_host_and_management.md R547, R571;
17_security_states.md R647, R655).
-/
namespace Sys2Proof.Machine

/-! ### SPDM (R655) -/

theorem length_padTo (n : Nat) (b : List Byte) : (padTo n b).length = n := by
  simp only [padTo, List.length_take, List.length_append, List.length_replicate]
  omega

section Spdm

variable {s : State} {doe : Bool} {n : Nat} {f : State → State}

/-- A request whose turn in the negotiation has come. -/
theorem State.spdmAfter_of_ready (hup : s.spdmUp doe = true) (h : n ≤ s.spdmPhase doe) : s.spdmAfter doe n f = f s := by
  simp only [State.spdmAfter, hup, Nat.not_lt.mpr h, Bool.not_true, Bool.false_eq_true, if_false]

theorem State.spdmAfter_of_early (hup : s.spdmUp doe = true) (h : s.spdmPhase doe < n) :
    s.spdmAfter doe n f = s.spdmError doe spdmUnexpected := by
  simp only [State.spdmAfter, hup, h, Bool.not_true, Bool.false_eq_true, if_false, if_true]

variable {body nonce : List Byte} {code : Byte}

theorem State.spdmSigned_of_gone (h : s.canSign = false) : s.spdmSigned doe code body nonce = s.spdmError doe spdmUnspecified := by
  simp only [State.spdmSigned, h, Bool.not_false, if_true]

/-- A signature is 132 bytes after the body, and draws a free value (log 13). -/
theorem State.spdmSigned_of_signs (h : s.canSign = true) : ∃ sig, sig.length = 132
    ∧ s.spdmSigned doe code body nonce = { s with free := s.free + 1 }.spdmOut (.spdm doe code (body ++ sig)) := by
  refine ⟨_, length_padTo 132 (Config.signature s.free (Config.sha512 (body ++ padTo 32 nonce))), ?_⟩
  simp only [State.spdmSigned, h, Bool.not_true, Bool.false_eq_true, if_false]

variable (hup : s.spdmUp doe = true) (hphase : 3 ≤ s.spdmPhase doe)
include hup hphase

theorem State.getCertificate_of_other {slot : Nat} (hslot : slot ≠ 0) (offset length : Nat) :
    s.getCertificate doe slot offset length = s.spdmError doe spdmInvalid :=
  (State.spdmAfter_of_ready hup hphase).trans (if_pos (.inl hslot))

theorem State.getCertificate_of_first {offset : Nat} (h : offset < Config.certChain.length) (length : Nat) :
    s.getCertificate doe 0 offset length =
      let b := (Config.certChain.drop offset).take length
      s.spdmOut (.spdm doe 0x02 (natLe 1 0 ++ natLe 2 b.length ++ natLe 2 (Config.certChain.length - offset - b.length) ++ b)) := by
  refine (State.spdmAfter_of_ready hup hphase).trans (if_neg ?_)
  rintro (h0 | hbeyond)
  · exact h0 rfl
  · exact absurd h (Nat.not_lt.mpr hbeyond)

theorem State.challenge_of_first : s.challenge doe 0 nonce =
    s.spdmSigned doe 0x03 (natLe 1 0 ++ padTo 64 (Config.sha512 Config.certChain)) nonce :=
  (State.spdmAfter_of_ready hup hphase).trans (if_neg fun h => h rfl)

theorem State.challenge_of_other {slot : Nat} (hslot : slot ≠ 0) : s.challenge doe slot nonce = s.spdmError doe spdmInvalid :=
  (State.spdmAfter_of_ready hup hphase).trans (if_pos hslot)

/-- The request for one measurement block. -/
theorem State.getMeasurements_of_block {i : Nat} (h : i < 12) (signed : Bool) :
    s.getMeasurements doe (i + 1) signed nonce =
      let b := natLe 1 1 ++ (natLe 1 (i + 1) ++ s.measurement i)
      if signed then s.spdmSigned doe 0x60 b nonce else s.spdmOut (.spdm doe 0x60 b) := by
  have hall : i + 1 ≠ 255 := by omega
  have hblock : i + 1 ≤ 12 := h
  refine (State.spdmAfter_of_ready hup hphase).trans ?_
  simp only [Nat.succ_ne_zero, hall, hblock, if_false, if_true, Nat.add_sub_cancel, List.flatMap_cons, List.flatMap_nil,
    List.append_nil]

theorem State.getMeasurements_of_none {i : Nat} (h : 12 < i) (hall : i ≠ 255) (signed : Bool) :
    s.getMeasurements doe i signed nonce = s.spdmError doe spdmInvalid := by
  have hsome : i ≠ 0 := by omega
  have hblock : ¬ i ≤ 12 := Nat.not_le.mpr h
  refine (State.spdmAfter_of_ready hup hphase).trans ?_
  simp only [hsome, hall, hblock, if_false]

end Spdm

/-! ### Below the commands (R547, R571, R647) -/

section Private

variable {s : State}

theorem State.mctpControl_of_up (hup : s.sidebandUp = true) (m : MctpReq) : s.mctpControl m = match m with
    | .setEid e => { s with sb := { s.sb with eid := e } }.spdmOut (.control 1 [0, 0, e, 0])
    | .getEid => s.spdmOut (.control 2 [0, s.sb.eid, 0, 0])
    | .other c =>
      if c = 4 then s.spdmOut (.control 4 [0, 1, 0xF1, 0xF3, 0xF1, 0])
      else if c = 5 then s.spdmOut (.control 5 [0, 2, 0x05, 0x7F])
      else s.spdmOut (.control c [5]) := by
  simp only [State.mctpControl, hup, Bool.not_true, Bool.false_eq_true, if_false] <;> rfl

theorem State.privateWrite_of_up (hup : s.sidebandUp = true) (o : Nat) (data : Option Word) : s.privateWrite o data =
    let t := { s with sb := { s.sb with offset := o } }
    match data with
    | some v => t.busWrite .sideband o true v
    | none => t := by
  simp only [State.privateWrite, hup, Bool.not_true, Bool.false_eq_true, if_false] <;> rfl

theorem State.privateWrite_of_down (hdown : s.sidebandUp = false) (o : Nat) (data : Option Word) : s.privateWrite o data = s := by
  simp only [State.privateWrite, hdown, Bool.not_false, if_true]

theorem State.privateRead_of_up (hup : s.sidebandUp = true) :
    s.privateRead = (s.busRead .sideband s.sb.offset).spdmOut (.word (s.busRead .sideband s.sb.offset).busOut) := by
  simp only [State.privateRead, hup, Bool.not_true, Bool.false_eq_true, if_false]

theorem State.privateRead_of_down (hdown : s.sidebandUp = false) : s.privateRead = s := by
  simp only [State.privateRead, hdown, Bool.not_false, if_true]

theorem State.doeDiscovery_of_on (hon : s.power.mode = .on) (index : Byte) : s.doeDiscovery index =
    if index = 0 then s.spdmOut (.doe 1 0 1) else if index = 1 then s.spdmOut (.doe 1 1 0) else s.spdmOut (.doe 0xFFFF 0 0) :=
  if_neg fun h => h hon

end Private

/-- Settles O59: each SPDM request is answered once the negotiation has come as far as it needs, and each transfer below the commands
where the sideband is up. -/
theorem sidebandAnswers : Obligations.SidebandAnswers := by
  refine ⟨?spdm, ?below⟩
  case spdm =>
    intro s doe p521 sha512 nonce i hup prints err digest
    have hready : ∀ {n : Nat} (f : State → State), n ≤ s.spdmPhase doe → s.spdmAfter doe n f = f s := fun _ h =>
      State.spdmAfter_of_ready hup h
    have hearly : ∀ (f : State → State), s.spdmPhase doe < 3 → s.spdmAfter doe 3 f = s.spdmError doe spdmUnexpected :=
      fun _ h => State.spdmAfter_of_early hup h
    refine ⟨congrArg _ (hready _ (Nat.zero_le _)), fun h => congrArg _ (hready _ h),
      fun h => congrArg Host.Outcome.next (State.spdmAfter_of_early hup (n := 1) (by omega)),
      fun h => ⟨_, congrArg _ (hready _ h)⟩, fun h => ⟨congrArg _ (hearly _ h), congrArg _ (hearly _ h)⟩, fun h => ?negotiated⟩
    case negotiated =>
      refine ⟨congrArg _ (hready _ h), fun hi => ⟨congrArg _ (State.getCertificate_of_other hup h hi 0 64),
        congrArg _ (State.challenge_of_other hup h hi)⟩, fun o n ho => congrArg _ (State.getCertificate_of_first hup h ho n),
        fun hsigns => ?_, fun hgone => ⟨congrArg Host.Outcome.next ?_, congrArg Host.Outcome.next ?_⟩,
        fun hi => congrArg _ (State.getMeasurements_of_block hup h hi false),
        fun hi hall => congrArg _ (State.getMeasurements_of_none hup h hi hall false)⟩
      · obtain ⟨sig, hlen, hsig⟩ := State.spdmSigned_of_signs (doe := doe) (code := 0x03) (body := natLe 1 0 ++ digest)
          (nonce := nonce) hsigns
        exact ⟨sig, hlen, congrArg _ ((State.challenge_of_first hup h).trans hsig)⟩
      · exact (State.challenge_of_first hup h).trans (State.spdmSigned_of_gone hgone)
      · exact (State.getMeasurements_of_block (i := 0) hup h (by decide) true).trans (State.spdmSigned_of_gone hgone)
  case below =>
    intro s a e c o v at_ out
    refine ⟨fun hsupply => congrArg _ (if_neg hsupply), fun hon => ⟨congrArg _ (State.doeDiscovery_of_on hon 0),
      congrArg _ (State.doeDiscovery_of_on hon 1)⟩, fun hup => ?_, fun hdown => ⟨congrArg _ (State.privateRead_of_down hdown),
      congrArg _ (State.privateWrite_of_down hdown o _)⟩⟩
    refine ⟨congrArg _ (State.mctpControl_of_up hup _), congrArg _ (State.mctpControl_of_up hup _),
      fun h4 h5 => congrArg Host.Outcome.next ?_,
      congrArg _ (State.privateWrite_of_up hup o none), congrArg _ (State.privateWrite_of_up hup o (some v)), ?_⟩
    · exact (State.mctpControl_of_up hup _).trans ((if_neg h4).trans (if_neg h5))
    · exact ⟨_, rfl, congrArg _ (State.privateRead_of_up hup)⟩

end Sys2Proof.Machine
end

section
/-!
PROOF. Register writes (15_registers.md R579, R581, R592; 17_security_states.md R647 to R649).
-/
namespace Sys2Proof.Machine

/-! ### A write at an address (R581, R592, R649) -/

section Writes

variable {s : State} {who : Requester} {a : Nat} {v : Word} {r : Reg}

/-- A write under a latched quoin is dropped and noted (R592). -/
theorem State.judgedWrite_of_latched (hquoin : r.name.info.wq ≠ 0) (hset : s.rdBit (xreg .secQuoin) r.name.info.quoin = true) :
    s.judgedWrite who r v = s.refused who r.addr 2 := if_pos ⟨hquoin, hset⟩

theorem State.judgedWrite_of_open (h : r.name.info.wq = 0 ∨ s.rdBit (xreg .secQuoin) r.name.info.quoin = false) :
    s.judgedWrite who r v = s.ownWrite who r v := by
  refine if_neg ?_
  rintro ⟨hquoin, hset⟩
  rcases h with h | h
  · exact hquoin h
  · exact Bool.false_ne_true (h.symm.trans hset)

variable (hbus : s.busDead who = false)
include hbus

theorem State.busWrite_of_denied (hdenied : s.allows who a true = false) (whole : Bool) :
    s.busWrite who a whole v = s.refused who a 0 := by
  simp only [State.busWrite, hbus, hdenied, Bool.false_eq_true, Bool.not_false, if_false, if_true]

variable (hallowed : s.allows who a true = true)
include hallowed

theorem State.busWrite_of_partial : s.busWrite who a false v = (s.noteDebug who true).refused who a 1 := by
  simp only [State.busWrite, hbus, hallowed, Bool.false_eq_true, Bool.not_true, Bool.not_false, if_false, if_true]

theorem State.busWrite_of_unmapped (hreg : regAt (a / 4 * 4) = none) :
    s.busWrite who a true v = (s.noteDebug who true).refused who a 0 := by
  simp only [State.busWrite, hbus, hallowed, hreg, Bool.false_eq_true, Bool.not_true, if_false]

theorem State.busWrite_of_mapped (hreg : regAt (a / 4 * 4) = some r) (hwords : hostWords r = true) :
    s.busWrite who a true v = (s.noteDebug who true).judgedWrite who r v := by
  simp only [State.busWrite, hbus, hallowed, hreg, hwords, Bool.true_or, Bool.false_eq_true, Bool.not_true, if_false, if_true]

end Writes

/-! ### A register without write rules of its own (R579) -/

/-- The families whose writes the statement names, none of which has write rules of its own. -/
def plainFamilies : List RegName :=
  [.cdReact, .htSetHi, .cdStep, .cdPageALo, .cdRedCfg, .hbmTiming, .tgBase, .tgSeed, .secFuseData]

theorem State.ownWrite_of_plain {r : Reg} (h : r.name ∈ plainFamilies) (s : State) (who : Requester) (v : Word) :
    s.ownWrite who r v = s.storeReg r v := by
  simp only [plainFamilies, List.mem_cons, List.not_mem_nil, or_false] at h
  rcases h with h | h | h | h | h | h | h | h | h <;> simp only [State.ownWrite, h]

/-- The written value stands in the writable bits, the others are kept, and so is every other register. -/
theorem State.storeReg_leaves (s : State) (r : Reg) (v : Word) :
    (s.storeReg r v).rd r = (v &&& (r.name.info.rw ||| r.name.info.wq)) ||| (s.rd r &&& ~~~(r.name.info.rw ||| r.name.info.wq))
      ∧ s.storeReg r v = { s with regs := (s.storeReg r v).regs } ∧ ∀ q, q ≠ r → (s.storeReg r v).rd q = s.rd q :=
  ⟨s.rd_wr r _, rfl, fun _ hq => State.rd_modReg_ne s hq _⟩

/-- Settles O44: the checks of a write in their order, and what storing a value leaves. -/
theorem registerWrites : Obligations.RegisterWrites := by
  refine ⟨?judged, ?plain⟩
  case judged =>
    intro s who a v r hbus w s1
    exact ⟨fun hdenied => congrArg _ (State.busWrite_of_denied hbus hdenied true),
      fun hallowed => congrArg _ (State.busWrite_of_partial hbus hallowed),
      fun hallowed hreg => congrArg _ (State.busWrite_of_unmapped hbus hallowed hreg),
      fun hallowed hreg hwords => ⟨fun hquoin hset => congrArg _
          ((State.busWrite_of_mapped hbus hallowed hreg hwords).trans (State.judgedWrite_of_latched hquoin hset)),
        fun hopen => congrArg _
          ((State.busWrite_of_mapped hbus hallowed hreg hwords).trans (State.judgedWrite_of_open hopen))⟩⟩
  case plain =>
    intro s who r v hplain m t
    have ht : t = s.storeReg r v := State.ownWrite_of_plain hplain s who v
    rw [ht]
    exact s.storeReg_leaves r v

end Sys2Proof.Machine
end

section
/-!
PROOF. Droop, die temperatures, domains and the input level (13_power_and_thermal.md R513 to R535).
-/
namespace Sys2Proof.Machine

section Guards

variable {s : State} {r : RegionId}

/-! ### Droop (R523, R524) -/

theorem State.droopTrip_of_idle_edge (after : Fin 3) (hd : (s.region r).droop = none) (hi : (s.region r).droopIn = none)
    (he : s.edgeNow r = true) :
    s.droopTrip r after = s.modRegion r fun x => { x with droopIn := some (after.val + 1) } := by
  simp [State.droopTrip, hd, hi, he]

theorem State.droopTrip_of_idle_between (after : Fin 3) (hd : (s.region r).droop = none) (hi : (s.region r).droopIn = none)
    (he : s.edgeNow r = false) :
    s.droopTrip r after = if after.val = 0 then s.droopStart r
      else s.modRegion r fun x => { x with droopIn := some after.val } := by
  simp [State.droopTrip, hd, hi, he]

theorem State.droopTrip_of_tripped (after : Fin 3) (hd : (s.region r).droop = none) (hi : (s.region r).droopIn ≠ none) :
    s.droopTrip r after = s := by
  simp [State.droopTrip, hd, Option.isSome_iff_ne_none, hi]

theorem State.droopTrip_of_suppressed {n : Nat} (after : Fin 3) (hd : (s.region r).droop = some n) :
    s.droopTrip r after = s.modRegion r fun x => { x with droop := some 0, droopBad := s.edgeNow r } := by
  simp [State.droopTrip, hd]

theorem State.droopRelease_of_some {n : Nat} (hd : (s.region r).droop = some n) :
    s.droopRelease r = s.modRegion r fun x =>
      if 8 ≤ n then { x with droop := none, suppressed := capCycle x.q x.cm x.cyc } else x := by
  simp [State.droopRelease, State.modRegion, hd]

/-! ### Die temperatures (R532, R535) -/

/-- What a reading of `t` degrees latches, with a cap `q` and band `band` (R532). -/
def State.tjLatched (s : State) (d : Die) (t q band : Nat) : State :=
  let s1 := { s with power := { s.power with qTemp := s.power.qTemp.set d.val q } }
  (((s1.wrFld (dreg .pwrTj d) 7 0 t).wrFld (dreg .pwrTj d) 15 8 (max (s.rdFld (dreg .pwrTj d) 15 8) t)).wrFld (dreg .pwrTj d)
    24 16 (q / 32)).wrFld (dreg .pwrTj d) 27 26 band

/-- The die's own cap and its band after a reading of `t` degrees (R532). -/
def tjMove (t q band cm : Nat) : Nat × Nat :=
  if t ≤ 90 then (q - 32, if 0 < q - 32 then 1 else 0)
  else if t = 91 then (q, band)
  else if t ≤ 94 then (min (q + 128) cm, 1)
  else if t ≤ 99 then (cm, 2)
  else (q, 3)

/-- What the die raises for a reading of `t` degrees: warm, hot, fenced (R535). -/
def State.tjRaised (s : State) (d : Die) (t band : Nat) : State :=
  if 99 < t then (s.raiseAll 16 [⟨dreg .pwrDieStat d, 2, false, false, 0, some 5⟩]).fence (·.fenceDie d)
  else if 94 < t then s.raiseBit (dreg .pwrDieStat d) 1
  else if 91 < t ∧ band ≠ 1 then s.raiseBit (dreg .pwrDieStat d) 0
  else s

theorem foldl_max_map_some (ts : List Nat) (m : Nat) :
    (ts.map some).foldl (fun m x => max m (x.getD 100)) m = ts.foldl max m := by
  rw [List.foldl_map]; rfl

/-- A die whose sensors all have a reading, at the tick of the readings (R532). -/
theorem State.dieTemp_of_due (d : Die) (ts : List Nat) (ht : s.tickIn = 12288) :
    let t := ts.foldl max 0
    let band := s.rdFld (dreg .pwrTj d) 27 26
    let move := tjMove t ((s.power.qTemp[d.val]?).getD 0) band (s.cm ⟨d, 0⟩)
    s.dieTemp d (ts.map some) = (s.tjLatched d t move.1 move.2).tjRaised d t band := by
  have hall : (ts.map some).any Option.isNone = false := by simp
  unfold State.dieTemp
  rw [if_neg (not_not_intro ht), foldl_max_map_some, hall]
  rfl

section Bands

variable {t q band cm : Nat} {d : Die}

theorem tjMove_of_cool (h : t ≤ 90) : tjMove t q band cm = (q - 32, if 0 < q - 32 then 1 else 0) := if_pos h

theorem tjMove_of_level (h : t = 91) : tjMove t q band cm = (q, band) := by
  subst h; rfl

theorem tjMove_of_warm (hlo : 92 ≤ t) (hhi : t ≤ 94) : tjMove t q band cm = (min (q + 128) cm, 1) := by
  rw [tjMove, if_neg (by omega), if_neg (by omega), if_pos hhi]

theorem tjMove_of_hot (hlo : 95 ≤ t) (hhi : t ≤ 99) : tjMove t q band cm = (cm, 2) := by
  rw [tjMove, if_neg (by omega), if_neg (by omega), if_neg (by omega), if_pos hhi]

theorem tjMove_of_over (h : 100 ≤ t) : tjMove t q band cm = (q, 3) := by
  rw [tjMove, if_neg (by omega), if_neg (by omega), if_neg (by omega), if_neg (by omega)]

theorem State.tjRaised_of_cool (h : t ≤ 91) : s.tjRaised d t band = s := by
  rw [State.tjRaised, if_neg (by omega), if_neg (by omega), if_neg (by omega)]

theorem State.tjRaised_of_warm (hlo : 92 ≤ t) (hhi : t ≤ 94) :
    s.tjRaised d t band = if band ≠ 1 then s.raiseBit (dreg .pwrDieStat d) 0 else s := by
  rw [State.tjRaised, if_neg (by omega), if_neg (by omega)]
  exact if_congr (and_iff_right (by omega)) rfl rfl

theorem State.tjRaised_of_hot (hlo : 95 ≤ t) (hhi : t ≤ 99) : s.tjRaised d t band = s.raiseBit (dreg .pwrDieStat d) 1 := by
  rw [State.tjRaised, if_neg (by omega), if_pos (by omega)]

theorem State.tjRaised_of_over (h : 100 ≤ t) : s.tjRaised d t band =
    (s.raiseAll 16 [⟨dreg .pwrDieStat d, 2, false, false, 0, some 5⟩]).fence (·.fenceDie d) := if_pos h

end Bands

/-! ### Domains and the input (R513, R518) -/

theorem State.regionOn_of_due (hw : s.domainWanted r = true) (hp : s.powered = true) (hd : (s.region r).onDue.isSome = true) :
    s.regionOn r = ((s.wrBit (rreg .pwrRegionStat r) 4 true).modRegion r fun x =>
      { x with onDue := none, gear := s.gearFor r }).setRail r (s.gearFor r) := if_pos ⟨hw, hp, hd⟩

theorem State.regionOn_of_unwanted (h : s.domainWanted r = false ∨ s.powered = false ∨ (s.region r).onDue = none) :
    s.regionOn r = s := by
  refine if_neg ?_
  rintro ⟨hw, hp, hd⟩
  rcases h with h | h | h
  · simp [h] at hw
  · simp [h] at hp
  · simp [h] at hd

/-- The state with the input at `v`, in 10 mV. -/
def State.inputAt (s : State) (v : Nat) : State := { s with power := { s.power with vin := v } }

section Input

variable {v : Nat}

theorem State.inputLevel_of_low (hm : s.power.mode ≠ .off) (hlo : 6400 ≤ v) (hhi : v < 6840) :
    s.inputLevel v = (s.inputAt v).raiseBit (xreg .pwrStatus) 8 :=
  (if_neg hm).trans (if_pos ⟨hlo, hhi⟩)

theorem State.inputLevel_of_high (hm : s.power.mode ≠ .off) (hlo : 7560 < v) (hhi : v < 8000) :
    s.inputLevel v = (s.inputAt v).raiseBit (xreg .pwrStatus) 9 :=
  ((if_neg hm).trans (if_neg (by simp; omega))).trans (if_pos ⟨hlo, hhi⟩)

theorem State.inputLevel_of_quiet (h : s.power.mode = .off ∨ v < 6400 ∨ (6840 ≤ v ∧ v ≤ 7560) ∨ 8000 ≤ v) :
    s.inputLevel v = s.inputAt v := by
  by_cases hm : s.power.mode = .off
  · exact if_pos hm
  · have hv := h.resolve_left hm
    exact ((if_neg hm).trans (if_neg (by simp; omega))).trans (if_neg (by simp; omega))

end Input

/-! ### Link dies (R498, R535) -/

theorem State.suspect_fen (s : State) (p : Part) (d : Die) : (s.suspect p d).fen = s.fen := rfl

theorem State.lds_fenceLd (s : State) (k : LinkDie) : (s.fenceLd k).fen.lds.contains k = true := by
  unfold State.fenceLd
  split
  · assumption
  · have hfold : ∀ (ps : List Part) (t : State), (ps.foldl (fun s p => s.suspect p (s.firstDie p)) t).fen = t.fen := by
      intro ps
      induction ps with
      | nil => exact fun t => rfl
      | cons p ps ih => exact fun t => (ih _).trans (t.suspect_fen p _)
    rw [hfold]
    simp

/-! ### The voltages of a proof (R520) -/

theorem State.region_proofOn (s : State) (r : RegionId) : (s.proofOn r).region r = { s.region r with
    gear := .full, rail := vnomBelow (s.rd (vtabReg r .full)), railGear := .full, proving := true } :=
  s.region_modRegion r _

theorem State.gearFor_of_part {p : Part} (h : s.partOf r.d = some p) : s.gearFor r = s.gearOf p := by
  simp [State.gearFor, h]

theorem State.region_proofOff_proofOn {p : Part} (h : s.partOf r.d = some p) :
    let y := ((s.proofOn r).proofOff r).region r
    y.proving = false ∧ y.gear = s.gearOf p ∧ y.rail = s.rd (vtabReg r (s.gearOf p)) := by
  have hg : (s.proofOn r).gearFor r = s.gearOf p := State.gearFor_of_part (s := s.proofOn r) h
  have hp : ((s.proofOn r).region r).proving = true := by rw [State.region_proofOn]
  have hrd : ∀ x, (s.proofOn r).rd x = s.rd x := fun _ => rfl
  simp [State.proofOff, hp, hg, hrd, State.setRail]

end Guards

/-- Settles O29: each clause is a branch of the event's own operation, and a proof's voltages are fields of one table entry. -/
theorem diesAreGuarded : Obligations.DiesAreGuarded := by
  unfold Obligations.DiesAreGuarded
  refine ⟨?droop, ?temperatures, fun s k => ⟨rfl, s.lds_fenceLd k⟩, ?domains⟩
  case droop =>
    refine fun s r after n => ⟨fun hd hi he => ?_, fun hd hi he => ⟨fun hpos => ?_, fun h0 => ?_⟩, fun hd hi => ?_, fun hd => ?_,
      fun hd hn => ?_, fun hd hn => ?_⟩
    · exact congrArg _ (s.droopTrip_of_idle_edge after hd hi he)
    · exact congrArg _ ((s.droopTrip_of_idle_between after hd hi he).trans (if_neg (Nat.ne_of_gt hpos)))
    · subst h0
      exact congrArg _ ((s.droopTrip_of_idle_between 0 hd hi he).trans (if_pos rfl))
    · exact congrArg _ (s.droopTrip_of_tripped after hd hi)
    · exact congrArg _ (s.droopTrip_of_suppressed after hd)
    · refine congrArg _ ((s.droopRelease_of_some hd).trans ?_)
      simp only [hn, if_true]; rfl
    · refine congrArg _ ((s.droopRelease_of_some hd).trans ?_)
      simp only [Nat.not_le.mpr hn, if_false]; rfl
  case temperatures =>
    intro s d ts htick t q cm tj m band set r
    have hr : ∀ {q' b' : Nat}, tjMove t q band cm = (q', b') → r = .next ((set q' b').tjRaised d t band) := by
      intro q' b' hmove
      refine (congrArg Host.Outcome.next (State.dieTemp_of_due d ts htick)).trans ?_
      rw [hmove]
      rfl
    refine ⟨fun ht hq => ?_, fun ht hq => ?_, fun ht => ?_, fun hlo hhi hb => ?_, fun hlo hhi hb => ?_, fun hlo hhi => ?_,
      fun ht => ?_⟩
    · rw [hr (tjMove_of_cool ht), State.tjRaised_of_cool (by omega), Nat.sub_eq_zero_of_le hq, if_neg (Nat.lt_irrefl 0)]
    · rw [hr (tjMove_of_cool ht), State.tjRaised_of_cool (by omega), if_pos (Nat.sub_pos_of_lt hq)]
    · rw [hr (tjMove_of_level ht), State.tjRaised_of_cool (by omega)]
    · rw [hr (tjMove_of_warm hlo hhi), State.tjRaised_of_warm hlo hhi, if_pos hb]
    · rw [hr (tjMove_of_warm hlo hhi), State.tjRaised_of_warm hlo hhi, if_neg (not_not_intro hb)]
    · rw [hr (tjMove_of_hot hlo hhi), State.tjRaised_of_hot hlo hhi]
    · rw [hr (tjMove_of_over ht), State.tjRaised_of_over ht]
  case domains =>
    refine fun s r => ⟨fun hw hp hd => congrArg _ (State.regionOn_of_due hw hp hd),
      fun h => congrArg _ (State.regionOn_of_unwanted h),
      fun v => ⟨fun hm hlo hhi => congrArg _ (State.inputLevel_of_low hm hlo hhi),
        fun hm hlo hhi => congrArg _ (State.inputLevel_of_high hm hlo hhi),
        fun h => congrArg _ (State.inputLevel_of_quiet h)⟩, ?_⟩
    dsimp only
    rw [State.region_proofOn]
    refine ⟨rfl, rfl, fld_setFld_of_disjoint _ _ (.inr (by decide)), fun hpos => ?_,
      fun p hp => State.region_proofOff_proofOn hp⟩
    exact fld_setFld_same _ (Nat.lt_of_le_of_lt (Nat.sub_le _ 1) (Nat.mod_lt _ (by decide))) (by decide)

end Sys2Proof.Machine
end

section
/-!
PROOF. The ends of field and block proofs (12_silent_errors_and_faults.md R489 to R491, 16_reset_boot_firmware.md R620).
-/
namespace Sys2Proof.Machine

section ProofEnds

variable {s : State} {p : Part} {f : Forme} {t : Nat}

/-! ### The automatic proof of an arm (R489) -/

/-- A partition whose proof is over: its regions are back at their gear and voltage (R520). -/
def State.unproved (s : State) (p : Part) : State := (s.modPart p fun ps => { ps with proofUntil := none }).endProof p

/-- The arm that a partition's automatic proof belongs to. -/
def armOf (p : Part) (j : Job) : Bool := decide (j.req.part = p) && (match j.kind with
  | .arm _ => true
  | _ => false)

/-- An automatic proof runs its 64 furrows. -/
theorem State.autoProofEnd_of_early (ht : (s.part p).proofUntil = some t) (hf : (s.part p).forme = some f) (hlt : s.now < t)
    (fails : List ProofFail) : s.autoProofEnd p fails = s := by
  simp only [State.autoProofEnd, ht, hf, hlt, if_true]

/-- Without a failed part, the forme's fit decides between the answers (R489, R491). -/
theorem State.autoProofEnd_of_due (ht : (s.part p).proofUntil = some t) (hf : (s.part p).forme = some f) (hle : t ≤ s.now) :
    s.autoProofEnd p [] = if (s.unproved p).fits f then (s.unproved p).endJobs (armOf p) stOk else
      let u := ((s.unproved p).endJobs (armOf p) stNoFit).disarm p stNotArmed
      u.setReplace ((u.rd (xreg .rstReplace)).toNat ||| 16) := by
  simp only [State.autoProofEnd, ht, hf, Nat.not_lt.mpr hle, if_false] <;> rfl

/-- REPLACE_N leaves every partition as it is. -/
theorem State.part_setReplace (s : State) (causes : Nat) : (s.setReplace causes).part p = s.part p :=
  congrArg (fun m : AMap Part PartS => m.getD p .reset) (congrArg Prod.fst (s.plans_setReplace causes))

/-! ### FIELD_PROOF (R490, R564) -/

section FieldProof

variable {q : Req} {mask : Half} {at_ : Nat} {spares : List PU}

theorem State.fieldProofEnd_of_early (hjobs : s.host.jobs = [⟨q, .fieldProof mask t spares, at_⟩]) (hlt : s.elapsed < t)
    (fails : List PU) : s.fieldProofEnd fails = s := by
  simp only [State.fieldProofEnd, hjobs, List.foldl_cons, List.foldl_nil, hlt, if_true]

/-- With no failed spare nothing is fenced and the one job is answered. -/
theorem State.fieldProofEnd_of_due (hjobs : s.host.jobs = [⟨q, .fieldProof mask t spares, at_⟩]) (hle : t ≤ s.elapsed) :
    s.fieldProofEnd [] = { s with host := { s.host with jobs := [] } }.replyAt q at_ stOk 0 (proofBytes mask spares []) := by
  have hbad : spares.filter [].contains = [] := List.filter_eq_nil_iff.mpr fun _ _ => Bool.false_ne_true
  simp only [State.fieldProofEnd, hjobs, List.foldl_cons, List.foldl_nil, Nat.not_lt.mpr hle, if_false, hbad, State.endJobs]
  simp

end FieldProof

/-! ### The proof of a block reset (R620) -/

/-- Link die `k` leaves the fallow state, its proof on die `d` over; its cause of REPLACE_N goes, and the command is answered. -/
def State.ldReleased (s : State) (d : Die) (k : LinkDie) : State :=
  let free := (({ s with fw := { s.fw with block := none } }).wr (xreg .rstBlock) 0).wrBit (dreg .cdIso d) 3 false
  let out := { free with fen := { free.fen with lds := free.fen.lds.filter (· ≠ k) } }
  ((out.wr (xreg .rstReplace) (out.rd (xreg .rstReplace) &&& 0xFFFFFFEF)).syncFence).endJobs
    (fun (j : Job) => j.kind == JobKind.block) stOk 0

/-- A link die that passed whole is released. -/
theorem State.blockProofEnd_of_passed {b : BlockRun} {k : LinkDie} (hb : s.fw.block = some b) (hlevel : b.level = 2)
    (htarget : b.target = k.val) (hdue : b.start + 64 * 16384 ≤ s.elapsed) :
    s.blockProofEnd [] = s.ldReleased ⟨k.val, by omega⟩ k := by
  obtain ⟨level, target, start⟩ := b
  dsimp only at hlevel htarget hdue
  subst hlevel htarget
  have hmask : (~~~(0x10 : Word)) = 0xFFFFFFEF := by decide
  have hrun : s.blockProofEnd [] = s.ldReleased ⟨k.val % 16, by omega⟩ ⟨k.val % 4, by omega⟩ := by
    unfold State.blockProofEnd
    rw [hb, hmask]
    have hlt : ¬ s.elapsed < start + 64 * 16384 := Nat.not_lt.mpr hdue
    refine (if_neg hlt).trans ?_
    extract_lets rs d k' badUnits badDie badLanes failed newly fw s1 s2 s3 fen out s4 fen4 s5 s6 fen6 s7 passed noted fenced
      raised final
    have hpassed : passed = out := rfl
    have hfailed : failed = false := rfl
    have hnewly : newly = false := rfl
    have hnoted : noted = out.wr (xreg .rstReplace) (out.rd (xreg .rstReplace) &&& 0xFFFFFFEF) := by
      simp only [noted, hfailed, hpassed, Bool.false_eq_true, if_false]
    have hfinal : final = noted.syncFence := by
      simp only [final, raised, hnewly, Bool.false_eq_true, if_false, if_true, fenced]
    rw [hfinal, hnoted, hfailed]
    rfl
  rw [hrun]
  congr 1
  · exact Fin.ext (Nat.mod_eq_of_lt (by omega))
  · exact Fin.ext (Nat.mod_eq_of_lt k.isLt)

end ProofEnds

/-- Settles O43: with no failed part each end answers its job; a forme that does not fit is disarmed. -/
theorem proofsEnd : Obligations.ProofsEnd := by
  intro s p f t q mask at_ k spares un
  refine ⟨fun ht hf hlt => congrArg _ (State.autoProofEnd_of_early ht hf hlt []), fun ht hf hle hfits => ?_,
    fun ht hf hle hfits => ⟨_, congrArg Host.Outcome.next (State.autoProofEnd_of_due ht hf hle), ?_⟩,
    fun hjobs hle => congrArg _ (State.fieldProofEnd_of_due hjobs hle),
    fun hjobs hlt => congrArg _ (State.fieldProofEnd_of_early hjobs hlt []),
    fun b hb hlevel htarget hdue => congrArg Host.Outcome.next (State.blockProofEnd_of_passed hb hlevel htarget hdue)⟩
  · exact congrArg _ ((State.autoProofEnd_of_due ht hf hle).trans (if_pos hfits))
  · rw [show (s.unproved p).fits f = false from hfits, if_neg Bool.false_ne_true]
    dsimp only
    rw [State.part_setReplace]
    obtain ⟨harmed, -, huntil, -⟩ := ((s.unproved p).endJobs (armOf p) stNoFit).disarm_part p stNotArmed
    exact ⟨harmed, huntil⟩

end Sys2Proof.Machine
end

section
/-!
PROOF. Resets of the whole package and the removal of the supply (16_reset_boot_firmware.md R602, R603, R606, R608).
-/
namespace Sys2Proof.Machine

/-! ### Registers that a reset keeps (R580, R603) -/

theorem AMap.getD_drop {α β : Type} [DecidableEq α] (m : AMap α β) (p : α → Bool) (k : α) (d : β) :
    (m.drop p).getD k d = if p k then d else m.getD k d := by
  have hfind : (m.entries.filter fun e => !p e.1).find? (fun e => e.1 = k)
      = if p k then none else m.entries.find? (fun e => e.1 = k) := by
    rw [List.find?_filter]
    split
    case isTrue h =>
      refine List.find?_eq_none.mpr fun e _ => ?_
      rw [decide_eq_true_eq]
      rintro ⟨he, hk⟩
      rw [of_decide_eq_true hk, h] at he
      exact Bool.false_ne_true he
    case isFalse h =>
      refine congrArg (fun q => m.entries.find? q) (funext fun e => ?_)
      by_cases he : e.1 = k
      · simp [he, h]
      · simp [he]
  unfold AMap.getD AMap.drop
  rw [hfind]
  cases p k <;> rfl

section AfterReset

variable (s : State) (k : Keeps) (g : BootStage)

/-- A reset sets SEC_STATE by its own rules (R644); every other register it keeps or sets to its reset value. -/
theorem State.rd_afterReset {r : Reg} (h : r.name ≠ .secState) :
    (s.afterReset k g).rd r = if k.reg r.name then s.rd r else r.default := by
  have hne : r ≠ xreg .secState := Reg.ne_of_name h
  unfold State.afterReset
  extract_lets kept free base links power host sb fw sec t
  show ((t.modReg (xreg .secState) fun w => w &&& 4).syncSec).rd r = _
  rw [State.syncSec, State.rd_wrBit_ne _ hne, State.rd_wrFld_ne _ hne, State.rd_modReg_ne _ hne]
  show (s.regs.drop fun q => !k.reg q.name).getD r r.default = _
  rw [AMap.getD_drop]
  cases k.reg r.name <;> rfl

end AfterReset

/-- Fuses and flash are as before, but for the count of boots. -/
def State.SameFuses (s t : State) : Prop := t.sec.fused = s.sec.fused ∧ t.sec.burnt = s.sec.burnt
  ∧ t.fw.versions = s.fw.versions ∧ t.fw.settings = s.fw.settings ∧ t.fw.retired = s.fw.retired
  ∧ t.fw.fallow = s.fw.fallow

/-- No forme is loaded, no command waits, the quoins are clear, the package is in Standby; fuses and flash stay. -/
def State.Bare (s t : State) : Prop :=
  (∀ p, (t.part p).forme = none ∧ (t.part p).armed = false ∧ (t.part p).running = false)
    ∧ t.ht = HtS.reset ∧ (∀ i < 64, t.slotState i = 0 ∧ t.replyEmpty i = true) ∧ t.rd (xreg .secQuoin) = 0
    ∧ t.power.mode = .standby ∧ s.SameFuses t

theorem State.sameFuses_afterReset (s : State) (k : Keeps) (g : BootStage) : s.SameFuses (s.afterReset k g) := by
  have hsec := s.afterReset_sec k g
  exact ⟨by rw [hsec], by rw [hsec], rfl, rfl, rfl, rfl⟩

theorem State.bare_afterReset (s : State) (k : Keeps) (g : BootStage) : s.Bare (s.afterReset k g) := by
  refine ⟨fun p => ⟨rfl, rfl, rfl⟩, rfl, fun i _ => ⟨rfl, rfl⟩, ?_, rfl, s.sameFuses_afterReset k g⟩
  rw [State.rd_afterReset s k g (r := xreg .secQuoin) (by decide)]
  have hk : k.reg (xreg .secQuoin).name = false := by cases k <;> rfl
  rw [hk]
  rfl

/-- A write of RST_CAUSE leaves a bare package bare. -/
theorem State.Bare.wr {s t : State} (h : s.Bare t) {r : Reg} (hr : xreg .secQuoin ≠ r) (v : Word) : s.Bare (t.wr r v) := by
  obtain ⟨hparts, hht, hslots, hquoin, hmode, hfuses⟩ := h
  exact ⟨hparts, hht, hslots, (t.rd_wr_ne _ _ v hr).trans hquoin, hmode, hfuses⟩

theorem fld_resetCause : fld (xreg .rstCause).default 2 0 = 0 := by decide

/-- A package that PERST# finds on or in Standby, but for one that stopped there (R502, R680). -/
theorem State.fundamental_of_up {s : State} (hmode : s.power.mode = .on ∨ s.power.mode = .standby)
    (hstage : s.power.mode = .standby → s.power.stage ≠ .failed) (hbrown : s.power.brownOut = false) :
    s.fundamental = (s.afterReset .perst .perst).wrFld (xreg .rstCause) 2 0 1 := by
  refine if_neg ?_
  rintro (h | h | h | ⟨h, hfailed⟩)
  · rw [h] at hmode
    rcases hmode with h | h <;> cases h
  · rw [h] at hmode
    rcases hmode with h | h <;> cases h
  · rw [hbrown] at h
    cases h
  · exact hstage h hfailed

theorem State.coldReset_of_brownOut {s : State} (hmode : s.power.mode = .standby) (hbrown : s.power.brownOut = true) (st : Straps) :
    s.coldReset st = { s.afterReset .brownOut .rom with straps := st }.wrBit (xreg .rstCause) 3 true := by
  have hoff : s.power.mode ≠ .off := by rw [hmode]; decide
  exact (if_neg hoff).trans (if_pos ⟨hmode, hbrown⟩)

/-- Settles O48: every register is one that the reset keeps or one at its reset value, and the rest is the reset's own state. -/
theorem resetsTake : Obligations.ResetsTake := by
  intro s st fuses bare
  have hquoin : xreg .secQuoin ≠ xreg .rstCause := by decide
  have hcnt : xreg .rstFaultCnt ≠ xreg .rstCause := by decide
  refine ⟨fun hmode hstage hbrown => ⟨_, congrArg Host.Outcome.next (State.fundamental_of_up hmode hstage hbrown),
      (s.bare_afterReset .perst .perst).wr hquoin _, rfl, rfl, ?_, ?_, fun i => ?_⟩,
    fun hmode hstage => congrArg Host.Outcome.next (if_pos (.inr (.inr (.inr ⟨hmode, hstage⟩)))),
    fun hmode hstage => congrArg Host.Outcome.next (if_pos ⟨hmode, hstage⟩),
    fun hmode => ⟨{ s.afterReset .nothing .rom with straps := st }, congrArg Host.Outcome.next (if_pos hmode),
      s.bare_afterReset .nothing .rom, rfl, rfl, rfl, ?_⟩,
    fun hmode hbrown => ⟨_, congrArg Host.Outcome.next (State.coldReset_of_brownOut hmode hbrown st),
      State.Bare.wr (s.bare_afterReset .brownOut .rom) hquoin _, rfl, rfl, rfl, State.rdBit_wrBit_true _ _ (by decide), ?_⟩,
    ⟨_, rfl, rfl, ?_, rfl, fun r hr => ?_, ?_, rfl⟩⟩
  · rw [State.rdFld, State.wrFld, State.modReg, State.rd_wr]
    exact fld_setFld_same _ (by decide) (by decide)
  · rw [State.rd_wrFld_ne _ hcnt, State.rd_afterReset s .perst .perst (r := xreg .rstFaultCnt) (by decide)]
    rfl
  · rw [State.rd_wrFld_ne _ (Reg.ne_of_name (q := ⟨.rstBackup, 0, i, 0⟩) (r := xreg .rstCause) RegName.noConfusion),
      State.rd_afterReset s .perst .perst (r := ⟨.rstBackup, 0, i, 0⟩) RegName.noConfusion]
    rfl
  · show fld ((s.afterReset .nothing .rom).rd (xreg .rstCause)) 2 0 = 0
    rw [State.rd_afterReset s .nothing .rom (r := xreg .rstCause) (by decide)]
    exact fld_resetCause
  · rw [State.rd_wrBit_ne _ hcnt]
    show (s.afterReset .brownOut .rom).rd (xreg .rstFaultCnt) = 0
    rw [State.rd_afterReset s .brownOut .rom (r := xreg .rstFaultCnt) (by decide)]
    rfl
  · exact ({ s with sec := { s.sec with owner := false } } : State).sameFuses_afterReset .nothing .failed
  · exact State.rd_afterReset { s with sec := { s.sec with owner := false } } .nothing .failed hr
  · exact congrArg SecS.owner (State.afterReset_sec { s with sec := { s.sec with owner := false } } .nothing .failed)

end Sys2Proof.Machine
end

section
/-!
PROOF. What is fallow stays (R32, R603): every operation that a command can reach keeps each block of the fallow state, but for
BLOCK_PROOF_END and the resets. The set of fallow blocks is ordered by inclusion, and one lemma for every operation says that what
lies in it before lies in it after; they are the rules by which `bound` then goes through the operations that call it.
-/

namespace Sys2Proof.Machine
open Sys2Proof

/-! ### The blocks that are fallow -/

/-- A block that can be fallow (R31, R48, R498). -/
inductive Block
  | unit (p : PU)
  | region (r : RegionId)
  | die (d : Die)
  | ld (k : LinkDie)

def FenceS.blocks (f : FenceS) : Set Block
  | .unit p => p ∈ f.units
  | .region r => r ∈ f.regions
  | .die d => d ∈ f.dies
  | .ld k => k ∈ f.lds

/-- What is fallow in a state. It is not unfolded, so that two states are never compared by running what led to them. -/
@[irreducible] def State.fallow (s : State) : Set Block := s.fen.blocks

section

variable {F : Set Block} {s t : State}

theorem State.mem_fallow {b : Block} : b ∈ s.fallow ↔ b ∈ s.fen.blocks := by
  unfold State.fallow
  rfl

/-- How an operation's lemma is proved: what was fallow before is a `Fact`, found only where the state itself is reached. -/
theorem fallow_step (h : Fact (F ≤ s.fallow) → F ≤ t.fallow) (hs : F ≤ s.fallow) : F ≤ t.fallow := h ⟨hs⟩

@[bound] theorem fallow_of_fact [h : Fact (F ≤ s.fallow)] : F ≤ s.fallow := h.out

/-- An operation that is an argument, called on a state that has kept what is fallow. -/
theorem fallow_call {f : State → State} (hf : ∀ t, Fact (F ≤ t.fallow) → F ≤ (f t).fallow) (h : F ≤ t.fallow) :
    F ≤ (f t).fallow := hf t ⟨h⟩

/-- The state that a pair holds, where the pair is known. -/
theorem fallow_fst {α : Type} {x : State × α} {a : α} (e : x = (t, a)) (h : F ≤ x.1.fallow) : Fact (F ≤ t.fallow) := by
  subst e
  exact ⟨h⟩

@[bound] theorem pair_fallow {α : Type} {a : α} (h : F ≤ s.fallow) : F ≤ (Prod.fst (s, a)).fallow := h

@[bound] theorem ite_fallow {c : Prop} [Decidable c] (hs : F ≤ s.fallow) (ht : F ≤ t.fallow) :
    F ≤ (if c then s else t).fallow := by
  split <;> assumption

@[bound] theorem ite_fallow1 {α : Type} {c : Prop} [Decidable c] {s t : State × α} (hs : F ≤ s.1.fallow)
    (ht : F ≤ t.1.fallow) : F ≤ (if c then s else t).1.fallow := by
  split <;> assumption

@[bound] theorem foldl_fallow {β : Type} {f : State → β → State} {l : List β} (hs : F ≤ s.fallow)
    (hf : ∀ t b, Fact (F ≤ t.fallow) → F ≤ (f t b).fallow) : F ≤ (l.foldl f s).fallow := by
  induction l generalizing s with
  | nil => exact hs
  | cons b l ih => exact ih (hf s b ⟨hs⟩)

@[bound] theorem foldl_fallow1 {β γ : Type} {f : State × γ → β → State × γ} {l : List β} {s : State × γ}
    (hs : F ≤ s.1.fallow) (hf : ∀ t b, Fact (F ≤ t.1.fallow) → F ≤ (f t b).1.fallow) : F ≤ (l.foldl f s).1.fallow := by
  induction l generalizing s with
  | nil => exact hs
  | cons b l ih => exact ih (hf s b ⟨hs⟩)

/-! ### A fence adds a block -/

section Fences

variable {pend : List PendFence} {pendRegions : List RegionId}

theorem FenceS.blocks_mono {f g : FenceS} (hu : f.units ⊆ g.units) (hr : f.regions ⊆ g.regions) (hd : f.dies ⊆ g.dies)
    (hl : f.lds ⊆ g.lds) : f.blocks ≤ g.blocks := by
  rintro (p | r | d | k) hx
  exacts [hu hx, hr hx, hd hx, hl hx]

@[bound] theorem FenceS.blocks_fen (h : F ≤ s.fallow) : F ≤ s.fen.blocks := fun _ hb => State.mem_fallow.1 (h hb)

@[bound] theorem FenceS.blocks_pend (h : F ≤ s.fallow) :
    F ≤ FenceS.blocks ⟨s.fen.units, s.fen.regions, s.fen.dies, s.fen.lds, pend, pendRegions⟩ := FenceS.blocks_fen h

@[bound] theorem FenceS.blocks_unit {p} (h : F ≤ s.fallow) :
    F ≤ FenceS.blocks ⟨p :: s.fen.units, s.fen.regions, s.fen.dies, s.fen.lds, pend, pendRegions⟩ :=
  Set.Subset.trans (FenceS.blocks_fen h)
    (FenceS.blocks_mono (List.subset_cons_self ..) (List.Subset.refl _) (List.Subset.refl _) (List.Subset.refl _))

@[bound] theorem FenceS.blocks_region {r} (h : F ≤ s.fallow) :
    F ≤ FenceS.blocks ⟨s.fen.units, r :: s.fen.regions, s.fen.dies, s.fen.lds, pend, pendRegions⟩ :=
  Set.Subset.trans (FenceS.blocks_fen h)
    (FenceS.blocks_mono (List.Subset.refl _) (List.subset_cons_self ..) (List.Subset.refl _) (List.Subset.refl _))

@[bound] theorem FenceS.blocks_die {d} (h : F ≤ s.fallow) :
    F ≤ FenceS.blocks ⟨s.fen.units, s.fen.regions, d :: s.fen.dies, s.fen.lds, pend, pendRegions⟩ :=
  Set.Subset.trans (FenceS.blocks_fen h)
    (FenceS.blocks_mono (List.Subset.refl _) (List.Subset.refl _) (List.subset_cons_self ..) (List.Subset.refl _))

@[bound] theorem FenceS.blocks_ld {k} (h : F ≤ s.fallow) :
    F ≤ FenceS.blocks ⟨s.fen.units, s.fen.regions, s.fen.dies, k :: s.fen.lds, pend, pendRegions⟩ :=
  Set.Subset.trans (FenceS.blocks_fen h)
    (FenceS.blocks_mono (List.Subset.refl _) (List.Subset.refl _) (List.Subset.refl _) (List.subset_cons_self ..))

end Fences

/-- An update of the state keeps what its fallow state keeps. -/
@[bound] theorem mk_fallow {pending free ht units lus regions clusters dies links parts regs retained fen susp prov replays power
    host sb mon fw sec straps faultPin replacePin busOut} (h : F ≤ FenceS.blocks fen) :
    F ≤ (State.mk pending free ht units lus regions clusters dies links parts regs retained fen susp prov replays power host sb mon
      fw sec straps faultPin replacePin busOut).fallow := fun _ hb => State.mem_fallow.2 (h hb)

/-! ### Tables -/

@[bound] theorem State.setUnit_fallow {a b} (h : F ≤ s.fallow) : F ≤ (s.setUnit a b).fallow := mk_fallow (FenceS.blocks_fen h)

@[bound] theorem State.modUnit_fallow {a b} (h : F ≤ s.fallow) : F ≤ (s.modUnit a b).fallow := mk_fallow (FenceS.blocks_fen h)

@[bound] theorem State.modLu_fallow {a b} (h : F ≤ s.fallow) : F ≤ (s.modLu a b).fallow := mk_fallow (FenceS.blocks_fen h)

@[bound] theorem State.modRegion_fallow {a b} (h : F ≤ s.fallow) : F ≤ (s.modRegion a b).fallow := mk_fallow (FenceS.blocks_fen h)

@[bound] theorem State.modCluster_fallow {a b} (h : F ≤ s.fallow) : F ≤ (s.modCluster a b).fallow := mk_fallow (FenceS.blocks_fen h)

@[bound] theorem State.modDie_fallow {a b} (h : F ≤ s.fallow) : F ≤ (s.modDie a b).fallow := mk_fallow (FenceS.blocks_fen h)

@[bound] theorem State.modPart_fallow {a b} (h : F ≤ s.fallow) : F ≤ (s.modPart a b).fallow := mk_fallow (FenceS.blocks_fen h)

@[bound] theorem State.modLinks_fallow {a} (h : F ≤ s.fallow) : F ≤ (s.modLinks a).fallow := mk_fallow (FenceS.blocks_fen h)

@[bound] theorem State.modHt_fallow {a} (h : F ≤ s.fallow) : F ≤ (s.modHt a).fallow := mk_fallow (FenceS.blocks_fen h)

@[bound] theorem State.modFw_fallow {a} (h : F ≤ s.fallow) : F ≤ (s.modFw a).fallow := mk_fallow (FenceS.blocks_fen h)

@[bound] theorem State.wr_fallow {a b} (h : F ≤ s.fallow) : F ≤ (s.wr a b).fallow := mk_fallow (FenceS.blocks_fen h)


/-! ### Ops -/

@[bound] theorem State.modReg_fallow {r f} : F ≤ s.fallow → F ≤ (s.modReg r f).fallow :=
  fallow_step fun _ => by simp only [State.modReg]; bound

@[bound] theorem State.wrFld_fallow {r hi lo v} : F ≤ s.fallow → F ≤ (s.wrFld r hi lo v).fallow :=
  fallow_step fun _ => by simp only [State.wrFld]; bound

@[bound] theorem State.wrBit_fallow {r i b} : F ≤ s.fallow → F ≤ (s.wrBit r i b).fallow :=
  fallow_step fun _ => by simp only [State.wrBit]; bound

@[bound] theorem State.count_fallow {r n} : F ≤ s.fallow → F ≤ (s.count r n).fallow :=
  fallow_step fun _ => by simp only [State.count]; bound

@[bound] theorem State.sendMsg_fallow {ports part notBefore b} :
    F ≤ s.fallow → F ≤ (s.sendMsg ports part notBefore b).fallow :=
  fallow_step fun _ => by simp only [State.sendMsg]; bound

@[bound] theorem State.suspectOrd_fallow {p ord d} : F ≤ s.fallow → F ≤ (s.suspectOrd p ord d).fallow :=
  fallow_step fun _ => by simp only [State.suspectOrd]; bound

@[bound] theorem State.suspect_fallow {p d ahead} : F ≤ s.fallow → F ≤ (s.suspect p d ahead).fallow :=
  fallow_step fun _ => by simp only [State.suspect]; bound

@[bound] theorem State.suspectDie_fallow {d ahead} : F ≤ s.fallow → F ≤ (s.suspectDie d ahead).fallow :=
  fallow_step fun _ => by simp only [State.suspectDie]; bound

@[bound] theorem State.record_fallow {f} : F ≤ s.fallow → F ≤ (s.record f).fallow :=
  fallow_step fun _ => by simp only [State.record]; bound

@[bound] theorem State.vector_fallow {v} : F ≤ s.fallow → F ≤ (s.vector v).fallow :=
  fallow_step fun _ => by simp only [State.vector]; bound

@[bound] theorem State.setReplace_fallow {causes} : F ≤ s.fallow → F ≤ (s.setReplace causes).fallow :=
  fallow_step fun _ => by simp only [State.setReplace]; bound

@[bound] theorem State.syncFence_fallow : F ≤ s.fallow → F ≤ s.syncFence.fallow :=
  fallow_step fun _ => by simp only [State.syncFence]; bound

@[bound] theorem State.resetUnit_fallow {p} : F ≤ s.fallow → F ≤ (s.resetUnit p).fallow :=
  fallow_step fun _ => by simp only [State.resetUnit]; bound

@[bound] theorem State.loadBanks_fallow {l p} : F ≤ s.fallow → F ≤ (s.loadBanks l p).fallow :=
  fallow_step fun _ => by simp only [State.loadBanks]; bound

@[bound] theorem State.substitute_fallow {l} : F ≤ s.fallow → F ≤ (s.substitute l).1.fallow :=
  fallow_step fun _ => by simp only [State.substitute]; bound

@[bound] theorem State.applyFences_fallow {r t} : F ≤ s.fallow → F ≤ (s.applyFences r t).1.fallow :=
  fallow_step fun _ => by simp only [State.applyFences]; bound

@[bound] theorem State.fenceSuspect_fallow {d inBlock} : F ≤ s.fallow → F ≤ (s.fenceSuspect d inBlock).fallow :=
  fallow_step fun _ => by simp only [State.fenceSuspect]; bound

@[bound] theorem State.fenceUnit_fallow {p} : F ≤ s.fallow → F ≤ (s.fenceUnit p).1.fallow :=
  fallow_step fun _ => by simp only [State.fenceUnit]; bound

@[bound] theorem State.fenceRegion_fallow {r} : F ≤ s.fallow → F ≤ (s.fenceRegion r).1.fallow :=
  fallow_step fun _ => by simp only [State.fenceRegion]; bound

@[bound] theorem State.fenceDie_fallow {d} : F ≤ s.fallow → F ≤ (s.fenceDie d).1.fallow :=
  fallow_step fun _ => by simp only [State.fenceDie]; bound

@[bound] theorem State.fenceLd_fallow {k} : F ≤ s.fallow → F ≤ (s.fenceLd k).fallow :=
  fallow_step fun _ => by simp only [State.fenceLd]; bound

@[bound] theorem State.react_fallow {r code} : F ≤ s.fallow → F ≤ (s.react r code).1.fallow :=
  fallow_step fun _ => by simp only [State.react]; bound

@[bound] theorem State.raiseAll_fallow {n rs} (h : F ≤ s.fallow) : F ≤ (State.raiseAll n rs s).fallow := by
  induction n generalizing rs s with
  | zero => exact h
  | succ n ih =>
    cases rs with
    | nil => exact h
    | cons r rest =>
      simp only [State.raiseAll]
      have := Fact.mk h
      split
      · exact ih h
      · refine ih ?_
        clear h ih
        bound

@[bound] theorem State.raiseBit_fallow {r b suspect detail} :
    F ≤ s.fallow → F ≤ (s.raiseBit r b suspect detail).fallow :=
  fallow_step fun _ => by simp only [State.raiseBit]; bound

@[bound] theorem State.raiseSuspect_fallow {r b detail} : F ≤ s.fallow → F ≤ (s.raiseSuspect r b detail).fallow :=
  fallow_step fun _ => by simp only [State.raiseSuspect]; bound

@[bound] theorem State.fence_fallow {f} (hf : ∀ t, Fact (F ≤ t.fallow) → F ≤ (f t).1.fallow) :
    F ≤ s.fallow → F ≤ (s.fence f).fallow :=
  fallow_step fun _ => by simp only [State.fence]; bound

@[bound] theorem State.settleRegion_fallow {r t} : F ≤ s.fallow → F ≤ (s.settleRegion r t).fallow :=
  fallow_step fun _ => by simp only [State.settleRegion]; bound

@[bound] theorem State.settleFences_fallow {p t} : F ≤ s.fallow → F ≤ (s.settleFences p t).fallow :=
  fallow_step fun _ => by simp only [State.settleFences]; bound

@[bound] theorem State.withdraw_fallow {u bundle verso} : F ≤ s.fallow → F ≤ (s.withdraw u bundle verso).fallow :=
  fallow_step fun _ => by simp only [State.withdraw]; bound


/-! ### Replies -/

@[bound] theorem State.winWrite_fallow {a b} : F ≤ s.fallow → F ≤ (s.winWrite a b).fallow :=
  fallow_step fun _ => by simp only [State.winWrite]; bound

@[bound] theorem State.replyAt_fallow {q handledAt status detail results} :
    F ≤ s.fallow → F ≤ (s.replyAt q handledAt status detail results).fallow :=
  fallow_step fun _ => by simp only [State.replyAt]; bound

@[bound] theorem State.reply_fallow {q status detail results} :
    F ≤ s.fallow → F ≤ (s.reply q status detail results).fallow :=
  fallow_step fun _ => by simp only [State.reply]; bound

@[bound] theorem State.addJob_fallow {q k} : F ≤ s.fallow → F ≤ (s.addJob q k).fallow :=
  fallow_step fun _ => by simp only [State.addJob]; bound

@[bound] theorem State.endJobs_fallow {p status detail results} :
    F ≤ s.fallow → F ≤ (s.endJobs p status detail results).fallow :=
  fallow_step fun _ => by simp only [State.endJobs]; bound

@[bound] theorem State.syncGear_fallow {p} : F ≤ s.fallow → F ≤ (s.syncGear p).fallow :=
  fallow_step fun _ => by simp only [State.syncGear]; bound

@[bound] theorem State.clearPending_fallow : F ≤ s.fallow → F ≤ s.clearPending.fallow :=
  fallow_step fun _ => by simp only [State.clearPending]; bound


/-! ### Parts -/

@[bound] theorem State.setRail_fallow {r g} : F ≤ s.fallow → F ≤ (s.setRail r g).fallow :=
  fallow_step fun _ => by simp only [State.setRail]; bound

@[bound] theorem State.proofOn_fallow {r} : F ≤ s.fallow → F ≤ (s.proofOn r).fallow :=
  fallow_step fun _ => by simp only [State.proofOn]; bound

@[bound] theorem State.proofOff_fallow {r} : F ≤ s.fallow → F ≤ (s.proofOff r).fallow :=
  fallow_step fun _ => by simp only [State.proofOff]; bound

@[bound] theorem State.endProof_fallow {p} : F ≤ s.fallow → F ≤ (s.endProof p).fallow :=
  fallow_step fun _ => by simp only [State.endProof]; bound

@[bound] theorem State.setArmed_fallow {p b} : F ≤ s.fallow → F ≤ (s.setArmed p b).fallow :=
  fallow_step fun _ => by simp only [State.setArmed]; bound

@[bound] theorem State.endJob_fallow {p} : F ≤ s.fallow → F ≤ (s.endJob p).fallow :=
  fallow_step fun _ => by simp only [State.endJob]; bound

@[bound] theorem State.switchPage_fallow {d} : F ≤ s.fallow → F ≤ (s.switchPage d).fallow :=
  fallow_step fun _ => by simp only [State.switchPage]; bound

@[bound] theorem State.switchWaiting_fallow {p} : F ≤ s.fallow → F ≤ (s.switchWaiting p).fallow :=
  fallow_step fun _ => by simp only [State.switchWaiting]; bound

@[bound] theorem State.dropProv_fallow {p} : F ≤ s.fallow → F ≤ (s.dropProv p).fallow :=
  fallow_step fun _ => by simp only [State.dropProv]; bound

@[bound] theorem State.unCommit_fallow {p} : F ≤ s.fallow → F ≤ (s.unCommit p).fallow :=
  fallow_step fun _ => by simp only [State.unCommit]; bound

@[bound] theorem State.haltPart_fallow {p} : F ≤ s.fallow → F ≤ (s.haltPart p).fallow :=
  fallow_step fun _ => by simp only [State.haltPart]; bound

@[bound] theorem State.disarm_fallow {p status} : F ≤ s.fallow → F ≤ (s.disarm p status).fallow :=
  fallow_step fun _ => by simp only [State.disarm]; bound


/-! ### HallTime -/

@[bound] theorem State.setHtState_fallow {v} : F ≤ s.fallow → F ≤ (s.setHtState v).fallow :=
  fallow_step fun _ => by simp only [State.setHtState]; bound

@[bound] theorem State.enterLocked_fallow {hop} : F ≤ s.fallow → F ≤ (s.enterLocked hop).fallow :=
  fallow_step fun _ => by simp only [State.enterLocked]; bound

@[bound] theorem State.enterHoldover_fallow : F ≤ s.fallow → F ≤ s.enterHoldover.fallow :=
  fallow_step fun _ => by simp only [State.enterHoldover]; bound

@[bound] theorem State.enterLost_fallow : F ≤ s.fallow → F ≤ s.enterLost.fallow :=
  fallow_step fun _ => by simp only [State.enterLost]; bound

@[bound] theorem State.epochFrame_fallow {f} : F ≤ s.fallow → F ≤ (s.epochFrame f).fallow :=
  fallow_step fun _ => by simp only [State.epochFrame]; bound

@[bound] theorem State.referenceLoss_fallow {l} : F ≤ s.fallow → F ≤ (s.referenceLoss l).fallow :=
  fallow_step fun _ => by simp only [State.referenceLoss]; bound

@[bound] theorem State.sourceReturn_fallow {inside} : F ≤ s.fallow → F ≤ (s.sourceReturn inside).fallow :=
  fallow_step fun _ => by simp only [State.sourceReturn]; bound

@[bound] theorem State.hallRefReturn_fallow {inside} : F ≤ s.fallow → F ≤ (s.hallRefReturn inside).fallow :=
  fallow_step fun _ => by simp only [State.hallRefReturn]; bound

@[bound] theorem State.holdoverTimeout_fallow : F ≤ s.fallow → F ≤ s.holdoverTimeout.fallow :=
  fallow_step fun _ => by simp only [State.holdoverTimeout]; bound

@[bound] theorem State.lostToAcquire_fallow : F ≤ s.fallow → F ≤ s.lostToAcquire.fallow :=
  fallow_step fun _ => by simp only [State.lostToAcquire]; bound

@[bound] theorem State.recordMissing_fallow : F ≤ s.fallow → F ≤ s.recordMissing.fallow :=
  fallow_step fun _ => by simp only [State.recordMissing]; bound

@[bound] theorem State.lockedRecord_fallow {off} : F ≤ s.fallow → F ≤ (s.lockedRecord off).fallow :=
  fallow_step fun _ => by simp only [State.lockedRecord]; bound

@[bound] theorem State.port0Record_fallow {r f} : F ≤ s.fallow → F ≤ (s.port0Record r f).fallow :=
  fallow_step fun _ => by simp only [State.port0Record]; bound

@[bound] theorem State.storeReg_fallow {r v} : F ≤ s.fallow → F ≤ (s.storeReg r v).fallow :=
  fallow_step fun _ => by simp only [State.storeReg]; bound

@[bound] theorem State.setLoWrite_fallow {v} : F ≤ s.fallow → F ≤ (s.setLoWrite v).fallow :=
  fallow_step fun _ => by simp only [State.setLoWrite]; bound

@[bound] theorem State.htConfigWrite_fallow {v} : F ≤ s.fallow → F ≤ (s.htConfigWrite v).fallow :=
  fallow_step fun _ => by simp only [State.htConfigWrite]; bound

@[bound] theorem State.nodeIdWrite_fallow {v} : F ≤ s.fallow → F ≤ (s.nodeIdWrite v).fallow :=
  fallow_step fun _ => by simp only [State.nodeIdWrite]; bound


/-! ### Power -/

@[bound] theorem State.syncDomains_fallow {d} : F ≤ s.fallow → F ≤ (s.syncDomains d).fallow :=
  fallow_step fun _ => by simp only [State.syncDomains]; bound

@[bound] theorem State.syncRegionGear_fallow {d} : F ≤ s.fallow → F ≤ (s.syncRegionGear d).fallow :=
  fallow_step fun _ => by simp only [State.syncRegionGear]; bound

@[bound] theorem State.regionOn_fallow {r} : F ≤ s.fallow → F ≤ (s.regionOn r).fallow :=
  fallow_step fun _ => by simp only [State.regionOn]; bound

@[bound] theorem State.vtabWrite_fallow {r g v} : F ≤ s.fallow → F ≤ (s.vtabWrite r g v).fallow :=
  fallow_step fun _ => by simp only [State.vtabWrite]; bound

@[bound] theorem State.vtabBoundary_fallow {r} : F ≤ s.fallow → F ≤ (s.vtabBoundary r).fallow :=
  fallow_step fun _ => by simp only [State.vtabBoundary]; bound

@[bound] theorem State.setRails_fallow {p g} : F ≤ s.fallow → F ≤ (s.setRails p g).fallow :=
  fallow_step fun _ => by simp only [State.setRails]; bound

@[bound] theorem State.voltageRise_fallow {p} : F ≤ s.fallow → F ≤ (s.voltageRise p).fallow :=
  fallow_step fun _ => by simp only [State.voltageRise]; bound

@[bound] theorem State.deferGear_fallow {p t g} : F ≤ s.fallow → F ≤ (s.deferGear p t g).fallow :=
  fallow_step fun _ => by simp only [State.deferGear]; bound

@[bound] theorem State.gearSwitch_fallow {p} : F ≤ s.fallow → F ≤ (s.gearSwitch p).fallow :=
  fallow_step fun _ => by simp only [State.gearSwitch]; bound

@[bound] theorem State.voltageFall_fallow {p} : F ≤ s.fallow → F ≤ (s.voltageFall p).fallow :=
  fallow_step fun _ => by simp only [State.voltageFall]; bound

@[bound] theorem State.droopStart_fallow {r} : F ≤ s.fallow → F ≤ (s.droopStart r).fallow :=
  fallow_step fun _ => by simp only [State.droopStart]; bound

@[bound] theorem State.droopTrip_fallow {r after} : F ≤ s.fallow → F ≤ (s.droopTrip r after).fallow :=
  fallow_step fun _ => by simp only [State.droopTrip]; bound

@[bound] theorem State.droopRelease_fallow {r} : F ≤ s.fallow → F ≤ (s.droopRelease r).fallow :=
  fallow_step fun _ => by simp only [State.droopRelease]; bound

@[bound] theorem State.elecCaps_fallow : F ≤ s.fallow → F ≤ s.elecCaps.fallow :=
  fallow_step fun _ => by simp only [State.elecCaps]; bound

@[bound] theorem State.capRegion_fallow {r} : F ≤ s.fallow → F ≤ (s.capRegion r).fallow :=
  fallow_step fun _ => by simp only [State.capRegion]; bound

@[bound] theorem State.capInForce_fallow {p lead} : F ≤ s.fallow → F ≤ (s.capInForce p lead).fallow :=
  fallow_step fun _ => by simp only [State.capInForce]; bound

@[bound] theorem State.capBoundary_fallow : F ≤ s.fallow → F ≤ s.capBoundary.fallow :=
  fallow_step fun _ => by simp only [State.capBoundary]; bound

@[bound] theorem State.dieTemp_fallow {d readings} : F ≤ s.fallow → F ≤ (s.dieTemp d readings).fallow :=
  fallow_step fun _ => by simp only [State.dieTemp]; bound

@[bound] theorem State.linkOvertemp_fallow {k} : F ≤ s.fallow → F ≤ (s.linkOvertemp k).fallow :=
  fallow_step fun _ => by simp only [State.linkOvertemp]; bound

@[bound] theorem State.energyPeriod_fallow {dom input} : F ≤ s.fallow → F ≤ (s.energyPeriod dom input).fallow :=
  fallow_step fun _ => by simp only [State.energyPeriod]; bound

@[bound] theorem State.powerOff_fallow : F ≤ s.fallow → F ≤ s.powerOff.fallow :=
  fallow_step fun _ => by simp only [State.powerOff]; bound

@[bound] theorem State.dropJobs_fallow : F ≤ s.fallow → F ≤ s.dropJobs.fallow :=
  fallow_step fun _ => by simp only [State.dropJobs]; bound

@[bound] theorem State.latch_fallow {b atOnce} : F ≤ s.fallow → F ≤ (s.latch b atOnce).fallow :=
  fallow_step fun _ => by simp only [State.latch]; bound

@[bound] theorem State.latchPowerOff_fallow : F ≤ s.fallow → F ≤ s.latchPowerOff.fallow :=
  fallow_step fun _ => by simp only [State.latchPowerOff]; bound

@[bound] theorem State.brownOut_fallow : F ≤ s.fallow → F ≤ s.brownOut.fallow :=
  fallow_step fun _ => by simp only [State.brownOut]; bound

@[bound] theorem State.inputBand_fallow : F ≤ s.fallow → F ≤ s.inputBand.fallow :=
  fallow_step fun _ => by simp only [State.inputBand]; bound

@[bound] theorem State.inputLevel_fallow {v} : F ≤ s.fallow → F ≤ (s.inputLevel v).fallow :=
  fallow_step fun _ => by simp only [State.inputLevel]; bound


/-! ### Memories -/

@[bound] theorem State.chargeAccess_fallow {i ahead} : F ≤ s.fallow → F ≤ (s.chargeAccess i ahead).fallow :=
  fallow_step fun _ => by simp only [State.chargeAccess]; bound

@[bound] theorem State.refuse_fallow {d a i} : F ≤ s.fallow → F ≤ (s.refuse d a i).fallow :=
  fallow_step fun _ => by simp only [State.refuse]; bound

@[bound] theorem State.uncorrectable_fallow {d a source b suspect} :
    F ≤ s.fallow → F ≤ (s.uncorrectable d a source b suspect).fallow :=
  fallow_step fun _ => by simp only [State.uncorrectable]; bound

@[bound] theorem State.notePair_fallow {d pair} : F ≤ s.fallow → F ≤ (s.notePair d pair).fallow :=
  fallow_step fun _ => by simp only [State.notePair]; bound

@[bound] theorem State.pageRange_fallow {d i} : F ≤ s.fallow → F ≤ (s.pageRange d i).fallow :=
  fallow_step fun _ => by simp only [State.pageRange]; bound

@[bound] theorem State.hbmRead_fallow {d off i upset own} :
    F ≤ s.fallow → F ≤ (s.hbmRead d off i upset own).1.fallow :=
  fallow_step fun _ => by simp only [State.hbmRead]; bound

@[bound] theorem State.hbmStore_fallow {d a b} : F ≤ s.fallow → F ≤ (s.hbmStore d a b).fallow :=
  fallow_step fun _ => by simp only [State.hbmStore]; bound

@[bound] theorem State.hbmWrite_fallow {d off i b own} : F ≤ s.fallow → F ≤ (s.hbmWrite d off i b own).1.fallow :=
  fallow_step fun _ => by simp only [State.hbmWrite]; bound

@[bound] theorem State.claimBank_fallow {d l c} : F ≤ s.fallow → F ≤ (s.claimBank d l c).1.fallow :=
  fallow_step fun _ => by simp only [State.claimBank]; bound

@[bound] theorem State.cacheServe_fallow {d l c upset} : F ≤ s.fallow → F ≤ (s.cacheServe d l c upset).1.fallow :=
  fallow_step fun _ => by simp only [State.cacheServe]; bound

@[bound] theorem State.cacheLine_fallow {d off i c upset} :
    F ≤ s.fallow → F ≤ (s.cacheLine d off i c upset).1.fallow :=
  fallow_step fun _ => by simp only [State.cacheLine]; bound

@[bound] theorem State.cacheRead_fallow {d off i upset} : F ≤ s.fallow → F ≤ (s.cacheRead d off i upset).1.fallow :=
  fallow_step fun _ => by simp only [State.cacheRead]; bound

@[bound] theorem State.cachePut_fallow {d off i c b} : F ≤ s.fallow → F ≤ (s.cachePut d off i c b).1.fallow :=
  fallow_step fun _ => by simp only [State.cachePut]; bound

@[bound] theorem State.cacheWrite_fallow {d off i b} : F ≤ s.fallow → F ≤ (s.cacheWrite d off i b).1.fallow :=
  fallow_step fun _ => by simp only [State.cacheWrite]; bound

@[bound] theorem State.engineRead_fallow {d hbm off n i c own} :
    F ≤ s.fallow → F ≤ (s.engineRead d hbm off n i c own).1.fallow :=
  fallow_step fun _ => by simp only [State.engineRead]; bound

@[bound] theorem State.engineWrite_fallow {d hbm off i c b own} :
    F ≤ s.fallow → F ≤ (s.engineWrite d hbm off i c b own).fallow :=
  fallow_step fun hs => by
    simp only [State.engineWrite]
    refine foldl_fallow hs.out fun t x ht => ite_fallow (by bound) (ite_fallow (by bound) ?_)
    split <;> rename_i heq <;> have := fallow_fst heq (State.hbmRead_fallow ht.out) <;> bound

@[bound] theorem State.setBand_fallow {d b} : F ≤ s.fallow → F ≤ (s.setBand d b).fallow :=
  fallow_step fun _ => by simp only [State.setBand]; bound

@[bound] theorem State.hbmTemp_fallow {d reading} : F ≤ s.fallow → F ≤ (s.hbmTemp d reading).fallow :=
  fallow_step fun _ => by simp only [State.hbmTemp]; bound

@[bound] theorem State.bandExit_fallow {d} : F ≤ s.fallow → F ≤ (s.bandExit d).fallow :=
  fallow_step fun _ => by simp only [State.bandExit]; bound

@[bound] theorem State.patrolScrub_fallow {d upset} : F ≤ s.fallow → F ≤ (s.patrolScrub d upset).fallow :=
  fallow_step fun _ => by simp only [State.patrolScrub]; bound

@[bound] theorem State.calibrate_fallow {d fails} : F ≤ s.fallow → F ≤ (s.calibrate d fails).fallow :=
  fallow_step fun _ => by simp only [State.calibrate]; bound

@[bound] theorem State.refreshStep_fallow : F ≤ s.fallow → F ≤ s.refreshStep.fallow :=
  fallow_step fun _ => by simp only [State.refreshStep]; bound

@[bound] theorem State.startCopy_fallow {d page} : F ≤ s.fallow → F ≤ (s.startCopy d page).fallow :=
  fallow_step fun _ => by simp only [State.startCopy]; bound

@[bound] theorem State.copyAccess_fallow {d upset} : F ≤ s.fallow → F ≤ (s.copyAccess d upset).fallow :=
  fallow_step fun _ => by simp only [State.copyAccess]; bound

@[bound] theorem State.copyDone_fallow {d} : F ≤ s.fallow → F ≤ (s.copyDone d).fallow :=
  fallow_step fun _ => by simp only [State.copyDone]; bound

@[bound] theorem State.tgStart_fallow {d c v} : F ≤ s.fallow → F ≤ (s.tgStart d c v).fallow :=
  fallow_step fun _ => by simp only [State.tgStart]; bound

@[bound] theorem State.tgAccess_fallow {d c k} : F ≤ s.fallow → F ≤ (s.tgAccess d c k).fallow :=
  fallow_step fun _ => by simp only [State.tgAccess]; bound

@[bound] theorem State.tgPass_fallow {d c n} : F ≤ s.fallow → F ≤ (s.tgPass d c n).fallow :=
  fallow_step fun _ => by simp only [State.tgPass]; bound

@[bound] theorem State.tgEnd_fallow {d c} : F ≤ s.fallow → F ≤ (s.tgEnd d c).fallow :=
  fallow_step fun _ => by simp only [State.tgEnd]; bound

@[bound] theorem State.tgDone_fallow {d c} : F ≤ s.fallow → F ≤ (s.tgDone d c).fallow :=
  fallow_step fun _ => by simp only [State.tgDone]; bound

@[bound] theorem State.tgStop_fallow {d c n} : F ≤ s.fallow → F ≤ (s.tgStop d c n).fallow :=
  fallow_step fun _ => by simp only [State.tgStop]; bound

@[bound] theorem State.hbmAccess_fallow {d i off data upset} : F ≤ s.fallow → F ≤ (s.hbmAccess d i off data upset).fallow :=
  fallow_step fun _ => by cases data <;> simp only [State.hbmAccess, State.deliver] <;> bound

@[bound] theorem State.cacheAccess_fallow {d i off data upset} : F ≤ s.fallow → F ≤ (s.cacheAccess d i off data upset).fallow :=
  fallow_step fun _ => by cases data <;> simp only [State.cacheAccess, State.deliver] <;> bound


/-! ### Flags -/

@[bound] theorem State.tuFlag_fallow {u b} : F ≤ s.fallow → F ≤ (s.tuFlag u b).fallow :=
  fallow_step fun _ => by simp only [State.tuFlag]; bound

@[bound] theorem State.tuSuspect_fallow {u b} : F ≤ s.fallow → F ≤ (s.tuSuspect u b).fallow :=
  fallow_step fun _ => by simp only [State.tuSuspect]; bound

@[bound] theorem State.accFlag_fallow {u b} : F ≤ s.fallow → F ≤ (s.accFlag u b).fallow :=
  fallow_step fun _ => by simp only [State.accFlag]; bound

@[bound] theorem State.tuFlagIf_fallow {u b c} : F ≤ s.fallow → F ≤ (s.tuFlagIf u b c).fallow :=
  fallow_step fun _ => by simp only [State.tuFlagIf]; bound

@[bound] theorem State.accFlagIf_fallow {u b c} : F ≤ s.fallow → F ≤ (s.accFlagIf u b c).fallow :=
  fallow_step fun _ => by simp only [State.accFlagIf]; bound

@[bound] theorem State.accFlags_fallow {u f} : F ≤ s.fallow → F ≤ (s.accFlags u f).fallow :=
  fallow_step fun _ => by simp only [State.accFlags]; bound


/-! ### UnitCtl -/

@[bound] theorem State.issue_fallow {u sl f} (hf : ∀ t p x, Fact (F ≤ t.fallow) → F ≤ (f t p x).fallow) :
    F ≤ s.fallow → F ≤ (s.issue u sl f).fallow :=
  fallow_step fun _ => by
    simp only [State.issue]
    split
    · bound
    next p _ => exact fallow_call (f := (f · p _)) (hf · p _) (by bound)

@[bound] theorem State.aOp_fallow {u d f} : F ≤ s.fallow → F ≤ (s.aOp u d f).fallow :=
  fallow_step fun _ => by simp only [State.aOp]; bound

@[bound] theorem State.badSlot_fallow {u sl} : F ≤ s.fallow → F ≤ (s.badSlot u sl).fallow :=
  fallow_step fun _ => by simp only [State.badSlot]; bound

@[bound] theorem State.a_add_fallow {u d a b} : F ≤ s.fallow → F ≤ (s.a_add u d a b).fallow :=
  fallow_step fun _ => by simp only [State.a_add]; bound

@[bound] theorem State.a_sub_fallow {u d a b} : F ≤ s.fallow → F ≤ (s.a_sub u d a b).fallow :=
  fallow_step fun _ => by simp only [State.a_sub]; bound

@[bound] theorem State.a_and_fallow {u d a b} : F ≤ s.fallow → F ≤ (s.a_and u d a b).fallow :=
  fallow_step fun _ => by simp only [State.a_and]; bound

@[bound] theorem State.a_shl_fallow {u d a b} : F ≤ s.fallow → F ≤ (s.a_shl u d a b).fallow :=
  fallow_step fun _ => by simp only [State.a_shl]; bound

@[bound] theorem State.a_shr_fallow {u d a b} : F ≤ s.fallow → F ≤ (s.a_shr u d a b).fallow :=
  fallow_step fun _ => by simp only [State.a_shr]; bound

@[bound] theorem State.a_addi_fallow {u d a imm} : F ≤ s.fallow → F ≤ (s.a_addi u d a imm).fallow :=
  fallow_step fun _ => by simp only [State.a_addi]; bound

@[bound] theorem State.a_andi_fallow {u d a imm} : F ≤ s.fallow → F ≤ (s.a_andi u d a imm).fallow :=
  fallow_step fun _ => by simp only [State.a_andi]; bound

@[bound] theorem State.a_shli_fallow {u d a imm} : F ≤ s.fallow → F ≤ (s.a_shli u d a imm).fallow :=
  fallow_step fun _ => by simp only [State.a_shli]; bound

@[bound] theorem State.a_shri_fallow {u d a imm} : F ≤ s.fallow → F ≤ (s.a_shri u d a imm).fallow :=
  fallow_step fun _ => by simp only [State.a_shri]; bound

@[bound] theorem State.lOp_fallow {u f} : F ≤ s.fallow → F ≤ (s.lOp u f).fallow :=
  fallow_step fun _ => by simp only [State.lOp]; bound

@[bound] theorem State.loopOp_fallow {u body creg} : F ≤ s.fallow → F ≤ (s.loopOp u body creg).fallow :=
  fallow_step fun _ => by simp only [State.loopOp]; bound

@[bound] theorem State.waitOp_fallow {u t} : F ≤ s.fallow → F ≤ (s.waitOp u t).fallow :=
  fallow_step fun _ => by simp only [State.waitOp]; bound

@[bound] theorem State.waitExpiry_fallow {u} : F ≤ s.fallow → F ≤ (s.waitExpiry u).fallow :=
  fallow_step fun _ => by simp only [State.waitExpiry]; bound

@[bound] theorem State.idleOp_fallow {u n} : F ≤ s.fallow → F ≤ (s.idleOp u n).fallow :=
  fallow_step fun _ => by simp only [State.idleOp]; bound

@[bound] theorem State.idleExpiry_fallow {u} : F ≤ s.fallow → F ≤ (s.idleExpiry u).fallow :=
  fallow_step fun _ => by simp only [State.idleExpiry]; bound

@[bound] theorem State.armOp_fallow {u} : F ≤ s.fallow → F ≤ (s.armOp u).fallow :=
  fallow_step fun _ => by simp only [State.armOp]; bound

@[bound] theorem State.entryOp_fallow {u a} : F ≤ s.fallow → F ≤ (s.entryOp u a).fallow :=
  fallow_step fun _ => by simp only [State.entryOp]; bound

@[bound] theorem State.haltOp_fallow {u} : F ≤ s.fallow → F ≤ (s.haltOp u).fallow :=
  fallow_step fun _ => by simp only [State.haltOp]; bound

@[bound] theorem State.skipOp_fallow {u flag sense n} : F ≤ s.fallow → F ≤ (s.skipOp u flag sense n).fallow :=
  fallow_step fun _ => by simp only [State.skipOp]; bound

@[bound] theorem State.noteLag_fallow {r} : F ≤ s.fallow → F ≤ (s.noteLag r).fallow :=
  fallow_step fun _ => by simp only [State.noteLag]; bound


/-! ### Matrix -/

@[bound] theorem State.releaseProof_fallow {u g} : F ≤ s.fallow → F ≤ (s.releaseProof u g).fallow :=
  fallow_step fun _ => by simp only [State.releaseProof]; bound

@[bound] theorem State.mma_fallow {u o} : F ≤ s.fallow → F ≤ (s.mma u o).fallow :=
  fallow_step fun _ => by simp only [State.mma]; bound

@[bound] theorem State.bindProof_fallow {u g want} : F ≤ s.fallow → F ≤ (s.bindProof u g want).1.fallow :=
  fallow_step fun _ => by simp only [State.bindProof]; bound

@[bound] theorem State.grpOpen_fallow {u o} : F ≤ s.fallow → F ≤ (s.grpOpen u o).fallow :=
  fallow_step fun _ => by simp only [State.grpOpen]; bound

@[bound] theorem State.grpClose_fallow {u g} : F ≤ s.fallow → F ≤ (s.grpClose u g).fallow :=
  fallow_step fun _ => by simp only [State.grpClose]; bound

@[bound] theorem State.crossedRun_fallow {u p g} : F ≤ s.fallow → F ≤ (s.crossedRun u p g).fallow :=
  fallow_step fun _ => by simp only [State.crossedRun]; bound

@[bound] theorem State.liveRun_fallow {u p f m ups} : F ≤ s.fallow → F ≤ (s.liveRun u p f m ups).fallow :=
  fallow_step fun _ => by simp only [State.liveRun]; bound

@[bound] theorem State.runPromotion_fallow {u ups} : F ≤ s.fallow → F ≤ (s.runPromotion u ups).fallow :=
  fallow_step fun _ => by simp only [State.runPromotion]; bound

@[bound] theorem State.mismatch_fallow {u g row col bundle verso} :
    F ≤ s.fallow → F ≤ (s.mismatch u g row col bundle verso).fallow :=
  fallow_step fun _ => by simp only [State.mismatch]; bound

@[bound] theorem State.replayCompared_fallow {p bad} : F ≤ s.fallow → F ≤ (s.replayCompared p bad).fallow :=
  fallow_step fun _ => by simp only [State.replayCompared]; bound

@[bound] theorem State.checksumComparison_fallow {u} : F ≤ s.fallow → F ≤ (s.checksumComparison u).fallow :=
  fallow_step fun _ => by simp only [State.checksumComparison]; bound

@[bound] theorem State.proofResult_fallow {u} : F ≤ s.fallow → F ≤ (s.proofResult u).fallow :=
  fallow_step fun _ => by simp only [State.proofResult]; bound


/-! ### Writer -/

@[bound] theorem State.wWrite_fallow {u o} : F ≤ s.fallow → F ≤ (s.wWrite u o).fallow :=
  fallow_step fun _ => by simp only [State.wWrite]; bound

@[bound] theorem State.wWriteComplete_fallow {u} : F ≤ s.fallow → F ≤ (s.wWriteComplete u).fallow :=
  fallow_step fun _ => by simp only [State.wWriteComplete]; bound


/-! ### Vector -/

@[bound] theorem State.vOp_fallow {u vd lat f} : F ≤ s.fallow → F ≤ (s.vOp u vd lat f).fallow :=
  fallow_step fun _ => by simp only [State.vOp]; bound

@[bound] theorem State.vAdd_fallow {u vd va vb} : F ≤ s.fallow → F ≤ (s.vAdd u vd va vb).fallow :=
  fallow_step fun _ => by simp only [State.vAdd]; bound

@[bound] theorem State.vSub_fallow {u vd va vb} : F ≤ s.fallow → F ≤ (s.vSub u vd va vb).fallow :=
  fallow_step fun _ => by simp only [State.vSub]; bound

@[bound] theorem State.vMul_fallow {u vd va vb} : F ≤ s.fallow → F ≤ (s.vMul u vd va vb).fallow :=
  fallow_step fun _ => by simp only [State.vMul]; bound

@[bound] theorem State.vFma_fallow {u vd va vb vc} : F ≤ s.fallow → F ≤ (s.vFma u vd va vb vc).fallow :=
  fallow_step fun _ => by simp only [State.vFma]; bound

@[bound] theorem State.vRcpOp_fallow {u vd va} : F ≤ s.fallow → F ≤ (s.vRcpOp u vd va).fallow :=
  fallow_step fun _ => by simp only [State.vRcpOp]; bound

@[bound] theorem State.vRsqOp_fallow {u vd va} : F ≤ s.fallow → F ≤ (s.vRsqOp u vd va).fallow :=
  fallow_step fun _ => by simp only [State.vRsqOp]; bound

@[bound] theorem State.vExpOp_fallow {u vd va} : F ≤ s.fallow → F ≤ (s.vExpOp u vd va).fallow :=
  fallow_step fun _ => by simp only [State.vExpOp]; bound

@[bound] theorem State.vSum_fallow {u vd va} : F ≤ s.fallow → F ≤ (s.vSum u vd va).fallow :=
  fallow_step fun _ => by simp only [State.vSum]; bound

@[bound] theorem State.vSplat_fallow {u vd imm} : F ≤ s.fallow → F ≤ (s.vSplat u vd imm).fallow :=
  fallow_step fun _ => by simp only [State.vSplat]; bound

@[bound] theorem State.vLdg_fallow {u vd g imm reg} : F ≤ s.fallow → F ≤ (s.vLdg u vd g imm reg).fallow :=
  fallow_step fun _ => by simp only [State.vLdg]; bound

@[bound] theorem State.vLd_fallow {u vd desc reg} : F ≤ s.fallow → F ≤ (s.vLd u vd desc reg).fallow :=
  fallow_step fun _ => by simp only [State.vLd]; bound

@[bound] theorem State.vSt_fallow {u va desc reg} : F ≤ s.fallow → F ≤ (s.vSt u va desc reg).fallow :=
  fallow_step fun _ => by simp only [State.vSt]; bound


/-! ### Verdict -/

@[bound] theorem State.countEvent_fallow {e} : F ≤ s.fallow → F ≤ (s.countEvent e).fallow :=
  fallow_step fun _ => by simp only [State.countEvent]; bound

@[bound] theorem State.arrive_fallow {n} : F ≤ s.fallow → F ≤ (s.arrive n).fallow :=
  fallow_step fun _ => by simp only [State.arrive]; bound

@[bound] theorem State.charge_fallow {p n} : F ≤ s.fallow → F ≤ (s.charge p n).fallow :=
  fallow_step fun _ => by simp only [State.charge]; bound

@[bound] theorem State.promoteProv_fallow {p} : F ≤ s.fallow → F ≤ (s.promoteProv p).fallow :=
  fallow_step fun _ => by simp only [State.promoteProv]; bound

@[bound] theorem State.comparePairs_fallow {p f} : F ≤ s.fallow → F ≤ (s.comparePairs p f).fallow :=
  fallow_step fun _ => by simp only [State.comparePairs]; bound

@[bound] theorem State.compareTwin_fallow {p f} : F ≤ s.fallow → F ≤ (s.compareTwin p f).fallow :=
  fallow_step fun _ => by simp only [State.compareTwin]; bound

@[bound] theorem State.verdictTick_fallow {p} : F ≤ s.fallow → F ≤ (s.verdictTick p).fallow :=
  fallow_step fun _ => by simp only [State.verdictTick]; bound

@[bound] theorem State.hold_fallow {p r arrived} : F ≤ s.fallow → F ≤ (s.hold p r arrived).fallow :=
  fallow_step fun _ => by simp only [State.hold]; bound

@[bound] theorem State.treeAdvance_fallow {p} : F ≤ s.fallow → F ≤ (s.treeAdvance p).fallow :=
  fallow_step fun _ => by simp only [State.treeAdvance]; bound

@[bound] theorem State.treeReceive_fallow {port r} : F ≤ s.fallow → F ≤ (s.treeReceive port r).fallow :=
  fallow_step fun _ => by simp only [State.treeReceive]; bound

@[bound] theorem State.closeSnapshot_fallow {p f q valid} : F ≤ s.fallow → F ≤ (s.closeSnapshot p f q valid).fallow :=
  fallow_step fun _ => by simp only [State.closeSnapshot]; bound

@[bound] theorem State.noteVerdict_fallow {p f commits} : F ≤ s.fallow → F ≤ (s.noteVerdict p f commits).fallow :=
  fallow_step fun _ => by simp only [State.noteVerdict]; bound

@[bound] theorem State.noteDigests_fallow {p f} : F ≤ s.fallow → F ≤ (s.noteDigests p f).fallow :=
  fallow_step fun _ => by simp only [State.noteDigests]; bound

@[bound] theorem State.commitTick_fallow {p} : F ≤ s.fallow → F ≤ (s.commitTick p).fallow :=
  fallow_step fun _ => by simp only [State.commitTick]; bound


/-! ### Links -/

@[bound] theorem State.modLane_fallow {l f} : F ≤ s.fallow → F ≤ (s.modLane l f).fallow :=
  fallow_step fun _ => by simp only [State.modLane]; bound

@[bound] theorem State.modPort_fallow {p f} : F ≤ s.fallow → F ≤ (s.modPort p f).fallow :=
  fallow_step fun _ => by simp only [State.modPort]; bound

@[bound] theorem State.syncPort_fallow {p} : F ≤ s.fallow → F ≤ (s.syncPort p).fallow :=
  fallow_step fun _ => by simp only [State.syncPort]; bound

@[bound] theorem State.syncTwin_fallow : F ≤ s.fallow → F ≤ s.syncTwin.fallow :=
  fallow_step fun _ => by simp only [State.syncTwin]; bound

@[bound] theorem State.setLane_fallow {l st} : F ≤ s.fallow → F ≤ (s.setLane l st).fallow :=
  fallow_step fun _ => by simp only [State.setLane]; bound

@[bound] theorem State.loseLane_fallow {p k t} : F ≤ s.fallow → F ≤ (s.loseLane p k t).fallow :=
  fallow_step fun _ => by simp only [State.loseLane]; bound

@[bound] theorem State.laneLost_fallow {l} : F ≤ s.fallow → F ≤ (s.laneLost l).fallow :=
  fallow_step fun _ => by simp only [State.laneLost]; bound

@[bound] theorem State.laneDown_fallow {l} : F ≤ s.fallow → F ≤ (s.laneDown l).fallow :=
  fallow_step fun _ => by simp only [State.laneDown]; bound

@[bound] theorem State.laneFailure_fallow {l} : F ≤ s.fallow → F ≤ (s.laneFailure l).fallow :=
  fallow_step fun _ => by simp only [State.laneFailure]; bound

@[bound] theorem State.lossOfSignal_fallow {l} : F ≤ s.fallow → F ≤ (s.lossOfSignal l).fallow :=
  fallow_step fun _ => by simp only [State.lossOfSignal]; bound

@[bound] theorem State.failLane_fallow {l} : F ≤ s.fallow → F ≤ (s.failLane l).fallow :=
  fallow_step fun _ => by simp only [State.failLane]; bound

@[bound] theorem State.laneTrained_fallow {l delay} : F ≤ s.fallow → F ≤ (s.laneTrained l delay).fallow :=
  fallow_step fun _ => by simp only [State.laneTrained]; bound

@[bound] theorem State.trainTimeout_fallow {l} : F ≤ s.fallow → F ≤ (s.trainTimeout l).fallow :=
  fallow_step fun _ => by simp only [State.trainTimeout]; bound

@[bound] theorem State.failedRetry_fallow {l} : F ≤ s.fallow → F ≤ (s.failedRetry l).fallow :=
  fallow_step fun _ => by simp only [State.failedRetry]; bound

@[bound] theorem State.codeword_fallow {l c} : F ≤ s.fallow → F ≤ (s.codeword l c).fallow :=
  fallow_step fun _ => by simp only [State.codeword]; bound

@[bound] theorem State.header_fallow {p k hcrc lane} : F ≤ s.fallow → F ≤ (s.header p k hcrc lane).fallow :=
  fallow_step fun _ => by simp only [State.header]; bound

@[bound] theorem State.setSend_fallow {b x} : F ≤ s.fallow → F ≤ (s.setSend b x).fallow :=
  fallow_step fun _ => by simp only [State.setSend]; bound

@[bound] theorem State.setRecv_fallow {b x} : F ≤ s.fallow → F ≤ (s.setRecv b x).fallow :=
  fallow_step fun _ => by simp only [State.setRecv]; bound

@[bound] theorem State.sendIdle_fallow {l base} : F ≤ s.fallow → F ≤ (s.sendIdle l base).fallow :=
  fallow_step fun _ => by simp only [State.sendIdle]; bound

@[bound] theorem State.slotSend_fallow {p k} : F ≤ s.fallow → F ≤ (s.slotSend p k).fallow :=
  fallow_step fun _ => by simp only [State.slotSend]; bound

@[bound] theorem State.soundSlot_fallow {p k fec head payload named} :
    F ≤ s.fallow → F ≤ (s.soundSlot p k fec head payload named).1.fallow :=
  fallow_step fun _ => by simp only [State.soundSlot]; bound

@[bound] theorem State.judgeSlot_fallow {p k x} : F ≤ s.fallow → F ≤ (s.judgeSlot p k x).1.fallow :=
  fallow_step fun _ => by simp only [State.judgeSlot]; bound

@[bound] theorem State.blankSlot_fallow {p k q t} : F ≤ s.fallow → F ≤ (s.blankSlot p k q t).fallow :=
  fallow_step fun _ => by simp only [State.blankSlot]; bound

@[bound] theorem State.twinResult_fallow {q b slot} : F ≤ s.fallow → F ≤ (s.twinResult q b slot).fallow :=
  fallow_step fun _ => by simp only [State.twinResult]; bound

@[bound] theorem State.slotReceive_fallow {p k x} : F ≤ s.fallow → F ≤ (s.slotReceive p k x).fallow :=
  fallow_step fun hs => by
    simp only [State.slotReceive]
    split
    all_goals
      rename_i heq
      have := fallow_fst heq (State.judgeSlot_fallow hs.out)
      bound

@[bound] theorem State.fabricOut_fallow {x r} : F ≤ s.fallow → F ≤ (s.fabricOut x r).fallow :=
  fallow_step fun _ => by simp only [State.fabricOut]; bound

@[bound] theorem State.fabricSlot_fallow {x line} : F ≤ s.fallow → F ≤ (s.fabricSlot x line).fallow :=
  fallow_step fun _ => by simp only [State.fabricSlot]; bound

@[bound] theorem State.fabricWay_fallow {p a b} : F ≤ s.fallow → F ≤ (s.fabricWay p a b).1.fallow :=
  fallow_step fun _ => by simp only [State.fabricWay]; bound

@[bound] theorem State.fabricTake_fallow {d f inbound} : F ≤ s.fallow → F ≤ (s.fabricTake d f inbound).1.fallow :=
  fallow_step fun _ => by simp only [State.fabricTake]; bound

@[bound] theorem State.dieWay_fallow {d a b} : F ≤ s.fallow → F ≤ (s.dieWay d a b).1.fallow :=
  fallow_step fun _ => by simp only [State.dieWay]; bound

@[bound] theorem State.switchLane_fallow {p k} : F ≤ s.fallow → F ≤ (s.switchLane p k).fallow :=
  fallow_step fun _ => by simp only [State.switchLane]; bound

@[bound] theorem State.laneSwitches_fallow {who} : F ≤ s.fallow → F ≤ (s.laneSwitches who).fallow :=
  fallow_step fun _ => by simp only [State.laneSwitches]; bound

@[bound] theorem State.spareOut_fallow {l} : F ≤ s.fallow → F ≤ (s.spareOut l).fallow :=
  fallow_step fun _ => by simp only [State.spareOut]; bound

@[bound] theorem State.ldSpareSet_fallow {k high v} : F ≤ s.fallow → F ≤ (s.ldSpareSet k high v).fallow :=
  fallow_step fun _ => by simp only [State.ldSpareSet]; bound

@[bound] theorem State.ldSpareWrite_fallow {k high v} : F ≤ s.fallow → F ≤ (s.ldSpareWrite k high v).fallow :=
  fallow_step fun _ => by simp only [State.ldSpareWrite]; bound

@[bound] theorem State.sparesDue_fallow {who} : F ≤ s.fallow → F ≤ (s.sparesDue who).fallow :=
  fallow_step fun _ => by simp only [State.sparesDue]; bound

@[bound] theorem State.modTwin_fallow {f} : F ≤ s.fallow → F ≤ (s.modTwin f).fallow :=
  fallow_step fun _ => by simp only [State.modTwin]; bound

@[bound] theorem State.twinLost_fallow {b} : F ≤ s.fallow → F ≤ (s.twinLost b).fallow :=
  fallow_step fun _ => by simp only [State.twinLost]; bound

@[bound] theorem State.heartbeatMissing_fallow : F ≤ s.fallow → F ≤ s.heartbeatMissing.fallow :=
  fallow_step fun _ => by simp only [State.heartbeatMissing]; bound

@[bound] theorem State.modStream_fallow {id f} : F ≤ s.fallow → F ≤ (s.modStream id f).fallow :=
  fallow_step fun _ => by simp only [State.modStream]; bound

@[bound] theorem State.bulkRead_fallow {t} : F ≤ s.fallow → F ≤ (s.bulkRead t).fallow :=
  fallow_step fun _ => by simp only [State.bulkRead]; bound

@[bound] theorem State.dealStream_fallow {id deal} : F ≤ s.fallow → F ≤ (s.dealStream id deal).1.fallow :=
  fallow_step fun _ => by simp only [State.dealStream]; bound

@[bound] theorem State.bulkFor_fallow {p t} : F ≤ s.fallow → F ≤ (s.bulkFor p t).1.fallow :=
  fallow_step fun _ => by simp only [State.bulkFor]; bound

@[bound] theorem State.bulkLand_fallow {t a b} : F ≤ s.fallow → F ≤ (s.bulkLand t a b).fallow :=
  fallow_step fun _ => by simp only [State.bulkLand]; bound

@[bound] theorem State.bulkFill_fallow {p bulk} : F ≤ s.fallow → F ≤ (s.bulkFill p bulk).1.fallow :=
  fallow_step fun _ => by simp only [State.bulkFill]; bound

@[bound] theorem State.tramlineSend_fallow {p} : F ≤ s.fallow → F ≤ (s.tramlineSend p).fallow :=
  fallow_step fun _ => by simp only [State.tramlineSend]; bound

@[bound] theorem State.detachSent_fallow {p} : F ≤ s.fallow → F ≤ (s.detachSent p).fallow :=
  fallow_step fun _ => by simp only [State.detachSent]; bound

@[bound] theorem State.accept_fallow {p seq} : F ≤ s.fallow → F ≤ (s.accept p seq).fallow :=
  fallow_step fun _ => by simp only [State.accept]; bound

@[bound] theorem State.message_fallow {p seq m} : F ≤ s.fallow → F ≤ (s.message p seq m).fallow :=
  fallow_step fun _ => by simp only [State.message]; bound

@[bound] theorem State.bulkIn_fallow {b} : F ≤ s.fallow → F ≤ (s.bulkIn b).fallow :=
  fallow_step fun _ => by simp only [State.bulkIn]; bound

@[bound] theorem State.portDelay_fallow {p r t2} : F ≤ s.fallow → F ≤ (s.portDelay p r t2).fallow :=
  fallow_step fun _ => by simp only [State.portDelay]; bound

@[bound] theorem State.recordLane_fallow {p k} : F ≤ s.fallow → F ≤ (s.recordLane p k).fallow :=
  fallow_step fun _ => by simp only [State.recordLane]; bound

@[bound] theorem State.tramRecords_fallow {p b} : F ≤ s.fallow → F ≤ (s.tramRecords p b).fallow :=
  fallow_step fun _ => by simp only [State.tramRecords]; bound

@[bound] theorem State.notePeer_fallow {p k h} : F ≤ s.fallow → F ≤ (s.notePeer p k h).fallow :=
  fallow_step fun _ => by simp only [State.notePeer]; bound

@[bound] theorem State.tramlineTake_fallow {p k timeLane h x} :
    F ≤ s.fallow → F ≤ (s.tramlineTake p k timeLane h x).fallow :=
  fallow_step fun _ => by simp only [State.tramlineTake]; bound

@[bound] theorem State.tramlineReceive_fallow {p k x} : F ≤ s.fallow → F ≤ (s.tramlineReceive p k x).fallow :=
  fallow_step fun _ => by simp only [State.tramlineReceive]; bound


/-! ### Reduction -/

@[bound] theorem State.modRed_fallow {d f} : F ≤ s.fallow → F ≤ (s.modRed d f).fallow :=
  fallow_step fun _ => by simp only [State.modRed]; bound

@[bound] theorem State.redSuspect_fallow {d b} : F ≤ s.fallow → F ≤ (s.redSuspect d b).fallow :=
  fallow_step fun _ => by simp only [State.redSuspect]; bound

@[bound] theorem State.coldRequest_fallow {d} : F ≤ s.fallow → F ≤ (s.coldRequest d).fallow :=
  fallow_step fun _ => by simp only [State.coldRequest]; bound

@[bound] theorem State.setRedBlock_fallow {d w k b} : F ≤ s.fallow → F ≤ (s.setRedBlock d w k b).fallow :=
  fallow_step fun _ => by simp only [State.setRedBlock]; bound

@[bound] theorem State.blockServe_fallow {d w k c} : F ≤ s.fallow → F ≤ (s.blockServe d w k c).1.fallow :=
  fallow_step fun _ => by simp only [State.blockServe]; bound

@[bound] theorem State.intake_fallow {d n} : F ≤ s.fallow → F ≤ (s.intake d n).fallow :=
  fallow_step fun _ => by simp only [State.intake]; bound

@[bound] theorem State.contribute_fallow {d port wi index f rows cols el skip} :
    F ≤ s.fallow → F ≤ (s.contribute d port wi index f rows cols el skip).fallow :=
  fallow_step fun _ => by simp only [State.contribute]; bound

@[bound] theorem State.noteRun_fallow {d a n} : F ≤ s.fallow → F ≤ (s.noteRun d a n).fallow :=
  fallow_step fun _ => by simp only [State.noteRun]; bound

@[bound] theorem State.readHistory_fallow {d wi w} : F ≤ s.fallow → F ≤ (s.readHistory d wi w).fallow :=
  fallow_step fun _ => by simp only [State.readHistory]; bound

@[bound] theorem State.windowOpen_fallow {d wi} : F ≤ s.fallow → F ≤ (s.windowOpen d wi).fallow :=
  fallow_step fun _ => by simp only [State.windowOpen]; bound

@[bound] theorem State.nanResult_fallow {d} : F ≤ s.fallow → F ≤ (s.nanResult d).fallow :=
  fallow_step fun _ => by simp only [State.nanResult]; bound

@[bound] theorem State.writeHistory_fallow {d wi w res} : F ≤ s.fallow → F ≤ (s.writeHistory d wi w res).fallow :=
  fallow_step fun _ => by simp only [State.writeHistory]; bound

@[bound] theorem State.windowSeal_fallow {d wi} : F ≤ s.fallow → F ≤ (s.windowSeal d wi).fallow :=
  fallow_step fun _ => by simp only [State.windowSeal]; bound

@[bound] theorem State.ringTx_fallow {p e pay} : F ≤ s.fallow → F ≤ (s.ringTx p e pay).fallow :=
  fallow_step fun _ => by simp only [State.ringTx]; bound

@[bound] theorem State.ringStore_fallow {d e j b} : F ≤ s.fallow → F ≤ (s.ringStore d e j b).fallow :=
  fallow_step fun _ => by simp only [State.ringStore]; bound

@[bound] theorem State.disagree_fallow {d agreed b} : F ≤ s.fallow → F ≤ (s.disagree d agreed b).fallow :=
  fallow_step fun _ => by simp only [State.disagree]; bound

@[bound] theorem State.ringCopy_fallow {d i w e k got out stored} :
    F ≤ s.fallow → F ≤ (s.ringCopy d i w e k got out stored).fallow :=
  fallow_step fun _ => by simp only [State.ringCopy]; bound

@[bound] theorem State.ringAdd_fallow {d i w e j raw} : F ≤ s.fallow → F ≤ (s.ringAdd d i w e j raw).1.fallow :=
  fallow_step fun _ => by simp only [State.ringAdd]; bound

@[bound] theorem State.ringRecord_fallow {d wi w} : F ≤ s.fallow → F ≤ (s.ringRecord d wi w).fallow :=
  fallow_step fun _ => by simp only [State.ringRecord]; bound

@[bound] theorem State.ringBlock_fallow {d i w e j g} : F ≤ s.fallow → F ≤ (s.ringBlock d i w e j g).1.fallow :=
  fallow_step fun _ => by simp only [State.ringBlock]; bound

@[bound] theorem State.ringRun_fallow {d i start} : F ≤ s.fallow → F ≤ (s.ringRun d i start).fallow :=
  fallow_step fun _ => by simp only [State.ringRun]; bound

@[bound] theorem State.ringLate_fallow {port lane} : F ≤ s.fallow → F ≤ (s.ringLate port lane).fallow :=
  fallow_step fun _ => by simp only [State.ringLate]; bound

@[bound] theorem State.accumSlot_fallow {p k x} : F ≤ s.fallow → F ≤ (s.accumSlot p k x).fallow :=
  fallow_step fun hs => by
    simp only [State.accumSlot]
    split
    all_goals
      rename_i heq
      have := fallow_fst heq (State.judgeSlot_fallow hs.out)
      bound

@[bound] theorem State.gleanCompare_fallow {d owner wi k} : F ≤ s.fallow → F ≤ (s.gleanCompare d owner wi k).fallow :=
  fallow_step fun _ => by simp only [State.gleanCompare]; bound

@[bound] theorem State.gleanDue_fallow {p} : F ≤ s.fallow → F ≤ (s.gleanDue p).fallow :=
  fallow_step fun _ => by simp only [State.gleanDue]; bound

@[bound] theorem State.accumulate_fallow {x} : F ≤ s.fallow → F ≤ (s.accumulate x).fallow :=
  fallow_step fun _ => by simp only [State.accumulate]; bound

@[bound] theorem State.gleanAt_fallow {p} : F ≤ s.fallow → F ≤ (s.gleanAt p).fallow :=
  fallow_step fun _ => by simp only [State.gleanAt]; bound


/-! ### Engines -/

@[bound] theorem State.setBusy_fallow {c rake b} : F ≤ s.fallow → F ≤ (s.setBusy c rake b).fallow :=
  fallow_step fun _ => by simp only [State.setBusy]; bound

@[bound] theorem State.engSuspect_fallow {c rake e b} : F ≤ s.fallow → F ≤ (s.engSuspect c rake e b).fallow :=
  fallow_step fun _ => by simp only [State.engSuspect]; bound

@[bound] theorem State.sowRow_fallow {d port w row col0 f cols b lost} :
    F ≤ s.fallow → F ≤ (s.sowRow d port w row col0 f cols b lost).fallow :=
  fallow_step fun _ => by simp only [State.sowRow]; bound

@[bound] theorem State.engBegin_fallow {c e plan} : F ≤ s.fallow → F ≤ (s.engBegin c e plan).fallow :=
  fallow_step fun _ => by simp only [State.engBegin]; bound

@[bound] theorem State.sow_fallow {c e} : F ≤ s.fallow → F ≤ (s.sow c e).fallow :=
  fallow_step fun _ => by simp only [State.sow]; bound

@[bound] theorem State.pushTile_fallow {u p g b blank c k} :
    F ≤ s.fallow → F ≤ (s.pushTile u p g b blank c k).fallow :=
  fallow_step fun _ => by simp only [State.pushTile]; bound

@[bound] theorem State.dropItem_fallow {c e route} : F ≤ s.fallow → F ≤ (s.dropItem c e route).fallow :=
  fallow_step fun _ => by simp only [State.dropItem]; bound

@[bound] theorem State.badKeys_fallow {c e n} : F ≤ s.fallow → F ≤ (s.badKeys c e n).fallow :=
  fallow_step fun _ => by simp only [State.badKeys]; bound

@[bound] theorem State.dropItems_fallow {c e is} : F ≤ s.fallow → F ≤ (s.dropItems c e is).fallow :=
  fallow_step fun _ => by simp only [State.dropItems]; bound

@[bound] theorem State.pack_fallow {c e} : F ≤ s.fallow → F ≤ (s.pack c e).fallow :=
  fallow_step fun _ => by simp only [State.pack]; bound

@[bound] theorem State.drain_fallow {c e} : F ≤ s.fallow → F ≤ (s.drain c e).fallow :=
  fallow_step fun _ => by simp only [State.drain]; bound

@[bound] theorem State.gather_fallow {c e} : F ≤ s.fallow → F ≤ (s.gather c e).fallow :=
  fallow_step fun _ => by simp only [State.gather]; bound

@[bound] theorem State.pick_fallow {c e} : F ≤ s.fallow → F ≤ (s.pick c e).fallow :=
  fallow_step fun _ => by simp only [State.pick]; bound

@[bound] theorem State.blockArrive_fallow {u p rake issue lines furrow who add b} :
    F ≤ s.fallow → F ≤ (s.blockArrive u p rake issue lines furrow who add b).fallow :=
  fallow_step fun _ => by simp only [State.blockArrive]; bound

@[bound] theorem State.engMake_fallow {c op f} (hf : ∀ t c e, Fact (F ≤ t.fallow) → F ≤ (f t c e).fallow) :
    F ≤ s.fallow → F ≤ (s.engMake c op f).fallow :=
  fallow_step fun _ => by
    simp only [State.engMake]
    split
    · bound
    · exact ite_fallow (by bound) (fallow_call (f := (f · c _)) (hf · c _) (by bound))

@[bound] theorem State.engDone_fallow {c rake} : F ≤ s.fallow → F ≤ (s.engDone c rake).fallow :=
  fallow_step fun _ => by simp only [State.engDone]; bound

@[bound] theorem State.capacitySlot_fallow {p k x} : F ≤ s.fallow → F ≤ (s.capacitySlot p k x).fallow :=
  fallow_step fun hs => by
    simp only [State.capacitySlot]
    split
    all_goals
      rename_i heq
      have := fallow_fst heq (State.judgeSlot_fallow hs.out)
      bound


/-! ### Moves -/

@[bound] theorem State.takePort_fallow {u x inb delay n go} (hgo : ∀ t, Fact (F ≤ t.fallow) → F ≤ (go t).fallow) :
    F ≤ s.fallow → F ≤ (s.takePort u x inb delay n go).fallow :=
  fallow_step fun _ => by simp only [State.takePort]; exact ite_fallow (by bound) (ite_fallow (by bound) (hgo s ‹_›))

@[bound] theorem State.refusedMove_fallow {u p x c inb far l lines} :
    F ≤ s.fallow → F ≤ (s.refusedMove u p x c inb far l lines).fallow :=
  fallow_step fun _ => by simp only [State.refusedMove]; bound

@[bound] theorem State.xFar_fallow {u o k} : F ≤ s.fallow → F ≤ (s.xFar u o k).fallow :=
  fallow_step fun _ => by simp only [State.xFar]; bound

@[bound] theorem State.xLocal_fallow {u k o occ f}
    (hf : ∀ t p x c, Fact (F ≤ t.fallow) → F ≤ (f t p x c).fallow) :
    F ≤ s.fallow → F ≤ (s.xLocal u k o occ f).fallow :=
  fallow_step fun hs => by
    simp only [State.xLocal]
    refine ite_fallow (by bound) (State.issue_fallow (fun t p x _ => ?_) hs.out)
    exact ite_fallow (by bound) (fallow_call (f := (f · p _ _)) (hf · p _ _) (by bound))

@[bound] theorem State.xRefused_fallow {u p x c o inb n} : F ≤ s.fallow → F ≤ (s.xRefused u p x c o inb n).fallow :=
  fallow_step fun _ => by simp only [State.xRefused]; bound

@[bound] theorem State.xPush_fallow {u o} : F ≤ s.fallow → F ≤ (s.xPush u o).fallow :=
  fallow_step fun _ => by simp only [State.xPush]; bound

@[bound] theorem State.xPop_fallow {u o} : F ≤ s.fallow → F ≤ (s.xPop u o).fallow :=
  fallow_step fun _ => by simp only [State.xPop]; bound

@[bound] theorem State.xTable_fallow {u o k n occ} : F ≤ s.fallow → F ≤ (s.xTable u o k n occ).fallow :=
  fallow_step fun _ => by simp only [State.xTable]; bound

@[bound] theorem State.xMon_fallow {u o} : F ≤ s.fallow → F ≤ (s.xMon u o).fallow :=
  fallow_step fun _ => by simp only [State.xMon]; bound

@[bound] theorem State.xEng_fallow {u o} : F ≤ s.fallow → F ≤ (s.xEng u o).fallow :=
  fallow_step fun _ => by simp only [State.xEng]; bound

@[bound] theorem State.xLd_fallow {u o} : F ≤ s.fallow → F ≤ (s.xLd u o).fallow :=
  fallow_step fun _ => by simp only [State.xLd]; bound

@[bound] theorem State.xSt_fallow {u o} : F ≤ s.fallow → F ≤ (s.xSt u o).fallow :=
  fallow_step fun _ => by simp only [State.xSt]; bound

@[bound] theorem State.xSend_fallow {u o} : F ≤ s.fallow → F ≤ (s.xSend u o).fallow :=
  fallow_step fun _ => by simp only [State.xSend]; bound

@[bound] theorem State.xRecv_fallow {u o} : F ≤ s.fallow → F ≤ (s.xRecv u o).fallow :=
  fallow_step fun _ => by simp only [State.xRecv]; bound

@[bound] theorem State.xRacc_fallow {u o} : F ≤ s.fallow → F ≤ (s.xRacc u o).fallow :=
  fallow_step fun _ => by simp only [State.xRacc]; bound

@[bound] theorem State.xIload_fallow {u o} : F ≤ s.fallow → F ≤ (s.xIload u o).fallow :=
  fallow_step fun _ => by simp only [State.xIload]; bound

@[bound] theorem State.xWtbl_fallow {u o} : F ≤ s.fallow → F ≤ (s.xWtbl u o).fallow :=
  fallow_step fun _ => by simp only [State.xWtbl]; bound

@[bound] theorem State.xDtbl_fallow {u o} : F ≤ s.fallow → F ≤ (s.xDtbl u o).fallow :=
  fallow_step fun _ => by simp only [State.xDtbl]; bound

@[bound] theorem State.moveSuspect_fallow {d m r b} : F ≤ s.fallow → F ≤ (s.moveSuspect d m r b).fallow :=
  fallow_step fun _ => by simp only [State.moveSuspect]; bound

@[bound] theorem State.isoError_fallow {u m} : F ≤ s.fallow → F ≤ (s.isoError u m).1.fallow :=
  fallow_step fun _ => by simp only [State.isoError]; bound

@[bound] theorem State.farRead_fallow {i f a e} : F ≤ s.fallow → F ≤ (s.farRead i f a e).1.fallow :=
  fallow_step fun _ => by simp only [State.farRead]; bound

@[bound] theorem State.farWrite_fallow {i f a b} : F ≤ s.fallow → F ≤ (s.farWrite i f a b).1.fallow :=
  fallow_step fun _ => by simp only [State.farWrite]; bound

@[bound] theorem State.recvCheck_fallow {u p f m} : F ≤ s.fallow → F ≤ (s.recvCheck u p f m).1.fallow :=
  fallow_step fun _ => by simp only [State.recvCheck]; bound

@[bound] theorem State.landLine_fallow {u p f m b blank} : F ≤ s.fallow → F ≤ (s.landLine u p f m b blank).fallow :=
  fallow_step fun _ => by simp only [State.landLine]; bound

@[bound] theorem State.raccApply_fallow {c f o t} : F ≤ s.fallow → F ≤ (s.raccApply c f o t).fallow :=
  fallow_step fun _ => by simp only [State.raccApply]; bound

@[bound] theorem State.sendInto_fallow {m t b blank} : F ≤ s.fallow → F ≤ (s.sendInto m t b blank).fallow :=
  fallow_step fun _ => by simp only [State.sendInto]; bound

@[bound] theorem State.sendLine_fallow {u p f m t b} : F ≤ s.fallow → F ≤ (s.sendLine u p f m t b).fallow :=
  fallow_step fun _ => by simp only [State.sendLine]; bound

@[bound] theorem State.bringLine_fallow {u p f m t e} : F ≤ s.fallow → F ≤ (s.bringLine u p f m t e).fallow :=
  fallow_step fun _ => by simp only [State.bringLine]; bound

@[bound] theorem State.moveLineLand_fallow {u id e} : F ≤ s.fallow → F ≤ (s.moveLineLand u id e).fallow :=
  fallow_step fun _ => by simp only [State.moveLineLand]; bound

@[bound] theorem State.digestTile_fallow {u a f k b} : F ≤ s.fallow → F ≤ (s.digestTile u a f k b).fallow :=
  fallow_step fun _ => by simp only [State.digestTile]; bound

@[bound] theorem State.landTile_fallow {u p f k g b} : F ≤ s.fallow → F ≤ (s.landTile u p f k g b).fallow :=
  fallow_step fun _ => by simp only [State.landTile]; bound

@[bound] theorem State.galleyPushLand_fallow {u id} : F ≤ s.fallow → F ≤ (s.galleyPushLand u id).fallow :=
  fallow_step fun _ => by simp only [State.galleyPushLand]; bound

@[bound] theorem State.engineBlockArrive_fallow {u id} : F ≤ s.fallow → F ≤ (s.engineBlockArrive u id).fallow :=
  fallow_step fun _ => by simp only [State.engineBlockArrive]; bound


/-! ### Update -/

@[bound] theorem State.modUpd_fallow {d f} : F ≤ s.fallow → F ≤ (s.modUpd d f).fallow :=
  fallow_step fun _ => by simp only [State.modUpd]; bound

@[bound] theorem State.bandLines_fallow {d t v k} : F ≤ s.fallow → F ≤ (s.bandLines d t v k).1.fallow :=
  fallow_step fun _ => by simp only [State.bandLines]; bound

@[bound] theorem State.bandCarried_fallow {d t v k cf16} : F ≤ s.fallow → F ≤ (s.bandCarried d t v k cf16).1.fallow :=
  fallow_step fun _ => by simp only [State.bandCarried]; bound

@[bound] theorem State.bandIn_fallow {d t v k} : F ≤ s.fallow → F ≤ (s.bandIn d t v k).1.fallow :=
  fallow_step fun _ => by simp only [State.bandIn]; bound

@[bound] theorem State.loadBand_fallow {d r} : F ≤ s.fallow → F ≤ (s.loadBand d r).fallow :=
  fallow_step fun _ => by simp only [State.loadBand]; bound

@[bound] theorem State.updCounts_fallow {d m c} : F ≤ s.fallow → F ≤ (s.updCounts d m c).fallow :=
  fallow_step fun _ => by simp only [State.updCounts]; bound

@[bound] theorem State.bandOut_fallow {d t i r} : F ≤ s.fallow → F ≤ (s.bandOut d t i r).fallow :=
  fallow_step fun _ => by simp only [State.bandOut]; bound

@[bound] theorem State.invStart_fallow {d} : F ≤ s.fallow → F ≤ (s.invStart d).fallow :=
  fallow_step fun _ => by simp only [State.invStart]; bound

@[bound] theorem State.invEnd_fallow {d} : F ≤ s.fallow → F ≤ (s.invEnd d).fallow :=
  fallow_step fun _ => by simp only [State.invEnd]; bound

@[bound] theorem State.endBand_fallow {d r} : F ≤ s.fallow → F ≤ (s.endBand d r).fallow :=
  fallow_step fun _ => by simp only [State.endBand]; bound

@[bound] theorem State.uRun_fallow {d w f} : F ≤ s.fallow → F ≤ (s.uRun d w f).fallow :=
  fallow_step fun _ => by simp only [State.uRun]; bound

@[bound] theorem State.u2_fallow {die op d a b f} : F ≤ s.fallow → F ≤ (s.u2 die op d a b f).fallow :=
  fallow_step fun _ => by simp only [State.u2]; bound

@[bound] theorem State.u1_fallow {die op d a f} : F ≤ s.fallow → F ≤ (s.u1 die op d a f).fallow :=
  fallow_step fun _ => by simp only [State.u1]; bound

@[bound] theorem State.u3_fallow {die op d a b c f} : F ≤ s.fallow → F ≤ (s.u3 die op d a b c f).fallow :=
  fallow_step fun _ => by simp only [State.u3]; bound

@[bound] theorem State.uAdd_fallow {die d a b} : F ≤ s.fallow → F ≤ (s.uAdd die d a b).fallow :=
  fallow_step fun _ => by simp only [State.uAdd]; bound

@[bound] theorem State.uSub_fallow {die d a b} : F ≤ s.fallow → F ≤ (s.uSub die d a b).fallow :=
  fallow_step fun _ => by simp only [State.uSub]; bound

@[bound] theorem State.uMul_fallow {die d a b} : F ≤ s.fallow → F ≤ (s.uMul die d a b).fallow :=
  fallow_step fun _ => by simp only [State.uMul]; bound

@[bound] theorem State.uFma_fallow {die d a b c} : F ≤ s.fallow → F ≤ (s.uFma die d a b c).fallow :=
  fallow_step fun _ => by simp only [State.uFma]; bound

@[bound] theorem State.uDiv_fallow {die d a b} : F ≤ s.fallow → F ≤ (s.uDiv die d a b).fallow :=
  fallow_step fun _ => by simp only [State.uDiv]; bound

@[bound] theorem State.uSqrt_fallow {die d a} : F ≤ s.fallow → F ≤ (s.uSqrt die d a).fallow :=
  fallow_step fun _ => by simp only [State.uSqrt]; bound

@[bound] theorem State.uRsq_fallow {die d a} : F ≤ s.fallow → F ≤ (s.uRsq die d a).fallow :=
  fallow_step fun _ => by simp only [State.uRsq]; bound

@[bound] theorem State.uSign_fallow {die d a} : F ≤ s.fallow → F ≤ (s.uSign die d a).fallow :=
  fallow_step fun _ => by simp only [State.uSign]; bound

@[bound] theorem State.uAbs_fallow {die d a} : F ≤ s.fallow → F ≤ (s.uAbs die d a).fallow :=
  fallow_step fun _ => by simp only [State.uAbs]; bound

@[bound] theorem State.uClamp_fallow {die d a b c} : F ≤ s.fallow → F ≤ (s.uClamp die d a b c).fallow :=
  fallow_step fun _ => by simp only [State.uClamp]; bound

@[bound] theorem State.uLd_fallow {die d st} : F ≤ s.fallow → F ≤ (s.uLd die d st).fallow :=
  fallow_step fun _ => by simp only [State.uLd]; bound

@[bound] theorem State.uSt_fallow {die a st} : F ≤ s.fallow → F ≤ (s.uSt die a st).fallow :=
  fallow_step fun _ => by simp only [State.uSt]; bound

@[bound] theorem State.uStw_fallow {die a st sr} : F ≤ s.fallow → F ≤ (s.uStw die a st sr).fallow :=
  fallow_step fun _ => by simp only [State.uStw]; bound

@[bound] theorem State.uEnd_fallow {die} : F ≤ s.fallow → F ≤ (s.uEnd die).fallow :=
  fallow_step fun _ => by simp only [State.uEnd]; bound

@[bound] theorem State.loadStepRow_fallow {d} : F ≤ s.fallow → F ≤ (s.loadStepRow d).fallow :=
  fallow_step fun _ => by simp only [State.loadStepRow]; bound


/-! ### Boundaries -/

@[bound] theorem State.slip_fallow {b} : F ≤ s.fallow → F ≤ (s.slip b).fallow :=
  fallow_step fun _ => by simp only [State.slip]; bound

@[bound] theorem State.slipNotice_fallow : F ≤ s.fallow → F ≤ s.slipNotice.fallow :=
  fallow_step fun _ => by simp only [State.slipNotice]; bound

@[bound] theorem State.regionBoundary_fallow {p r} : F ≤ s.fallow → F ≤ (s.regionBoundary p r).fallow :=
  fallow_step fun _ => by simp only [State.regionBoundary]; bound

@[bound] theorem State.clockBoundary_fallow {r} : F ≤ s.fallow → F ≤ (s.clockBoundary r).fallow :=
  fallow_step fun _ => by simp only [State.clockBoundary]; bound

@[bound] theorem State.updBoundary_fallow {p d} : F ≤ s.fallow → F ≤ (s.updBoundary p d).fallow :=
  fallow_step fun _ => by simp only [State.updBoundary]; bound

@[bound] theorem State.adderBoundary_fallow {p d} : F ≤ s.fallow → F ≤ (s.adderBoundary p d).fallow :=
  fallow_step fun _ => by simp only [State.adderBoundary]; bound

@[bound] theorem State.hbmBoundary_fallow {p d} : F ≤ s.fallow → F ≤ (s.hbmBoundary p d).fallow :=
  fallow_step fun _ => by simp only [State.hbmBoundary]; bound

@[bound] theorem State.unitStep_fallow {f u p} : F ≤ s.fallow → F ≤ (s.unitStep f u p).fallow :=
  fallow_step fun _ => by simp only [State.unitStep]; bound

@[bound] theorem State.unitsStep_fallow {p f} : F ≤ s.fallow → F ≤ (s.unitsStep p f).fallow :=
  fallow_step fun _ => by simp only [State.unitsStep]; bound

@[bound] theorem State.bankMonitors_fallow {p} : F ≤ s.fallow → F ≤ (s.bankMonitors p).fallow :=
  fallow_step fun _ => by simp only [State.bankMonitors]; bound

@[bound] theorem State.loadVariant_fallow {p} : F ≤ s.fallow → F ≤ (s.loadVariant p).fallow :=
  fallow_step fun _ => by simp only [State.loadVariant]; bound

@[bound] theorem State.loadReplay_fallow {p} : F ≤ s.fallow → F ≤ (s.loadReplay p).fallow :=
  fallow_step fun _ => by simp only [State.loadReplay]; bound

@[bound] theorem State.takeVariant_fallow {p c} : F ≤ s.fallow → F ≤ (s.takeVariant p c).fallow :=
  fallow_step fun _ => by simp only [State.takeVariant]; bound

@[bound] theorem State.postReport_fallow {p f r} : F ≤ s.fallow → F ≤ (s.postReport p f r).fallow :=
  fallow_step fun _ => by simp only [State.postReport]; bound

@[bound] theorem State.formReport_fallow {p f promoted} : F ≤ s.fallow → F ≤ (s.formReport p f promoted).fallow :=
  fallow_step fun _ => by simp only [State.formReport]; bound

@[bound] theorem State.dueReports_fallow : F ≤ s.fallow → F ≤ s.dueReports.fallow :=
  fallow_step fun _ => by simp only [State.dueReports]; bound

@[bound] theorem State.inputCheck_fallow {p f} : F ≤ s.fallow → F ≤ (s.inputCheck p f).fallow :=
  fallow_step fun _ => by simp only [State.inputCheck]; bound

@[bound] theorem State.boundaryWork_fallow {p} : F ≤ s.fallow → F ≤ (s.boundaryWork p).fallow :=
  fallow_step fun _ => by simp only [State.boundaryWork]; bound

@[bound] theorem State.endStep_fallow {p f promoted} : F ≤ s.fallow → F ≤ (s.endStep p f promoted).fallow :=
  fallow_step fun _ => by simp only [State.endStep]; bound

@[bound] theorem State.beginStep_fallow {p f first c} : F ≤ s.fallow → F ≤ (s.beginStep p f first c).fallow :=
  fallow_step fun _ => by simp only [State.beginStep]; bound

@[bound] theorem State.haltAs_fallow {p} : F ≤ s.fallow → F ≤ (s.haltAs p).fallow :=
  fallow_step fun _ => by simp only [State.haltAs]; bound

@[bound] theorem State.fallowWatch_fallow {p} : F ≤ s.fallow → F ≤ (s.fallowWatch p).fallow :=
  fallow_step fun _ => by simp only [State.fallowWatch]; bound

@[bound] theorem State.commit_fallow {p} : F ≤ s.fallow → F ≤ (s.commit p).fallow :=
  fallow_step fun _ => by simp only [State.commit]; bound

@[bound] theorem State.haltStep_fallow {p f halt} (hhalt : ∀ t, Fact (F ≤ t.fallow) → F ≤ (halt t).fallow) :
    F ≤ s.fallow → F ≤ (s.haltStep p f halt).fallow :=
  fallow_step fun _ => fallow_call hhalt (by bound)

@[bound] theorem State.stepBoundary_fallow {p} : F ≤ s.fallow → F ≤ (s.stepBoundary p).fallow :=
  fallow_step fun _ => by simp only [State.stepBoundary]; bound

@[bound] theorem State.formeHalt_fallow {p} : F ≤ s.fallow → F ≤ (s.formeHalt p).fallow :=
  fallow_step fun _ => by simp only [State.formeHalt]; bound

@[bound] theorem State.lostBoundary_fallow : F ≤ s.fallow → F ≤ s.lostBoundary.fallow :=
  fallow_step fun _ => by simp only [State.lostBoundary]; bound

@[bound] theorem State.furrowBoundary_fallow : F ≤ s.fallow → F ≤ s.furrowBoundary.fallow :=
  fallow_step fun _ => by simp only [State.furrowBoundary]; bound

@[bound] theorem State.runStart_fallow {p} : F ≤ s.fallow → F ≤ (s.runStart p).fallow :=
  fallow_step fun _ => by simp only [State.runStart]; bound

@[bound] theorem State.spareBankLoad_fallow {l} : F ≤ s.fallow → F ≤ (s.spareBankLoad l).fallow :=
  fallow_step fun _ => by simp only [State.spareBankLoad]; bound

@[bound] theorem State.digestDue_fallow {t} : F ≤ s.fallow → F ≤ (s.digestDue t).fallow :=
  fallow_step fun _ => by simp only [State.digestDue]; bound

@[bound] theorem State.sendTramline_fallow {p} : F ≤ s.fallow → F ≤ (s.sendTramline p).fallow :=
  fallow_step fun _ => by simp only [State.sendTramline]; bound


/-! ### Replay -/

theorem State.acceptReplay_fallow {r n e u g} (h : F ≤ s.fallow) (ht : s.acceptReplay r n e u g = some t) : F ≤ t.fallow := by
  simp only [State.acceptReplay] at ht
  split at ht
  · cases ht
  · cases ht
    bound

@[bound] theorem State.replayMailbox_fallow {r} : F ≤ s.fallow → F ≤ (s.replayMailbox r).fallow :=
  fallow_step fun _ => by
    simp only [State.replayMailbox]
    split
    · split
      · bound
      · refine ite_fallow (by bound) ?_
        split
        · bound
        · refine ite_fallow (by bound) ?_
          split
          next ht => exact State.acceptReplay_fallow (by bound) ht
          next => bound
    · bound

@[bound] theorem State.replayStart_fallow {r second} : F ≤ s.fallow → F ≤ (s.replayStart r second).fallow :=
  fallow_step fun _ => by simp only [State.replayStart]; bound

@[bound] theorem State.twinRequest_fallow {r line} : F ≤ s.fallow → F ≤ (s.twinRequest r line).fallow :=
  fallow_step fun hs => by
    simp only [State.twinRequest]
    split
    · refine ite_fallow (by bound) ?_
      split
      · bound
      · split
        · cases ht : s.acceptReplay r _ _ _ true with
          | none => exact hs.out
          | some t => exact State.acceptReplay_fallow hs.out ht
        · bound
    · bound

@[bound] theorem State.fieldFail_fallow {d region index} : F ≤ s.fallow → F ≤ (s.fieldFail d region index).fallow :=
  fallow_step fun _ => by simp only [State.fieldFail]; bound

@[bound] theorem State.laneFail_fallow {p l} : F ≤ s.fallow → F ≤ (s.laneFail p l).fallow :=
  fallow_step fun _ => by simp only [State.laneFail]; bound

@[bound] theorem State.proofFail_fallow {p x} : F ≤ s.fallow → F ≤ (s.proofFail p x).fallow :=
  fallow_step fun _ => by simp only [State.proofFail]; bound

@[bound] theorem State.autoProofEnd_fallow {p fails} : F ≤ s.fallow → F ≤ (s.autoProofEnd p fails).fallow :=
  fallow_step fun _ => by simp only [State.autoProofEnd]; bound

@[bound] theorem State.fieldProofEnd_fallow {fails} : F ≤ s.fallow → F ≤ (s.fieldProofEnd fails).fallow :=
  fallow_step fun _ => by simp only [State.fieldProofEnd]; bound

@[bound] theorem State.clockLoss_fallow {c} : F ≤ s.fallow → F ≤ (s.clockLoss c).fallow :=
  fallow_step fun _ => by simp only [State.clockLoss]; bound

@[bound] theorem State.clockReturn_fallow {c} : F ≤ s.fallow → F ≤ (s.clockReturn c).fallow :=
  fallow_step fun _ => by simp only [State.clockReturn]; bound


/-! ### Load -/

@[bound] theorem State.loadDie_fallow {f d} : F ≤ s.fallow → F ≤ (s.loadDie f d).fallow :=
  fallow_step fun _ => by simp only [State.loadDie]; bound

@[bound] theorem State.loadPort_fallow {c} : F ≤ s.fallow → F ≤ (s.loadPort c).fallow :=
  fallow_step fun _ => by simp only [State.loadPort]; bound

@[bound] theorem State.loadForme_fallow {p f} : F ≤ s.fallow → F ≤ (s.loadForme p f).fallow :=
  fallow_step fun _ => by simp only [State.loadForme]; bound

@[bound] theorem State.degradeOkNow_fallow {p} : F ≤ s.fallow → F ≤ (s.degradeOkNow p).fallow :=
  fallow_step fun _ => by simp only [State.degradeOkNow]; bound

@[bound] theorem State.unload_fallow {p} : F ≤ s.fallow → F ≤ (s.unload p).fallow :=
  fallow_step fun _ => by simp only [State.unload]; bound

@[bound] theorem State.formeLoad_fallow {q r} : F ≤ s.fallow → F ≤ (s.formeLoad q r).fallow :=
  fallow_step fun _ => by simp only [State.formeLoad]; bound

@[bound] theorem State.formeArm_fallow {q start cold} : F ≤ s.fallow → F ≤ (s.formeArm q start cold).fallow :=
  fallow_step fun _ => by simp only [State.formeArm]; bound

@[bound] theorem State.formeDisarm_fallow {q} : F ≤ s.fallow → F ≤ (s.formeDisarm q).fallow :=
  fallow_step fun _ => by simp only [State.formeDisarm]; bound


/-! ### Registers -/

@[bound] theorem State.noteDebug_fallow {who write} : F ≤ s.fallow → F ≤ (s.noteDebug who write).fallow :=
  fallow_step fun _ => by simp only [State.noteDebug]; bound

@[bound] theorem State.refused_fallow {who a b} : F ≤ s.fallow → F ≤ (s.refused who a b).fallow :=
  fallow_step fun _ => by simp only [State.refused]; bound

@[bound] theorem State.clearRead_fallow {r v} : F ≤ s.fallow → F ≤ (s.clearRead r v).fallow :=
  fallow_step fun _ => by simp only [State.clearRead]; bound

@[bound] theorem State.setShadow_fallow {who a v} : F ≤ s.fallow → F ≤ (s.setShadow who a v).fallow :=
  fallow_step fun _ => by simp only [State.setShadow]; bound

@[bound] theorem State.out_fallow {v} : F ≤ s.fallow → F ≤ (s.out v).fallow :=
  fallow_step fun _ => by simp only [State.out]; bound

@[bound] theorem State.readReg_fallow {who r} : F ≤ s.fallow → F ≤ (s.readReg who r).fallow :=
  fallow_step fun _ => by simp only [State.readReg]; bound

@[bound] theorem State.busRead_fallow {who a} : F ≤ s.fallow → F ≤ (s.busRead who a).fallow :=
  fallow_step fun _ => by simp only [State.busRead]; bound

@[bound] theorem State.debugRead_fallow {who a} : F ≤ s.fallow → F ≤ (s.debugRead who a).fallow :=
  fallow_step fun _ => by simp only [State.debugRead]; bound

@[bound] theorem State.partitionWrite_fallow {d v} : F ≤ s.fallow → F ≤ (s.partitionWrite d v).fallow :=
  fallow_step fun _ => by simp only [State.partitionWrite]; bound

@[bound] theorem State.imposeWrite_fallow {l v} : F ≤ s.fallow → F ≤ (s.imposeWrite l v).fallow :=
  fallow_step fun _ => by simp only [State.imposeWrite]; bound

@[bound] theorem State.quoinWrite_fallow {v} : F ≤ s.fallow → F ≤ (s.quoinWrite v).fallow :=
  fallow_step fun _ => by simp only [State.quoinWrite]; bound

@[bound] theorem State.hbmCfgWrite_fallow {d v} : F ≤ s.fallow → F ≤ (s.hbmCfgWrite d v).fallow :=
  fallow_step fun _ => by simp only [State.hbmCfgWrite]; bound

@[bound] theorem State.twCfgWrite_fallow {v} : F ≤ s.fallow → F ≤ (s.twCfgWrite v).fallow :=
  fallow_step fun _ => by simp only [State.twCfgWrite]; bound

@[bound] theorem State.fuseCtlWrite_fallow {who v} : F ≤ s.fallow → F ≤ (s.fuseCtlWrite who v).fallow :=
  fallow_step fun _ => by simp only [State.fuseCtlWrite]; bound

@[bound] theorem State.fuseDone_fallow {verified} : F ≤ s.fallow → F ≤ (s.fuseDone verified).fallow :=
  fallow_step fun _ => by simp only [State.fuseDone]; bound

@[bound] theorem State.ownWrite_fallow {who r v} : F ≤ s.fallow → F ≤ (s.ownWrite who r v).fallow :=
  fallow_step fun _ => by simp only [State.ownWrite]; bound

@[bound] theorem State.judgedWrite_fallow {who r v} : F ≤ s.fallow → F ≤ (s.judgedWrite who r v).fallow :=
  fallow_step fun _ => by simp only [State.judgedWrite]; bound

@[bound] theorem State.busWrite_fallow {who a whole v} : F ≤ s.fallow → F ≤ (s.busWrite who a whole v).fallow :=
  fallow_step fun _ => by simp only [State.busWrite]; bound


/-! ### Data -/

@[bound] theorem State.runAt_fallow {q} : F ≤ s.fallow → F ≤ (s.runAt q).fallow :=
  fallow_step fun _ => by simp only [State.runAt]; bound

@[bound] theorem State.haltAt_fallow {q} : F ≤ s.fallow → F ≤ (s.haltAt q).fallow :=
  fallow_step fun _ => by simp only [State.haltAt]; bound

@[bound] theorem State.gearCommand_fallow {q gear} : F ≤ s.fallow → F ≤ (s.gearCommand q gear).fallow :=
  fallow_step fun _ => by simp only [State.gearCommand]; bound

@[bound] theorem State.cancel_fallow {q slot tag} : F ≤ s.fallow → F ≤ (s.cancel q slot tag).fallow :=
  fallow_step fun _ => by simp only [State.cancel]; bound

@[bound] theorem State.snapshot_fallow {q step variant ship stream ports} :
    F ≤ s.fallow → F ≤ (s.snapshot q step variant ship stream ports).fallow :=
  fallow_step fun _ => by simp only [State.snapshot]; bound

@[bound] theorem State.fieldProof_fallow {q mask} : F ≤ s.fallow → F ≤ (s.fieldProof q mask).fallow :=
  fallow_step fun _ => by simp only [State.fieldProof]; bound

@[bound] theorem State.fenceRecord_fallow {react die region index p suspect} :
    F ≤ s.fallow → F ≤ (s.fenceRecord react die region index p suspect).fallow :=
  fallow_step fun _ => by simp only [State.fenceRecord]; bound

@[bound] theorem State.fenceCommand_fallow {q level die region pos} :
    F ≤ s.fallow → F ≤ (s.fenceCommand q level die region pos).fallow :=
  fallow_step fun _ => by simp only [State.fenceCommand]; bound

@[bound] theorem State.proofRun_fallow {q p r} : F ≤ s.fallow → F ≤ (s.proofRun q p r).fallow :=
  fallow_step fun _ => by simp only [State.proofRun]; bound

@[bound] theorem State.pageRetire_fallow {q die page} : F ≤ s.fallow → F ≤ (s.pageRetire q die page).fallow :=
  fallow_step fun _ => by simp only [State.pageRetire]; bound

@[bound] theorem State.dmaTake_fallow {d p} : F ≤ s.fallow → F ≤ (s.dmaTake d p).1.fallow :=
  fallow_step fun _ => by simp only [State.dmaTake]; bound

@[bound] theorem State.dmaPut_fallow {d p b} : F ≤ s.fallow → F ≤ (s.dmaPut d p b).fallow :=
  fallow_step fun _ => by simp only [State.dmaPut]; bound

@[bound] theorem State.dma_fallow {q p write} : F ≤ s.fallow → F ≤ (s.dma q p write).fallow :=
  fallow_step fun _ => by simp only [State.dma]; bound

@[bound] theorem State.toHost_fallow {a b} : F ≤ s.fallow → F ≤ (s.toHost a b).fallow :=
  fallow_step fun _ => by simp only [State.toHost]; bound

@[bound] theorem State.transferDone_fallow {src r} : F ≤ s.fallow → F ≤ (s.transferDone src r).fallow :=
  fallow_step fun _ => by simp only [State.transferDone]; bound

@[bound] theorem State.streamOpen_fallow {q p} : F ≤ s.fallow → F ≤ (s.streamOpen q p).fallow :=
  fallow_step fun _ => by simp only [State.streamOpen]; bound

@[bound] theorem State.streamClose_fallow {q id} : F ≤ s.fallow → F ≤ (s.streamClose q id).fallow :=
  fallow_step fun _ => by simp only [State.streamClose]; bound

@[bound] theorem State.capSet_fallow {q watts} : F ≤ s.fallow → F ≤ (s.capSet q watts).fallow :=
  fallow_step fun _ => by simp only [State.capSet]; bound

@[bound] theorem State.twinMode_fallow {q mode} : F ≤ s.fallow → F ≤ (s.twinMode q mode).fallow :=
  fallow_step fun _ => by simp only [State.twinMode]; bound

@[bound] theorem State.twinDetach_fallow {q} : F ≤ s.fallow → F ≤ (s.twinDetach q).fallow :=
  fallow_step fun _ => by simp only [State.twinDetach]; bound

@[bound] theorem State.settingsGet_fallow {q k} : F ≤ s.fallow → F ≤ (s.settingsGet q k).fallow :=
  fallow_step fun _ => by simp only [State.settingsGet]; bound

@[bound] theorem State.monSettings_fallow : F ≤ s.fallow → F ≤ s.monSettings.fallow :=
  fallow_step fun _ => by simp only [State.monSettings]; bound

@[bound] theorem State.settingsSet_fallow {q k v} : F ≤ s.fallow → F ≤ (s.settingsSet q k v).fallow :=
  fallow_step fun _ => by simp only [State.settingsSet]; bound

@[bound] theorem State.tgStopFree_fallow {d c} : F ≤ s.fallow → F ≤ (s.tgStopFree d c).fallow :=
  fallow_step fun _ => by simp only [State.tgStopFree]; bound

@[bound] theorem State.trafficGen_fallow {q p} : F ≤ s.fallow → F ≤ (s.trafficGen q p).fallow :=
  fallow_step fun _ => by simp only [State.trafficGen]; bound

@[bound] theorem State.telemetryRead_fallow {q selector index count host} :
    F ≤ s.fallow → F ≤ (s.telemetryRead q selector index count host).fallow :=
  fallow_step fun _ => by simp only [State.telemetryRead]; bound


/-! ### Security -/

@[bound] theorem State.attest_fallow {q nonce mask} : F ≤ s.fallow → F ≤ (s.attest q nonce mask).fallow :=
  fallow_step fun _ => by simp only [State.attest]; bound

@[bound] theorem State.syncSec_fallow : F ≤ s.fallow → F ≤ s.syncSec.fallow :=
  fallow_step fun _ => by simp only [State.syncSec]; bound

@[bound] theorem State.drawChallenge_fallow : F ≤ s.fallow → F ≤ s.drawChallenge.fallow :=
  fallow_step fun _ => by simp only [State.drawChallenge]; bound

@[bound] theorem State.vendorReturn_fallow : F ≤ s.fallow → F ≤ s.vendorReturn.fallow :=
  fallow_step fun _ => by simp only [State.vendorReturn]; bound

@[bound] theorem State.clearStacks_fallow : F ≤ s.fallow → F ≤ s.clearStacks.fallow :=
  fallow_step fun _ => by simp only [State.clearStacks]; bound

@[bound] theorem State.secEnter_fallow {target} : F ≤ s.fallow → F ≤ (s.secEnter target).fallow :=
  fallow_step fun _ => by simp only [State.secEnter]; bound

@[bound] theorem State.secTransition_fallow {q target key sig} :
    F ≤ s.fallow → F ≤ (s.secTransition q target key sig).fallow :=
  fallow_step fun _ => by simp only [State.secTransition]; bound

@[bound] theorem State.tamper_fallow : F ≤ s.fallow → F ≤ s.tamper.fallow :=
  fallow_step fun _ => by simp only [State.tamper]; bound

@[bound] theorem State.spdmOut_fallow {o} : F ≤ s.fallow → F ≤ (s.spdmOut o).fallow :=
  fallow_step fun _ => by simp only [State.spdmOut]; bound

@[bound] theorem State.setPhase_fallow {doe n} : F ≤ s.fallow → F ≤ (s.setPhase doe n).fallow :=
  fallow_step fun _ => by simp only [State.setPhase]; bound

@[bound] theorem State.spdmError_fallow {doe code} : F ≤ s.fallow → F ≤ (s.spdmError doe code).fallow :=
  fallow_step fun _ => by simp only [State.spdmError]; bound

@[bound] theorem State.spdmAfter_fallow {doe n f} (hf : ∀ t, Fact (F ≤ t.fallow) → F ≤ (f t).fallow) :
    F ≤ s.fallow → F ≤ (s.spdmAfter doe n f).fallow :=
  fallow_step fun _ => by simp only [State.spdmAfter]; bound

@[bound] theorem State.getVersion_fallow {doe} : F ≤ s.fallow → F ≤ (s.getVersion doe).fallow :=
  fallow_step fun _ => by simp only [State.getVersion]; bound

@[bound] theorem State.getCapabilities_fallow {doe} : F ≤ s.fallow → F ≤ (s.getCapabilities doe).fallow :=
  fallow_step fun _ => by simp only [State.getCapabilities]; bound

@[bound] theorem State.negotiate_fallow {doe p521 sha512} : F ≤ s.fallow → F ≤ (s.negotiate doe p521 sha512).fallow :=
  fallow_step fun _ => by simp only [State.negotiate]; bound

@[bound] theorem State.getDigests_fallow {doe} : F ≤ s.fallow → F ≤ (s.getDigests doe).fallow :=
  fallow_step fun _ => by simp only [State.getDigests]; bound

@[bound] theorem State.getCertificate_fallow {doe slot offset length} :
    F ≤ s.fallow → F ≤ (s.getCertificate doe slot offset length).fallow :=
  fallow_step fun _ => by simp only [State.getCertificate]; bound

@[bound] theorem State.spdmSigned_fallow {doe code body nonce} :
    F ≤ s.fallow → F ≤ (s.spdmSigned doe code body nonce).fallow :=
  fallow_step fun _ => by simp only [State.spdmSigned]; bound

@[bound] theorem State.challenge_fallow {doe slot nonce} : F ≤ s.fallow → F ≤ (s.challenge doe slot nonce).fallow :=
  fallow_step fun _ => by simp only [State.challenge]; bound

@[bound] theorem State.getMeasurements_fallow {doe index signed nonce} :
    F ≤ s.fallow → F ≤ (s.getMeasurements doe index signed nonce).fallow :=
  fallow_step fun _ => by simp only [State.getMeasurements]; bound

@[bound] theorem State.mctpControl_fallow {m} : F ≤ s.fallow → F ≤ (s.mctpControl m).fallow :=
  fallow_step fun _ => by simp only [State.mctpControl]; bound

@[bound] theorem State.privateWrite_fallow {offset data} : F ≤ s.fallow → F ≤ (s.privateWrite offset data).fallow :=
  fallow_step fun _ => by simp only [State.privateWrite]; bound

@[bound] theorem State.privateRead_fallow : F ≤ s.fallow → F ≤ s.privateRead.fallow :=
  fallow_step fun _ => by simp only [State.privateRead]; bound

@[bound] theorem State.addressAssigned_fallow {a} : F ≤ s.fallow → F ≤ (s.addressAssigned a).fallow :=
  fallow_step fun _ => by simp only [State.addressAssigned]; bound

@[bound] theorem State.doeDiscovery_fallow {index} : F ≤ s.fallow → F ≤ (s.doeDiscovery index).fallow :=
  fallow_step fun _ => by simp only [State.doeDiscovery]; bound


/-! ### Firmware -/

@[bound] theorem State.syncFw_fallow : F ≤ s.fallow → F ≤ s.syncFw.fallow :=
  fallow_step fun _ => by simp only [State.syncFw]; bound

@[bound] theorem State.readSlots_fallow : F ≤ s.fallow → F ≤ s.readSlots.fallow :=
  fallow_step fun _ => by simp only [State.readSlots]; bound

@[bound] theorem State.bootLine_fallow {b} : F ≤ s.fallow → F ≤ (s.bootLine b).fallow :=
  fallow_step fun _ => by simp only [State.bootLine]; bound

@[bound] theorem State.setStage_fallow {g} : F ≤ s.fallow → F ≤ (s.setStage g).fallow :=
  fallow_step fun _ => by simp only [State.setStage]; bound

@[bound] theorem State.bootFail_fallow : F ≤ s.fallow → F ≤ s.bootFail.fallow :=
  fallow_step fun _ => by simp only [State.bootFail]; bound

@[bound] theorem State.countBoot_fallow : F ≤ s.fallow → F ≤ s.countBoot.fallow :=
  fallow_step fun _ => by simp only [State.countBoot]; bound

@[bound] theorem State.perstRelease_fallow {st} : F ≤ s.fallow → F ≤ (s.perstRelease st).fallow :=
  fallow_step fun _ => by simp only [State.perstRelease]; bound

@[bound] theorem State.startSlot_fallow {active} : F ≤ s.fallow → F ≤ (s.startSlot active).fallow :=
  fallow_step fun _ => by simp only [State.startSlot]; bound

@[bound] theorem State.bootFlash_fallow {ok next} : F ≤ s.fallow → F ≤ (s.bootFlash ok next).fallow :=
  fallow_step fun _ => by simp only [State.bootFlash]; bound

@[bound] theorem State.bootTimeout_fallow : F ≤ s.fallow → F ≤ s.bootTimeout.fallow :=
  fallow_step fun _ => by simp only [State.bootTimeout]; bound

@[bound] theorem State.stage_fallow {offset b} : F ≤ s.fallow → F ≤ (s.stage offset b).fallow :=
  fallow_step fun _ => by simp only [State.stage]; bound

@[bound] theorem State.fwStage_fallow {q source last offset r} :
    F ≤ s.fallow → F ≤ (s.fwStage q source last offset r).fallow :=
  fallow_step fun _ => by simp only [State.fwStage]; bound

@[bound] theorem State.fwChecked_fallow {iv} : F ≤ s.fallow → F ≤ (s.fwChecked iv).fallow :=
  fallow_step fun _ => by simp only [State.fwChecked]; bound

@[bound] theorem State.cancelTaken_fallow : F ≤ s.fallow → F ≤ s.cancelTaken.fallow :=
  fallow_step fun _ => by simp only [State.cancelTaken]; bound

@[bound] theorem State.beginActivation_fallow {q} : F ≤ s.fallow → F ≤ (s.beginActivation q).fallow :=
  fallow_step fun _ => by simp only [State.beginActivation]; bound

@[bound] theorem State.fwActivate_fallow {q due} : F ≤ s.fallow → F ≤ (s.fwActivate q due).fallow :=
  fallow_step fun _ => by simp only [State.fwActivate]; bound

@[bound] theorem State.trialConfirm_fallow {format} : F ≤ s.fallow → F ≤ (s.trialConfirm format).fallow :=
  fallow_step fun _ => by simp only [State.trialConfirm]; bound

@[bound] theorem State.trialTimeout_fallow : F ≤ s.fallow → F ≤ s.trialTimeout.fallow :=
  fallow_step fun _ => by simp only [State.trialTimeout]; bound

@[bound] theorem State.pauseEnd_fallow : F ≤ s.fallow → F ≤ s.pauseEnd.fallow :=
  fallow_step fun _ => by simp only [State.pauseEnd]; bound

@[bound] theorem State.warmReset_fallow {q} : F ≤ s.fallow → F ≤ (s.warmReset q).fallow :=
  fallow_step fun _ => by simp only [State.warmReset]; bound

@[bound] theorem State.watchdog_fallow {digestOk refreshed} :
    F ≤ s.fallow → F ≤ (s.watchdog digestOk refreshed).fallow :=
  fallow_step fun _ => by simp only [State.watchdog]; bound

@[bound] theorem State.romLoader_fallow {q c format} : F ≤ s.fallow → F ≤ (s.romLoader q c format).fallow :=
  fallow_step fun _ => by simp only [State.romLoader]; bound

@[bound] theorem State.resetBlock_fallow {level target} : F ≤ s.fallow → F ≤ (s.resetBlock level target).fallow :=
  fallow_step fun _ => by simp only [State.resetBlock]; bound

@[bound] theorem State.blockReset_fallow {q level target} : F ≤ s.fallow → F ≤ (s.blockReset q level target).fallow :=
  fallow_step fun _ => by simp only [State.blockReset]; bound

@[bound] theorem State.latchIf_fallow {b atOnce} : F ≤ s.fallow → F ≤ (s.latchIf b atOnce).fallow :=
  fallow_step fun _ => by simp only [State.latchIf]; bound

@[bound] theorem State.overvolt_fallow : F ≤ s.fallow → F ≤ s.overvolt.fallow :=
  fallow_step fun _ => by simp only [State.overvolt]; bound

@[bound] theorem State.pcFault_fallow {k} : F ≤ s.fallow → F ≤ (s.pcFault k).fallow :=
  fallow_step fun _ => by simp only [State.pcFault]; bound

@[bound] theorem State.fuseFail_fallow : F ≤ s.fallow → F ≤ s.fuseFail.fallow :=
  fallow_step fun _ => by simp only [State.fuseFail]; bound

@[bound] theorem State.controlOvertemp_fallow : F ≤ s.fallow → F ≤ s.controlOvertemp.fallow :=
  fallow_step fun _ => by simp only [State.controlOvertemp]; bound


/-! ### Commands -/

@[bound] theorem State.perform_fallow {q c} : F ≤ s.fallow → F ≤ (s.perform q c).fallow :=
  fallow_step fun _ => by simp only [State.perform]; bound

@[bound] theorem State.take_fallow {src} : F ≤ s.fallow → F ≤ (s.take src).fallow :=
  fallow_step fun _ => by simp only [State.take]; bound

@[bound] theorem State.turnAway_fallow {q c st} : F ≤ s.fallow → F ≤ (s.turnAway q c st).fallow :=
  fallow_step fun _ => by simp only [State.turnAway]; bound

@[bound] theorem State.handle_fallow {q c} : F ≤ s.fallow → F ≤ (s.handle q c).fallow :=
  fallow_step fun _ => by simp only [State.handle]; bound

@[bound] theorem State.handleLow_fallow {q c} : F ≤ s.fallow → F ≤ (s.handleLow q c).fallow :=
  fallow_step fun _ => by simp only [State.handleLow]; bound

theorem State.opens_fallow (h : F ≤ s.fallow) (ht : s.opens = some t) : F ≤ t.fallow := by
  simp only [State.opens] at ht
  split at ht
  · cases ht
  · split at ht
    · cases ht
    · split at ht
      · cases ht
        have := Fact.mk h
        bound
      · cases ht

@[bound] theorem State.command_fallow {q c} : F ≤ s.fallow → F ≤ (s.command q c).fallow :=
  fallow_step fun hs => by
    simp only [State.command]
    split
    next ht => exact State.handle_fallow (State.opens_fallow hs.out ht)
    next => bound

@[bound] theorem State.dueJob_fallow {j} : F ≤ s.fallow → F ≤ (s.dueJob j).fallow :=
  fallow_step fun _ => by simp only [State.dueJob]; bound

@[bound] theorem State.pendingDue_fallow {src} : F ≤ s.fallow → F ≤ (s.pendingDue src).fallow :=
  fallow_step fun hs => by
    simp only [State.pendingDue]
    split
    next => bound
    next ht =>
      have := Fact.mk (State.opens_fallow hs.out ht)
      bound

@[bound] theorem State.collectSlot_fallow {i r} : F ≤ s.fallow → F ≤ (s.collectSlot i r).fallow :=
  fallow_step fun _ => by simp only [State.collectSlot]; bound

@[bound] theorem State.collectSideband_fallow {j low} : F ≤ s.fallow → F ≤ (s.collectSideband j low).fallow :=
  fallow_step fun _ => by simp only [State.collectSideband]; bound

@[bound] theorem State.collectOne_fallow {f src} (hf : ∀ t, Fact (F ≤ t.fallow) → F ≤ (f t).fallow) :
    F ≤ s.fallow → F ≤ (s.collectOne f src).fallow :=
  fallow_step fun _ => by simp only [State.collectOne]; bound

@[bound] theorem State.collect_fallow {data} : F ≤ s.fallow → F ≤ (s.collect data).fallow :=
  fallow_step fun hs => by
    simp only [State.collect]
    split
    next => bound
    next ht =>
      have := Fact.mk (State.opens_fallow hs.out ht)
      bound

@[bound] theorem State.collectFree_fallow : F ≤ s.fallow → F ≤ s.collectFree.fallow :=
  fallow_step fun _ => by simp only [State.collectFree]; bound

@[bound] theorem State.slotWrite_fallow {addr b i} : F ≤ s.fallow → F ≤ (s.slotWrite addr b i).fallow :=
  fallow_step fun _ => by simp only [State.slotWrite]; bound

@[bound] theorem State.msixWrite_fallow {a b} : F ≤ s.fallow → F ≤ (s.msixWrite a b).fallow :=
  fallow_step fun _ => by simp only [State.msixWrite]; bound

@[bound] theorem State.hostSlotWrite_fallow {addr b} : F ≤ s.fallow → F ≤ (s.hostSlotWrite addr b).fallow :=
  fallow_step fun _ => by simp only [State.hostSlotWrite]; bound

@[bound] theorem State.sidebandMessage_fallow {eid b} : F ≤ s.fallow → F ≤ (s.sidebandMessage eid b).fallow :=
  fallow_step fun _ => by simp only [State.sidebandMessage]; bound


/-! ### Monitor -/

@[bound] theorem State.print_fallow {o} : F ≤ s.fallow → F ≤ (s.print o).fallow :=
  fallow_step fun _ => by simp only [State.print]; bound

@[bound] theorem State.monErr_fallow {w} : F ≤ s.fallow → F ≤ (s.monErr w).fallow :=
  fallow_step fun _ => by simp only [State.monErr]; bound

@[bound] theorem State.monOk_fallow {o} : F ≤ s.fallow → F ≤ (s.monOk o).fallow :=
  fallow_step fun _ => by simp only [State.monOk]; bound

@[bound] theorem State.monitor_fallow {l f} (hf : ∀ t, Fact (F ≤ t.fallow) → F ≤ (f t).fallow) :
    F ≤ s.fallow → F ≤ (s.monitor l f).fallow :=
  fallow_step fun _ => by
    simp only [State.monitor]
    exact ite_fallow (by bound) (ite_fallow (ite_fallow (hf s ‹_›) (by bound))
      (ite_fallow (ite_fallow (fallow_call hf (by bound)) (by bound)) (hf s ‹_›)))

@[bound] theorem State.monHelp_fallow : F ≤ s.fallow → F ≤ s.monHelp.fallow :=
  fallow_step fun _ => by simp only [State.monHelp]; bound

@[bound] theorem State.peek_fallow {addr n} : F ≤ s.fallow → F ≤ (s.peek addr n).fallow :=
  fallow_step fun _ => by simp only [State.peek]; bound

@[bound] theorem State.poke_fallow {addr v} : F ≤ s.fallow → F ≤ (s.poke addr v).fallow :=
  fallow_step fun _ => by simp only [State.poke]; bound

@[bound] theorem State.sticky_fallow {die} : F ≤ s.fallow → F ≤ (s.sticky die).fallow :=
  fallow_step fun _ => by simp only [State.sticky]; bound

@[bound] theorem State.monFaults_fallow {range} : F ≤ s.fallow → F ≤ (s.monFaults range).fallow :=
  fallow_step fun _ => by simp only [State.monFaults]; bound

@[bound] theorem State.monTime_fallow : F ≤ s.fallow → F ≤ s.monTime.fallow :=
  fallow_step fun _ => by simp only [State.monTime]; bound

@[bound] theorem State.monTg_fallow {die ch mode pat base len seed} :
    F ≤ s.fallow → F ≤ (s.monTg die ch mode pat base len seed).fallow :=
  fallow_step fun _ => by simp only [State.monTg]; bound

@[bound] theorem State.monAudit_fallow {die region unit} : F ≤ s.fallow → F ≤ (s.monAudit die region unit).fallow :=
  fallow_step fun _ => by simp only [State.monAudit]; bound

@[bound] theorem State.monColophon_fallow : F ≤ s.fallow → F ≤ s.monColophon.fallow :=
  fallow_step fun _ => by simp only [State.monColophon]; bound

@[bound] theorem State.monBootlog_fallow : F ≤ s.fallow → F ≤ s.monBootlog.fallow :=
  fallow_step fun _ => by simp only [State.monBootlog]; bound

@[bound] theorem State.monCommand_fallow {name args} : F ≤ s.fallow → F ≤ (s.monCommand name args).fallow :=
  fallow_step fun _ => by unfold State.monCommand; extract_lets bad; bound

@[bound] theorem State.monAnswer_fallow {line} : F ≤ s.fallow → F ≤ (s.monAnswer line).fallow :=
  fallow_step fun _ => by simp only [State.monAnswer]; bound

@[bound] theorem State.monLine_fallow {line} : F ≤ s.fallow → F ≤ (s.monLine line).fallow :=
  fallow_step fun _ => by simp only [State.monLine]; bound

@[bound] theorem State.jtagIdcode_fallow : F ≤ s.fallow → F ≤ s.jtagIdcode.fallow :=
  fallow_step fun _ => by simp only [State.jtagIdcode]; bound

@[bound] theorem State.jtagAccess_fallow {addr data} : F ≤ s.fallow → F ≤ (s.jtagAccess addr data).fallow :=
  fallow_step fun _ => by simp only [State.jtagAccess]; bound

@[bound] theorem State.jtagScan_fallow : F ≤ s.fallow → F ≤ s.jtagScan.fallow :=
  fallow_step fun _ => by simp only [State.jtagScan]; bound

/-! ### Every command -/

theorem exec_fallow (c : Instr) (hs : Fact (F ≤ s.fallow)) (hproof : ∀ f, c ≠ .blockProofEnd f)
    (hcold : ∀ st, c ≠ .coldReset st) (hperst : c ≠ .fundamentalReset) (hoff : c ≠ .supplyRemoval) :
    ∃ t, exec c s = .next t ∧ F ≤ t.fallow := by
  cases c
  case blockProofEnd f => exact absurd rfl (hproof f)
  case coldReset st => exact absurd rfl (hcold st)
  case fundamentalReset => exact absurd rfl hperst
  case supplyRemoval => exact absurd rfl hoff
  all_goals exact ⟨_, rfl, by bound⟩

end

/-- Settles O5: every operation a command reaches keeps what is fallow, so the command keeps each of its four lists. -/
theorem fallowStays : Obligations.FallowStays := by
  intro c s t ht hproof hcold hperst hoff
  obtain ⟨u, hu, h⟩ := exec_fallow c ⟨le_refl s.fallow⟩ hproof hcold hperst hoff
  have htu : u = t := Host.Outcome.next.inj (hu.symm.trans ht)
  subst htu
  have stays : ∀ b ∈ s.fen.blocks, b ∈ u.fen.blocks := fun b hb => State.mem_fallow.1 (h (State.mem_fallow.2 hb))
  exact ⟨fun p => stays (.unit p), fun r => stays (.region r), fun d => stays (.die d), fun k => stays (.ld k)⟩

end Sys2Proof.Machine
end

section
/-!
PROOF. Contributions to an integer window (08_gradient_reduction.md R333, R335, R339): what one contribution leaves of each element
of a block, and that two of them leave the same in either order.
-/
namespace Sys2Proof.Machine

/-! ### An element into an integer line -/

/-- An element that makes its block NaN (R333). -/
def spoils (x : Val × Nat) : Bool := decide (x.2 = 255) || x.1.special

/-- What a finite element adds to an integer line at the block's scale, clamped to 24 bits (R333). -/
def gridPart (s : Nat) (x : Val × Nat) : Int :=
  max (-(2 ^ 23 - 1)) (min (2 ^ 23 - 1) (rneInt (x.1.scale ((x.2 : Int) - s + 16))))

theorem intLine_nan (s : Nat) (first : Bool) (l : Int) (x : Val × Nat) : (intLine s first l x.1 x.2).nan = spoils x := by
  unfold intLine spoils
  split
  next h => simpa using h
  next h => simpa [not_or] using h

theorem intLine_of_finite (s : Nat) (first : Bool) (l : Int) {x : Val × Nat} (hx : spoils x = false) :
    (intLine s first l x.1 x.2).l = if first then gridPart s x else l + gridPart s x := by
  have hfinite : ¬ (x.2 = 255 ∨ x.1.special = true) := by simpa [spoils, not_or] using hx
  simp only [intLine, if_neg hfinite, gridPart]

/-! ### A block's part of a contribution -/

section Take

variable {b : RedBlock} {xs ys : List (Val × Nat)}

theorem RedBlock.take_lines_length (h : xs.length = b.lines.length) :
    (b.take false false xs).1.lines.length = b.lines.length := by
  simp [RedBlock.take, h]

theorem RedBlock.take_count : (b.take false false xs).1.count = b.count + 1 := rfl

theorem RedBlock.take_s : (b.take false false xs).1.s = b.s := rfl

theorem RedBlock.take_nan (h : xs.length = b.lines.length) :
    (b.take false false xs).1.nan = (b.nan || xs.any spoils) := by
  have hsnd : (b.lines.zip xs).map Prod.snd = xs := List.map_snd_zip h.le
  have hany : ((b.lines.zip xs).map fun e => intLine b.s (b.count == 0) e.1 e.2.1 e.2.2).any (·.nan) = xs.any spoils := by
    conv_rhs => rw [← hsnd]
    simp only [List.any_map, Function.comp_def, intLine_nan]
  exact congrArg (b.nan || ·) hany

/-- What a contribution adds to line element `i` of a block with scale `s`. -/
def gridAt (s : Nat) (xs : List (Val × Nat)) (i : Nat) : Int := (xs[i]?.map (gridPart s)).getD 0

/-- The first contribution replaces a line element, and every later one adds to it (R333). -/
theorem RedBlock.take_line (h : xs.length = b.lines.length) (hx : xs.any spoils = false) (i : Nat) :
    (b.take false false xs).1.lines[i]?.getD 0 =
      (if b.count = 0 then 0 else b.lines[i]?.getD 0) + gridAt b.s xs i := by
  by_cases hi : i < b.lines.length
  case pos =>
    have hix : i < xs.length := hi.trans_eq h.symm
    have hfinite : spoils xs[i] = false := by simpa using List.any_eq_false.mp hx xs[i] (List.getElem_mem hix)
    have hline : (b.take false false xs).1.lines[i]? =
        some (intLine b.s (b.count == 0) b.lines[i] xs[i].1 xs[i].2).l := by
      simp [RedBlock.take, hi, hix]
    rw [hline, intLine_of_finite _ _ _ hfinite, gridAt, List.getElem?_eq_getElem hix, List.getElem?_eq_getElem hi]
    by_cases hcount : b.count = 0 <;> simp [hcount]
  case neg =>
    have htaken : (b.take false false xs).1.lines[i]? = none :=
      List.getElem?_eq_none ((RedBlock.take_lines_length h).trans_le (Nat.not_lt.mp hi))
    rw [htaken, gridAt, List.getElem?_eq_none (Nat.not_lt.mp hi), List.getElem?_eq_none (h.trans_le (Nat.not_lt.mp hi))]
    simp

/-- What two contributions leave: a block that is NaN where it was or either of them has an element that makes it so, and
else each line the sum of what the two add, with what stood there before the first. -/
theorem RedBlock.take_take_value (hx : xs.length = b.lines.length) (hy : ys.length = b.lines.length) (i : Nat) :
    ((b.take false false xs).1.take false false ys).1.value false i =
      if b.nan || xs.any spoils || ys.any spoils then .nan
      else .ofInt ((if b.count = 0 then 0 else b.lines[i]?.getD 0) + gridAt b.s xs i + gridAt b.s ys i) ((b.s : Int) - 143) := by
  have hlen : ys.length = (b.take false false xs).1.lines.length := hy.trans (RedBlock.take_lines_length hx).symm
  rw [RedBlock.value, RedBlock.take_nan hlen, RedBlock.take_nan hx]
  split
  next => rfl
  next hnan =>
    simp only [Bool.or_eq_true, not_or, Bool.not_eq_true] at hnan
    obtain ⟨⟨-, hxs⟩, hys⟩ := hnan
    dsimp only
    rw [RedBlock.take_line hlen hys, RedBlock.take_line hx hxs]
    simp only [RedBlock.take_count, RedBlock.take_s, Nat.add_eq_zero_iff, one_ne_zero, and_false, if_false, Bool.false_eq_true]

end Take

/-- Settles O22: NaN is what either of the two brings, and the sum of what they add does not depend on their order. -/
theorem contributionsCommute : Obligations.ContributionsCommute := by
  intro b xs ys i hb hx hy both
  refine ⟨?_, rfl, rfl⟩
  have hboth : ∀ u v : List (Val × Nat), both u v = ((b.take false false u).1.take false false v).1 := fun _ _ => rfl
  rw [hboth, hboth, RedBlock.take_take_value (hx.trans hb.symm) (hy.trans hb.symm),
    RedBlock.take_take_value (hy.trans hb.symm) (hx.trans hb.symm), Bool.or_right_comm, add_right_comm]

end Sys2Proof.Machine
end

section
/-!
PROOF. Contributions at a die's adders (08_gradient_reduction.md R330 to R338): what is queued, what one tick applies, and what one
block takes.
-/
namespace Sys2Proof.Machine

variable {s : State} {d : Die} {w : RedWindow} {f : Fmt}

/-! ### What a change of the adders' state leaves -/

theorem State.window_modRed (s : State) (d e : Die) (g : RedS → RedS) (wi : Nat) :
    (s.modRed d g).window e wi = s.window e wi := rfl

theorem State.red_modRed (s : State) (d : Die) (g : RedS → RedS) : ((s.modRed d g).die d).red = g (s.die d).red := by
  simp [State.modRed]

theorem State.windowTakes_iff {wi : Nat} : s.windowTakes d wi w = true ↔
    (s.die d).red.opened.contains wi = true ∧ ∃ p, s.running d = some p ∧ s.stepTick p < w.sealAt := by
  unfold State.windowTakes
  cases s.running d <;> simp

/-- Bytes that come in leave open what is open (R332, R338). -/
theorem State.windowTakes_intake (n wi : Nat) : (s.intake d n).windowTakes d wi w = s.windowTakes d wi w := by
  rw [Bool.eq_iff_iff, State.windowTakes_iff, State.windowTakes_iff, State.intake, State.red_modRed]
  rfl

/-! ### A contribution that arrives -/

/-- What a contribution must be for a window (R330 to R332). -/
def RedWindow.fitting (w : RedWindow) (sown : Bool) (f : Fmt) (rows cols index : Nat) : Prop :=
  w.takes sown f = true ∧ cols % 64 = 0 ∧ cols ≠ 0 ∧ rows % f.rowUnit = 0 ∧ index % 64 = 0

/-- Whether a window is open to the rows of a contribution now, and holds them (R331, R332). -/
def State.openTo (s : State) (d : Die) (wi : Nat) (w : RedWindow) (rows cols index : Nat) : Prop :=
  s.windowTakes d wi w = true ∧ rows ≠ 0 ∧ index + (rows - 1) * 64 * w.pitch + cols ≤ w.blocks * 64

section Contribute

variable {port wi index rows cols : Nat} {el : Nat → Nat → Val × Nat}

theorem State.contribute_of_unfitting (hw : s.window d wi = some w)
    (h : ¬ w.fitting (s.isSown d wi) f rows cols index) :
    s.contribute d port wi index f rows cols el = s.redSuspect d 2 := by
  simp only [State.contribute, hw]
  refine if_pos ?_
  by_contra hc
  refine h ?_
  simpa [RedWindow.fitting, and_assoc] using hc

theorem State.contribute_of_shut (hw : s.window d wi = some w)
    (h : w.fitting (s.isSown d wi) f rows cols index) (hshut : ¬ s.openTo d wi w rows cols index) :
    s.contribute d port wi index f rows cols el = s.redSuspect d 1 := by
  obtain ⟨htakes, hcols, hsome, hrows, hindex⟩ := h
  have hrefused : (!s.windowTakes d wi w || rows == 0
      || decide (w.blocks * 64 < index + (rows - 1) * 64 * w.pitch + cols)) = true := by
    by_contra hc
    refine hshut ?_
    simpa [State.openTo, and_assoc] using hc
  simp only [State.contribute, hw, htakes, hcols, hrows, hindex, beq_eq_false_iff_ne.mpr hsome, bne_self_eq_false, Bool.not_true,
    Bool.or_self, Bool.false_eq_true, if_false, hrefused, if_true]

theorem State.contribute_of_open (hw : s.window d wi = some w)
    (h : w.fitting (s.isSown d wi) f rows cols index) (hopen : s.openTo d wi w rows cols index) :
    s.contribute d port wi index f rows cols el = s.modRed d fun r => { r with
      work := AdderWork.queue ⟨port, s.now, r.owed, wi, contribBlocks w.pitch index rows cols el⟩ r.work } := by
  obtain ⟨htakes, hcols, hsome, hrows, hindex⟩ := h
  obtain ⟨hwindow, hnonempty, hroom⟩ := hopen
  have hall : ((contribBlocks w.pitch index rows cols el).zipIdx.filter fun e => !([] : List Nat).contains e.2).map (·.1) =
      contribBlocks w.pitch index rows cols el := by
    simp
  simp only [State.contribute, hw, htakes, hcols, hrows, hindex, beq_eq_false_iff_ne.mpr hsome, bne_self_eq_false, Bool.not_true,
    Bool.or_self, Bool.false_eq_true, if_false, hwindow, beq_eq_false_iff_ne.mpr hnonempty, decide_eq_false (Nat.not_lt.mpr hroom),
    hall]

end Contribute

/-! ### One tick of the adders (R338) -/

/-- A contribution that is in by now is applied, block by block. -/
theorem State.adderTick_of_one {y : AdderWork} (hwork : (s.die d).red.work = [y]) (hin : y.behind ≤ 1024)
    (hclock : s.clockOut (.uncore d) = false) (hopen : s.dieClosed d = false) (hw : s.window d y.window = some w) :
    s.adderTick d = ((y.blocks.map (·.1)).eraseDups).foldl (fun t k =>
        t.takeBlock d y.window w (t.isSown d y.window) k ((y.blocks.filter (·.1 = k)).map (·.2)))
      (s.modRed d fun r => { r with owed := r.owed - 1024, work := [] }) := by
  have hdone : y.behind - 1024 = 0 := by omega
  simp only [State.adderTick, hwork, hclock, hopen, hdone, List.isEmpty_cons, Bool.and_false, Bool.or_self, Bool.false_eq_true,
    if_false, List.map_cons, List.map_nil, List.takeWhile_cons, beq_self_eq_true, Bool.true_or, if_true, List.takeWhile_nil,
    List.length_cons, List.length_nil, List.drop_succ_cons, List.drop_zero, List.foldl_cons, List.foldl_nil, State.applyWork,
    State.window_modRed, hw]

/-! ### What one block takes (R333 to R335) -/

section TakeBlock

variable {wi k : Nat} {sown : Bool} {parts : List (List (Val × Nat))}

theorem State.gleanCopy_of_plain (hplain : w.glean = false) : s.gleanCopy d wi w sown k parts = s := by
  simp [State.gleanCopy, hplain]

theorem State.takeBlock_of_full (hsown : sown = false) (hfull : 256 ≤ (s.redBlock d w k).count) :
    s.takeBlock d wi w sown k parts = s.redSuspect d 3 := by
  simp [State.takeBlock, hsown, hfull]

theorem State.takeBlock_of_room (hplain : w.glean = false) (hroom : sown = true ∨ (s.redBlock d w k).count < 256) :
    s.takeBlock d wi w sown k parts =
      let r := (s.redBlock d w k).takeAll w.sp32 sown parts
      let served := s.blockServe d w k .adders
      let added := (served.1.setRedBlock d w k r.1).count (dreg .cdRedUnfCnt d) r.2.1
      if !served.2 then served.1
      else if r.2.2 then ((added.count (dreg .cdRedExhCnt d) 1).redSuspect d 5).coldRequest d else added := by
  have hnotfull : ¬ ((!sown && decide (256 ≤ (s.redBlock d w k).count)) = true) := by
    obtain rfl | hroom := hroom
    · simp
    · simp [hroom]
  simp only [State.takeBlock, if_neg hnotfull, State.gleanCopy_of_plain hplain]

end TakeBlock

/-- COUNT rises by one for a block, however many of its lines a contribution covers (R335). -/
theorem RedBlock.takeAll_count (b : RedBlock) (sp32 sown : Bool) (xs : List (Val × Nat)) (ys : List (List (Val × Nat))) :
    (b.takeAll sp32 sown (xs :: ys)).1.count = if sown then b.count else b.count + 1 := by
  exact (foldl_keep (fun acc : RedBlock × Nat × Bool => acc.1.count) (fun acc ys =>
    ((acc.1.take sp32 true ys).1, acc.2.1 + (acc.1.take sp32 true ys).2.1, acc.2.2 || (acc.1.take sp32 true ys).2.2))
    (fun _ _ => rfl) ys (b.take sp32 sown xs)).trans rfl

/-- Settles O21: an arrival by whether the contribution fits its window and the window is open, then one tick of the adders, then one
block by whether it has room, its lines are served and an element was clamped. -/
theorem contributionsAdd : Obligations.ContributionsAdd := by
  intro s x w f hopen hf hw d sown ok s1 fits rd row col block place work
  have hs1 : s1 = s.intake d x.bytes.length := rfl
  have hw1 : s1.window d x.window = some w := hw
  have hfits : s1.openTo d x.window w x.rows x.cols x.index ↔ fits := by
    rw [State.openTo, hs1, State.windowTakes_intake, State.windowTakes_iff, and_assoc]
  have harrive : Machine.exec (.accumulateArrive x) s = .next (s1.contribute d x.port.val x.window x.index f x.rows x.cols
      (f.element rd 0 x.scales x.rows x.cols)) := by
    refine congrArg Host.Outcome.next ?_
    simp only [State.accumulate, hopen, hf]
    rfl
  refine ⟨fun hok hroom => ?_, fun hok hshut => ?_, fun hbad => ?_, fun t y hwork hin hclock hdie hwt => ?_,
    fun hplain t k parts => ?_, fun b xs ys => ?_⟩
  · rw [harrive, State.contribute_of_open hw1 hok (hfits.mpr hroom)]
    rfl
  · rw [harrive, State.contribute_of_shut hw1 hok (mt hfits.mp hshut)]
  · rw [harrive, State.contribute_of_unfitting hw1 hbad]
  · exact State.adderTick_of_one hwork hin hclock hdie hwt
  · intro b r served added takes
    have htakes : sown = true ∨ b.count < 256 → takes = if !served.2 then served.1
        else if r.2.2 then ((added.count (dreg .cdRedExhCnt d) 1).redSuspect d 5).coldRequest d else added :=
      State.takeBlock_of_room hplain
    refine ⟨fun hroom hserved hfree => ?free, fun hroom hserved hclamped => ?clamped, fun hroom hdropped => ?dropped,
      State.takeBlock_of_full⟩
    case free => rw [htakes hroom, hserved, hfree]; rfl
    case clamped => rw [htakes hroom, hserved, hclamped]; rfl
    case dropped => rw [htakes hroom, hdropped]; rfl
  · exact b.takeAll_count w.sp32 sown xs ys

end Sys2Proof.Machine
end

section
/-!
PROOF. The windows of a die's reduction (08_gradient_reduction.md R328, R332, R335, R352 to R362, R380): their opening and
their seal, and the comparison of a gleaned block; and what a transfer over the fabric leaves (R16).
-/
namespace Sys2Proof.Machine

variable {s : State} {d : Die} {wi : Nat} {p : Part} {w : RedWindow}

/-! ### Transfers over the fabric (R16) -/

/-- A transfer fills a slot of the forme, or changes nothing. -/
theorem State.fabricWay_cases (s : State) (p : Part) (a b : FabricEnd) :
    (∃ e, s.fabricWay p a b = (s.modPart p fun ps => { ps with filled := e :: ps.filled }, true))
      ∨ (s.fabricWay p a b).1 = s := by
  simp only [State.fabricWay]
  split
  · exact .inl ⟨_, rfl⟩
  · exact .inr rfl

theorem State.fabricWay_dies (s : State) (p : Part) (a b : FabricEnd) : (s.fabricWay p a b).1.dies = s.dies := by
  obtain ⟨e, h⟩ | h := s.fabricWay_cases p a b <;> rw [h]
  rfl

/-- A transfer between two dies fills a slot of the forme, or changes nothing. -/
theorem State.dieWay_cases (s : State) (d : Die) (a b : FabricEnd) :
    (∃ p e, s.dieWay d a b = (s.modPart p fun ps => { ps with filled := e :: ps.filled }, true))
      ∨ (s.dieWay d a b).1 = s := by
  unfold State.dieWay
  split
  · exact .inr rfl
  · split
    next p _ => exact (s.fabricWay_cases p a b).imp_left fun h => ⟨p, h⟩
    next => exact .inr rfl

theorem State.dieWay_of_none {a b : FabricEnd} (h : (s.dieWay d a b).2 = false) : (s.dieWay d a b).1 = s := by
  obtain ⟨p, e, hfills⟩ | h := s.dieWay_cases d a b
  · rw [hfills] at h
    cases h
  · exact h

theorem State.die_dieWay (s : State) (d e : Die) (a b : FabricEnd) : (s.dieWay d a b).1.die e = s.die e := by
  obtain ⟨p, x, h⟩ | h := s.dieWay_cases d a b <;> rw [h]
  rfl

theorem State.redBlock_dieWay (s : State) (d e : Die) (a b : FabricEnd) (w : RedWindow) (k : Nat) :
    (s.dieWay d a b).1.redBlock e w k = s.redBlock e w k := by
  simp only [State.redBlock, State.die_dieWay]

theorem AMap.getD_of_get? {α β : Type} [DecidableEq α] {m : AMap α β} {k : α} {v : β} (h : m.get? k = some v) (d : β) :
    m.getD k d = v := by
  obtain ⟨e, he, rfl⟩ := Option.map_eq_some_iff.mp h
  simp only [AMap.getD, he]

/-! ### A window whose time has come -/

/-- A window of a die in the step that runs there, its time come (R328, R335), with the die's clock running and the die not
closed. -/
structure State.WindowDue (s : State) (d : Die) (wi : Nat) (p : Part) (w : RedWindow) (at_ : RedWindow → Nat) : Prop where
  running : s.running d = some p
  window : s.window d wi = some w
  tick : at_ w ≤ s.stepTick p
  clock : s.clockOut (.uncore d) = false
  serves : s.dieClosed d = false

theorem State.windowDue_of_due {at_ : RedWindow → Nat} (h : s.WindowDue d wi p w at_) : s.windowDue d wi at_ = some (p, w) := by
  obtain ⟨hrunning, hwindow, htick, hclock, hserves⟩ := h
  simp only [State.windowDue, hrunning, hwindow, htick, hclock, hserves, and_self, if_true]

/-! ### WINDOW_OPEN -/

theorem State.windowOpen_of_done (h : s.WindowDue d wi p w (·.openAt))
    (hdone : (s.die d).red.opened.contains wi = true ∨ (s.die d).red.sealedW.contains wi = true) : s.windowOpen d wi = s := by
  simp only [State.windowOpen, State.windowDue_of_due h, Bool.or_eq_true, if_pos hdone]

/-- The state after WINDOW_OPEN has emptied the blocks and let the window take contributions (R328, R353, R360, R380). -/
def State.opening (s : State) (d : Die) (wi : Nat) (w : RedWindow) : State :=
  let sown := s.isSown d wi
  let cleared := (List.range w.blocks).foldl (fun t k => t.setRedBlock d w k ⟨
    if sown then List.replicate 64 0 else (t.redBlock d w k).lines, t.agreed d wi k, false, false,
    if sown then 1 else 0⟩) ((s.readHistory d wi w).intake d (if sown then 256 * w.blocks else 0))
  (cleared.modRed d fun r => { r with opened := wi :: r.opened }).modRed w.checker fun r =>
    { r with copies := r.copies.drop fun e => e.1 = d && e.2.1 == wi }

/-- Bytes that come in leave the history as it was read. -/
theorem State.histGood_intake (n : Nat) : (s.intake d n).histGood d wi = s.histGood d wi := by
  have hrec : (s.intake d n).histRec d wi = s.histRec d wi := by
    rw [State.histRec, State.intake, State.red_modRed, State.histRec]
  unfold State.histGood
  rw [hrec]
  rfl

theorem State.windowOpen_of_new (h : s.WindowDue d wi p w (·.openAt)) (hopened : (s.die d).red.opened.contains wi = false)
    (hsealed : (s.die d).red.sealedW.contains wi = false) :
    s.windowOpen d wi = if (s.readHistory d wi w).histGood d wi || w.sp32 then s.opening d wi w
      else ((s.opening d wi w).redSuspect d 7).coldRequest d := by
  simp only [State.windowOpen, State.windowDue_of_due h, hopened, hsealed, Bool.or_self, Bool.false_eq_true, if_false,
    State.histGood_intake]
  rfl

/-! ### WINDOW_SEAL -/

/-- The state in which a window takes no more contributions (R332). -/
def State.shut (s : State) (d : Die) (wi : Nat) : State :=
  s.modRed d fun r => { r with opened := r.opened.filter (· ≠ wi), sealedW := wi :: r.sealedW }

theorem State.redBlock_modRed (s : State) (d : Die) (g : RedS → RedS) (w : RedWindow) (k : Nat) :
    (s.modRed d g).redBlock d w k = s.redBlock d w k := by
  simp [State.redBlock, State.modRed]

/-- A window whose blocks all have the contributions they expect, or a sown one, is shut; without a ring its NaN blocks are
dealt with and its results recorded (R335, R352, R354, R363). -/
theorem State.windowSeal_of_full (h : s.WindowDue d wi p w (·.sealAt)) (hopened : (s.die d).red.opened.contains wi = true)
    (hfull : s.isSown d wi = true ∨ ∀ k, k < w.blocks → (s.redBlock d w k).count = w.expected) :
    s.windowSeal d wi =
      if w.ring then s.shut d wi else
      let t := (List.range w.blocks).foldl (fun t k => if (t.redBlock d w k).nan then t.nanResult d else t) (s.shut d wi)
      (t.writeHistory d wi w fun k => some (none, (List.range 64).map ((t.redBlock d w k).value w.sp32))).modRed d fun r =>
        { r with recorded := wi :: r.recorded } := by
  have hcounted : (if s.isSown d wi then s.shut d wi else (List.range w.blocks).foldl (fun s k =>
      if (s.redBlock d w k).count = w.expected then s else s.redSuspect d 4) (s.shut d wi)) = s.shut d wi := by
    obtain hsown | hcounts := hfull
    · rw [if_pos hsown]
    · split
      · rfl
      · refine foldl_of_idle fun k hk => if_pos ?_
        rw [State.shut, State.redBlock_modRed]
        exact hcounts k (List.mem_range.mp hk)
  simp only [State.shut] at hcounted ⊢
  simp only [State.windowSeal, State.windowDue_of_due h, hopened, Bool.not_true, Bool.false_eq_true, if_false, hcounted]

theorem State.nanResults_of_none (h : ∀ k, k < w.blocks → (s.redBlock d w k).nan = false) :
    (List.range w.blocks).foldl (fun t k => if (t.redBlock d w k).nan then t.nanResult d else t) s = s :=
  foldl_of_idle fun k hk => by rw [h k (List.mem_range.mp hk)]; rfl

/-! ### GLEAN_COMPARE -/

/-- A gleaned block whose comparison can be made at the checker `d`: its window is sealed, and no entry of a ring carries it
(R359, R360). -/
structure State.GleanDue (s : State) (d owner : Die) (wi k : Nat) (p : Part) (w : RedWindow) : Prop where
  running : s.running owner = some p
  window : s.window owner wi = some w
  checker : w.checker = d
  clock : s.clockOut (.uncore d) = false
  gleans : w.glean = true
  chosen : gleaned (s.gleanLog owner) k (s.dieStep owner) = true
  block : k < w.blocks
  sealed : (s.die owner).red.sealedW.contains wi = true
  ahead : s.ringAhead owner wi k = false
  copies : ∀ e ∈ (s.die d).red.ringCopies, e.block ≠ k

section Glean

variable {owner : Die} {k : Nat}

/-- The state in which the comparison has been counted and noted (R359, R362). -/
def State.gleanNoted (s : State) (d owner : Die) (wi k : Nat) : State :=
  ((s.dieWay owner (.die owner) (.die d)).1.count (dreg .cdRedGleanCnt d) 1).modRed d fun r => { r with
    compared := (owner, wi, k) :: r.compared }

theorem State.gleanCompare_of_idle (h : s.GleanDue d owner wi k p w)
    (hidle : (s.die d).red.compared.contains (owner, wi, k) = true ∨ (s.dieWay owner (.die owner) (.die d)).2 = false) :
    s.gleanCompare d owner wi k = s := by
  obtain ⟨hrunning, hwindow, rfl, hclock, hgleans, hchosen, hblock, hsealed, hahead, hcopies⟩ := h
  simp only [State.gleanCompare, hrunning, hwindow]
  obtain hdone | hnone := hidle
  · rw [if_pos]
    simp only [hdone, Bool.or_true]
  · split
    · rfl
    · rw [hnone, State.dieWay_of_none hnone]
      rfl

/-- The comparison of a block that has a copy is of the copy alone where no ring carries it (R361). -/
theorem State.gleanCompare_of_copy (h : s.GleanDue d owner wi k p w)
    (hnew : (s.die d).red.compared.contains (owner, wi, k) = false) (hway : (s.dieWay owner (.die owner) (.die d)).2 = true)
    (hcount : (s.redBlock owner w k).count ≠ 0) {c : RedBlock} (hcopy : (s.die d).red.copies.get? (owner, wi, k) = some c) :
    s.gleanCompare d owner wi k =
      if c = s.redBlock owner w k then s.gleanNoted d owner wi k
      else ((s.gleanNoted d owner wi k).count (dreg .cdRedMismCnt d) 1).redSuspect d 9 := by
  obtain ⟨hrunning, hwindow, rfl, hclock, hgleans, hchosen, hblock, hsealed, hahead, hcopies⟩ := h
  have hrings : (s.die w.checker).red.ringCopies.filter (fun e => e.owner = owner && e.window == wi && e.block == k) = [] := by
    rw [List.filter_eq_nil_iff]
    intro e he
    simp [hcopies e he]
  simp only [State.gleanCompare, hrunning, hwindow, hclock, hgleans, hchosen, Nat.not_le.mpr hblock, hsealed, hahead, hnew,
    hway, State.redBlock_dieWay, State.die_dieWay, AMap.getD_of_get? hcopy, hrings, if_neg hcount, ne_eq, not_true_eq_false,
    decide_false, Bool.not_true, Bool.or_self, Bool.false_eq_true, if_false, List.all_nil, Bool.and_true, beq_iff_eq]
  rfl

end Glean

/-- Settles O23: a window by what its step has done with it, and a gleaned block by whether its comparison can be made. -/
theorem windowsRun : Obligations.WindowsRun := by
  refine ⟨?opens, ?seals, ?gleans⟩
  case opens =>
    intro s d wi p w hrunning hwindow htick hclock hserves
    have hdue : s.WindowDue d wi.val p w (·.openAt) := ⟨hrunning, hwindow, htick, hclock, hserves⟩
    refine ⟨fun hopened hsealed => ?_, fun hdone => congrArg Host.Outcome.next (State.windowOpen_of_done hdue hdone)⟩
    have hnew := State.windowOpen_of_new hdue hopened hsealed
    refine ⟨fun hgood => ?_, fun hbad hint => ?_⟩
    · rw [if_pos ((Bool.or_eq_true ..).mpr hgood)] at hnew
      exact congrArg Host.Outcome.next hnew
    · rw [hbad, hint, Bool.or_self, if_neg Bool.false_ne_true] at hnew
      exact congrArg Host.Outcome.next hnew
  case seals =>
    intro s d wi p w hrunning hwindow htick hclock hserves hopened hfull shut
    have hseals := State.windowSeal_of_full ⟨hrunning, hwindow, htick, hclock, hserves⟩ hopened hfull
    refine ⟨fun hring => ?_, fun hplain hnan => ?_⟩
    · rw [if_pos hring] at hseals
      exact congrArg Host.Outcome.next hseals
    · have hresults : ∀ k, k < w.blocks → ((s.shut d wi.val).redBlock d w k).nan = false := fun k hk => by
        rw [State.shut, State.redBlock_modRed]
        exact hnan k hk
      rw [if_neg (Bool.eq_false_iff.mp hplain), State.nanResults_of_none hresults] at hseals
      exact congrArg Host.Outcome.next hseals
  case gleans =>
    intro s d owner wi k p w hrunning hwindow hchecker hclock hgleans hchosen hblock hsealed hahead hcopies hcount copy way counted
    have hdue : s.GleanDue d owner wi.val k p w :=
      ⟨hrunning, hwindow, hchecker, hclock, hgleans, hchosen, hblock, hsealed, hahead, hcopies⟩
    refine ⟨fun hidle => congrArg Host.Outcome.next (State.gleanCompare_of_idle hdue hidle), fun hnew hway => ?_⟩
    refine ⟨fun hcopy => congrArg Host.Outcome.next ?_, fun c hcopy hdiffers => congrArg Host.Outcome.next ?_⟩
    · exact (State.gleanCompare_of_copy hdue hnew hway hcount hcopy).trans (if_pos rfl)
    · exact (State.gleanCompare_of_copy hdue hnew hway hcount hcopy).trans (if_neg hdiffers)

end Sys2Proof.Machine
end

section
/-!
PROOF. Ring entries of one CF8 block (08_gradient_reduction.md R338, R341 to R349): what an entry takes in, forms and sends.
-/
namespace Sys2Proof.Machine

variable {s t u : State} {d : Die} {i wi k : Nat} {p : Part} {e : RingEntry} {w : RedWindow}

/-! ### What a ring entry reads of its die -/

/-- The lines and the history of a die, its step and its job stay as they are. -/
structure State.RingKept (s t : State) (d : Die) : Prop where
  cache : (t.die d).cache = (s.die d).cache
  recs : (t.die d).red.recs = (s.die d).red.recs
  step : t.dieStep d = s.dieStep d
  job : t.formeJob d = s.formeJob d

theorem State.RingKept.refl (s : State) (d : Die) : s.RingKept s d := ⟨rfl, rfl, rfl, rfl⟩

theorem State.RingKept.trans (h : s.RingKept t d) (g : t.RingKept u d) : s.RingKept u d :=
  ⟨g.cache.trans h.cache, g.recs.trans h.recs, g.step.trans h.step, g.job.trans h.job⟩

theorem State.RingKept.redBlock (h : s.RingKept t d) (w : RedWindow) (k : Nat) : t.redBlock d w k = s.redBlock d w k := by
  rw [State.redBlock, h.cache, State.redBlock]

/-- The agreed scales are what the history says (R353, R355). -/
theorem State.RingKept.agreed (h : s.RingKept t d) (wi k : Nat) : t.agreed d wi k = s.agreed d wi k := by
  have hrec : t.histRec d wi = s.histRec d wi := by rw [State.histRec, h.recs, State.histRec]
  have hgood : t.histGood d wi = s.histGood d wi := by simp only [State.histGood, hrec, h.step, h.job]
  rw [State.agreed, hgood, hrec, State.agreed]

theorem State.ringKept_modRed {g : RedS → RedS} (hg : ∀ r, (g r).recs = r.recs) : s.RingKept (s.modRed d g) d := by
  refine ⟨?_, ?_, rfl, rfl⟩
  · simp [State.modRed]
  · rw [State.red_modRed, hg]

/-- The state in which a slot of the fabric is filled (R16). -/
def State.fillSlot (s : State) (p : Part) (x : FabricSlot × Nat) : State :=
  s.modPart p fun ps => { ps with filled := x :: ps.filled }

theorem State.part_fillSlot (s : State) (p q : Part) (x : FabricSlot × Nat) :
    ∃ l, (s.fillSlot p x).part q = { s.part q with filled := l } := by
  by_cases h : q = p
  · subst h
    exact ⟨_, State.part_modPart ..⟩
  · exact ⟨_, State.part_modPart_ne _ _ _ _ h⟩

theorem State.ringKept_fillSlot (s : State) (d : Die) (p : Part) (x : FabricSlot × Nat) :
    s.RingKept (s.fillSlot p x) d := by
  have hpart : ∀ q, (s.fillSlot p x).partOf q = s.partOf q := fun _ => rfl
  refine ⟨rfl, rfl, ?_, ?_⟩
  · unfold State.dieStep
    rw [hpart]
    cases s.partOf d with
    | none => rfl
    | some q =>
      obtain ⟨l, hl⟩ := s.part_fillSlot p q x
      simp only [State.stepNo, hl]
      rfl
  · unfold State.formeJob State.formeOn
    rw [hpart]
    cases s.partOf d with
    | none => rfl
    | some q =>
      obtain ⟨l, hl⟩ := s.part_fillSlot p q x
      simp only [Option.bind_some, hl]

theorem State.ringKept_fabricWay (s : State) (d : Die) (p : Part) (a b : FabricEnd) : s.RingKept (s.fabricWay p a b).1 d := by
  obtain ⟨x, h⟩ | h := s.fabricWay_cases p a b <;> rw [h]
  · exact s.ringKept_fillSlot d p x
  · exact .refl s d

/-! ### Accesses that are served (R418, R419) -/

theorem State.ringKept_count_scCeCnt (s : State) (d e : Die) (n : Nat) : s.RingKept (s.count (dreg .scCeCnt e) n) d := by
  have hpart : ∀ q, (s.count (dreg .scCeCnt e) n).partOf q = s.partOf q := fun q => by
    simp only [State.partOf, State.rd_count_ne (r := dreg .scCeCnt e) (q := dreg .cdPartition q) s (by simp [dreg])]
  have hstep : ∀ q, (s.count (dreg .scCeCnt e) n).rd (dreg .cdStep q) = s.rd (dreg .cdStep q) := fun q =>
    State.rd_count_ne s (by simp [dreg]) n
  refine ⟨rfl, rfl, ?_, ?_⟩
  · simp only [State.dieStep, State.stepNo, State.step, State.firstDie, State.partDies, hpart, hstep]
    rfl
  · simp only [State.formeJob, State.formeOn, hpart]
    rfl

/-- A line that is served has taken its bank and perhaps counted a corrected bit. -/
theorem State.ringKept_cacheServe {l : Nat} {c : Source} (h : (s.cacheServe d l c 0).2 = true) :
    s.RingKept (s.cacheServe d l c 0).1 d := by
  have hchecked : s.RingKept (s.lineChecked d l c) d := by
    refine ⟨?_, ?_, rfl, rfl⟩ <;> simp [State.lineChecked, State.bankClaimed, DieS.setWordBad]
  cases hfree : s.bankBusy d l c with
  | true =>
    rw [State.cacheServe_of_busy hfree] at h
    cases h
  | false =>
    rw [State.cacheServe_of_free hfree] at h ⊢
    split at h
    · cases h
    next hgood =>
      rw [if_neg hgood]
      dsimp only
      split
      · exact hchecked
      · exact hchecked.trans (State.ringKept_count_scCeCnt _ d d 1)
 

/-- A block that is served leaves what a ring entry reads (R418, R419). -/
theorem State.ringKept_blockServe {c : Source} (h : (s.blockServe d w k c).2 = true) :
    s.RingKept (s.blockServe d w k c).1 d := by
  have hfold : ∀ (l : List Nat) (t : State) (b : Bool),
      let r := l.foldl (fun (acc : State × Bool) l => ((acc.1.cacheServe d l c 0).1, acc.2 && (acc.1.cacheServe d l c 0).2)) (t, b)
      r.2 = true → b = true ∧ t.RingKept r.1 d := by
    intro l
    induction l with
    | nil => exact fun t b hb => ⟨hb, .refl t d⟩
    | cons x l ih =>
      intro t b r hr
      obtain ⟨hb, hkept⟩ := ih _ _ hr
      obtain ⟨rfl, hserved⟩ := (Bool.and_eq_true ..).mp hb
      exact ⟨rfl, (State.ringKept_cacheServe hserved).trans hkept⟩
  exact (hfold _ s true h).2

/-! ### The slot that an entry receives -/

theorem State.slotEntry_fillSlot (s : State) (p : Part) (x : FabricSlot × Nat) (port : Port) (l : Fin 8) (n : Nat) :
    (s.fillSlot p x).slotEntry port l n = s.slotEntry port l n := by
  have hentry : (s.fillSlot p x).entryOf port l n = s.entryOf port l n := by
    funext q
    obtain ⟨y, hy⟩ := s.part_fillSlot p q x
    simp only [State.entryOf, hy]
    rfl
  simp only [State.slotEntry, hentry]
  rfl

theorem State.ringRx_fillSlot (s : State) (p q : Part) (x : FabricSlot × Nat) (e : RingEntry) :
    (s.fillSlot p x).ringRx q e = s.ringRx q e := by
  obtain ⟨y, hy⟩ := s.part_fillSlot p q x
  simp only [State.ringRx, State.slotBuf, State.slotTick, State.slotEntry_fillSlot, hy]
  rfl

theorem State.ringRx_fabricWay (s : State) (p q : Part) (a b : FabricEnd) (e : RingEntry) :
    (s.fabricWay p a b).1.ringRx q e = s.ringRx q e := by
  obtain ⟨x, h⟩ | h := s.fabricWay_cases p a b <;> rw [h]
  exact s.ringRx_fillSlot p q x e

/-! ### An entry that runs -/

/-- An entry of one CF8 block, of a window that is not gleaned, in the step that runs on its die (R341, R342). -/
structure State.RingSet (s : State) (d : Die) (i : Nat) (p : Part) (e : RingEntry) (w : RedWindow) : Prop where
  running : s.running d = some p
  entry : s.ringEntry d i = some e
  window : s.window d e.window = some w
  clock : s.clockOut (.uncore d) = false
  serves : s.dieClosed d = false
  plain : w.glean = false
  one : e.count = 1
  cf8 : e.cf16 = false

theorem RingEntry.intake_of_end (hend : e.action = .end_) (hcf8 : e.cf16 = false) : e.intake = 66 := by
  simp [RingEntry.intake, hend, hcf8, carriedBytes]

theorem RingEntry.intake_of_adds (hadds : e.action = .start ∨ e.action = .hop) (hcf8 : e.cf16 = false) : e.intake = 322 := by
  obtain h | h := hadds <;> simp [RingEntry.intake, h, hcf8]

theorem State.ringRun_of_done (h : s.RingSet d i p e w) (hdone : (s.die d).red.ringDone.contains i = true) (start : Bool) :
    s.ringRun d i start = s := by
  simp only [State.ringRun, h.running, h.entry, h.window, hdone, Bool.true_or, if_true]

/-- The state in which an entry has begun: it is noted, and its block counts as intake (R338). -/
def State.ringBegun (s : State) (d : Die) (i n : Nat) : State :=
  (s.modRed d fun r => { r with ringDone := i :: r.ringDone }).intake d n

theorem State.ringKept_begun (s : State) (d : Die) (i n : Nat) : s.RingKept (s.ringBegun d i n) d :=
  (State.ringKept_modRed (g := fun r => { r with ringDone := i :: r.ringDone }) fun _ => rfl).trans
    (State.ringKept_modRed (g := fun r => { r with owed := r.owed + n }) fun _ => rfl)

theorem State.ringDue_of_received {pay : List Byte} (h : s.ringRx p e = some pay) : s.ringDue p e = true := by
  simp only [State.ringDue, h, Option.isSome_some, Bool.true_or]

theorem State.sealedW_begun (s : State) (d : Die) (i n : Nat) :
    ((s.ringBegun d i n).die d).red.sealedW = (s.die d).red.sealedW := by
  simp [State.ringBegun, State.intake, State.red_modRed]

/-- What an entry that sends does with what it has formed (R16, R341, R354). -/
def State.ringSent (s : State) (d : Die) (p : Part) (e : RingEntry) (w : RedWindow) (out : List Byte) : State :=
  let way := s.fabricWay p (.die d) (.link (portLinkDie e.txPort e.txLane))
  (if way.2 then way.1.ringTx p e (some out) else way.1).ringRecord d e.window w

/-- What an entry has received crosses the link-die port (R16). -/
def State.ringCame (s : State) (d : Die) (i : Nat) (p : Part) (e : RingEntry) (n : Nat) : State × Bool :=
  (s.ringBegun d i n).fabricWay p (.link (portLinkDie e.rxPort e.rxLane)) (.die d)

theorem State.ringKept_came (s : State) (d : Die) (i : Nat) (p : Part) (e : RingEntry) (n : Nat) :
    s.RingKept (s.ringCame d i p e n).1 d :=
  (s.ringKept_begun d i n).trans (State.ringKept_fabricWay ..)

section Runs

variable (h : s.RingSet d i p e w) (hnew : (s.die d).red.ringDone.contains i = false)
include h hnew

theorem State.ringRun_of_start (hsealed : (s.die d).red.sealedW.contains e.window = true) (hstart : e.action = .start) :
    s.ringRun d i true =
      ((s.ringBegun d i 322).ringBlock d i w e 0 none).1.ringSent d p e w ((s.ringBegun d i 322).ringBlock d i w e 0 none).2 := by
  have hbegun := s.sealedW_begun d i 322
  simp only [State.ringBegun] at hbegun ⊢
  simp only [State.ringRun, h.running, h.entry, h.window, hnew, hstart, h.clock, h.serves, h.one,
    RingEntry.intake_of_adds (.inl hstart) h.cf8, Nat.mul_one, hbegun, hsealed, RingEntry.adds, beq_self_eq_true, bne_self_eq_false,
    Bool.or_false, Bool.not_true, Bool.false_eq_true, if_false, Bool.false_and, Bool.and_false, Bool.true_or, if_true,
    List.range_one, List.foldl_cons, List.foldl_nil, Option.map_none, List.nil_append, reduceCtorEq, beq_iff_eq]
  rfl

variable {pay : List Byte} (hrx : s.ringRx p e = some pay)
include hrx

theorem State.ringRun_of_hop (hsealed : (s.die d).red.sealedW.contains e.window = true) (hhop : e.action = .hop)
    (hcame : (s.ringCame d i p e 322).2 = true) :
    s.ringRun d i false =
      ((s.ringCame d i p e 322).1.ringBlock d i w e 0 (some (pay.take 66))).1.ringSent d p e w
        ((s.ringCame d i p e 322).1.ringBlock d i w e 0 (some (pay.take 66))).2 := by
  have hbegun := s.sealedW_begun d i 322
  have hreads : (s.ringCame d i p e 322).1.ringRx p e = some pay := (State.ringRx_fabricWay ..).trans hrx
  simp only [State.ringBegun, State.ringCame] at hbegun hreads hcame ⊢
  simp only [State.ringRun, h.running, h.entry, h.window, hnew, hhop, h.clock, h.serves, h.one, h.cf8,
    RingEntry.intake_of_adds (.inr hhop) h.cf8, Nat.mul_one, hbegun, hsealed, RingEntry.adds, beq_self_eq_true,
    Bool.or_false, Bool.not_true, Bool.false_eq_true, if_false, Bool.and_false, hcame, hreads,
    List.range_one, List.foldl_cons, List.foldl_nil, Option.map_some, List.nil_append, reduceCtorEq, beq_iff_eq, carriedBytes,
    State.ringDue_of_received hrx, Nat.mul_zero, List.drop_zero]
  rfl

/-- What an END has received it stores; without a slot of the fabric it has received nothing. -/
theorem State.ringRun_of_end (hend : e.action = .end_) :
    s.ringRun d i false =
      (if (s.ringCame d i p e 66).2 then
        ((s.ringCame d i p e 66).1.ringBlock d i w e 0 (some (pay.take 66))).1
      else (s.ringCame d i p e 66).1).ringRecord d e.window w := by
  have hreads : (s.ringCame d i p e 66).1.ringRx p e = some pay := (State.ringRx_fabricWay ..).trans hrx
  have hadds : e.adds = false := by rw [RingEntry.adds, hend]; rfl
  have hstart : (e.action == .start) = false := by rw [hend]; rfl
  have hsends : (e.action == .end_) = true := by rw [hend]; rfl
  cases hcame : (s.ringCame d i p e 66).2 with
  | true | false =>
    simp only [State.ringBegun, State.ringCame] at hreads hcame ⊢
    simp only [State.ringRun, h.running, h.entry, h.window, hnew, hadds, hstart, hsends, h.clock, h.serves, h.one, h.cf8, hcame,
      RingEntry.intake_of_end hend h.cf8, Nat.mul_one, bne_self_eq_false, Bool.or_false, Bool.not_true, Bool.not_false,
      Bool.false_eq_true, if_false, if_true, Bool.and_false, Bool.false_and, hreads, List.range_one, List.foldl_cons, List.foldl_nil,
      Option.map_some, Option.map_none, carriedBytes, State.ringDue_of_received hrx, Nat.mul_zero, List.drop_zero, State.ringBlock,
      Bool.or_true]

end Runs

/-! ### The block of an entry -/

/-- A carried block at the agreed scale, or a NaN block, asks for no cold start (R346). -/
theorem State.disagree_of_agreed {ag sc h : Nat} {sat : Bool} {x : List Int} (hag : sc = 255 ∨ sc = ag) :
    s.disagree d ag (.cf8 sc h sat x) = s := if_pos hag

theorem State.ringCopy_of_plain (hplain : w.glean = false) {got out stored : Option (List Byte)} :
    s.ringCopy d i w e k got out stored = s := by
  simp only [State.ringCopy, hplain, Bool.false_and, Bool.false_eq_true, if_false]

section Blocks

variable (hplain : w.glean = false) (hcf8 : e.cf16 = false) (hkept : s.RingKept t d)
include hplain hcf8 hkept

/-- What an entry forms from what came and from its block, as they stood before it began. -/
def State.ringForms (s : State) (d : Die) (w : RedWindow) (e : RingEntry) (got : Option (Nat × Nat × Bool × List Int)) :
    RingBlock × Bool :=
  formCf8 (s.agreed d e.window e.first) got (s.redBlock d w e.first) w.sp32

/-- An entry that adds to what came, with its local block served and no element clamped (R344, R347). -/
theorem State.ringBlock_of_adds (hadds : e.action = .start ∨ e.action = .hop) {raw : Option (List Byte)}
    (hagrees : ∀ g, raw.map (RingBlock.parse false) = some g → ∀ t : State, t.disagree d (s.agreed d e.window e.first) g = t)
    (hserved : (t.blockServe d w e.first .adders).2 = true)
    (hfits : (s.ringForms d w e (cf8In (raw.map (RingBlock.parse false)))).2 = false) :
    t.ringBlock d i w e 0 raw = ((t.blockServe d w e.first .adders).1,
      (s.ringForms d w e (cf8In (raw.map (RingBlock.parse false)))).1.bytes) := by
  have hserves := hkept.trans (State.ringKept_blockServe hserved)
  have hhome : e.adds = true ∧ (e.action != .home) = true := by obtain h | h := hadds <;> simp [RingEntry.adds, h]
  have hadd : t.ringAdd d i w e 0 raw = ((t.blockServe d w e.first .adders).1,
      (s.ringForms d w e (cf8In (raw.map (RingBlock.parse false)))).1) := by
    simp only [State.ringForms] at hfits ⊢
    simp only [State.ringAdd, Nat.add_zero, hserved, hcf8, if_true, Bool.false_eq_true, if_false, hserves.redBlock, hserves.agreed,
      State.ringCopy_of_plain hplain, hfits]
    cases hraw : raw.map (RingBlock.parse false) with
    | none => rfl
    | some g => simp only [hagrees g hraw]
  simp only [State.ringBlock, hhome.1, hhome.2, if_true, hadd]

theorem State.ringBlock_of_end (hend : e.action = .end_) {g : List Byte}
    (hagrees : ∀ t : State, t.disagree d (s.agreed d e.window e.first) (.parse false g) = t) :
    (t.ringBlock d i w e 0 (some g)).1 = t.ringStore d e 0 g := by
  simp only [State.ringBlock, RingEntry.adds, hend, State.ringCopy_of_plain hplain, hcf8, Nat.add_zero, hkept.agreed, hagrees]
  rfl

end Blocks

/-- Settles O24: an entry by whether it has run, then by its action: a START forms its block from the local one, a HOP adds it to what
came, an END stores what came. -/
theorem ringEntriesRun : Obligations.RingEntriesRun := by
  intro s d i p e w hrunning hentry hwindow hclock hserves hplain hone hcf8 ag ran came adds sent
  have hset : s.RingSet d i p e w := ⟨hrunning, hentry, hwindow, hclock, hserves, hplain, hone, hcf8⟩
  refine ⟨fun hend => RingEntry.intake_of_end hend hcf8, fun hadds => RingEntry.intake_of_adds hadds hcf8, fun hdone => ?_,
    fun hnew hsealed => ⟨fun hstart hadds hfits => ?_, fun pay sc h sat x hrx hparse hsc hcame => ?_,
      fun pay hrx hend hlost => ?_⟩⟩
  · exact ⟨congrArg Host.Outcome.next (State.ringRun_of_done hset hdone true),
      congrArg Host.Outcome.next (State.ringRun_of_done hset hdone false)⟩
  · have hrun := State.ringRun_of_start hset hnew hsealed hstart
    rw [State.ringBlock_of_adds hplain hcf8 (s.ringKept_begun d i 322) (.inl hstart) (raw := none) nofun hadds hfits] at hrun
    exact congrArg Host.Outcome.next hrun
  · have hagrees : ∀ g, (some (pay.take 66)).map (RingBlock.parse false) = some g → ∀ t : State, t.disagree d ag g = t := by
      rintro g ⟨⟩ t
      rw [hparse]
      exact State.disagree_of_agreed hsc
    refine ⟨fun hhop hadds hfits => ?_, fun hend => ?_⟩
    · have hintake : e.intake = 322 := RingEntry.intake_of_adds (.inr hhop) hcf8
      rw [show came = s.ringCame d i p e 322 from hintake ▸ rfl] at hcame hadds ⊢
      have hin : cf8In (some (RingBlock.parse false (pay.take 66))) = some (sc, h, sat, x) := by rw [hparse]; rfl
      have hrun := State.ringRun_of_hop hset hnew hrx hsealed hhop hcame
      rw [State.ringBlock_of_adds hplain hcf8 (s.ringKept_came d i p e 322) (.inr hhop) (raw := some (pay.take 66)) hagrees hadds
        (by rw [Option.map_some, hin]; exact hfits), Option.map_some, hin] at hrun
      exact congrArg Host.Outcome.next hrun
    · have hintake : e.intake = 66 := RingEntry.intake_of_end hend hcf8
      rw [show came = s.ringCame d i p e 66 from hintake ▸ rfl] at hcame ⊢
      have hrun := State.ringRun_of_end hset hnew hrx hend
      rw [if_pos hcame, State.ringBlock_of_end hplain hcf8 (s.ringKept_came d i p e 66) hend (hagrees _ rfl)] at hrun
      exact congrArg Host.Outcome.next hrun
  · have hintake : e.intake = 66 := RingEntry.intake_of_end hend hcf8
    rw [show came = s.ringCame d i p e 66 from hintake ▸ rfl] at hlost ⊢
    have hrun := State.ringRun_of_end hset hnew hrx hend
    rw [if_neg (Bool.eq_false_iff.mp hlost)] at hrun
    exact congrArg Host.Outcome.next hrun

end Sys2Proof.Machine
end

section
/-!
PROOF. Verdict ticks and commit ticks (R308, R313, R314, R317, R357, R364, R473, R475).
-/
namespace Sys2Proof.Machine

open Sys2Proof

variable {s : State} {p : Part} {f : Forme}

/-! ### The verdict tick -/

/-- The verdict tick of the step of a partition's forme is due: it runs, it is not done, its tick has come (R473). -/
structure State.VerdictDue (s : State) (p : Part) (f : Forme) : Prop where
  forme : (s.part p).forme = some f
  running : (s.part p).running = true
  fresh : (s.part p).vdone = false
  tick : (s.part p).stepStart + f.verdictAt ≤ s.now

theorem State.verdictTick_of_idle (hf : (s.part p).forme = some f)
    (h : (s.part p).running = false ∨ (s.part p).vdone = true ∨ s.now < (s.part p).stepStart + f.verdictAt) :
    s.verdictTick p = s := by
  simp only [State.verdictTick, hf]
  rw [if_pos]
  simpa [or_assoc] using h

theorem State.gleanAt_of_idle (hf : (s.part p).forme = some f)
    (h : (s.part p).running = false ∨ (s.part p).vdone = true ∨ s.now < (s.part p).stepStart + f.verdictAt) :
    s.gleanAt p = s := by
  simp only [State.gleanAt, hf]
  rw [if_neg]
  rcases h with h | h | h <;> simp [h]

/-- Without a gleaned window no block is due for a comparison (R359). -/
theorem State.gleanDue_of_plain (h : ∀ d fd, s.formeDie d = some fd → ∀ w ∈ fd.windows, w.glean = false) :
    s.gleanDue p = s := by
  refine foldl_of_idle fun d _ => ?_
  cases hd : s.formeDie d with
  | none => rfl
  | some fd =>
    refine foldl_of_idle fun x hx => ?_
    have hw : x.1 ∈ fd.windows := by
      obtain ⟨-, hlt, hget⟩ := List.mem_zipIdx hx
      rw [hget]
      exact List.getElem_mem _
    simp only [h d fd hd x.1 hw, Bool.not_false, if_true]

theorem State.gleanAt_of_plain (h : ∀ d fd, s.formeDie d = some fd → ∀ w ∈ fd.windows, w.glean = false) :
    s.gleanAt p = s := by
  simp only [State.gleanAt, State.gleanDue_of_plain h, ite_self]
  split <;> rfl

/-- The provisional events of a partition. -/
def State.provOf (s : State) (p : Part) : List ProvEv := s.prov.filter fun e => decide (s.partOf e.unit.d = some p)

/-- The provisional events of a partition count; of the rest of the state only TU_CHK changes (R475). -/
theorem State.promoteProv_eq (s : State) (p : Part) : ∃ regs, s.promoteProv p =
    { s with regs := regs, prov := s.prov.filter fun e => !decide (s.partOf e.unit.d = some p) }.charge p
      (s.provOf p).length := by
  have hregs : ∀ (l : List ProvEv) (u : State), ∃ regs,
      l.foldl (fun s e => s.wrBit (ureg .tuChk e.unit) 2 false) u = { u with regs := regs } := by
    intro l
    induction l with
    | nil => exact fun u => ⟨u.regs, rfl⟩
    | cons e l ih =>
      intro u
      obtain ⟨regs, h⟩ := ih (u.wrBit (ureg .tuChk e.unit) 2 false)
      exact ⟨regs, by rw [List.foldl_cons, h]; rfl⟩
  obtain ⟨regs, h⟩ := hregs (s.provOf p) s
  refine ⟨regs, ?_⟩
  simp only [State.promoteProv]
  rw [State.provOf] at h
  simp only [h]
  rfl

theorem State.comparePairs_of_level (h : f.level ≠ 2) : s.comparePairs p f = s := by
  rw [State.comparePairs, if_pos (.inl h)]

theorem Forme.twinCompared_of_plain (hl : f.level = 0) (hm : f.mirror = false) : f.twinCompared = false := by
  simp [Forme.twinCompared, hl, hm]

theorem State.compareTwin_of_plain (h : f.twinCompared = false) : s.compareTwin p f = s := by
  simp [State.compareTwin, h]

theorem State.verdictTick_of_due (h : s.VerdictDue p f) (hl : f.level = 0) (hm : f.mirror = false) :
    s.verdictTick p = (s.promoteProv p).modPart p fun ps => { ps with
      vdone := true
      own := some ⟨ps.vcount, s.promotions f, if ps.coldReq then 1 else 0⟩ } := by
  obtain ⟨hf, hrun, hfresh, htick⟩ := h
  have hlate : ¬ s.now < (s.part p).stepStart + f.verdictAt := by omega
  have hlu : (s.promoteProv p).promotions f = s.promotions f := by
    obtain ⟨regs, hprov⟩ := s.promoteProv_eq p
    rw [hprov]
    rfl
  simp only [State.verdictTick, hf, hrun, hfresh, hlate, decide_false, Bool.not_true, Bool.or_self, Bool.false_eq_true, if_false,
    State.comparePairs_of_level (f := f) (by omega), State.compareTwin_of_plain (Forme.twinCompared_of_plain hl hm), hlu]

theorem exec_verdictTick_of_due (h : s.VerdictDue p f) (hl : f.level = 0) (hm : f.mirror = false)
    (hplain : ∀ d fd, s.formeDie d = some fd → ∀ w ∈ fd.windows, w.glean = false) :
    let n := (s.provOf p).length
    ∃ t, Machine.exec (.verdictTick p) s = .next t
      ∧ t.part p = { s.part p with
          vcount := satAdd32 (s.part p).vcount n
          vdone := true
          own := some ⟨satAdd32 (s.part p).vcount n, s.promotions f, if (s.part p).coldReq then 1 else 0⟩ }
      ∧ t.prov = s.prov.filter (fun e => !decide (s.partOf e.unit.d = some p))
      ∧ (∀ q, q ≠ p → t.part q = s.part q) ∧ t.dies = s.dies ∧ t.units = s.units ∧ t.susp = s.susp := by
  refine ⟨s.verdictTick p, ?_, ?_⟩
  · exact congrArg Host.Outcome.next (by rw [State.gleanAt_of_plain hplain])
  rw [State.verdictTick_of_due h hl hm]
  obtain ⟨regs, hprov⟩ := s.promoteProv_eq p
  rw [hprov]
  refine ⟨?_, rfl, fun q hq => ?_, rfl, rfl, rfl⟩
  · rw [State.part_modPart, State.charge, State.part_modPart]
    rfl
  · rw [State.part_modPart_ne _ _ _ _ hq, State.charge, State.part_modPart_ne _ _ _ _ hq]
    rfl

/-! ### The commit tick -/

/-- The commit tick of a step whose verdict record `r` has come back is due, and no snapshot and no twin hangs on it
(R313). -/
structure State.CommitDue (s : State) (p : Part) (f : Forme) (r : TreeRec) : Prop where
  forme : (s.part p).forme = some f
  running : (s.part p).running = true
  fresh : (s.part p).commitDone = false
  tick : (s.part p).stepStart + f.commitAt ≤ s.now
  vdone : (s.part p).vdone = true
  up : (s.part p).up.isSome = true
  down : (s.part p).down = some r
  alone : f.twinCompared = false
  noSnap : (s.part p).snaps.find? (·.runs) = none

/-- Whether a step with the hall's record `r` commits (R313). -/
def PartS.commits (ps : PartS) (r : TreeRec) : Bool := ps.held && r.sum == 0 && !ps.diverged

/-- What the commit tick does to the record of a partition, at step `st` (R313, R317). -/
def PartS.noted (ps : PartS) (f : Forme) (commits : Bool) (st : Word) : PartS :=
  { ps with
    commitDone := true, committedLast := commits, lastStep := st, lastBefore := ps.lastCommit
    lastCommit := if commits then st else ps.lastCommit
    haltOnBoundary := ps.haltOnBoundary || (!commits && f.unclean == .halt) }

/-- What the commit tick does at a die: the page and the history toggle and the step counts, or the page is not valid and
only under SKIP the step counts (R313, R314). -/
def State.commitDie (f : Forme) (commits : Bool) (st : Word) (t : State) (d : Die) : State :=
  if commits then
    ((t.modReg (dreg .cdPage d) fun w => setBit (setBit w 0 (!bit w 0)) 2 true).modReg (dreg .cdHist d) fun w =>
      setBit w 0 (!bit w 0)).wr (dreg .cdStep d) (st + 1)
  else
    let t := t.wrBit (dreg .cdPage d) 2 false
    if f.unclean = .skip then t.wr (dreg .cdStep d) (st + 1) else t

/-- Everything the commit tick does but for the fallow watch. -/
def State.commitPast (s : State) (p : Part) (f : Forme) (r : TreeRec) : State :=
  let commits := (s.part p).commits r
  (s.partDies p).foldl (State.commitDie f commits (s.stepNo p))
    ((s.noteVerdict p f commits).modPart p (·.noted f commits (s.stepNo p)))

/-- The dies of a partition are told by their CD_PARTITION (R41). -/
theorem State.partDies_of_rd {t : State} (h : ∀ d, t.rd (dreg .cdPartition d) = s.rd (dreg .cdPartition d)) (p : Part) :
    t.partDies p = s.partDies p := by
  have hof : t.partOf = s.partOf := funext fun d => by simp only [State.partOf, h d]
  rw [State.partDies, State.partDies, hof]

theorem State.partDies_modPart (s : State) (p q : Part) (g : PartS → PartS) : (s.modPart q g).partDies p = s.partDies p := rfl

theorem State.partDies_noteVerdict (s : State) (p : Part) (f : Forme) (c : Bool) :
    (s.noteVerdict p f c).partDies p = s.partDies p := by
  refine State.partDies_of_rd (fun d => ?_) p
  show (State.wrFld _ _ _ _ _).rd _ = _
  rw [State.rd_wrFld_ne _ (by simp [dreg, preg]), State.rd_wr_ne _ _ _ _ (by simp [dreg, preg]),
    State.rd_wr_ne _ _ _ _ (by simp [dreg, preg]), State.rd_wr_ne _ _ _ _ (by simp [dreg, preg])]

theorem State.stepNo_noteVerdict (hrun : (s.part p).running = true) (c : Bool) :
    (s.noteVerdict p f c).stepNo p = s.stepNo p := by
  have hpart : (s.noteVerdict p f c).part p = s.part p := rfl
  rw [State.stepNo, State.stepNo, hpart, if_pos hrun, if_pos hrun]

theorem State.part_commitDie (c : Bool) (st : Word) (t : State) (d : Die) : (State.commitDie f c st t d).part p = t.part p := by
  unfold State.commitDie
  split
  · rfl
  · dsimp only
    split <;> rfl

theorem State.part_commitPast (s : State) (p : Part) (f : Forme) (r : TreeRec) :
    (s.commitPast p f r).part p = (s.part p).noted f ((s.part p).commits r) (s.stepNo p) := by
  rw [State.commitPast, foldl_keep (State.part · p) _ fun t d => State.part_commitDie _ _ t d, State.part_modPart]
  rfl

section due
variable {r : TreeRec} (h : s.CommitDue p f r)
include h

theorem State.treeAdvance_of_back : s.treeAdvance p = s := by
  obtain ⟨hf, hrun, -, -, -, hup, hdown, -, -⟩ := h
  have hnone : (s.part p).up.isNone = false := by simpa using hup
  simp only [State.treeAdvance, hf, hrun, if_true, hnone, Bool.false_and, Bool.false_eq_true, if_false, hdown, Option.isSome_some]
  split <;> rfl

theorem State.commitTick_of_due : s.commitTick p = s.commitPast p f r := by
  have hback := State.treeAdvance_of_back h
  obtain ⟨hf, hrun, hfresh, htick, hvdone, hup, hdown, halone, hsnap⟩ := h
  have hlate : ¬ s.now < (s.part p).stepStart + f.commitAt := by omega
  have hidle : s.verdictTick p = s := State.verdictTick_of_idle hf (.inr (.inl hvdone))
  simp only [State.commitTick, hf, hrun, hfresh, hlate, decide_false, Bool.not_true, Bool.or_self, Bool.false_eq_true, if_false,
    hidle, hback, hdown, State.noteDigests, halone, Bool.not_false, if_true, hsnap]
  rw [State.partDies_modPart, State.partDies_noteVerdict, State.stepNo_noteVerdict hrun]
  simp only [State.commitPast, PartS.noted, beq_iff_eq, PartS.commits]
  rfl

/-- The fallow watch runs after the commit tick of a step that commits (R364). -/
theorem State.commit_of_due : s.commit p =
    if (s.part p).commits r then (s.commitPast p f r).fallowWatch p else s.commitPast p f r := by
  have hpart := s.part_commitPast p f r
  simp only [State.commit, State.commitTick_of_due h, h.fresh, hpart, PartS.noted, Bool.not_false, Bool.true_and]

end due

/-- Settles O33: what each of the two ticks does, from its due case and its idle one. -/
theorem verdictsAndCommits : Obligations.VerdictsAndCommits := by
  refine ⟨fun s p f hf => ⟨fun hidle => ?_, fun hrun hfresh htick hl hm hplain => ?_⟩,
    fun s p f r hf hrun hfresh htick hvdone hup hdown halone hsnap => ?_⟩
  · refine congrArg Host.Outcome.next ?_
    rw [State.gleanAt_of_idle hf hidle, State.verdictTick_of_idle hf hidle]
  · exact exec_verdictTick_of_due ⟨hf, hrun, hfresh, htick⟩ hl hm hplain
  · exact congrArg Host.Outcome.next
      (State.commit_of_due ⟨hf, hrun, hfresh, htick, hvdone, hup, hdown, halone, hsnap⟩)

end Sys2Proof.Machine
end

section
/-!
PROOF. Suspect events, spare banks, and a unit at a step boundary (R34, R49, R199, R232, R269, R476, R479).
-/
namespace Sys2Proof.Machine

open Sys2Proof

/-! ### Suspect events (R34, R476) -/

section event
variable (s : State) (e : SuspEv)

/-- The event is counted for the step that runs. -/
def State.countNow : State := s.modPart e.part fun ps => { ps with vcount := satAdd32 ps.vcount 1 }

/-- The event is counted for the next step. -/
def State.countNext : State := s.modPart e.part fun ps => { ps with vnext := satAdd32 ps.vnext 1 }

/-- LATE_EVENT of the die that raised the event. -/
def SuspEv.lateRaise (e : SuspEv) : Raise := ⟨dreg .cdFault e.die, 7, true, true, 0, none⟩

theorem State.countEvent_of_unarmed (h : (s.part e.part).armed = false) : s.countEvent e = s := by
  simp [State.countEvent, h]

theorem State.countEvent_of_waiting (ha : (s.part e.part).armed = true) (hr : (s.part e.part).running = false) :
    s.countEvent e = s.countNext e := by
  simp [State.countEvent, ha, hr, State.countNext, hold32]

theorem State.countEvent_of_ahead (ha : (s.part e.part).armed = true) (hr : (s.part e.part).running = true)
    (ho : (s.part e.part).ord < e.ord) : s.countEvent e = s.countNext e := by
  simp [State.countEvent, ha, hr, ho, State.countNext, hold32]

/-- An event of the step that runs or of an earlier one counts where the record is still open, else for the next step; it
is late if the step or the record is past. -/
theorem State.countEvent_of_come (ha : (s.part e.part).armed = true) (hr : (s.part e.part).running = true)
    (ho : e.ord ≤ (s.part e.part).ord) :
    s.countEvent e =
      let t := if (s.part e.part).vdone then s.countNext e else s.countNow e
      if decide (e.ord < (s.part e.part).ord) || (s.part e.part).vdone then t.raiseAll 16 [e.lateRaise] else t := by
  simp [State.countEvent, ha, hr, Nat.not_lt.mpr ho, State.countNext, State.countNow, hold32, SuspEv.lateRaise]

end event

theorem exec_suspectEventArrive {s : State} {n : Nat} {e : SuspEv} (h : s.susp[n]? = some e) :
    Machine.exec (.suspectEventArrive n) s = .next ({ s with susp := s.susp.eraseIdx n }.countEvent e) := by
  show Host.Outcome.next (s.arrive n) = _
  rw [State.arrive, h]

/-! ### Spare banks (R49, R479) -/

theorem State.spareBankLoad_of_chosen {s : State} {l : LU} {i : Nat} {p : PU} {q : Part} {f : Forme} {v : Variant} {im : BankImage}
    (hi : (s.loadingFor l.region).findIdx? (· = l) = some i) (hp : (s.freeSpares l.region)[i]? = some p)
    (hq : s.partOf l.d = some q) (hf : (s.part q).forme = some f) (hv : f.variants[(s.part q).variant]? = some v)
    (him : v.images.find? (·.unit = l) = some im) :
    s.spareBankLoad l = { s with replays := s.replays.filter (·.spare ≠ p) }.setUnit p
      { s.unit p with recto := Memory.empty.write 0 im.recto, verso := Memory.empty.write 0 im.verso } := by
  have hpart : { s with replays := s.replays.filter (·.spare ≠ p) }.partOf l.d = some q := hq
  have hvariant : ({ s with replays := s.replays.filter (·.spare ≠ p) }.part q).forme.bind
      (fun f => f.variants[({ s with replays := s.replays.filter (·.spare ≠ p) }.part q).variant]?) = some v := by
    show (s.part q).forme.bind (fun f => f.variants[(s.part q).variant]?) = some v
    rw [hf, Option.bind_some, hv]
  simp only [State.spareBankLoad, hi, hp, State.loadBanks, hpart, hvariant, him]
  rfl

/-! ### A unit at a step boundary (R199, R232, R269) -/

/-- Below its last two entries the descriptor table of a step holds free values (R232). -/
theorem bytes_prologueTable (g : Nat) (d : Die) (off len : Nat) :
    (prologueTable g d off len).bytes 0 1984 = Memory.bytes ⟨.free g, []⟩ 0 1984 := by
  unfold prologueTable
  rw [Memory.bytes_write_of_apart _ (.inl (by omega)), Memory.bytes_write_of_apart _ (.inl (by omega))]

theorem group_stepStart (x : UnitS) (g : Nat) (d : Die) (pro : Nat × Nat) (k : Fin 4) :
    ((x.stepStart g d pro).group k).st = .shut := by
  have hk : (List.range 4)[k.val]? = some k.val := by simp
  simp only [UnitS.group, UnitS.stepStart, List.getElem?_map, hk, Option.map_some, Option.getD_some]

/-- The unit that a step boundary leaves, with the number of its free values. -/
theorem State.unit_unitStep (s : State) (f : Forme) (u : LU) (p : PU) :
    ∃ g pro, (s.unitStep f u p).unit p = (s.unit p).stepStart g u.d pro :=
  ⟨_, _, State.unit_setUnit _ _ _⟩

/-- Settles O34: the three ways an event can count, the bank load, and the unit at a boundary field by field. -/
theorem eventsAndSpares : Obligations.EventsAndSpares := by
  refine ⟨fun s n e he => ?_, fun s l i p q f v im hi hp hq hf hv him => ?_, fun s f u p => ?_⟩
  · rw [exec_suspectEventArrive he]
    have hcome := State.countEvent_of_come { s with susp := s.susp.eraseIdx n } e
    refine ⟨fun ha => ?_, fun ha hr => ?_, fun ha hr ho hv => ?_, fun ha hr ho => ?_, fun ha hr ho hv => ?_,
      fun ha hr ho hv => ?_⟩
    · exact congrArg Host.Outcome.next (State.countEvent_of_unarmed _ e ha)
    · exact congrArg Host.Outcome.next (State.countEvent_of_waiting _ e ha hr)
    · have hopen : ({ s with susp := s.susp.eraseIdx n }.part e.part).vdone = false := hv
      have hlate : ¬ e.ord < ({ s with susp := s.susp.eraseIdx n }.part e.part).ord := Nat.not_lt.mpr (Nat.le_of_eq ho.symm)
      rw [hcome ha hr (Nat.le_of_eq ho)]
      simp only [hopen, hlate, decide_false, Bool.or_self, Bool.false_eq_true, if_false]
      rfl
    · exact congrArg Host.Outcome.next (State.countEvent_of_ahead _ e ha hr ho)
    · have hopen : ({ s with susp := s.susp.eraseIdx n }.part e.part).vdone = false := hv
      have hlate : e.ord < ({ s with susp := s.susp.eraseIdx n }.part e.part).ord := ho
      rw [hcome ha hr (Nat.le_of_lt ho)]
      simp only [hopen, hlate, decide_true, Bool.true_or, Bool.false_eq_true, if_false, if_true]
      rfl
    · have hdone : ({ s with susp := s.susp.eraseIdx n }.part e.part).vdone = true := hv
      rw [hcome ha hr ho]
      simp only [hdone, Bool.or_true, if_true]
      rfl
  · exact congrArg Host.Outcome.next (State.spareBankLoad_of_chosen hi hp hq hf hv him)
  · obtain ⟨g, pro, hy⟩ := s.unit_unitStep f u p
    simp only [hy]
    refine ⟨rfl, group_stepStart _ g u.d pro, rfl, rfl, rfl, rfl, fun d hd => ?_, rfl, rfl, rfl, g, rfl, rfl, rfl, rfl,
      bytes_prologueTable (g + 2) u.d pro.1 pro.2⟩
    obtain ⟨c, -, rfl⟩ := List.mem_map.mp hd
    rfl

end Sys2Proof.Machine
end

section
/-!
PROOF. An epoch frame, the records of a delta, windows and buffer records are read as what they spell (R58, R59, R326,
R381, R627).
-/
namespace Sys2Proof.Machine

open Sys2Proof

/-! ### Epoch frames (R58, R59) -/

/-- The low `n` bits of a number, most significant first, spell it. -/
theorem msbNat_testBits (n v : Nat) : msbNat ((List.range n).map fun i => v.testBit (n - 1 - i)) = v % 2 ^ n := by
  induction n generalizing v with
  | zero => simp [msbNat, Nat.mod_one]
  | succ n ih =>
    have hinit : ((List.range n).map fun i => v.testBit (n + 1 - 1 - i)) =
        (List.range n).map fun i => (v / 2).testBit (n - 1 - i) := by
      refine List.map_congr_left fun i hi => ?_
      have hlt := List.mem_range.mp hi
      rw [← Nat.testBit_succ, show n + 1 - 1 - i = (n - 1 - i).succ by omega]
    have hlast : (v.testBit (n + 1 - 1 - n)).toNat = v % 2 := by
      rw [show n + 1 - 1 - n = 0 by omega, Nat.toNat_testBit, Nat.pow_zero, Nat.div_one]
    rw [List.range_succ, List.map_append, hinit, msbNat, List.foldl_append]
    show 2 * msbNat _ + (v.testBit (n + 1 - 1 - n)).toNat = _
    rw [ih, hlast, Nat.pow_succ', Nat.mod_mul]
    omega

theorem crc8_lt (bits : List Bool) : crc8 bits < 256 := by
  have hstep : ∀ c b, crc8Step c b < 256 := fun c b => by
    have hc : c * 2 % 256 < 2 ^ 8 := Nat.mod_lt _ (by decide)
    unfold crc8Step
    dsimp only
    split
    · exact Nat.xor_lt_two_pow hc (by decide)
    · exact hc
  induction bits using List.reverseRecOn with
  | nil => decide
  | append_singleton bits b _ => rw [crc8, List.foldl_append]; exact hstep _ b

/-- The symbol of a bit (R58). -/
def EpochSym.ofBit (b : Bool) : EpochSym := if b then .one else .zero

theorem EpochSym.ofBit_beq_one (b : Bool) : (EpochSym.ofBit b == .one) = b := by cases b <;> rfl

/-- A frame of 44 bits, their CRC and zeros reads as its bits (R59, R60). -/
theorem frameOf_of_bits {bits crc : List Bool} (hb : bits.length = 44) (hc : crc.length = 8) (h : crc8 bits = msbNat crc) :
    frameOf (.marker :: ((bits ++ crc).map EpochSym.ofBit ++ List.replicate 11 .zero)) = some (msbNat bits) := by
  have hlen : ((bits ++ crc).map EpochSym.ofBit).length = 52 := by simp [hb, hc]
  have htake : ((bits ++ crc).map EpochSym.ofBit ++ List.replicate 11 EpochSym.zero).take 52 = (bits ++ crc).map EpochSym.ofBit :=
    List.take_left' hlen
  have hdrop : ((bits ++ crc).map EpochSym.ofBit ++ List.replicate 11 EpochSym.zero).drop 52 = List.replicate 11 .zero :=
    List.drop_left' hlen
  have hback : ((bits ++ crc).map EpochSym.ofBit).map (fun x => x == .one) = bits ++ crc := by
    rw [List.map_map]
    exact (List.map_congr_left fun b _ => EpochSym.ofBit_beq_one b).trans (List.map_id _)
  have hdata : ((bits ++ crc).map EpochSym.ofBit).all (fun x => decide (x = .zero ∨ x = .one)) = true := by
    rw [List.all_map, List.all_eq_true]
    intro b _
    cases b <;> rfl
  simp only [frameOf, htake, hdrop, hback, hdata]
  rw [if_pos, List.take_left' hb, List.drop_left' hb, if_pos h]
  exact ⟨by rw [List.length_append, hlen]; rfl, trivial, by decide⟩

theorem frameOf_frameFor (t : Nat) : frameOf (frameFor t) = some (t / 2 ^ 20 % 2 ^ 44) := by
  have hbits := msbNat_testBits 44 (t / 2 ^ 20 % 2 ^ 44)
  have hcrc := msbNat_testBits 8 (crc8 ((List.range 44).map fun i => (t / 2 ^ 20 % 2 ^ 44).testBit (43 - i)))
  rw [Nat.mod_mod] at hbits
  rw [Nat.mod_eq_of_lt (show _ < 2 ^ 8 from crc8_lt _)] at hcrc
  rw [← hbits, ← frameOf_of_bits (by simp) (by simp) hcrc.symm]
  rw [List.map_append, List.map_map, List.map_map]
  rfl

/-! ### Numbers in byte strings (R114) -/

theorem leNat_natLe (n v : Nat) : leNat (natLe n v) = v % 256 ^ n := by
  induction n generalizing v with
  | zero => simp [natLe, leNat, Nat.mod_one]
  | succ n ih =>
    rw [natLe, leNat, ih, BitVec.toNat_ofNat, show 256 ^ (n + 1) = 256 * 256 ^ n from Nat.pow_succ', Nat.mod_mul]

theorem leNat_natLe_of_lt {n v : Nat} (h : v < 256 ^ n) : leNat (natLe n v) = v := by
  rw [leNat_natLe, Nat.mod_eq_of_lt h]

theorem fieldAt_head {n v : Nat} (c : List Byte) (h : v < 256 ^ n) : fieldAt (natLe n v ++ c) 0 n = v := by
  rw [fieldAt, List.drop_zero, List.take_left' (length_natLe n v), leNat_natLe_of_lt h]

theorem fieldAt_skip {n k : Nat} (v m : Nat) (c : List Byte) (h : n ≤ k) :
    fieldAt (natLe n v ++ c) k m = fieldAt c (k - n) m := by
  rw [fieldAt, List.drop_append, List.drop_eq_nil_of_le (by rw [length_natLe]; exact h), length_natLe, List.nil_append, fieldAt]

/-! ### The records of a delta (R627) -/

theorem runDelta_copy {src out rest : List Byte} {n off len : Nat} (hoff : off < 2 ^ 32) (hlen : len < 2 ^ 32)
    (h : off + len ≤ src.length) :
    runDelta src (n + 1) (1 :: (natLe 4 off ++ natLe 4 len ++ rest)) out = runDelta src n rest (out ++ (src.drop off).take len) := by
  have ho : leNat ((natLe 4 off ++ natLe 4 len ++ rest).take 4) = off := by
    rw [List.append_assoc, List.take_left' (length_natLe 4 off), leNat_natLe_of_lt hoff]
  have hl : leNat (((natLe 4 off ++ natLe 4 len ++ rest).drop 4).take 4) = len := by
    rw [List.append_assoc, List.drop_left' (length_natLe 4 off), List.take_left' (length_natLe 4 len), leNat_natLe_of_lt hlen]
  have hrest : (natLe 4 off ++ natLe 4 len ++ rest).drop 8 = rest := List.drop_left' (by simp)
  have hroom : ¬ ((natLe 4 off ++ natLe 4 len ++ rest).length < 8 ∨ src.length < off + len) := by
    simp only [List.length_append, length_natLe]
    omega
  rw [runDelta]
  simp only [ho, hl, hrest, hroom, if_false]
  rfl

theorem runDelta_data {src out rest d : List Byte} {n : Nat} (hd : d.length < 2 ^ 32) :
    runDelta src (n + 1) (2 :: (natLe 4 d.length ++ (d ++ rest))) out = runDelta src n rest (out ++ d) := by
  have hl : leNat ((natLe 4 d.length ++ (d ++ rest)).take 4) = d.length := by
    rw [List.take_left' (length_natLe 4 d.length), leNat_natLe_of_lt hd]
  have hbody : ((natLe 4 d.length ++ (d ++ rest)).drop 4).take d.length = d := by
    rw [List.drop_left' (length_natLe 4 d.length), List.take_left]
  have hrest : (natLe 4 d.length ++ (d ++ rest)).drop (4 + d.length) = rest := by
    rw [← List.append_assoc]
    exact List.drop_left' (by simp)
  have hroom : ¬ (natLe 4 d.length ++ (d ++ rest)).length < 4 + d.length := by
    simp only [List.length_append, length_natLe]
    omega
  rw [runDelta]
  simp only [hl, hbody, hrest, hroom, if_false]
  rfl

/-! ### Windows and buffer records (R326, R381) -/

/-- The kind byte of a window: its three flags (R326). -/
def RedWindow.kind (w : RedWindow) : Nat := w.sp32.toNat + 2 * w.ring.toNat + 4 * w.glean.toNat

theorem RedWindow.kind_lt (w : RedWindow) : w.kind < 8 := by
  have h1 := w.sp32.toNat_le
  have h2 := w.ring.toNat_le
  have h3 := w.glean.toNat_le
  unfold RedWindow.kind
  omega

theorem RedWindow.testBit_kind (w : RedWindow) :
    w.kind.testBit 0 = w.sp32 ∧ w.kind.testBit 1 = w.ring ∧ w.kind.testBit 2 = w.glean := by
  unfold RedWindow.kind
  cases w.sp32 <;> cases w.ring <;> cases w.glean <;> decide

/-- The 32 bytes of a window (R326). -/
def RedWindow.spelt (w : RedWindow) : List Byte :=
  natLe 4 w.lines ++ natLe 4 w.blocks ++ natLe 2 w.pitch ++ natLe 2 w.tensor ++ natLe 1 w.kind ++ natLe 1 w.checker.val
    ++ natLe 2 w.expected ++ natLe 4 w.openAt ++ natLe 4 w.sealAt ++ natLe 4 w.hist ++ natLe 1 w.floor ++ [0, 0, 0]

theorem RedWindow.ofBytes_spelt {w : RedWindow} (hlines : w.lines < 2 ^ 32) (hline : w.lines % 256 = 0) (hsome : 1 ≤ w.blocks)
    (hblocks : w.blocks ≤ 2 ^ 20) (hpitch : w.pitch < 2 ^ 16) (htensor : w.tensor < 2 ^ 16) (hone : 1 ≤ w.expected)
    (hexpected : w.expected ≤ 256) (horder : w.openAt < w.sealAt) (hseal : w.sealAt < 2 ^ 32) (hhist : w.hist < 2 ^ 32)
    (hfloor : w.floor ≤ 0xFE) : RedWindow.ofBytes w.spelt = some w := by
  have hkind := w.kind_lt
  have hchecker := w.checker.isLt
  obtain ⟨hsp32, hring, hglean⟩ := w.testBit_kind
  have hzeros : zerosAt w.spelt 29 3 = true := by
    rw [zerosAt, RedWindow.spelt, List.drop_left' (by simp)]
    decide
  have hfields : fieldAt w.spelt 0 4 = w.lines ∧ fieldAt w.spelt 4 4 = w.blocks ∧ fieldAt w.spelt 8 2 = w.pitch
      ∧ fieldAt w.spelt 10 2 = w.tensor ∧ fieldAt w.spelt 12 1 = w.kind ∧ fieldAt w.spelt 13 1 = w.checker.val
      ∧ fieldAt w.spelt 14 2 = w.expected ∧ fieldAt w.spelt 16 4 = w.openAt ∧ fieldAt w.spelt 20 4 = w.sealAt
      ∧ fieldAt w.spelt 24 4 = w.hist ∧ fieldAt w.spelt 28 1 = w.floor := by
    simp only [RedWindow.spelt, List.append_assoc]
    refine ⟨?_, ?_, ?_, ?_, ?_, ?_, ?_, ?_, ?_, ?_, ?_⟩
    all_goals
      repeat rw [fieldAt_skip _ _ _ (by decide)]
      exact fieldAt_head _ (by omega)
  obtain ⟨e0, e4, e8, e10, e12, e13, e14, e16, e20, e24, e28⟩ := hfields
  have hfin : Fin.ofNat 16 w.checker.val = w.checker := Fin.ext (Nat.mod_eq_of_lt hchecker)
  simp only [RedWindow.ofBytes, e0, e4, e8, e10, e12, e13, e14, e16, e20, e24, e28, hsp32, hring, hglean, hfin, hzeros, whenOk,
    hline, hsome, hblocks, hkind, hchecker, hone, hexpected, horder, hfloor]
  rfl

/-- The word of a buffer record (R381). -/
def BufRec.word (r : BufRec) : Nat :=
  r.port.val + 64 * r.lane.val + 512 * r.buf.val + 4096 * r.slot.val + 2 ^ 19 * r.fsel.toNat

theorem BufRec.ofBytes_word {r : BufRec} (hport : r.port.val ≤ 48) (hlane : r.lane.val < (if r.port.val = 48 then 8 else 4)) :
    BufRec.ofBytes (natLe 4 r.word) = some r := by
  have hp := r.port.isLt
  have hl := r.lane.isLt
  have hb := r.buf.isLt
  have hs := r.slot.isLt
  have hf := r.fsel.toNat_le
  have hlt : r.word < 2 ^ 20 := by
    unfold BufRec.word
    omega
  have hport64 : r.word % 64 = r.port.val := by unfold BufRec.word; omega
  have hlane8 : r.word / 64 % 8 = r.lane.val := by unfold BufRec.word; omega
  have hbuf8 : r.word / 512 % 8 = r.buf.val := by unfold BufRec.word; omega
  have hslot128 : r.word / 4096 % 128 = r.slot.val := by unfold BufRec.word; omega
  have hfsel : r.word.testBit 19 = r.fsel := by
    have hbit : r.word / 2 ^ 19 % 2 = r.fsel.toNat := by unfold BufRec.word; omega
    rw [Nat.testBit_eq_decide_div_mod_eq, hbit]
    cases r.fsel <;> rfl
  have hexists : laneExists r.port.val r.lane.val = true := by
    simp only [laneExists, Bool.or_eq_true, Bool.and_eq_true, beq_iff_eq, decide_eq_true_eq]
    split at hlane <;> omega
  have hword : fieldAt (natLe 4 r.word) 0 4 = r.word := by
    rw [← List.append_nil (natLe 4 r.word)]
    exact fieldAt_head [] (by omega)
  simp only [BufRec.ofBytes, hword, hport64, hlane8, hexists, hlt, decide_true, Bool.and_self, whenOk, if_true, hfsel,
    Option.some.injEq]
  cases r
  simp only [BufRec.mk.injEq, and_true]
  exact ⟨Fin.ext hport64, Fin.ext hlane8, Fin.ext hbuf8, Fin.ext hslot128⟩

/-- Settles O40: each part from the way its fields are cut out again. -/
theorem framesRoundTrip : Obligations.FramesRoundTrip := by
  refine ⟨frameOf_frameFor, fun src out rest d n off len hoff hlen hd => ⟨runDelta_copy hoff hlen, runDelta_data hd, rfl⟩,
    fun w h1 h2 h3 h4 h5 h6 h7 h8 h9 h10 h11 h12 => RedWindow.ofBytes_spelt h1 h2 h3 h4 h5 h6 h7 h8 h9 h10 h11 h12,
    fun r hport hlane => BufRec.ofBytes_word hport hlane⟩

end Sys2Proof.Machine
end

section
/-!
PROOF. Gear changes and the locks of clock domains (R100 to R102, R311, R601).
-/
namespace Sys2Proof.Machine

open Sys2Proof

variable {s : State} {p : Part}

/-! ### Gear changes (R100 to R102, R311) -/

section change
variable {t : Nat} {g : Gear} (h : s.nextGear p = some (t, g))
include h

theorem State.voltageRise_of_up (ht : t ≤ s.now + 16384) (hup : g.code < (s.gearOf p).code) :
    s.voltageRise p = (s.setRails p g).modPart p fun ps => { ps with gearDown := false } := by
  simp only [State.voltageRise, h, ht, hup, and_self, if_true]

theorem State.voltageRise_of_idle (hidle : ¬ (t ≤ s.now + 16384 ∧ g.code < (s.gearOf p).code)) : s.voltageRise p = s := by
  simp only [State.voltageRise, h, if_neg hidle]

theorem State.gearSwitch_of_early (ht : s.now < t) : s.gearSwitch p = s := by
  simp only [State.gearSwitch, h, ht, if_true]

theorem State.gearSwitch_of_put_off (ht : t ≤ s.now) (hnone : s.gearHasVariant p g = false) :
    s.gearSwitch p = s.deferGear p t g := by
  simp only [State.gearSwitch, h, Nat.not_lt.mpr ht, if_false, hnone, Bool.not_false, if_true]

/-- The clocks of the regions switch, the registers tell it, and the command is answered. -/
theorem State.gearSwitch_of_due (ht : t ≤ s.now) (hsome : s.gearHasVariant p g = true) :
    s.gearSwitch p =
      let up : Bool := decide (g.code < (s.gearOf p).code)
      let s1 := (if up then s.setRails p g else s).wrFld (preg .htGear p) 1 0 g.code
      let s2 := (s1.partRegions p).foldl (fun s r => s.modRegion r fun x => { x with gear := if x.proving then x.gear else g }) s1
      ((s2.modPart p fun ps => { ps with gearAt := s2.now, gearDown := !up }).endJobs
        (fun j => decide (j.req.part = p) && j.kind == .gearAt t g) stOk).syncGear p := by
  simp only [State.gearSwitch, h, Nat.not_lt.mpr ht, if_false, hsome, Bool.not_true, Bool.false_eq_true]

end change

theorem State.voltageFall_of_due (hdown : (s.part p).gearDown = true) (ht : (s.part p).gearAt + 16384 ≤ s.now) :
    s.voltageFall p = (s.setRails p (s.gearOf p)).modPart p fun ps => { ps with gearDown := false } := by
  simp only [State.voltageFall, hdown, ht, and_self, if_true]

theorem State.voltageFall_of_idle (h : (s.part p).gearDown = false ∨ s.now < (s.part p).gearAt + 16384) :
    s.voltageFall p = s := by
  rw [State.voltageFall, if_neg]
  rintro ⟨hdown, ht⟩
  rcases h with h | h
  · exact absurd hdown (by rw [h]; decide)
  · omega

/-- A running forme without the variant has none at the gear (R311). -/
theorem State.gearHasVariant_of_none {f : Forme} {g : Gear} (hrun : (s.part p).running = true)
    (hf : (s.part p).forme = some f) (hnone : f.follow g (s.part p).promos = none) : s.gearHasVariant p g = false := by
  simp only [State.gearHasVariant, hrun, hf, hnone, Bool.not_true, Bool.false_or, Option.isSome_none]

theorem State.deferGear_of_forme {f : Forme} (hf : (s.part p).forme = some f) (t : Nat) (g : Gear) :
    let later := s.host.jobs.map fun j =>
      if j.req.part = p ∧ j.kind = .gearAt t g then { j with kind := .gearAt (t + f.length * 16384) g } else j
    s.deferGear p t g = { s with host := { s.host with jobs := later } } := by
  simp only [State.deferGear, hf]

/-! ### Clock domains (R601) -/

section clock
variable (c : ClkDom)

theorem State.clockLoss_of_locked (h : s.power.clkLost.contains c = false) : s.clockLoss c =
    { s.wrBit (xreg .clkStat) 28 true with power := { s.power with
      clkLost := c :: s.power.clkLost, clkWait := s.power.clkWait.filter (· ≠ c) } } := by
  simp only [State.clockLoss, h, Bool.false_eq_true, if_false]
  rfl

theorem State.clockLoss_of_lost (h : s.power.clkLost.contains c = true) : s.clockLoss c = s := by
  simp only [State.clockLoss, h, if_true]

theorem State.clockReturn_of_lost (h : s.power.clkLost.contains c = true) : s.clockReturn c =
    { s with power := { s.power with clkLost := s.power.clkLost.filter (· ≠ c), clkWait := c :: s.power.clkWait } } := by
  simp only [State.clockReturn, h, Bool.not_true, Bool.false_eq_true, if_false]

theorem State.clockReturn_of_locked (h : s.power.clkLost.contains c = false) : s.clockReturn c = s := by
  simp only [State.clockReturn, h, Bool.not_false, if_true]

/-- A domain whose lock has returned is still out of lock until the boundary. -/
theorem State.clockOut_clockReturn (h : s.power.clkLost.contains c = true) : (s.clockReturn c).clockOut c = true := by
  rw [State.clockReturn_of_lost c h]
  simp [State.clockOut]

end clock

/-- Settles O41: a change by whether its time has come, whether it goes up and whether its variant is there; a domain by
whether it is out of lock. -/
theorem gearsAndClocks : Obligations.GearsAndClocks := by
  refine ⟨fun s p t g h => ⟨fun ht hup => ?_, fun hidle => ?_, fun ht hsome => ?_, fun f ht hrun hf hnone => ?_, fun ht => ?_,
    fun hdown ht => ?_, fun hidle => ?_⟩, fun s c => ⟨fun hc => ?_, fun hc => ?_, fun hc => ?_, fun hc => ?_⟩⟩
  · exact congrArg Host.Outcome.next (State.voltageRise_of_up h ht (of_decide_eq_true hup))
  · refine congrArg Host.Outcome.next (State.voltageRise_of_idle h fun ⟨ht, hup⟩ => ?_)
    rcases hidle with hlate | hdown
    · omega
    · exact of_decide_eq_false hdown hup
  · exact congrArg Host.Outcome.next (State.gearSwitch_of_due h ht hsome)
  · exact congrArg Host.Outcome.next ((State.gearSwitch_of_put_off h ht (State.gearHasVariant_of_none hrun hf hnone)).trans
      (State.deferGear_of_forme hf t g))
  · exact congrArg Host.Outcome.next (State.gearSwitch_of_early h ht)
  · exact congrArg Host.Outcome.next (State.voltageFall_of_due hdown ht)
  · exact congrArg Host.Outcome.next (State.voltageFall_of_idle hidle)
  · exact congrArg Host.Outcome.next (State.clockLoss_of_locked c hc)
  · exact congrArg Host.Outcome.next (State.clockLoss_of_lost c hc)
  · exact ⟨s.clockReturn c, rfl, State.clockOut_clockReturn c hc, by rw [State.clockReturn_of_lost c hc],
      by rw [State.clockReturn_of_lost c hc]⟩
  · exact congrArg Host.Outcome.next (State.clockReturn_of_locked c hc)

end Sys2Proof.Machine
end

section
/-!
PROOF. What the shared operations leave of FAULT_N and of the Hall Time base: raised sources and fences (R492, R495 to
R501), replies, page switches and the end of a forme (R413, R520, R562).
-/
namespace Sys2Proof.Machine

open Sys2Proof

/-- What tells the hall and the host of a lost reference: the Hall Time base and FAULT_N (R72). -/
def State.alarm (s : State) : HtS × Bool := (s.ht, s.faultPin)

theorem State.faultPin_of_alarm {s t : State} (h : t.alarm = s.alarm) : t.faultPin = s.faultPin := congrArg Prod.snd h

theorem State.ht_of_alarm {s t : State} (h : t.alarm = s.alarm) : t.ht = s.ht := congrArg Prod.fst h

theorem foldl_alarm {β : Type} (f : State → β → State) (h : ∀ a b, (f a b).alarm = a.alarm) (l : List β) (a : State) :
    (l.foldl f a).alarm = a.alarm := foldl_keep State.alarm f h l a

theorem foldl_alarm1 {β δ : Type} (f : State × δ → β → State × δ) (h : ∀ a b, (f a b).1.alarm = a.1.alarm) (l : List β)
    (a : State × δ) : (l.foldl f a).1.alarm = a.1.alarm := foldl_keep (fun a : State × δ => a.1.alarm) f h l a

section Raises

variable (s : State)

theorem State.alarm_setReplace (causes : Nat) : (s.setReplace causes).alarm = s.alarm := by
  unfold State.setReplace
  extract_lets old s1 s2 new
  split
  · rfl
  · exact foldl_alarm _ (fun _ _ => foldl_alarm _ (fun _ _ => by rfl) _ _) _ s2

theorem State.alarm_syncFence : s.syncFence.alarm = s.alarm := by
  unfold State.syncFence
  generalize allDies = dies, allRegions = regions
  simp only [State.alarm_setReplace]
  show State.alarm (dies.foldl _ (regions.foldl _ s)) = s.alarm
  refine (foldl_alarm _ (fun t d => ?_) _ _).trans (foldl_alarm _ (fun t r => ?_) _ _) <;> split <;> rfl

theorem State.alarm_substitute (l : LU) : (s.substitute l).1.alarm = s.alarm := by
  have hbanks (t : State) (p : PU) : (t.loadBanks l p).alarm = t.alarm := by
    unfold State.loadBanks
    dsimp only
    (repeat' split) <;> rfl
  unfold State.substitute
  split
  · dsimp only
    split
    · exact hbanks _ _
    · rfl
  · rfl

theorem State.alarm_applyFences (r : RegionId) (t : Nat) : (s.applyFences r t).1.alarm = s.alarm := by
  unfold State.applyFences
  split
  · exact foldl_alarm _ (fun _ _ => by rfl) _ s
  extract_lets ready
  split
  · rfl
  split
  next heq =>
    refine (congrArg (fun z : State × List Raise => z.1.alarm) heq).symm.trans (foldl_alarm1 _ (fun acc l => ?_) _ _)
    split
    · split
      · exact State.alarm_substitute _ _
      · rfl
    · rfl

theorem State.alarm_fenceSuspect (d : Die) (inBlock : PU → Bool) : (s.fenceSuspect d inBlock).alarm = s.alarm := by
  unfold State.fenceSuspect
  (repeat' split) <;> rfl

theorem State.alarm_fenceUnit (p : PU) : (s.fenceUnit p).1.alarm = s.alarm := by
  simp only [State.fenceUnit]
  split
  · rfl
  split
  · exact (State.alarm_applyFences _ _ _).trans (s.alarm_fenceSuspect _ _)
  · exact s.alarm_fenceSuspect _ _

theorem State.alarm_fenceRegion (r : RegionId) : (s.fenceRegion r).1.alarm = s.alarm := by
  simp only [State.fenceRegion]
  split
  · rfl
  split
  · exact (State.alarm_applyFences _ _ _).trans (s.alarm_fenceSuspect _ _)
  · exact s.alarm_fenceSuspect _ _

theorem State.alarm_fenceDie (d : Die) : (s.fenceDie d).1.alarm = s.alarm := by
  have hoff (l : List RegionId) (t : State) : (l.foldl (fun s r => s.wrBit (rreg .pwrRegionStat r) 4 false) t).alarm = t.alarm :=
    foldl_alarm _ (fun _ _ => by rfl) l t
  have happly (l : List RegionId) (acc : State × List Raise) : (l.foldl (fun acc r =>
      ((acc.1.applyFences r acc.1.now).1, acc.2 ++ (acc.1.applyFences r acc.1.now).2)) acc).1.alarm = acc.1.alarm :=
    foldl_alarm1 _ (fun acc r => by exact acc.1.alarm_applyFences r acc.1.now) l acc
  simp only [State.fenceDie]
  split
  · rfl
  split
  · dsimp only
    rw [happly, hoff]
    exact s.alarm_fenceSuspect _ _
  · exact (hoff _ _).trans (s.alarm_fenceSuspect _ _)

theorem State.alarm_fenceLd (k : LinkDie) : (s.fenceLd k).alarm = s.alarm := by
  unfold State.fenceLd
  split
  · rfl
  · exact foldl_alarm _ (fun _ _ => by rfl) (s.claimantsOf k) _

theorem State.alarm_react (r : Reg) (code : Nat) : (s.react r code).1.alarm = s.alarm := by
  unfold State.react
  split
  · rfl
  split
  · rfl
  · dsimp only
    split
    · exact s.alarm_fenceLd _
    · rfl
  · extract_lets d region
    split
    · split
      · exact s.alarm_fenceUnit _
      · rfl
    · exact s.alarm_fenceRegion _
    · exact s.alarm_fenceDie _

theorem State.alarm_raised (r : Raise) : (s.raised r).1.alarm = s.alarm := by
  unfold State.raised
  extract_lets s1 code s2 s3 t
  have h2 : s2.alarm = s.alarm := by
    show State.alarm (match r.reg.name.source with | some i => _ | none => s1) = _
    split <;> rfl
  have ht : t.1.alarm = s3.alarm := by
    show (if r.fixed.isSome then (s3, []) else s3.react r.reg code : State × List Raise).1.alarm = _
    split
    · rfl
    · exact s3.alarm_react _ _
  dsimp only
  split
  · exact ht.trans h2
  · exact (State.alarm_syncFence _).trans (ht.trans h2)

theorem State.alarm_raiseAll (n : Nat) (rs : List Raise) (s : State) : (s.raiseAll n rs).alarm = s.alarm := by
  induction n generalizing rs s with
  | zero => rfl
  | succ n ih =>
    cases rs with
    | nil => rfl
    | cons r rest =>
      rw [State.raiseAll_cons]
      split
      · exact ih rest s
      · exact (ih _ _).trans (s.alarm_raised r)

theorem State.alarm_raiseBit (r : Reg) (b : Nat) (suspect : Bool) (detail : Nat) :
    (s.raiseBit r b suspect detail).alarm = s.alarm := State.alarm_raiseAll ..

end Raises

section Ends

variable (s : State) (p : Part)

theorem State.alarm_endJobs (f : Job → Bool) (status detail : Nat) (b : List Byte) :
    (s.endJobs f status detail b).alarm = s.alarm := by
  refine foldl_alarm _ (fun t j => ?_) _ _
  unfold State.replyAt
  split
  · dsimp only
    split <;> rfl
  · rfl
  · rfl

theorem State.alarm_switchPage (d : Die) : (s.switchPage d).alarm = s.alarm := by
  unfold State.switchPage
  split
  · rfl
  · exact (State.alarm_endJobs _ _ _ _ _).trans (State.alarm_raiseBit _ _ _ _ _)

theorem State.alarm_disarm (status : Nat) : (s.disarm p status).alarm = s.alarm := by
  unfold State.disarm
  extract_lets s1 s2 s3
  have harmed : (s.setArmed p false).alarm = s.alarm :=
    foldl_alarm (fun s d => s.wrBit (dreg .cdPartition d) 4 false) (fun _ _ => by rfl) _ _
  have hproof : ((s.setArmed p false).endProof p).alarm = s.alarm := by
    obtain ⟨x, y, hends⟩ := (s.setArmed p false).onlyTensors_endProof p
    rw [hends]
    exact harmed
  have h1 : s1.alarm = s.alarm := by
    refine Eq.trans ?_ hproof
    exact foldl_alarm _ (fun _ _ => by rfl) _ ((s.setArmed p false).endProof p)
  have h3 : s3.alarm = s.alarm := (State.alarm_endJobs _ _ _ _ _).trans h1
  refine (foldl_alarm _ (fun t d => ?_) _ s3).trans h3
  split
  · split
    · exact t.alarm_switchPage d
    · rfl
  · rfl

theorem State.parts_disarm (status : Nat) : (s.disarm p status).parts =
    (((s.setArmed p false).modPart p fun ps => { ps with vnext := 0, coldReq := false, proofUntil := none })).parts := by
  unfold State.disarm
  extract_lets s1 s2 s3
  have h1 : s1.parts = (s.setArmed p false).parts :=
    congrArg Prod.fst ((State.dropProv_plans _ p).trans ((s.setArmed p false).onlyTensors_endProof p).plans_eq)
  refine (s3.switchWaiting_frame p).1.trans ((s2.endJobs_parts _ _ _ _).trans ?_)
  show s1.parts.set p _ = (s.setArmed p false).parts.set p _
  rw [h1, State.part, h1, State.part]

/-- Another partition is as it was. -/
theorem State.part_disarm_ne {q : Part} (h : q ≠ p) (status : Nat) : (s.disarm p status).part q = s.part q := by
  have hfold : ((s.partDies p).foldl (fun s d => s.wrBit (dreg .cdPartition d) 4 false) s).part q = s.part q :=
    foldl_keep (fun t : State => t.part q) _ (fun _ _ => by rfl) _ _
  rw [State.part, State.parts_disarm]
  refine (State.part_modPart_ne _ p q _ h).trans ?_
  rw [State.setArmed, State.part_modPart_ne _ p q _ h, hfold]

/-- A disarmed partition brings no job. -/
theorem State.mem_jobs_disarm {status : Nat} {j : Job} (h : j ∈ (s.disarm p status).host.jobs) : j ∈ s.host.jobs := by
  have hset : (s.setArmed p false).host.jobs = s.host.jobs :=
    foldl_keep (fun t : State => t.host.jobs) (fun s d => s.wrBit (dreg .cdPartition d) 4 false) (fun _ _ => by rfl) _ _
  have hends : (((s.setArmed p false).endProof p).dropProv p).host.jobs = (s.setArmed p false).host.jobs :=
    congrArg (fun x => x.2.1) ((State.dropProv_plans _ p).trans ((s.setArmed p false).onlyTensors_endProof p).plans_eq)
  unfold State.disarm at h
  extract_lets s1 s2 s3 at h
  have h3 : j ∈ s3.host.jobs := (s3.switchWaiting_frame p).2 j h
  have h2 : j ∈ s1.host.jobs := s2.mem_jobs_endJobs _ _ _ _ h3
  exact hset ▸ hends ▸ h2

end Ends

end Sys2Proof.Machine
end

section
/-!
PROOF. The states of the Hall Time base, and what LOST cancels (R58 to R61, R68, R72).
-/
namespace Sys2Proof.Machine

open Sys2Proof

variable {s : State}

/-! ### What LOST cancels (R72) -/

/-- LOST takes its time from a partition: HT_GEAR shows no change, and one that waits for its RUN_AT is disarmed. -/
def State.lose (s : State) (p : Part) : State :=
  let s := s.syncGear p
  if (s.part p).armed && !(s.part p).running then s.disarm p stCancelledLost else s

theorem State.syncGear_regs (s : State) (p : Part) : ∃ x, s.syncGear p = { s with regs := x } := by
  unfold State.syncGear
  split <;> exact ⟨_, rfl⟩

theorem State.alarm_lose (s : State) (p : Part) : (s.lose p).alarm = s.alarm := by
  obtain ⟨x, hgear⟩ := s.syncGear_regs p
  unfold State.lose
  dsimp only
  rw [hgear]
  split
  · exact State.alarm_disarm _ _ _
  · rfl

theorem State.mem_jobs_lose {p : Part} {j : Job} (h : j ∈ (s.lose p).host.jobs) : j ∈ s.host.jobs := by
  obtain ⟨x, hgear⟩ := s.syncGear_regs p
  unfold State.lose at h
  dsimp only at h
  rw [hgear] at h
  split at h
  · exact State.mem_jobs_disarm { s with regs := x } p h
  · exact h

theorem State.part_lose_ne {p q : Part} (h : q ≠ p) : (s.lose p).part q = s.part q := by
  obtain ⟨x, hgear⟩ := s.syncGear_regs p
  unfold State.lose
  dsimp only
  rw [hgear]
  split
  · exact State.part_disarm_ne _ _ h _
  · rfl

theorem State.running_of_lose (s : State) (p : Part) (h : ((s.lose p).part p).armed = true) : ((s.lose p).part p).running = true := by
  unfold State.lose at h ⊢
  dsimp only at h ⊢
  split at h
  next => exact absurd (State.disarm_part _ p _).1 (by rw [h]; decide)
  next hstays =>
    rw [if_neg hstays]
    simpa [h] using hstays

/-- After the partitions of a list, each of them that is armed runs; jobs only end. -/
theorem State.foldl_lose (ps : List Part) (s : State) :
    (ps.foldl State.lose s).alarm = s.alarm ∧ (∀ j ∈ (ps.foldl State.lose s).host.jobs, j ∈ s.host.jobs)
    ∧ (∀ p, (p ∈ ps ∨ ((s.part p).armed = true → (s.part p).running = true)) →
      ((ps.foldl State.lose s).part p).armed = true → ((ps.foldl State.lose s).part p).running = true) := by
  induction ps generalizing s with
  | nil => exact ⟨rfl, fun _ h => h, fun p h => h.resolve_left (by simp)⟩
  | cons q ps ih =>
    obtain ⟨halarm, hjobs, hruns⟩ := ih (s.lose q)
    refine ⟨halarm.trans (s.alarm_lose q), fun j hj => State.mem_jobs_lose (hjobs j hj), fun p hp => hruns p ?_⟩
    by_cases hq : p = q
    · exact .inr (hq ▸ s.running_of_lose q)
    · rw [State.part_lose_ne hq]
      exact hp.imp_left fun hmem => (List.mem_cons.mp hmem).resolve_left hq

/-- The commands that wait for a time (R95, R100). -/
def Job.timed (j : Job) : Bool := match j.kind with
  | .runAt _ | .gearAt _ _ => true
  | _ => false

/-- The base is LOST and tells so, before it cancels anything (R72). -/
def State.lost (s : State) : State :=
  let t := (s.setHtState htLost).modHt fun h =>
    { h with since := h.now.toNat, haltPending := true, returning := false, upstreamFree := false }
  { t with faultPin := true }.raiseBit (xreg .htStatus) 13

theorem State.alarm_lost (s : State) : s.lost.faultPin = true ∧ s.lost.ht.haltPending = true :=
  have h : s.lost.alarm = ({ s.ht with
      since := s.ht.now.toNat, haltPending := true, returning := false, upstreamFree := false }, true) :=
    State.alarm_raiseBit _ _ _ _ _
  ⟨congrArg Prod.snd h, congrArg (fun a : HtS × Bool => a.1.haltPending) h⟩

theorem State.enterLost_eq (s : State) : s.enterLost = allParts.foldl State.lose (s.lost.endJobs Job.timed stCancelledLost) := rfl

theorem State.enterLost_leaves (s : State) : s.enterLost.faultPin = true ∧ s.enterLost.ht.haltPending = true
    ∧ (∀ j ∈ s.enterLost.host.jobs, ∀ n g, j.kind ≠ .runAt n ∧ j.kind ≠ .gearAt n g)
    ∧ ∀ p : Part, (s.enterLost.part p).armed = true → (s.enterLost.part p).running = true := by
  have hends : (s.lost.endJobs Job.timed stCancelledLost).alarm = s.lost.alarm := s.lost.alarm_endJobs Job.timed _ _ _
  have huntimed : ∀ j ∈ (s.lost.endJobs Job.timed stCancelledLost).host.jobs, j.timed = false := fun j hj => by
    rw [State.endJobs_jobs, List.mem_filter] at hj
    simpa using hj.2
  obtain ⟨hpin, hpending⟩ := s.alarm_lost
  rw [State.enterLost_eq]
  generalize s.lost.endJobs Job.timed stCancelledLost = u at hends huntimed ⊢
  obtain ⟨hfold, hjobs, hruns⟩ := State.foldl_lose allParts u
  have halarm := hfold.trans hends
  rw [State.faultPin_of_alarm halarm, State.ht_of_alarm halarm]
  refine ⟨hpin, hpending, fun j hj n g => ?_,
    fun p => hruns p (.inl (List.mem_finRange p))⟩
  have hkept := huntimed j (hjobs j hj)
  constructor <;> intro hkind <;> simp [Job.timed, hkind] at hkept

/-! ### The states of the base at an edge node (R58 to R61, R68) -/

section node
variable {f : List EpochPulse} (he : s.edgeNode = true)
include he

section acquire
variable (hst : s.htState = htAcquire)
include hst

theorem State.epochFrame_of_acquire : s.epochFrame f = match frameOf (epochSyms f) with
    | none => (s.modHt fun h => { h with frame := none }).raiseBit (xreg .htStatus) 14
    | some v => match s.ht.frame with
      | none => s.modHt fun h => { h with frame := some (BitVec.ofNat 44 v) }
      | some p =>
        if v = p.toNat + 1 then
          (s.modHt fun h => { h with
            frame := some (BitVec.ofNat 44 v), now := BitVec.ofNat 64 ((v + 1) * 2 ^ 20), running := true }).enterLocked 0
        else (s.modHt fun h => { h with frame := some (BitVec.ofNat 44 v) }).raiseBit (xreg .htStatus) 14 := by
  simp only [State.epochFrame, he, hst, Bool.not_true, Bool.false_eq_true, if_false, if_true] <;> rfl

end acquire

section locked
variable (hst : s.htState = htLocked)
include hst

theorem State.epochFrame_of_locked : s.epochFrame f = if epochHolds s.ht.seen s.now f then s.modHt fun h => { h with
      seen := h.now.toNat, frame := some (BitVec.ofNat 44 (h.now.toNat / 2 ^ 20)) }
    else s.enterHoldover := by
  have hne : ¬ htLocked = htAcquire := by decide
  simp only [State.epochFrame, he, hst, hne, Bool.not_true, Bool.false_eq_true, if_false, if_true]

theorem State.referenceLoss_of_locked : s.referenceLoss .edges = s.enterHoldover := by
  have hne : ¬ RefLoss.edges = .records := by decide
  simp only [State.referenceLoss, hne, he, hst, Bool.not_true, Bool.false_eq_true, if_false, if_true]

end locked

section holdover
variable (hst : s.htState = htHoldover)
include hst

theorem State.hallRefReturn_outside : s.hallRefReturn false = s.enterLost := by
  simp only [State.hallRefReturn, he, State.sourceReturn, hst, ne_eq, not_true_eq_false, if_false, Bool.not_false, if_true]

theorem State.hallRefReturn_again (hl : s.ht.lastFurrow = some s.furrow) : s.hallRefReturn true = s := by
  simp only [State.hallRefReturn, he, State.sourceReturn, hst, hl, ne_eq, not_true_eq_false, if_false, Bool.not_true,
    Bool.false_eq_true, if_true]

/-- A furrow not yet counted adds to the run, and the fourth locks again. -/
theorem State.hallRefReturn_inside (hl : s.ht.lastFurrow ≠ some s.furrow) : s.hallRefReturn true =
    let run := s.furrowRun s.ht.returnRun
    if 4 ≤ run then s.enterLocked (s.rdFld (xreg .htStatus) 10 7)
    else s.modHt fun h => { h with returnRun := run, returning := true, lastFurrow := some s.furrow } := by
  simp only [State.hallRefReturn, he, State.sourceReturn, hst, hl, ne_eq, not_true_eq_false, if_false, Bool.not_true,
    Bool.false_eq_true, if_true]

end holdover

end node

theorem State.furrowRun_next {l : Nat} (hl : s.ht.lastFurrow = some l) (hnext : l + 1 = s.furrow) (n : Nat) :
    s.furrowRun n = n + 1 := by
  simp only [State.furrowRun, hl, Option.map_some, hnext, if_true]

theorem State.furrowRun_first (h : ∀ l, s.ht.lastFurrow = some l → l + 1 ≠ s.furrow) (n : Nat) : s.furrowRun n = 1 := by
  rw [State.furrowRun, if_neg]
  cases hl : s.ht.lastFurrow with
  | none => simp
  | some l => simpa using h l hl

theorem State.holdoverTimeout_of_due (hst : s.htState = htHoldover) (ht : s.ht.since + 64 * 16384 ≤ s.now) :
    s.holdoverTimeout = s.enterLost := if_pos ⟨hst, ht⟩

theorem State.lostToAcquire_of_due (hst : s.htState = htLost) (ht : s.ht.since + 16384 ≤ s.now) : s.lostToAcquire =
    (s.setHtState htAcquire).modHt fun h => { h with
      frame := none, lockRun := 0, missRun := 0, offRun := 0, lastFurrow := none, upstreamFree := false } :=
  if_pos ⟨hst, ht⟩

/-- Whether pulses hold is whether they rise at the boundaries, each with its symbol (R61). -/
theorem epochHolds_iff (a t : Nat) (f : List EpochPulse) :
    epochHolds a t f = true ↔ f.map (·.rise) = boundariesIn a t ∧ ∀ x ∈ f, x.sym = epochSymAt x.rise := by
  simp [epochHolds]

/-- Settles O39: the base by its state and by what arrives; LOST by what each of its steps cancels. -/
theorem hallTimeStates : Obligations.HallTimeStates := by
  refine ⟨fun s v f he => ⟨fun hst hf => ?_, fun hst hf hp => ?_, fun p hst hf hp => ?_, fun hst hrise hsym => ?_,
    fun hst hbad => ?_, fun hst => ?_, fun hst => ?_, fun hst hl => ?_, fun l hst hl hn hrun => ?_,
    fun l hst hl hn hrun => ?_, fun hst hl hn => ?_, fun hst ht => ?_, fun hst ht => ?_⟩, fun s hst ht => ?_⟩
  · exact congrArg Host.Outcome.next (by rw [State.epochFrame_of_acquire he hst, hf])
  · exact congrArg Host.Outcome.next (by rw [State.epochFrame_of_acquire he hst, hf, hp])
  · exact congrArg Host.Outcome.next (by simp only [State.epochFrame_of_acquire he hst, hf, hp, if_true])
  · refine ⟨s.epochFrame f, rfl, ?_⟩
    rw [State.epochFrame_of_locked he hst, if_pos ((epochHolds_iff _ _ _).mpr ⟨hrise, hsym⟩)]
    exact ⟨rfl, hst, rfl⟩
  · refine congrArg Host.Outcome.next ((State.epochFrame_of_locked he hst).trans (if_neg fun hholds => ?_))
    obtain ⟨hrise, hsym⟩ := (epochHolds_iff _ _ _).mp hholds
    rcases hbad with hne | ⟨x, hx, hne⟩
    · exact hne hrise
    · exact hne (hsym x hx)
  · exact congrArg Host.Outcome.next (State.referenceLoss_of_locked he hst)
  · exact congrArg Host.Outcome.next (State.hallRefReturn_outside he hst)
  · exact congrArg Host.Outcome.next (State.hallRefReturn_again he hst hl)
  · have hfresh : s.ht.lastFurrow ≠ some s.furrow := by rw [hl, ← hn]; simp
    refine congrArg Host.Outcome.next ((State.hallRefReturn_inside he hst hfresh).trans ?_)
    simp only [State.furrowRun_next hl hn, show ¬ 4 ≤ s.ht.returnRun + 1 by omega, if_false]
    rfl
  · have hfresh : s.ht.lastFurrow ≠ some s.furrow := by rw [hl, ← hn]; simp
    refine congrArg Host.Outcome.next ((State.hallRefReturn_inside he hst hfresh).trans ?_)
    simp only [State.furrowRun_next hl hn, show 4 ≤ s.ht.returnRun + 1 by omega, if_true]
  · refine congrArg Host.Outcome.next ((State.hallRefReturn_inside he hst hl).trans ?_)
    simp only [State.furrowRun_first hn, show ¬ 4 ≤ 1 by decide, if_false]
  · exact congrArg Host.Outcome.next (State.holdoverTimeout_of_due hst ht)
  · exact congrArg Host.Outcome.next (State.lostToAcquire_of_due hst ht)
  · exact ⟨s.enterLost, congrArg Host.Outcome.next (State.holdoverTimeout_of_due hst ht), s.enterLost_leaves⟩

end Sys2Proof.Machine
end

section
/-!
PROOF. RUN_AT, HALT_AT, GEAR_AT and CANCEL (R95, R98, R100, R563).
-/
namespace Sys2Proof.Machine

open Sys2Proof

variable {s u : State} {q : Req} {t : Nat}

/-- A host command of the time group whose AT bit is as it asks is carried out in the state that it is judged in. -/
theorem State.command_of_timed {c : Cmd} (hcollects : s.collects q u) (htimed : c.timed = true) (htime : c.timeOk q = true) :
    s.command q c = u.perform q c := by
  obtain ⟨v, hopens, rfl, hhost, hscan⟩ := hcollects
  have hheard : c.denied q = false := by rw [Cmd.denied, hhost, Bool.false_and]
  have hwell : ∀ st, c ≠ .bad st := by rintro st rfl; simp [Cmd.timed] at htimed
  rw [State.command_of_open hopens, State.handle_of_heard hheard (fun h => absurd (hscan.symm.trans h) Bool.false_ne_true) hwell,
    State.timeJudged_of_timed htimed htime]

/-! ### RUN_AT (R95) -/

section timed
variable (hdies : u.partDies q.part ≠ [])
include hdies

theorem State.runAt_of_unarmed (harmed : (u.part q.part).armed = false) (hrun : (u.part q.part).running = false) :
    u.runAt q = u.reply q stNotArmed := by
  simp only [State.runAt, List.isEmpty_eq_false_iff.mpr hdies, harmed, hrun, Bool.not_false, Bool.and_self, Bool.false_eq_true,
    if_false, if_true]

variable (hat : q.at_ = some t)
include hat

section armed
variable (harmed : (u.part q.part).armed = true) (hrun : (u.part q.part).running = false) (hnone : u.runAt? q.part = none)
include harmed hrun hnone

/-- The refusals of an armed partition that holds no RUN_AT, in their order. -/
theorem State.runAt_of_armed : u.runAt q =
    if t % 16384 ≠ 0 then u.reply q stTimeNotBoundary
    else if t < u.now + 65536 then u.reply q stTimeTooSoon
    else if u.htState ≠ htLocked ∧ u.htState ≠ htFree then u.reply q stTimeState
    else if (match (u.part q.part).proofUntil with | some e => decide (t < e) | none => false) then u.reply q stTimeTooSoon
    else u.addJob q (.runAt t) := by
  simp only [State.runAt, List.isEmpty_eq_false_iff.mpr hdies, harmed, hrun, hnone, hat, Option.getD_some, Option.isSome_none,
    Bool.not_true, Bool.false_and, Bool.false_eq_true, if_false] <;> rfl

theorem State.runAt_of_accepted (hb : t % 16384 = 0) (hsoon : u.now + 65536 ≤ t)
    (hstate : u.htState = htLocked ∨ u.htState = htFree) (hproof : ∀ e, (u.part q.part).proofUntil = some e → e ≤ t) :
    u.runAt q = u.addJob q (.runAt t) := by
  rw [State.runAt_of_armed hdies hat harmed hrun hnone, if_neg (not_not_intro hb), if_neg (Nat.not_lt.mpr hsoon),
    if_neg (by rintro ⟨hl, hf⟩; exact hstate.elim hl hf), if_neg]
  cases hp : (u.part q.part).proofUntil with
  | none => simp
  | some e => simpa using hproof e hp

end armed

/-! ### HALT_AT (R98) -/

theorem State.haltAt_of_off_boundary (hb : t % 16384 ≠ 0) : u.haltAt q = u.reply q stTimeNotBoundary := by
  simp only [State.haltAt, List.isEmpty_eq_false_iff.mpr hdies, hat, Option.getD_some, Bool.false_eq_true, if_false, if_pos hb]

theorem State.haltAt_of_boundary (hb : t % 16384 = 0) (hheld : (u.part q.part).armed = true ∨ (u.part q.part).running = true) :
    u.haltAt q = if t ≤ u.now then u.reply q stTimeTooSoon else u.addJob q (.haltAt t) := by
  have hopen : ¬ ((!(u.part q.part).armed && !(u.part q.part).running) = true) := by
    rcases hheld with h | h <;> simp [h]
  simp only [State.haltAt, List.isEmpty_eq_false_iff.mpr hdies, hat, Option.getD_some, Bool.false_eq_true, if_false, hb,
    ne_eq, not_true_eq_false, if_neg hopen]

/-! ### GEAR_AT (R100) -/

theorem State.gearCommand_of_off_boundary {gear : Nat} (hg : gear ≤ 2) (hb : u.gearBoundary q.part t = false) :
    u.gearCommand q gear = u.reply q stTimeNotBoundary := by
  simp only [State.gearCommand, Nat.not_lt.mpr hg, List.isEmpty_eq_false_iff.mpr hdies, hat, Option.getD_some, hb,
    Bool.false_eq_true, if_false, Bool.not_false, if_true]

theorem State.gearCommand_of_boundary {gear : Nat} (hg : gear ≤ 2) (hb : u.gearBoundary q.part t = true)
    (hvariant : ∀ f, (u.part q.part).forme = some f → f.hasGear (Gear.ofCode gear) = true) (hsoon : u.now + 65536 ≤ t) :
    u.gearCommand q gear =
      if (u.gearAts q.part).any (fun e => decide (e.1 < t + 32768 ∧ t < e.1 + 32768)) then u.reply q stTimeConflict
      else (u.addJob q (.gearAt t (Gear.ofCode gear))).syncGear q.part := by
  have hgate := Nat.not_lt.mpr hg
  have hlate := Nat.not_lt.mpr hsoon
  have hsome := List.isEmpty_eq_false_iff.mpr hdies
  cases hf : (u.part q.part).forme with
  | none =>
    simp only [State.gearCommand, hgate, hsome, hat, Option.getD_some, hb, hf, hlate, Bool.not_true, Bool.false_eq_true, if_false]
  | some f =>
    simp only [State.gearCommand, hgate, hsome, hat, Option.getD_some, hb, hf, hvariant f hf, hlate, Bool.not_true,
      Bool.false_eq_true, if_false]

end timed

/-! ### CANCEL (R563) -/

/-- The jobs that a CANCEL names: pending, of the sender's kind of slot, with the tag, and not yet due. -/
def State.cancels (u : State) (q : Req) (slot : Nat) (tag : Half) (j : Job) : Bool :=
  j.pending && q.src.slotIs j.req.src slot && j.req.tag == tag && decide (u.now < j.due)

/-- From the host or the monitor CANCEL names one of 64 slots. -/
theorem State.cancel_of_host (hhost : q.src.isSideband = false) (slot : Nat) (tag : Half) : u.cancel q slot tag =
    if 64 ≤ slot then u.reply q stBadParam else match u.host.jobs.find? (u.cancels q slot tag) with
      | none => u.reply q stNotPending
      | some j => ((u.endJobs (u.cancels q slot tag) stCancelled).syncGear j.req.part).reply q stOk := by
  cases hsrc : q.src with
  | sideband j => simp [hsrc, Src.isSideband] at hhost
  | host i => unfold State.cancel State.cancels; rw [hsrc] <;> rfl
  | monitor => unfold State.cancel State.cancels; rw [hsrc] <;> rfl

/-- Settles O53: each command in the state it is judged in, by the order of its refusals. -/
theorem timesAreSet : Obligations.TimesAreSet := by
  intro s u q t gear slot tag hcollects p ps run halt shift
  refine ⟨fun hat hdies => ?_, fun hat => ?_⟩
  · have hsome : q.at_.isSome = true := by rw [hat]; rfl
    have hrun : run = .next (u.runAt q) := congrArg Host.Outcome.next (State.command_of_timed (c := .runAt) hcollects rfl hsome)
    have hhalt : halt = .next (u.haltAt q) := congrArg Host.Outcome.next (State.command_of_timed (c := .haltAt) hcollects rfl hsome)
    have hshift : shift = .next (u.gearCommand q gear) :=
      congrArg Host.Outcome.next (State.command_of_timed (c := .gearAt gear) hcollects rfl hsome)
    rw [hrun, hhalt, hshift]
    refine ⟨fun ha hr => ?_, fun ha hr hnone => ?_, fun hb hheld => ⟨fun hlt => ?_, fun hle => ?_⟩, fun hb => ?_, fun hg => ?_,
      fun hg hb => ?_, fun hg hb hvariant hsoon => ⟨fun hnear => ?_, fun hfar => ?_⟩⟩
    · exact congrArg Host.Outcome.next (State.runAt_of_unarmed hdies ha hr)
    · have hjudged := State.runAt_of_armed hdies hat ha hr hnone
      refine ⟨fun hb => ?_, fun hb hsoon => ?_, fun hb hsoon hl hf => ?_, fun hb hsoon hstate hproof => ?_⟩
      · exact congrArg Host.Outcome.next (hjudged.trans (if_pos hb))
      · exact congrArg Host.Outcome.next (hjudged.trans ((if_neg (not_not_intro hb)).trans (if_pos hsoon)))
      · exact congrArg Host.Outcome.next (hjudged.trans ((if_neg (not_not_intro hb)).trans
          ((if_neg (Nat.not_lt.mpr hsoon)).trans (if_pos ⟨hl, hf⟩))))
      · exact congrArg Host.Outcome.next (State.runAt_of_accepted hdies hat ha hr hnone hb hsoon hstate hproof)
    · exact congrArg Host.Outcome.next ((State.haltAt_of_boundary hdies hat hb hheld).trans (if_neg (Nat.not_le.mpr hlt)))
    · exact congrArg Host.Outcome.next ((State.haltAt_of_boundary hdies hat hb hheld).trans (if_pos hle))
    · exact congrArg Host.Outcome.next (State.haltAt_of_off_boundary hdies hat hb)
    · exact congrArg Host.Outcome.next (if_pos hg)
    · exact congrArg Host.Outcome.next (State.gearCommand_of_off_boundary hdies hat hg hb)
    · exact congrArg Host.Outcome.next ((State.gearCommand_of_boundary hdies hat hg hb hvariant hsoon).trans (if_pos hnear))
    · exact congrArg Host.Outcome.next ((State.gearCommand_of_boundary hdies hat hg hb hvariant hsoon).trans
        (if_neg (Bool.eq_false_iff.mp hfar)))
  · have hnone : q.at_.isNone = true := by rw [hat]; rfl
    have hcancel : Machine.exec (.cancel q slot tag) s = .next (u.cancel q slot tag) :=
      congrArg Host.Outcome.next (State.command_of_timed (c := .cancel slot tag) hcollects rfl hnone)
    obtain ⟨-, -, -, hhost, -⟩ := hcollects
    have hjudged := State.cancel_of_host (u := u) hhost slot tag
    rw [hcancel]
    refine ⟨fun hslot hfind => ?_, fun j hslot hfind => ?_, fun hslot => ?_⟩
    · have hfound : u.host.jobs.find? (u.cancels q slot tag) = none := hfind
      rw [hjudged, if_neg (Nat.not_le.mpr hslot), hfound]
    · have hfound : u.host.jobs.find? (u.cancels q slot tag) = some j := hfind
      rw [hjudged, if_neg (Nat.not_le.mpr hslot), hfound]
      rfl
    · rw [hjudged, if_pos hslot]

end Sys2Proof.Machine
end

section
/-!
PROOF. DMA and bulk streams (R18, R547, R549, R567, R569).
-/
namespace Sys2Proof.Machine

open Sys2Proof

variable {s u : State} {q : Req} {p : DmaParams}

/-! ### A DMA begins (R18, R567) -/

theorem State.dma_of_bad (h : p.ok = false) (write : Bool) : u.dma q p write = u.reply q stBadParam := by
  simp only [State.dma, h, Bool.not_false, if_true]

section begins
variable (hok : p.ok = true)
include hok

theorem State.dma_of_no_slots (h : u.noHostSlots (die4 p.die) = true) (write : Bool) : u.dma q p write = u.reply q stBusy := by
  simp only [State.dma, hok, h, Bool.not_true, Bool.false_eq_true, if_false, if_true]

variable (hslots : u.noHostSlots (die4 p.die) = false)
include hslots

theorem State.dma_write : u.dma q p true = u.addJob q (.dmaWrite p) := by
  simp only [State.dma, hok, hslots, Bool.not_true, Bool.false_eq_true, if_false, if_true]

theorem State.dma_read_of_open (h : u.hostOpen (die4 p.die) = true) : u.dma q p false =
    (u.dmaTake (die4 p.die) p).1.addJob q (.dmaRead p (some (u.dmaTake (die4 p.die) p).2) (u.dmaDetail (die4 p.die) p)) := by
  simp only [State.dma, hok, hslots, h, Bool.not_true, Bool.false_eq_true, if_false, if_true]

theorem State.dma_read_of_closed (h : u.hostOpen (die4 p.die) = false) : u.dma q p false = u.addJob q (.dmaRead p none none) := by
  simp only [State.dma, hok, hslots, h, Bool.not_true, Bool.false_eq_true, if_false]

end begins

/-! ### Streams (R569) -/

/-- A stream as STREAM_OPEN makes it: it has moved nothing yet. -/
def StreamParams.opened (t : StreamParams) : BulkStream :=
  ⟨t.id, t.dir == 1, die4 t.die, t.target, t.addr, t.length, (List.finRange 49).filter fun i => t.ports.testBit i.val, t.first, 0,
    t.first, 0, [], [], []⟩

section stream
variable {t : StreamParams} (hdir : t.dir ≤ 1) (hdie : t.die < 16) (htarget : t.target ≤ 1) (hports : t.ports < 2 ^ 49)
include hdir hdie htarget hports

theorem State.streamOpen_of_ok : u.streamOpen q t =
    if u.host.streams.any (·.id = t.id) || decide (16 ≤ u.host.streams.length) then u.reply q stBusy
    else { u with host := { u.host with streams := u.host.streams ++ [t.opened] } }.reply q stOk := by
  rw [State.streamOpen, if_neg]
  · rfl
  · omega

end stream

theorem State.streamClose_of_some {id : Half} {x : BulkStream} (h : u.host.streams.find? (·.id = id) = some x) :
    u.streamClose q id = { u with host := { u.host with streams := u.host.streams.filter (·.id ≠ id) } }.reply q stOk 0
      (natLe 8 x.moved ++ natLe 8 x.highest) := by
  simp only [State.streamClose, h]

theorem State.streamClose_of_none {id : Half} (h : u.host.streams.find? (·.id = id) = none) :
    u.streamClose q id = u.reply q stBadParam := by
  simp only [State.streamClose, h]

/-! ### A transfer ends (R547, R549, R567) -/

section ends
variable {j : Job}

/-- The one job that waits ends with its reply. -/
theorem State.endJobs_of_only (h : s.host.jobs = [j]) (status detail : Nat) : s.endJobs (· = j) status detail =
    { s with host := { s.host with jobs := [] } }.replyAt j.req j.at_ status detail [] := by
  simp only [State.endJobs, h, List.filter_cons, List.filter_nil, decide_true, Bool.not_true, Bool.false_eq_true, if_false, if_true,
    List.foldl_cons, List.foldl_nil]

theorem State.transferDone_of_d3hot (h : s.host.d3hot = true) (src : Src) (r : HostRead) : s.transferDone src r = s := by
  simp only [State.transferDone, h, if_true]

/-- A transfer that ends with status and detail as the bit says that its accesses set first. -/
def State.closeDma (x : State) (j : Job) (bit_ : Option Nat) : State := match bit_ with
  | some n => x.endJobs (· = j) stRefused n
  | none => x.endJobs (· = j) stOk

section live
variable (hlive : s.host.d3hot = false) (hjobs : s.host.jobs = [j])
include hlive hjobs

theorem State.transferDone_of_taken {b : List Byte} {e : Option Nat} (hkind : j.kind = .dmaRead p (some b) e) (data : List Byte) :
    s.transferDone j.req.src (.bytes data) = (s.toHost p.host b).closeDma j e := by
  simp only [State.transferDone, hlive, hjobs, List.find?_cons, decide_true, hkind, Bool.false_eq_true, if_false]
  cases e <;> rfl

theorem State.transferDone_of_fault (hkind : (∃ b e, j.kind = .dmaRead p b e) ∨ j.kind = .dmaWrite p) :
    s.transferDone j.req.src .fault = s.endJobs (· = j) stDmaFault := by
  obtain ⟨b, e, hkind⟩ | hkind := hkind <;>
    simp only [State.transferDone, hlive, hjobs, List.find?_cons, decide_true, hkind, Bool.false_eq_true, if_false]

theorem State.transferDone_of_read {e : Option Nat} (hkind : j.kind = .dmaRead p none e) (data : List Byte) :
    s.transferDone j.req.src (.bytes data) = if s.hostOpen (die4 p.die) then
      ((s.dmaTake (die4 p.die) p).1.toHost p.host (s.dmaTake (die4 p.die) p).2).closeDma j (s.dmaDetail (die4 p.die) p) else s := by
  simp only [State.transferDone, hlive, hjobs, List.find?_cons, decide_true, hkind, Bool.false_eq_true, if_false]
  cases s.hostOpen (die4 p.die)
  · rfl
  · cases hd : s.dmaDetail (die4 p.die) p <;> simp [State.closeDma]

theorem State.transferDone_of_write (hkind : j.kind = .dmaWrite p) (data : List Byte) :
    s.transferDone j.req.src (.bytes data) = if s.hostOpen (die4 p.die) then
      (s.dmaPut (die4 p.die) p data).closeDma j (s.dmaDetail (die4 p.die) p) else s := by
  simp only [State.transferDone, hlive, hjobs, List.find?_cons, decide_true, hkind, Bool.false_eq_true, if_false]
  cases s.hostOpen (die4 p.die)
  · rfl
  · cases hd : s.dmaDetail (die4 p.die) p <;> simp [State.closeDma]

end live

end ends

/-- Settles O54: a command by its parameters and the slots of its die; a transfer by what its job brings or takes. -/
theorem dataMoves : Obligations.DataMoves := by
  refine ⟨fun s u q p t id hcollects hat => ?_, fun s j p b data e hjobs => ?_⟩
  · have hread : Machine.exec (.dmaRead q p) s = .next (u.dma q p false) :=
      congrArg Host.Outcome.next (State.command_of_collects (c := .dmaRead p) hcollects hat nofun rfl)
    have hwrite : Machine.exec (.dmaWrite q p) s = .next (u.dma q p true) :=
      congrArg Host.Outcome.next (State.command_of_collects (c := .dmaWrite p) hcollects hat nofun rfl)
    have hopen : Machine.exec (.streamOpen q t) s = .next (u.streamOpen q t) :=
      congrArg Host.Outcome.next (State.command_of_collects (c := .streamOpen t) hcollects hat nofun rfl)
    have hclose : Machine.exec (.streamClose q id) s = .next (u.streamClose q id) :=
      congrArg Host.Outcome.next (State.command_of_collects (c := .streamClose id) hcollects hat nofun rfl)
    rw [hread, hwrite, hopen, hclose]
    refine ⟨fun hok => ⟨fun hno => ?_, fun hslots => ⟨?_, fun hhost => ?_, fun hhost => ?_⟩⟩, fun hbad => ?_,
      fun hdir hdie htarget hports => ⟨fun hnew hroom => ⟨t.opened, ?_, rfl, rfl, rfl, rfl, rfl⟩, fun hfull => ?_⟩,
      fun x hx => ?_, fun hnone => ?_⟩
    · exact ⟨congrArg _ (State.dma_of_no_slots hok hno false), congrArg _ (State.dma_of_no_slots hok hno true)⟩
    · exact congrArg _ (State.dma_write hok hslots)
    · exact congrArg _ (State.dma_read_of_open hok hslots hhost)
    · exact congrArg _ (State.dma_read_of_closed hok hslots hhost)
    · exact ⟨congrArg _ (State.dma_of_bad hbad false), congrArg _ (State.dma_of_bad hbad true)⟩
    · rw [State.streamOpen_of_ok hdir hdie htarget hports, hnew, decide_eq_false (Nat.not_le.mpr hroom), Bool.or_self, if_neg nofun]
    · rw [State.streamOpen_of_ok hdir hdie htarget hports, decide_eq_true hfull, Bool.or_true, if_pos rfl]
    · exact congrArg _ (State.streamClose_of_some hx)
    · exact congrArg _ (State.streamClose_of_none hnone)
  · intro t fin run d took ends
    have hfault : s.host.d3hot = false → ((∃ b e, j.kind = .dmaRead p b e) ∨ j.kind = .dmaWrite p) →
        run .fault = .next (t.replyAt j.req j.at_ stDmaFault 0 []) := fun hlive hkind =>
      congrArg Host.Outcome.next ((State.transferDone_of_fault hlive hjobs hkind).trans (State.endJobs_of_only hjobs _ _))
    refine ⟨fun hd3 r => congrArg _ (State.transferDone_of_d3hot hd3 _ r), fun hlive => ⟨fun hkind => ⟨?_, ?_⟩,
      fun hkind => ⟨fun hhost => ?_, fun hhost => ?_, ?_⟩, fun hkind => ⟨fun hhost => ?_, fun hhost => ?_, ?_⟩⟩⟩
    · refine congrArg Host.Outcome.next ((State.transferDone_of_taken hlive hjobs hkind data).trans ?_)
      cases e with
      | none => exact State.endJobs_of_only (s := s.toHost p.host b) hjobs _ _
      | some n => exact State.endJobs_of_only (s := s.toHost p.host b) hjobs _ _
    · exact hfault hlive (.inl ⟨_, _, hkind⟩)
    · exact congrArg Host.Outcome.next ((State.transferDone_of_read hlive hjobs hkind data).trans (if_pos hhost))
    · exact congrArg Host.Outcome.next ((State.transferDone_of_read hlive hjobs hkind data).trans (if_neg (Bool.eq_false_iff.mp hhost)))
    · exact hfault hlive (.inl ⟨_, _, hkind⟩)
    · exact congrArg Host.Outcome.next ((State.transferDone_of_write hlive hjobs hkind data).trans (if_pos hhost))
    · exact congrArg Host.Outcome.next ((State.transferDone_of_write hlive hjobs hkind data).trans (if_neg (Bool.eq_false_iff.mp hhost)))
    · exact hfault hlive (.inr hkind)

end Sys2Proof.Machine
end

section
/-!
PROOF. Registers with write rules of their own (R42, R43, R46, R104, R108, R425, R426, R452, R521, R591).
-/
namespace Sys2Proof.Machine

open Sys2Proof

variable {s : State} {who : Requester} {v : Word}

/-- A write of a register that the grade, the map and the quoins let through takes effect by the register's own rules. -/
theorem State.busWrite_of_passing {r : Reg} (hbus : s.busDead who = false) (hwords : hostWords r = true)
    (h : s.allows who r.addr true = true ∧ regAt (r.addr / 4 * 4) = some r
      ∧ (r.name.info.wq = 0 ∨ (s.noteDebug who true).rdBit (xreg .secQuoin) r.name.info.quoin = false)) :
    s.busWrite who r.addr true v = (s.noteDebug who true).ownWrite who r v := by
  obtain ⟨hallowed, hreg, hopen⟩ := h
  exact (State.busWrite_of_mapped hbus hallowed hreg hwords).trans (State.judgedWrite_of_open hopen)

/-- A register of one write alone: what is armed stays as it is. -/
theorem State.dieArmed_storeReg {r : Reg} (h : r.name ≠ .cdPartition) (v : Word) (d : Die) :
    (s.storeReg r v).dieArmed d = s.dieArmed d := by
  have hne : dreg .cdPartition d ≠ r := by rintro rfl; exact h rfl
  rw [State.dieArmed, State.rdBit, (s.storeReg_leaves r v).2.2 _ hne, State.dieArmed, State.rdBit]

theorem State.anyArmed_storeReg {r : Reg} (h : r.name ≠ .cdPartition) (v : Word) :
    (s.storeReg r v).anyArmed = s.anyArmed := by
  rw [State.anyArmed, State.anyArmed]
  exact congrArg (allDies.any ·) (funext fun d => State.dieArmed_storeReg h v d)

/-! ### HT_SET_LO (R108) -/

theorem State.setRefused_storeReg_htSetLo : (s.storeReg (xreg .htSetLo) v).setRefused = s.setRefused := by
  rw [State.setRefused, State.htState, State.rdFld, (s.storeReg_leaves (xreg .htSetLo) v).2.2 (xreg .htStatus) (by decide),
    State.anyArmed_storeReg (by decide), State.setRefused, State.htState, State.rdFld]

theorem State.setLoWrite_of_free (hst : s.htState = htFree) (harmed : s.anyArmed = false) :
    s.setLoWrite v = (s.storeReg (xreg .htSetLo) v).modHt fun h => { h with
      set := some (BitVec.ofNat 64 (v.toNat + 2 ^ 32 * (s.rd (xreg .htSetHi)).toNat)) } := by
  have hopen : s.setRefused = false := by simp [State.setRefused, hst, harmed]
  have hhigh := (s.storeReg_leaves (xreg .htSetLo) v).2.2 (xreg .htSetHi) (by decide)
  simp only [State.setLoWrite, State.setRefused_storeReg_htSetLo, hopen, Bool.false_eq_true, if_false, hhigh]

theorem State.setLoWrite_of_held (hst : s.htState ≠ htFree) :
    s.setLoWrite v = (s.storeReg (xreg .htSetLo) v).raiseBit (xreg .htStatus) 11 := by
  have hheld : s.setRefused = true := by simp [State.setRefused, hst]
  simp only [State.setLoWrite, State.setRefused_storeReg_htSetLo, hheld, if_true]

/-! ### TU_IMPOSE (R46) -/

section impose
variable {l : LU}

theorem State.imposeWrite_of_armed (h : s.dieArmed l.d = true) :
    s.imposeWrite l v = s.raiseBit (rreg .tuRegionStat l.region) 10 := by
  simp only [State.imposeWrite, h, if_true]

variable (hfree : s.dieArmed l.d = false)
include hfree

theorem State.imposeWrite_of_unmapping (h : fld v 6 0 = 127) :
    s.imposeWrite l v = (s.storeReg (ureg .tuImpose l) v).syncFence := by
  have hbig : ¬ fld v 6 0 < 66 := by omega
  have hall : (fld v 6 0 != 127) = false := bne_eq_false_iff_eq.mpr h
  simp only [State.imposeWrite, hfree, dif_neg hbig, hall, Bool.false_eq_true, if_false]

theorem State.imposeWrite_of_no_place (hlo : 66 ≤ fld v 6 0) (hne : fld v 6 0 ≠ 127) :
    s.imposeWrite l v = s.raiseBit (rreg .tuRegionStat l.region) 9 := by
  have hbig : ¬ fld v 6 0 < 66 := by omega
  have hbad : (fld v 6 0 != 127) = true := bne_iff_ne.mpr hne
  simp only [State.imposeWrite, hfree, dif_neg hbig, hbad, Bool.false_eq_true, if_false, if_true]

/-- A sound place that carries no other unit takes the unit. -/
theorem State.imposeWrite_of_place (h : fld v 6 0 < 66) (hsound : s.unitFallow ⟨l.d, l.r, ⟨fld v 6 0, h⟩⟩ = false)
    (hcarried : s.carried ⟨l.d, l.r, ⟨fld v 6 0, h⟩⟩ = none ∨ s.carried ⟨l.d, l.r, ⟨fld v 6 0, h⟩⟩ = some l) :
    s.imposeWrite l v = (s.storeReg (ureg .tuImpose l) v).syncFence := by
  rcases hcarried with hc | hc <;>
    simp only [State.imposeWrite, hfree, dif_pos h, hsound, hc, bne_self_eq_false, Bool.or_self, Bool.false_eq_true, if_false]

end impose

/-! ### TG_CTL with START (R420, R426) -/

/-- RUNNING of a generator is not the writer's. -/
theorem State.rdBit_storeReg_tgCtl_running (d : Die) (c : Fin 32) :
    (s.storeReg (tgReg .tgCtl d c) v).rdBit (tgReg .tgCtl d c) 9 = s.rdBit (tgReg .tgCtl d c) 9 := by
  rw [State.rdBit, (s.storeReg_leaves _ _).1, State.rdBit]
  have hmask : ((tgReg .tgCtl d c).name.info.rw ||| (tgReg .tgCtl d c).name.info.wq).getLsbD 9 = false := by
    show (RegName.tgCtl.info.rw ||| RegName.tgCtl.info.wq).getLsbD 9 = false
    decide
  simp only [bit, BitVec.getLsbD_or, BitVec.getLsbD_and, BitVec.getLsbD_not, hmask]
  simp

theorem State.ownWrite_tgCtl_start {d : Die} {c : Fin 32} {w : Word} (hstart : bit w 6 = true) (hstop : bit w 7 = false)
    (hidle : s.rdBit (tgReg .tgCtl d c) 9 = false) (hserves : s.dieClosed d = false) (hfree : s.dieArmed d = false)
    (hpattern : fld w 4 2 < 5) (hsome : 0 < s.rdFld (tgReg .tgLen d c) 25 0) (hlen : s.rdFld (tgReg .tgLen d c) 25 0 ≤ 2 ^ 25) :
    let ctl := tgReg .tgCtl d c
    s.ownWrite who ctl w = ((((s.storeReg ctl (w &&& ~~~(0xC0 : Word))).wrBit ctl 9 true).wr (tgReg .tgErr d c) 0).wr
      (tgReg .tgPass d c) 0).modReg (tgReg .tgFirst d c) fun w => setBit (setFld w 24 0 0) 31 false := by
  intro ctl
  have hd : die4 d.val = d := Fin.ext (Nat.mod_eq_of_lt d.isLt)
  have hc : fin32 c.val = c := Fin.ext (Nat.mod_eq_of_lt c.isLt)
  have hlength : (s.storeReg ctl (w &&& ~~~(0xC0 : Word))).rdFld (tgReg .tgLen d c) 25 0 = s.rdFld (tgReg .tgLen d c) 25 0 := by
    rw [State.rdFld, (s.storeReg_leaves _ _).2.2 _ (by simp [ctl, tgReg]), State.rdFld]
  have hgo : s.ownWrite who ctl w = s.tgStart d c w := by
    show (let s := if bit w 7 then s.tgStop (die4 d.val) (fin32 c.val) 1 else s
      if bit w 6 then s.tgStart (die4 d.val) (fin32 c.val) w else s.storeReg ctl (w &&& ~~~(0xC0 : Word))) = _
    simp only [hstart, hstop, hd, hc, Bool.false_eq_true, if_false, if_true]
  have hclosed : (s.storeReg ctl (w &&& ~~~(0xC0 : Word))).dieClosed d = false := hserves
  rw [hgo, State.tgStart]
  simp only [State.rdBit_storeReg_tgCtl_running, hidle]
  rw [if_neg (by rw [Bool.or_eq_true]; rintro (h | h); exacts [absurd h nofun, absurd (hclosed.symm.trans h) nofun]), if_neg]
  rw [State.dieArmed_storeReg (by exact RegName.noConfusion), hlength, hfree]
  rintro (h | h | h | h)
  · exact absurd h nofun
  all_goals omega

/-- Settles O46: each register's rule, by the branch that its conditions choose. -/
theorem typedWrites : Obligations.TypedWrites := by
  intro s who v d lu rid k high g c hbus s1 passes bad kept
  have hland : ∀ {r : Reg} (w : Word), hostWords r = true → passes r → s.busWrite who r.addr true w = s1.ownWrite who r w :=
    fun w hwords hpass => State.busWrite_of_passing hbus hwords hpass
  have hd : die4 d.val = d := Fin.ext (Nat.mod_eq_of_lt d.isLt)
  have hu : (⟨die4 lu.d.val, fin4 lu.r.val, fin64 lu.n.val, none⟩ : LU) = ⟨lu.d, lu.r, lu.n, none⟩ := by
    simp only [die4, fin4, fin64, Nat.mod_eq_of_lt lu.d.isLt, Nat.mod_eq_of_lt lu.r.isLt, Nat.mod_eq_of_lt lu.n.isLt]
  have hrid : (⟨die4 rid.d.val, fin4 rid.r.val⟩ : RegionId) = rid := by
    simp only [die4, fin4, Nat.mod_eq_of_lt rid.d.isLt, Nat.mod_eq_of_lt rid.r.isLt]
  have hcode : (Gear.ofCode g.val).code = g.val := by fin_cases g <;> rfl
  have hgear : Gear.ofCode (Gear.ofCode g.val).code = Gear.ofCode g.val := by rw [hcode]
  have hnext : ∀ {t u : State}, t = u → (Host.Outcome.next t : Host.Outcome State Fault Refusal) = .next u := fun h => by rw [h]
  refine ⟨fun hp => ⟨fun hst harmed => ?_, fun hst => ?_⟩, fun hp => ⟨fun harmed hv => ?_, fun hbad => ?_⟩,
    fun hp => ⟨fun harmed => ?_, fun harmed => ?_⟩, fun hp => ⟨fun harmed => ?_, fun harmed => ?_⟩, fun hp halt => ?_,
    fun hp => ?_, fun hp => ?_, fun hp => ?_, ?_, fun hp => ⟨fun hv => ?_, fun hv => ?_⟩, ?_⟩
  · exact hnext ((hland v rfl hp).trans (State.setLoWrite_of_free hst harmed))
  · exact hnext ((hland v rfl hp).trans (State.setLoWrite_of_held hst))
  · refine hnext ((hland v rfl hp).trans (if_neg ?_))
    rintro (h | h)
    · exact absurd (harmed.symm.trans h) nofun
    · exact hv h
  · exact hnext ((hland v rfl hp).trans (if_pos hbad))
  · exact hnext ((hland v rfl hp).trans (if_neg (Bool.eq_false_iff.mp harmed)))
  · exact hnext ((hland v rfl hp).trans (if_pos harmed))
  · have hwrite : s1.ownWrite who (dreg .cdPartition d) v = s1.partitionWrite d v := congrArg (s1.partitionWrite · v) hd
    exact hnext ((hland v rfl hp).trans (hwrite.trans (if_neg (Bool.eq_false_iff.mp harmed))))
  · have hwrite : s1.ownWrite who (dreg .cdPartition d) v = s1.partitionWrite d v := congrArg (s1.partitionWrite · v) hd
    exact hnext ((hland v rfl hp).trans (hwrite.trans (if_pos harmed)))
  · obtain ⟨ld, lr, ln, lalt⟩ := lu
    subst halt
    have hwrite : s1.ownWrite who (ureg .tuImpose ⟨ld, lr, ln, none⟩) v = s1.imposeWrite ⟨ld, lr, ln, none⟩ v :=
      congrArg (s1.imposeWrite · v) hu
    have hjudged := (hland v rfl hp).trans hwrite
    exact ⟨fun harmed => hnext (hjudged.trans (State.imposeWrite_of_armed harmed)),
      fun hfree hall => hnext (hjudged.trans (State.imposeWrite_of_unmapping hfree hall)),
      fun h hfree hsound hcarried => hnext (hjudged.trans (State.imposeWrite_of_place hfree h hsound hcarried)),
      fun hfree hlo hne => hnext (hjudged.trans (State.imposeWrite_of_no_place hfree hlo hne))⟩
  · have hwrite : s1.ownWrite who (vtabReg rid (Gear.ofCode g.val)) v = s1.vtabWrite rid (Gear.ofCode g.val) v :=
      congrArg₂ (fun r g => s1.vtabWrite r g v) hrid hgear
    have hjudged := (hland v rfl hp).trans hwrite
    refine ⟨fun hv => hnext (hjudged.trans (if_pos hv)), fun hv => hnext (hjudged.trans ((if_neg (Nat.not_le.mpr hv)).trans ?_))⟩
    rw [hcode]
  · exact hnext (hland v rfl hp)
  · exact hnext (hland v rfl hp)
  · have hk : ld4 k.val = k := Fin.ext (Nat.mod_eq_of_lt k.isLt)
    cases high with
    | false =>
      intro r (hp : passes ⟨.ldSpareLo, k.val, 0, 0⟩)
      have hwrite : s1.ownWrite who ⟨.ldSpareLo, k.val, 0, 0⟩ v = s1.ldSpareWrite k false v :=
        congrArg (s1.ldSpareWrite · false v) hk
      exact ⟨nofun, fun _ => hnext ((hland v rfl hp).trans hwrite)⟩
    | true =>
      intro r (hp : passes ⟨.ldSpareHi, k.val, 0, 0⟩)
      have hwrite : s1.ownWrite who ⟨.ldSpareHi, k.val, 0, 0⟩ v = s1.ldSpareWrite k true v :=
        congrArg (s1.ldSpareWrite · true v) hk
      exact ⟨fun _ => hnext ((hland v rfl hp).trans hwrite), nofun⟩
  · have hwrite : s1.ownWrite who (dreg .hbmCfg d) v = s1.hbmCfgWrite d v := congrArg (s1.hbmCfgWrite · v) hd
    exact hnext ((hland v rfl hp).trans (hwrite.trans (if_neg hv)))
  · have hwrite : s1.ownWrite who (dreg .hbmCfg d) v = s1.hbmCfgWrite d v := congrArg (s1.hbmCfgWrite · v) hd
    exact hnext ((hland v rfl hp).trans (hwrite.trans (if_pos hv)))
  · intro ctl w hp hstop hidle hserves hfree hpattern hsome hlen
    exact hnext ((hland w rfl hp).trans
      (State.ownWrite_tgCtl_start (bit_setBit_true v (by decide)) hstop hidle hserves hfree hpattern hsome hlen))

end Sys2Proof.Machine
end

section
/-!
PROOF. Fabric slots deliver; lanes change state (R16, R84, R434, R447, R450).
-/
namespace Sys2Proof.Machine

open Sys2Proof

variable {s : State}

/-! ### Fabric slots (R16, R84) -/

section fabric
variable {x : FabricSlot} {p : Part}

theorem State.fabricSlot_of_idle (h : s.tickIn ≠ x.tick ∨ s.fabricOwner x = none) (line : Option (List Byte)) :
    s.fabricSlot x line = s := by
  unfold State.fabricSlot
  rcases h with h | h
  · rw [if_pos h]
  · rw [h]
    split <;> rfl

/-- The owner of a slot runs a forme that has it. -/
theorem State.running_of_fabricOwner (h : s.fabricOwner x = some p) : (s.part p).running = true
    ∧ ∃ f, (s.part p).forme = some f ∧ f.fabric.contains x = true := by
  have howner := List.find?_some h
  rw [Bool.and_eq_true] at howner
  obtain ⟨hrun, hhas⟩ := howner
  refine ⟨hrun, ?_⟩
  cases hf : (s.part p).forme with
  | none => simp [hf] at hhas
  | some f => exact ⟨f, rfl, by simpa [hf] using hhas⟩

variable (htick : s.tickIn = x.tick) (howner : s.fabricOwner x = some p)
include htick howner

theorem State.fabricSlot_of_filled (hfilled : (s.part p).filled.contains (x, s.now) = true) (line : Option (List Byte)) :
    s.fabricSlot x line = s.modPart p fun ps => { ps with filled := ps.filled.filter fun e => decide (s.now < e.2) } := by
  simp only [State.fabricSlot, htick, ne_eq, not_true_eq_false, howner, hfilled, if_true, if_false]

variable (hfree : (s.part p).filled.contains (x, s.now) = false)
include hfree

theorem State.fabricSlot_of_line (b : List Byte) : s.fabricSlot x (some b) = s.fabricOut x (.data b) := by
  simp only [State.fabricSlot, htick, ne_eq, not_true_eq_false, howner, hfree, Bool.false_eq_true, if_false]

theorem State.fabricSlot_of_blank : s.fabricSlot x none = if x.src.isLink then s
    else (s.fabricOut x .blank).suspect p ((x.dst.die?).getD ((x.src.die?).getD (s.firstDie p))) := by
  simp only [State.fabricSlot, htick, ne_eq, not_true_eq_false, howner, hfree, Bool.false_eq_true, if_false]

end fabric

/-! ### Lanes (R434, R447, R450) -/

section lane
variable {l : Lane}

/-- A lane that starts anew: nothing it has received counts. -/
def State.laneFresh (s : State) (l : Lane) : State := s.modLane l fun x => { x with badCw := 0, badHdr := 0, goodHdr := 0 }

/-- A lane that works or trains, and that LD_SPARE does not hold out, trains anew. -/
theorem State.laneDown_of_kept (hst : s.laneState l ≠ lnFailed) (hkept : s.ldSpared l = false) : s.laneDown l =
    if s.laneState l == lnUp then
      (((s.laneFresh l).setLane l lnTrain).raiseBit (lreg .ldLaneStat l) 13).laneLost l
    else (s.laneFresh l).setLane l lnTrain := by
  have hspare : (s.laneFresh l).ldSpared l = false := hkept
  simp only [State.laneDown, if_neg hst]
  change (if s.laneState l == lnUp then (((s.laneFresh l).setLane l (if (s.laneFresh l).ldSpared l && (s.laneFresh l).spared l
    then lnDown else lnTrain)).raiseBit (lreg .ldLaneStat l) 13).laneLost l else (s.laneFresh l).setLane l
      (if (s.laneFresh l).ldSpared l && (s.laneFresh l).spared l then lnDown else lnTrain)) = _
  simp only [hspare, Bool.false_and, Bool.false_eq_true, if_false]

/-- A lane in ALIGN (R447). -/
def State.laneAligned (s : State) (l : Lane) : State :=
  (s.modLane l fun x => { x with fails := 0, goodHdr := 0, echo := none }).setLane l lnAlign

theorem State.laneTrained_of_late (hlate : ¬ s.elapsed ≤ (s.laneS l).trainAt + 50000000) (delay : Nat) : s.laneTrained l delay = s :=
  if_pos (.inr (Nat.lt_of_not_le hlate))

theorem State.trainTimeout_of_early (hearly : s.elapsed < (s.laneS l).trainAt + 50000000) : s.trainTimeout l = s :=
  if_pos (.inr hearly)

section train
variable (hst : s.laneState l = lnTrain)
include hst

theorem State.laneTrained_of_soon (hsoon : s.elapsed ≤ (s.laneS l).trainAt + 50000000) (delay : Nat) : s.laneTrained l delay =
    if 1536 < delay then ((s.laneAligned l).raiseBit (lreg .ldLaneStat l) 12).failLane l else s.laneAligned l :=
  if_neg (by rintro (h | h); exacts [h hst, absurd h (Nat.not_lt.mpr hsoon)])

variable (hdue : (s.laneS l).trainAt + 50000000 ≤ s.elapsed)
include hdue

theorem State.trainTimeout_of_due : s.trainTimeout l = if 2 ≤ (s.laneS l).fails then s.failLane l
    else (s.modLane l fun x => { x with fails := x.fails + 1 }).laneDown l :=
  if_neg (by rintro (h | h); exacts [h hst, absurd h (Nat.not_lt.mpr hdue)])

theorem State.trainTimeout_of_few (hfew : (s.laneS l).fails < 2) (hkept : s.ldSpared l = false) : s.trainTimeout l =
    ((s.modLane l fun x => { x with fails := x.fails + 1 }).laneFresh l).setLane l lnTrain := by
  rw [State.trainTimeout_of_due hst hdue, if_neg (Nat.not_le.mpr hfew)]
  have hnot : (s.modLane l fun x => { x with fails := x.fails + 1 }).laneState l = lnTrain := hst
  have hkeeps : (s.modLane l fun x => { x with fails := x.fails + 1 }).ldSpared l = false := hkept
  rw [State.laneDown_of_kept (by rw [hnot]; decide) hkeeps, hnot]
  rfl

end train

theorem State.failedRetry_of_due (hst : s.laneState l = lnFailed) (hdue : (s.laneS l).failedAt + 2 ^ 27 ≤ s.elapsed) :
    s.failedRetry l = s.setLane l lnTrain := if_pos ⟨hst, hdue⟩

theorem State.laneDown_of_up (hst : s.laneState l = lnUp) (hkept : s.ldSpared l = false) : s.laneDown l =
    (((s.laneFresh l).setLane l lnTrain).raiseBit (lreg .ldLaneStat l) 13).laneLost l := by
  rw [State.laneDown_of_kept (by rw [hst]; decide) hkept, hst, if_pos (beq_self_eq_true _)]

end lane

/-- Settles O36: a slot by its tick, its owner and what fills it; a lane by its state and what comes to it. -/
theorem lanesAndFabric : Obligations.LanesAndFabric := by
  refine ⟨fun s x p d b => ?_, fun s l delay => ?_⟩
  · intro goes
    refine ⟨fun htick howner hd => ⟨fun hfree => ⟨?_, fun hlink => ?_, fun hlink => ?_⟩, fun hfilled => ?_⟩, fun hidle => ?_,
      fun q hq => State.running_of_fabricOwner hq⟩
    · refine congrArg Host.Outcome.next ((State.fabricSlot_of_line htick howner hfree b).trans ?_)
      rw [State.fabricOut, hd]
    · refine congrArg Host.Outcome.next ((State.fabricSlot_of_blank htick howner hfree).trans ?_)
      rw [hlink, if_neg nofun, State.fabricOut, hd]
      rfl
    · exact congrArg Host.Outcome.next ((State.fabricSlot_of_blank htick howner hfree).trans (if_pos hlink))
    · exact congrArg Host.Outcome.next (State.fabricSlot_of_filled htick howner hfilled none)
    · exact congrArg Host.Outcome.next (State.fabricSlot_of_idle hidle (some b))
  · intro x st bad down soon aligned
    refine ⟨rfl, rfl, fun hfew => congrArg Host.Outcome.next (if_neg (Nat.not_le.mpr hfew)),
      fun hmany => congrArg Host.Outcome.next (if_pos hmany), fun hst hsoon hnear => ?_, fun hst hsoon hfar => ?_, fun hst hlate => ?_,
      fun hst hearly => ?_, fun hst hdue hfails => ?_, fun hst hdue hfew hkept => ?_, fun hst hdue => ?_, fun hst hkept => ?_⟩
    · exact congrArg Host.Outcome.next ((State.laneTrained_of_soon hst hsoon delay).trans (if_neg (Nat.not_lt.mpr hnear)))
    · exact congrArg Host.Outcome.next ((State.laneTrained_of_soon hst hsoon delay).trans (if_pos hfar))
    · exact congrArg Host.Outcome.next (State.laneTrained_of_late hlate delay)
    · exact congrArg Host.Outcome.next (State.trainTimeout_of_early hearly)
    · exact congrArg Host.Outcome.next ((State.trainTimeout_of_due hst hdue).trans (if_pos hfails))
    · exact congrArg Host.Outcome.next (State.trainTimeout_of_few hst hdue hfew hkept)
    · exact congrArg Host.Outcome.next (State.failedRetry_of_due hst hdue)
    · have hdown := State.laneDown_of_up hst hkept
      exact ⟨congrArg Host.Outcome.next ((if_pos hst).trans hdown), congrArg Host.Outcome.next hdown⟩

end Sys2Proof.Machine
end

section
/-!
PROOF. Scheduled slots are sent and received (R16, R79, R265, R331, R391, R430, R435 to R439).
-/
namespace Sys2Proof.Machine

open Sys2Proof

variable {s : State} {p : Port} {k : Fin 8}

/-! ### Sending (R265, R435, R436) -/

/-- The header of the slot that starts now on a lane of a port, before anything fills it (R435). -/
def State.slotBase (s : State) (p : Port) (k : Fin 8) : SentSlot :=
  let t := s.now / 128 * 128
  ⟨t, 0, k.val, slotValue t % 65536, s.rdFld (xreg .htNodeId) 14 0, p.val, 0, 0, []⟩

section send
variable (hfree : s.inTramline (s.now / 128 * 128 % 16384) = false) (hlive : s.linkDead (laneOf p k.val).ld = false)
include hfree hlive

theorem State.slotSend_of_silent
    (h : s.portSilent p = true ∨ s.spared (laneOf p k.val) = true ∨ s.linkOut (laneOf p k.val).ld = true) :
    s.slotSend p k = s.sendIdle (laneOf p k.val) (s.slotBase p k) := by
  have hsilent : (s.portSilent p || s.spared (laneOf p k.val) || s.linkOut (laneOf p k.val).ld) = true := by
    simpa [or_assoc] using h
  simp only [State.slotSend, hfree, hlive, hsilent, Bool.or_self, Bool.false_eq_true, if_false, if_true]
  rfl

section speaks
variable (hport : s.portSilent p = false) (hlane : s.spared (laneOf p k.val) = false) (hlink : s.linkOut (laneOf p k.val).ld = false)
include hport hlane hlink

theorem State.slotSend_of_no_entry (hentry : s.slotEntry p k (s.now / 128 * 128) = none) :
    s.slotSend p k = s.sendIdle (laneOf p k.val) (s.slotBase p k) := by
  simp only [State.slotSend, hfree, hlive, hport, hlane, hlink, hentry, Bool.or_self, Bool.false_eq_true, if_false]
  rfl

variable {q : Part} {f : Forme} {e : LinkEntry} (hentry : s.slotEntry p k (s.now / 128 * 128) = some (q, f, e))
include hentry

theorem State.slotSend_of_quiet (hsend : e.send = false) :
    s.slotSend p k = s.sendIdle (laneOf p k.val) (s.slotBase p k) := by
  simp only [State.slotSend, hfree, hlive, hport, hlane, hlink, hentry, hsend, Bool.or_self, Bool.false_eq_true, if_false,
    Bool.not_false, if_true]
  rfl

/-- An entry that sends samples its buffer's tag, and sends the payload, a blank, or nothing. -/
theorem State.slotSend_of_sending (hsend : e.send = true) : s.slotSend p k =
    let b : BufId := ⟨p, k, e.tbuf⟩
    let t := s.now / 128 * 128
    let x := s.sendBuf b
    let u := s.setSend b (x.afterSample t)
    let filled := { s.slotBase p k with part := q.val, job := f.job }
    if x.sampled t = some (slotValue t) then
      u.modLane (laneOf p k.val) fun y => { y with sent := some { filled with kind := 1, payload := padTo 2560 x.data } }
    else if e.cond then u.sendIdle (laneOf p k.val) (s.slotBase p k)
    else u.modLane (laneOf p k.val) fun y =>
      { y with sent := some { filled with kind := 2, payload := List.replicate 2560 0 } } := by
  simp only [State.slotSend, hfree, hlive, hport, hlane, hlink, hentry, hsend, Bool.or_self, Bool.false_eq_true, if_false,
    Bool.not_true]
  rfl

end speaks

end send

/-! ### A buffer's tag (R265) -/

section tag
variable {x : LinkBuf} {t v at_ : Nat}

theorem LinkBuf.sampled_of_old (htag : x.tag = some (v, at_)) (hold : at_ + 32 < t) : x.sampled t = some v := by
  simp only [LinkBuf.sampled, htag, hold, if_true]

theorem LinkBuf.tag_afterSample_of_old (htag : x.tag = some (v, at_)) (hold : at_ + 32 < t) : (x.afterSample t).tag = none := by
  have hpast : ¬ t < at_ + 32 := by omega
  simp only [LinkBuf.afterSample, htag, Option.filter_some, hpast, decide_false, Bool.false_eq_true, if_false]

theorem LinkBuf.tag_afterSample_of_new (htag : x.tag = some (v, at_)) (hnew : t < at_ + 32) :
    (x.afterSample t).tag = some (v, at_) := by
  simp only [LinkBuf.afterSample, htag, Option.filter_some, hnew, decide_true, if_true]

theorem LinkBuf.sampled_of_never (htag : x.tag = none) (hwas : x.was = []) : x.sampled t = none := by
  simp only [LinkBuf.sampled, htag, hwas, List.find?_nil, Option.map_none]

end tag

/-! ### What a received slot amounts to (R79, R430, R437, R439) -/

/-- A slot whose FEC and HCRC hold is due at the entry of a forme whose port and lane take it, from the peer it expects,
in its window, of its sequence, kind, job and partition. -/
structure State.SlotGood (s : State) (p : Port) (k : Fin 8) (x : RxSlot) (f : Forme) (e : LinkEntry) : Prop where
  peer : (f.peer p).isSome = true
  lost : (s.port p).lost.contains k.val = false
  up : s.laneState (laneOf p k.val) = lnUp
  ready : s.ready p = true
  spared : s.spared (laneOf p k.val) = false
  live : s.linkDead (laneOf p k.val).ld = false
  silenced : s.links.silenced = false
  framing : s.links.framingOnly = false
  linkOut : s.linkOut (laneOf p k.val).ld = false
  timely : s.timely p k x = true
  seq : (SlotHead.read x.head).seq = slotValue x.tick % 65536
  kind : (SlotHead.read x.head).kind = 1
  job : (SlotHead.read x.head).job = f.job
  part : (SlotHead.read x.head).part = e.part.val

section judge
variable {x : RxSlot} {q : Part} {f : Forme} {e : LinkEntry} (hfec : x.fec = true) (hhcrc : hcrcOk x.head = true)
  (hentry : s.slotEntry p k x.tick = some (q, f, e))
include hfec hhcrc hentry

theorem State.judgeSlot_of_bad_payload (hpcrc : pcrcOk x.head x.payload = false) : s.judgeSlot p k x =
    ((s.header p k.val true (SlotHead.read x.head).lane).raiseBit (lreg .ldLaneStat (laneOf p k.val)) 9 (e.rkind != .none),
      some (q, f, e, none)) := by
  simp only [State.judgeSlot, State.soundSlot, hfec, hhcrc, hentry, hpcrc, Bool.not_true, Bool.and_false, Bool.false_eq_true,
    if_false, Bool.false_and]

theorem State.judgeSlot_of_good (hpcrc : pcrcOk x.head x.payload = true)
    (hpeer : (s.header p k.val true (SlotHead.read x.head).lane).peerBad p (SlotHead.read x.head) = false)
    (hgood : (s.header p k.val true (SlotHead.read x.head).lane).SlotGood p k x f e) :
    s.judgeSlot p k x = (s.header p k.val true (SlotHead.read x.head).lane, some (q, f, e, some x.payload)) := by
  obtain ⟨hclaim, hlost, hup, hready, hspared, hlive, hsilenced, hframing, hlink, htimely, hseq, hkind, hjob, hpart⟩ := hgood
  simp only [State.judgeSlot, State.soundSlot, hfec, hhcrc, hentry, hpcrc, Bool.not_true, Bool.and_self, Bool.false_eq_true,
    if_false, if_true, hpeer, Bool.and_false, Bool.not_false, hclaim, hlost, hup, hready, hspared, hlive,
    hsilenced, hframing, hlink, htimely, hseq, hkind, hjob, hpart, beq_self_eq_true]

end judge

/-! ### What a judged slot brings (R79, R331, R391, R437, R439) -/

section brings
variable {s1 : State} {x : RxSlot} {q : Part} {f : Forme} {e : LinkEntry} {pay : Option (List Byte)}
  (hjudge : s.judgeSlot p k x = (s1, some (q, f, e, pay)))
include hjudge

/-- The state with a blank where the slot's receive buffer was to be filled. -/
def State.blankBuf (s : State) (p : Port) (k : Fin 8) (q : Part) (x : RxSlot) (e : LinkEntry) : State :=
  (s.blankSlot p k q x.tick).setRecv ⟨p, k, e.rbuf⟩ ⟨List.replicate 2560 0, none, []⟩

theorem State.slotReceive_of_payload (hkind : e.rkind = .land) {b : List Byte} (hpay : pay = some b) : s.slotReceive p k x =
    (s1.setRecv ⟨p, k, e.rbuf⟩ ⟨b, some (slotValue x.tick, s1.now), []⟩).twinResult q ⟨p, k, e.rbuf⟩ (x.tick / 128 % 128) := by
  subst hpay
  simp only [State.slotReceive, hjudge, hkind]

theorem State.slotReceive_of_blank (hkind : e.rkind = .land) (hpay : pay = none) :
    s.slotReceive p k x = s1.blankBuf p k q x e := by
  subst hpay
  simp only [State.slotReceive, hjudge, hkind]
  rfl

theorem State.slotReceive_of_none (hkind : e.rkind = .none) : s.slotReceive p k x =
    if x.isData then s1.raiseBit (lreg .ldLaneStat (laneOf p k.val)) 10 else s1 := by
  simp only [State.slotReceive, hjudge, hkind]

theorem State.slotReceive_of_other (hkind : e.rkind = .accum ∨ e.rkind = .capacity) : s.slotReceive p k x = s := by
  rcases hkind with hkind | hkind <;> simp only [State.slotReceive, hjudge, hkind]

section accum
variable (hkind : e.rkind = .accum)
include hkind

theorem State.accumSlot_of_blank (hpay : pay = none) : s.accumSlot p k x = s1.blankSlot p k q x.tick := by
  subst hpay
  simp only [State.accumSlot, hjudge, hkind, bne_self_eq_false, Bool.false_eq_true, if_false]

variable {a : AccumDesc} (ha : f.accums[e.rarg]? = some a)
include ha

/-- A payload goes to the die of its descriptor where a slot of the fabric takes it there (R16). -/
theorem State.accumSlot_of_payload (hopen : s1.dieClosed a.die = false) {b : List Byte} (hpay : pay = some b) :
    s.accumSlot p k x =
      let way := s1.fabricWay q (.link (portLinkDie p k.val)) (.die a.die)
      if way.2 then match Fmt.ofCode a.fmt with
        | some m => (way.1.intake a.die 2560).contribute a.die (linkPort p k) a.window a.elem m a.rows a.cols
            (m.element (fun v => (b[v]?).getD 0) 0 (lineUp (m.arrayBytes a.rows a.cols)) a.rows a.cols)
        | none => way.1.redSuspect a.die 2
      else way.1.blankSlot p k q x.tick := by
  subst hpay
  simp only [State.accumSlot, hjudge, hkind, ha, hopen, bne_self_eq_false, Bool.false_eq_true, if_false]
  cases (s1.fabricWay q (.link (portLinkDie p k.val)) (.die a.die)).2 <;> rfl

end accum

section capacity
variable (hkind : e.rkind = .capacity)
include hkind

theorem State.capacitySlot_of_blank (hpay : pay = none) : s.capacitySlot p k x = s1.blankBuf p k q x e := by
  subst hpay
  simp only [State.capacitySlot, hjudge, hkind, bne_self_eq_false, Bool.false_eq_true, if_false]
  rfl

variable {a : CapDesc} (ha : f.caps[e.rarg]? = some a) (hsow : a.sow = false)
include ha hsow

theorem State.capacitySlot_of_payload {b : List Byte} (hpay : pay = some b) : s.capacitySlot p k x =
    if capGood a b then s1.setRecv ⟨p, k, e.rbuf⟩ ⟨b, some (slotValue x.tick, s1.now), []⟩ else s1.blankBuf p k q x e := by
  subst hpay
  simp only [State.capacitySlot, hjudge, hkind, ha, hsow, bne_self_eq_false, Bool.not_false, Bool.false_eq_true, if_false, if_true]
  cases capGood a b <;> rfl

end capacity

end brings

/-- Settles O35: a slot that is sent by what its lane, its entry and its tag are; one that is received by what it amounts
to, then by what its entry does with it. -/
theorem slotsTravel : Obligations.SlotsTravel := by
  refine ⟨fun s0 p k q f e => ?_, fun s p k x q f e c => ?_, fun s s1 p k x q f e pay hjudge => ?_⟩
  · intro s t l sent base idle b x r hfree hlive
    refine ⟨fun h => congrArg Host.Outcome.next (State.slotSend_of_silent hfree hlive h), fun hport hlane hlink =>
      ⟨fun hentry => congrArg Host.Outcome.next (State.slotSend_of_no_entry hfree hlive hport hlane hlink hentry),
      fun hentry hsend => congrArg Host.Outcome.next (State.slotSend_of_quiet hfree hlive hport hlane hlink hentry hsend),
      fun hentry hsend => ?_⟩⟩
    have hgo := State.slotSend_of_sending hfree hlive hport hlane hlink hentry hsend
    intro took
    refine ⟨fun hset => ?_, fun hset hcond => ?_, fun hset hcond => ?_, fun v at_ htag hold => ?_, fun v at_ htag hnew => ?_,
      fun htag hwas => ?_⟩
    · exact congrArg Host.Outcome.next (hgo.trans (if_pos hset))
    · exact congrArg Host.Outcome.next (hgo.trans ((if_neg hset).trans (if_pos hcond)))
    · exact congrArg Host.Outcome.next (hgo.trans ((if_neg hset).trans (if_neg (Bool.eq_false_iff.mp hcond))))
    · exact ⟨LinkBuf.sampled_of_old htag hold, LinkBuf.tag_afterSample_of_old htag hold⟩
    · exact LinkBuf.tag_afterSample_of_new htag hnew
    · exact LinkBuf.sampled_of_never htag hwas
  · intro h hfec hhcrc hentry s1 l delay hpeer hsame hlost hup hready hspared hlive hsilenced hframing hlink hfrom hto hseq hkind
      hjob hpart
    refine ⟨fun hpcrc => State.judgeSlot_of_good hfec hhcrc hentry hpcrc hsame ?_, fun hpcrc =>
      State.judgeSlot_of_bad_payload hfec hhcrc hentry hpcrc⟩
    have htimely : s1.timely p k x = true := decide_eq_true ⟨hfrom, hto⟩
    exact ⟨by rw [hpeer]; rfl, hlost, hup, hready, hspared, hlive, hsilenced, hframing, hlink, htimely, hseq, hkind, hjob, hpart⟩
  · intro id tag blank empty
    refine ⟨fun hkind => ⟨fun b hpay => ?_, fun hpay => ?_⟩, fun hkind => ?_, fun hkind => ?_, fun hkind a ha hopen => ?_,
      fun hkind a ha hsow => ⟨fun b hpay hgood => ?_, fun b hpay hbad => ?_, fun hpay => ?_⟩⟩
    · exact congrArg Host.Outcome.next (State.slotReceive_of_payload hjudge hkind hpay)
    · exact congrArg Host.Outcome.next (State.slotReceive_of_blank hjudge hkind hpay)
    · exact congrArg Host.Outcome.next (State.slotReceive_of_none hjudge hkind)
    · exact congrArg Host.Outcome.next (State.slotReceive_of_other hjudge hkind)
    · intro way
      refine ⟨fun b hpay hnone => ?_, fun b m hpay hway hm => ?_, fun hpay => ?_⟩
      · exact congrArg Host.Outcome.next ((State.accumSlot_of_payload hjudge hkind ha hopen hpay).trans
          (if_neg (Bool.eq_false_iff.mp hnone)))
      · refine congrArg Host.Outcome.next ((State.accumSlot_of_payload hjudge hkind ha hopen hpay).trans ((if_pos hway).trans ?_))
        rw [hm]
        rfl
      · exact congrArg Host.Outcome.next (State.accumSlot_of_blank hjudge hkind hpay)
    · exact congrArg Host.Outcome.next ((State.capacitySlot_of_payload hjudge hkind ha hsow hpay).trans (if_pos hgood))
    · exact congrArg Host.Outcome.next ((State.capacitySlot_of_payload hjudge hkind ha hsow hpay).trans
        (if_neg (Bool.eq_false_iff.mp hbad)))
    · exact congrArg Host.Outcome.next (State.capacitySlot_of_blank hjudge hkind hpay)

end Sys2Proof.Machine
end

section
/-!
PROOF. Tramlines are sent and received (R63 to R65, R82, R91, R430, R443 to R449).
-/
namespace Sys2Proof.Machine

open Sys2Proof

variable {s : State} {p : Port}

/-! ### What a tramline is filled from (R91, R443, R446) -/

theorem State.treeAdvance_parts (s : State) (q : Part) : ∃ x, s.treeAdvance q = { s with parts := x } := by
  unfold State.treeAdvance State.hold
  dsimp only
  (repeat' split) <;> exact ⟨_, rfl⟩

/-- The tree of every partition is brought up to date. -/
def State.told (s : State) : State := allParts.foldl (fun s q => s.treeAdvance q) s

theorem State.told_parts (s : State) : ∃ x, s.told = { s with parts := x } := by
  unfold State.told
  generalize allParts = ps
  induction ps generalizing s with
  | nil => exact ⟨s.parts, rfl⟩
  | cons q ps ih =>
    obtain ⟨x, hx⟩ := s.treeAdvance_parts q
    obtain ⟨y, hy⟩ := ih (s.treeAdvance q)
    exact ⟨y, by rw [List.foldl_cons, hy, hx]⟩

/-- Without a stream no piece is dealt to a port (R446). -/
theorem State.bulkFor_of_none (hstreams : s.host.streams = []) (hdeal : s.links.deal = []) (t : Nat) :
    ∃ d, s.bulkFor p t = (s.modLinks fun k => { k with dealt := d }, []) := by
  unfold State.bulkFor
  by_cases hd : s.links.dealt = some t
  · refine ⟨s.links.dealt, ?_⟩
    simp only [if_pos hd, hdeal, List.filter_nil, List.map_nil]
    rfl
  · refine ⟨some t, ?_⟩
    simp only [if_neg hd, hstreams, List.filter_nil, List.foldl_nil, State.modLinks, hdeal, List.map_nil]

theorem State.laneS_modLane (s : State) (l : Lane) (f : LaneS → LaneS) : (s.modLane l f).laneS l = f (s.laneS l) :=
  AMap.getD_set_same ..

theorem State.laneS_modLane_ne (s : State) {l m : Lane} (h : m ≠ l) (f : LaneS → LaneS) : (s.modLane l f).laneS m = s.laneS m :=
  AMap.getD_set_ne _ _ _ _ _ h

/-- A lane's PRBS31 goes on by a whole bulk field (R446). -/
def State.fillLane (p : Port) (acc : State × List (List Byte)) (k : Nat) : State × List (List Byte) :=
  let y := prbsBytes 1520 (acc.1.laneS (laneOf p k)).prbs
  (acc.1.modLane (laneOf p k) fun x => { x with prbs := y.2 }, acc.2 ++ [y.1])

theorem State.foldl_fillLane (p : Port) (ks : List Nat) (hks : (ks.map (laneOf p ·)).Nodup) (s : State) (out : List (List Byte)) :
    ∃ y, ks.foldl (State.fillLane p) (s, out) = (s.modLinks fun k => { k with lanes := y },
        out ++ ks.map fun k => (prbsBytes 1520 (s.laneS (laneOf p k)).prbs).1)
      ∧ ∀ l, (y.getD l .reset).echo = (s.laneS l).echo := by
  induction ks generalizing s out with
  | nil => exact ⟨s.links.lanes, by simp [State.modLinks], fun _ => rfl⟩
  | cons k ks ih =>
    rw [List.map_cons, List.nodup_cons] at hks
    obtain ⟨hk, hks⟩ := hks
    obtain ⟨y, hfold, hecho⟩ := ih hks (State.fillLane p (s, out) k).1 (State.fillLane p (s, out) k).2
    refine ⟨y, ?_, fun l => (hecho l).trans ?_⟩
    · have hrest : (ks.map fun j => (prbsBytes 1520 ((State.fillLane p (s, out) k).1.laneS (laneOf p j)).prbs).1) =
          ks.map fun j => (prbsBytes 1520 (s.laneS (laneOf p j)).prbs).1 :=
        List.map_congr_left fun j hj => by
          have hne : laneOf p j ≠ laneOf p k := fun h => hk (List.mem_map.mpr ⟨j, hj, h⟩)
          simp only [State.fillLane, State.laneS_modLane_ne s hne]
      rw [List.foldl_cons, hfold, hrest, List.map_cons]
      simp only [State.fillLane, List.append_assoc, List.cons_append, List.nil_append]
      rfl
    · by_cases hl : l = laneOf p k
      · subst hl
        rw [State.fillLane, State.laneS_modLane]
      · rw [State.fillLane, State.laneS_modLane_ne s hl]

/-- The lanes of a hall port (R428). -/
theorem portLanes_of_hall (hp : p.val ≠ 48) : portLanes p = 4 := if_neg hp

theorem nodup_lanes_of_hall (hp : p.val ≠ 48) : ((List.range (portLanes p)).map (laneOf p ·)).Nodup := by
  rw [portLanes_of_hall hp]
  refine List.Nodup.map_on (fun a ha b hb hab => ?_) List.nodup_range
  have hla := List.mem_range.mp ha
  have hlb := List.mem_range.mp hb
  simp only [laneOf, if_neg hp, Lane.mk.injEq, Fin.mk.injEq, true_and] at hab
  omega

/-- Without a bulk piece a hall port's lanes are filled with their PRBS31 (R446). -/
theorem State.bulkFill_of_none (hp : p.val ≠ 48) : ∃ y, s.bulkFill p [] = (s.modLinks fun k => { k with lanes := y },
      (List.range (portLanes p)).map fun k => (prbsBytes 1520 (s.laneS (laneOf p k)).prbs).1)
    ∧ ∀ l, (y.getD l .reset).echo = (s.laneS l).echo := by
  obtain ⟨y, hfold, hecho⟩ := State.foldl_fillLane p (List.range (portLanes p)) (nodup_lanes_of_hall hp) s []
  exact ⟨y, hfold, hecho⟩

/-- What a lane's time record is made of: the registers, the base and the lane's echo (R64, R65). -/
theorem State.timeRecord_of_kept {u : State} (hregs : u.regs = s.regs) (hht : u.ht = s.ht)
    (hecho : ∀ l, (u.laneS l).echo = (s.laneS l).echo) (p : Port) (k t : Nat) : u.timeRecord p k t = s.timeRecord p k t := by
  have hrd : ∀ r, u.rd r = s.rd r := fun r => congrArg (fun m : AMap Reg Word => m.getD r r.default) hregs
  simp only [State.timeRecord, State.htState, State.rdFld, State.edgeNode, State.clkMode, State.timed, hrd, hht, hecho]

/-! ### TRAMLINE_SEND on a hall port (R63, R64, R91, R443, R445) -/

theorem State.detachSent_of_hall (hp : p.val ≠ 48) : s.detachSent p = s := by
  unfold State.detachSent
  split
  · simp only [hp, decide_false, Bool.false_and, Bool.false_eq_true, if_false]
  · rfl

theorem State.sendTramline_of_hall (hp : p.val ≠ 48) : s.sendTramline p = s.tramlineSend p := by
  rw [State.sendTramline, if_neg hp, State.detachSent_of_hall hp]

theorem State.tramlineSend_of_closed (hp : p.val ≠ 48) (h : s.links.framingOnly = true ∨ s.inTramline s.tickIn = false) :
    s.tramlineSend p = s := by
  have hport : (p.val == 48) = false := beq_eq_false_iff_ne.mpr hp
  unfold State.tramlineSend
  rw [if_pos]
  rcases h with h | h <;> simp [h, State.lastTram, hport]

/-- The messages of a port that go in the tramline of tick `t`, slips first (R444, R445). -/
def State.going (s : State) (p : Port) (t : Nat) : List Waiting :=
  let live := s.links.queue.filter fun w => w.port = p ∧ w.notBefore ≤ t
  (live.filter (·.msg.isSlip) ++ live.filter (fun w => !w.msg.isSlip)).take 5

/-- A hall port sends a tramline, with nothing held back: no stream, no message sent eight times, no pause. -/
structure State.TramDue (s : State) (p : Port) (k : Nat) : Prop where
  hall : p.val ≠ 48
  framing : s.links.framingOnly = false
  slot : s.inTramline s.tickIn = true
  lane : k < portLanes p
  live : s.linkDead (portLinkDie p k) = false
  streams : s.host.streams = []
  deal : s.links.deal = []
  pause : s.fw.pause = none
  fresh : ∀ w ∈ s.links.queue, w.port = p → w.sends < 8

/-- What a hall port sends in the tramline that starts at tick `t` (R64, R91, R443, R446). -/
def State.tramFor (s : State) (p : Port) (t : Nat) : SentTram where
  tick := t
  node := s.rdFld (xreg .htNodeId) 14 0
  port := p.val
  lane := s.tramLane p
  times := (List.range (portLanes p)).map fun k => s.timeRecord p k t
  records := s.told.treeRecords p t
  msgs := (s.going p t).map fun w => (w.seq, w.msg)
  acks := (s.links.acks.getD p []).take 31
  bulk := []
  fill := (List.range (portLanes p)).map fun k => (prbsBytes 1520 (s.laneS (laneOf p k)).prbs).1

theorem State.tramlineSend_of_due {k : Nat} (h : s.TramDue p k) :
    let t := s.now / 128 * 128
    ∃ x d y, s.tramlineSend p = (({ s with parts := x }.modLinks fun k => { k with
        dealt := d, lanes := y
        queue := k.queue.map fun w => if (s.going p t).contains w then { w with sends := w.sends + 1 } else w
        acks := k.acks.set p ((s.links.acks.getD p []).drop 31) }).modPort p fun x => { x with sent := some (s.tramFor p t) }) := by
  obtain ⟨hp, hframing, hslot, hlane, hlive, hstreams, hdeal, hpause, hfresh⟩ := h
  intro t
  obtain ⟨x, hx⟩ := s.told_parts
  obtain ⟨d, hd⟩ := State.bulkFor_of_none (s := { s with parts := x }) (p := p) hstreams hdeal t
  obtain ⟨y, hy, hecho⟩ := State.bulkFill_of_none (s := { s with parts := x }.modLinks fun k => { k with dealt := d }) hp
  have hgate : ¬ ((s.links.framingOnly && !s.lastTram p) || (p.val == 48 && s.links.twin.detached) || !s.inTramline s.tickIn
      || (List.range (portLanes p)).all (fun k => s.linkDead (portLinkDie p k))) = true := by
    have hall : (List.range (portLanes p)).all (fun k => s.linkDead (portLinkDie p k)) = false :=
      List.all_eq_false.mpr ⟨k, List.mem_range.mpr hlane, by rw [hlive]; decide⟩
    simp [hframing, hslot, hall, hp]
  have hdead : (s.links.queue.filter fun w => w.port = p).filter (fun w => 8 ≤ w.sends) = [] := by
    rw [List.filter_filter, List.filter_eq_nil_iff]
    intro w hw hboth
    simp only [Bool.and_eq_true, decide_eq_true_eq] at hboth
    exact absurd (hfresh w hw hboth.2) (Nat.not_lt.mpr hboth.1)
  have hgoing : ∀ t, (s.links.queue.filter fun w => w.port = p).filter (fun w => decide (w.sends < 8 ∧ w.notBefore ≤ t)) =
      s.links.queue.filter fun w => w.port = p ∧ w.notBefore ≤ t := fun t => by
    rw [List.filter_filter]
    refine List.filter_congr fun w hw => ?_
    by_cases hport : w.port = p
    · simp [hport, hfresh w hw hport]
    · simp [hport]
  refine ⟨x, d, y, ?_⟩
  have htold : allParts.foldl (fun s q => s.treeAdvance q) s = { s with parts := x } := hx
  unfold State.tramlineSend
  rw [if_neg hgate]
  simp only [htold, hdead, List.isEmpty_nil, if_true, if_false, hp, hpause, Option.isSome_none, Bool.false_and,
    Bool.not_false, and_true, hgoing, List.nil_append]
  rw [hd]
  simp only [hy]
  refine congrArg₂ (fun (v : State) o => v.modPort p fun x => { x with sent := some o }) rfl ?_
  simp only [State.tramFor, SentTram.mk.injEq, true_and]
  refine ⟨rfl, rfl, rfl, ?_, ?_, rfl, rfl⟩
  · refine List.map_congr_left fun k _ => ?_
    refine State.timeRecord_of_kept (s := s) ?_ ?_ (fun l => ?_) p k t
    · rfl
    · rfl
    · exact hecho l
  · rw [hx]
    rfl

/-! ### TRAMLINE_RECEIVE on a hall port other than 0 (R63, R65, R82, R430, R443, R445, R447 to R449) -/

section receive
variable {k : Fin 8} {x : RxTram} (hframing : s.links.framingOnly = false)
  (hlive : s.linkDead (laneOf p k.val).ld = false)
include hframing

theorem State.tramlineReceive_of_lost (h0 : p.val ≠ 0) (hfec : x.fec = false) : s.tramlineReceive p k x = s := by
  simp only [State.tramlineReceive, State.soundSlot, hframing, hfec, h0, Bool.false_and, Bool.not_false, Bool.true_or, decide_false,
    Bool.false_eq_true, if_false, if_true]

include hlive

variable (hfec : x.fec = true)
include hfec

theorem State.tramlineReceive_of_bad_header (h0 : p.val ≠ 0) (hhcrc : hcrcOk x.head = false) : s.tramlineReceive p k x =
    (s.header p k.val false (SlotHead.read x.head).lane).raiseBit (lreg .ldLaneStat (laneOf p k.val)) 9 := by
  simp only [State.tramlineReceive, State.soundSlot, hframing, hfec, hlive, hhcrc, h0, Bool.not_false, Bool.not_true, Bool.and_self,
    Bool.false_and, Bool.true_or, decide_false, Bool.false_eq_true, if_false, if_true]

variable (hhcrc : hcrcOk x.head = true) (hpcrc : pcrcOk x.head x.payload = true)
include hhcrc hpcrc

theorem State.tramlineReceive_of_bad_peer (h0 : p.val ≠ 0)
    (hpeer : (s.header p k.val true (SlotHead.read x.head).lane).peerBad p (SlotHead.read x.head) = true) :
    s.tramlineReceive p k x =
      (s.header p k.val true (SlotHead.read x.head).lane).raiseBit (lreg .ldLaneStat (laneOf p k.val)) 14 := by
  simp only [State.tramlineReceive, State.soundSlot, hframing, hfec, hlive, hhcrc, hpcrc, hpeer, h0, Bool.not_false, Bool.not_true,
    Bool.and_self, Bool.false_and, Bool.true_or, Bool.or_true, decide_false, Bool.false_eq_true, if_false, if_true]

theorem State.tramlineReceive_of_sound
    (hpeer : (s.header p k.val true (SlotHead.read x.head).lane).peerBad p (SlotHead.read x.head) = false)
    (hkind : (SlotHead.read x.head).kind = 3)
    (hcarries : (s.header p k.val true (SlotHead.read x.head).lane).carriesTram (laneOf p k.val) = true)
    (hstays : (s.header p k.val true (SlotHead.read x.head).lane).linkDead (laneOf p k.val).ld = false) :
    s.tramlineReceive p k x = (s.header p k.val true (SlotHead.read x.head).lane).tramlineTake p k (k.val == s.tramLane p)
      (SlotHead.read x.head) x := by
  simp only [State.tramlineReceive, State.soundSlot, hframing, hfec, hlive, hhcrc, hpcrc, hpeer, hkind, hcarries, hstays, Bool.not_false,
    Bool.not_true, Bool.and_self, Bool.and_false, Bool.or_self, bne_self_eq_false, Bool.false_eq_true, if_false, if_true]

end receive

/-- What a sound tramline slot tells of its lane and its port: the peer, the delay where it is the port's time lane, the
echo, and whether the peer has the time (R63, R65, R448, R449). -/
def State.tramHeard (s : State) (p : Port) (k : Fin 8) (timeLane : Bool) (x : RxTram) : State :=
  let h := SlotHead.read x.head
  let r := portReg .ldPortPeer p k.val
  let t := TimeRecord.read x.payload
  let t2 := s.now * 64 + x.frac.val
  let s2 := ((s.wrFld r 14 0 h.node).wrFld r 21 16 h.port).wrBit r 31 true
  let s3 := if timeLane then s2.portDelay p t t2 else s2
  (s3.modLane (laneOf p k.val) fun y => { y with echo := some (t.sendT, t2) }).modPort p fun y =>
    { y with peerTimed := t.locked || t.free }

section take
variable {k : Fin 8} {x : RxTram} {timeLane : Bool} (hp : p.val ≠ 48) (h0 : p.val ≠ 0) (hbulk : readBulk x.payload = none)
include hp h0 hbulk

/-- The first lane that brings a tramline hands on what it holds; a copy on another lane is noted where no lower lane
has brought it (R443). -/
theorem State.tramlineTake_of_hall : s.tramlineTake p k timeLane (SlotHead.read x.head) x =
    let u := s.tramHeard p k timeLane x
    (if (u.port p).taken = some (SlotHead.read x.head).seq then
      (if (List.range k.val).any fun i => u.rdBit (lreg .ldLaneStat (laneOf p i)) 3 then u else u.recordLane p k.val)
    else ((u.recordLane p k.val).modPort p fun y =>
      { y with taken := some (SlotHead.read x.head).seq }).tramRecords p x.payload).syncPort p := by
  simp only [State.tramlineTake, State.notePeer, if_neg hp, h0, decide_false, Bool.false_and, Bool.false_eq_true, if_false, hbulk]
  rfl

theorem State.tramlineTake_of_first (hnew : ((s.tramHeard p k timeLane x).port p).taken ≠ some (SlotHead.read x.head).seq) :
    s.tramlineTake p k timeLane (SlotHead.read x.head) x =
      ((((s.tramHeard p k timeLane x).recordLane p k.val).modPort p fun y =>
        { y with taken := some (SlotHead.read x.head).seq }).tramRecords p x.payload).syncPort p := by
  rw [State.tramlineTake_of_hall hp h0 hbulk]
  simp only [if_neg hnew]

theorem State.tramlineTake_of_again (hold : ((s.tramHeard p k timeLane x).port p).taken = some (SlotHead.read x.head).seq)
    (hk : k.val = 0) : s.tramlineTake p k timeLane (SlotHead.read x.head) x =
      ((s.tramHeard p k timeLane x).recordLane p 0).syncPort p := by
  rw [State.tramlineTake_of_hall hp h0 hbulk]
  simp only [if_pos hold]
  rw [hk, List.range_zero, List.any_nil, if_neg nofun]

end take

/-- Settles O37: a tramline that is sent field by field; one that is received by whether it is sound and new. -/
theorem tramlinesTravel : Obligations.TramlinesTravel := by
  refine ⟨fun s p hp => ⟨fun hclosed => ?_, fun k hframing hslot hlane hlive hstreams hdeal hpause hfresh => ?_⟩,
    fun s p k x hp h0 hframing hlive => ?_⟩
  · exact congrArg Host.Outcome.next ((State.sendTramline_of_hall hp).trans (State.tramlineSend_of_closed hp hclosed))
  · intro t live go told
    obtain ⟨parts, d, y, hsend⟩ :=
      State.tramlineSend_of_due ⟨hp, hframing, hslot, hlane, hlive, hstreams, hdeal, hpause, hfresh⟩
    have hrecords : (s.tramFor p t).records = told.treeRecords p t := by
      have htold : told = s.told := by rw [State.told]
      rw [htold, State.tramFor]
    refine ⟨s.tramlineSend p, s.tramFor p t, congrArg Host.Outcome.next (State.sendTramline_of_hall hp), ?_, rfl, rfl, rfl, hrecords,
      rfl, rfl, rfl, rfl, ?_, ?_, ?_, ?_, ?_⟩
    all_goals rw [hsend]
    · exact congrArg PortS.sent (AMap.getD_set_same _ _ _ _)
    · rfl
    · exact AMap.getD_set_same _ _ _ _
    · rfl
    · rfl
    · rfl
  · intro l h
    refine ⟨fun hfec => ?_, fun hfec hhcrc => ?_, fun hfec hhcrc hpcrc hpeer => ?_, fun hfec hhcrc hpcrc hkind hbulk => ?_,
      fun u htree hmsgs => ?_⟩
    · exact congrArg Host.Outcome.next (State.tramlineReceive_of_lost hframing h0 hfec)
    · exact congrArg Host.Outcome.next (State.tramlineReceive_of_bad_header hframing hlive hfec h0 hhcrc)
    · exact congrArg Host.Outcome.next (State.tramlineReceive_of_bad_peer hframing hlive hfec hhcrc hpcrc h0 hpeer)
    · intro s1 hpeer hcarries hstays r t t2 s2 s3 s4
      have hsound := State.tramlineReceive_of_sound hframing hlive hfec hhcrc hpcrc hpeer hkind hcarries hstays
      have hheard : s1.tramHeard p k (k.val == s.tramLane p) x = s4 := by
        simp only [State.tramHeard, beq_iff_eq]
        rfl
      refine ⟨fun hnew => ?_, fun hold hk => ?_⟩
      · rw [← hheard] at hnew ⊢
        exact congrArg Host.Outcome.next (hsound.trans (State.tramlineTake_of_first hp h0 hbulk hnew))
      · rw [← hheard] at hold ⊢
        exact congrArg Host.Outcome.next (hsound.trans (State.tramlineTake_of_again hp h0 hbulk hold hk))
    · simp only [State.tramRecords, htree, hmsgs, List.foldl_nil]

end Sys2Proof.Machine
end


section
/-!
PROOF. The X slot (06_unit_programming.md R231, R235, R243 to R245, R258): what a move leaves where its slot may issue, its
engine and its port are free.
-/
namespace Sys2Proof.Machine

/-! ### The port, the way and the lines of a move -/

/-- The port cycles of a move are the unit's, and no earlier move of its holds them (R244, R270). -/
def State.PortFree (s : State) (u : LU) (x : UnitS) (inb : Bool) (e n : Nat) : Prop :=
  x.portHeld (s.region u.region).gear inb e n = false
    ∧ s.portOwned u.cluster (.unit ⟨u.inCluster, Nat.mod_lt _ (by decide)⟩) inb e n = true

theorem State.takePort_of_free {s : State} {u : LU} {x : UnitS} {inb : Bool} {delay n : Nat} (go : State → State)
    (h : s.PortFree u x inb (portFirst (s.region u.region).gear inb s.now delay) n) :
    s.takePort u x inb delay n go = go s := by
  obtain ⟨hheld, howned⟩ := h
  simp only [State.takePort, hheld, howned, Bool.not_true, Bool.false_eq_true, if_false]

theorem State.fabricWay_now (s : State) (p : Part) (a b : FabricEnd) : (s.fabricWay p a b).1.now = s.now := by
  simp only [State.fabricWay]
  split <;> rfl

theorem State.fabricTake_now (s : State) (d : Die) (f : Far) (inb : Bool) : (s.fabricTake d f inb).1.now = s.now := by
  simp only [State.fabricTake]
  split
  · rfl
  · rfl
  · split <;> exact State.fabricWay_now _ _ _ _

/-- The lines of an operand whose format is named are laid out by it (R136). -/
theorem UnitS.sized_of_fmt {x : UnitS} {d : Fin 64} {off : Word} (h : (x.opnd d off).fmt.isSome = true) :
    x.sized d off = x.opnd d off := by
  simp only [UnitS.sized, h, if_true]

/-- The record of a far move that is not refused: `got` says whether its way carries it. -/
def State.farMove (s : State) (u : LU) (x : UnitS) (o : MoveOp) (k : MoveKind) (lines : List Nat) (f : Far) (got : Bool) :
    MoveFlight :=
  let l := x.opnd o.ldesc (x.areg o.lreg)
  let turn := if k == .recv then s.now / 16384 - o.fsel.toNat else s.now / 16384 + o.fsel.toNat
  { s.newMove u k lines with
    far := some f, fixed := farTicks u.d f, tag := (turn * 128 + o.slot.val) % 2 ^ 39, dead := !got, carried := got
    gal := if (k.inbound == some true) && k != .iload then l.gal else none
    bank := !x.ctl.verso, opnd := some l }

/-! ### Far moves -/

section
variable {s : State} {u : LU} {p : PU} {o : MoveOp} {k : MoveKind} {f : Far} {lines : List Nat}

/-- The lines that a far move of at most 64 lines carries (R243). -/
def UnitS.carries (x : UnitS) (o : MoveOp) (k : MoveKind) (lines : List Nat) : Prop :=
  (k = .iload ∧ lines = List.range 256)
    ∨ (k ≠ .iload ∧ (x.opnd o.ldesc (x.areg o.lreg)).fmt.isSome = true ∧ x.isFar o.ldesc = false
      ∧ lines = (x.opnd o.ldesc (x.areg o.lreg)).moveLines ∧ lines ≠ [] ∧ lines.length ≤ 64)

/-- An operation that launches one far move: only the unit changes, and the fabric slot that the move fills. -/
def State.LaunchesFar (s : State) (u : LU) (p : PU) (o : MoveOp) (f : Far) (e : Host.Outcome State Fault Refusal)
    (k : MoveKind) (lines : List Nat) (accs : List LineAcc) (pops : List PopDue) : Prop :=
  let x := s.unit p
  let fab := (s.marked p .x).fabricTake u.d f (k.inbound == some true)
  ∃ m : MoveFlight,
    e = .next (fab.1.setUnit p ((x.mark .x).launch .x (s.cycle u.region) accs pops (.move m)))
    ∧ m.kind = k ∧ m.lines = lines ∧ m.total = lines.length ∧ m.next = 0 ∧ m.far = some f ∧ m.fixed = farTicks u.d f
    ∧ m.issueTick = s.now ∧ m.dead = !fab.2 ∧ m.carried = fab.2 ∧ m.bank = !x.ctl.verso
    ∧ m.tag = ((if k = .recv then s.now / 16384 - o.fsel.toNat else s.now / 16384 + o.fsel.toNat) * 128 + o.slot.val)
      % 2 ^ 39

/-- What nothing refuses of a far move: its fields, the engine, the target and the lines (R224, R231). -/
structure State.FarDue (s : State) (u : LU) (p : PU) (o : MoveOp) (k : MoveKind) (f : Far) (lines : List Nat) : Prop where
  issues : s.issuer u .x = some p
  stray : k.stray o = false
  free : (s.unit p).xBusy ≤ s.cycle u.region
  target : (s.unit p).far o.fdesc ((s.unit p).areg o.freg) = some f
  allowed : s.farAllowed u.d f = true
  takes : k.takes f.space = true
  carried : (s.unit p).carries o k lines

/-- A far move that nothing refuses and whose port is free is in flight with the lines it carries, and fills the fabric
slot that it finds. -/
theorem State.xFar_of_due (hdue : s.FarDue u p o k f lines) {inb : Bool} {delay : Nat}
    (hinb : (k.inbound == some true) = inb) (hdelay : delay = if inb then farTicks u.d f else 0)
    (hport : s.PortFree u (s.unit p) inb (portFirst (s.region u.region).gear inb s.now delay) (portCycles lines.length)) :
    let fab := (s.marked p .x).fabricTake u.d f (k.inbound == some true)
    let src := sourceAccs (s.cycle u.region) ((s.unit p).opnd o.ldesc ((s.unit p).areg o.lreg)) lines
    s.xFar u o k = fab.1.setUnit p (((s.unit p).mark .x).launch .x (s.cycle u.region)
      (if inb then [] else src.1) (if inb then [] else src.2)
      (.move (fab.1.farMove u (s.unit p) o k lines f fab.2))) := by
  obtain ⟨h, hstray, hbusy, hfar, hok, htakes, hlines⟩ := hdue
  subst hinb hdelay
  intro fab src
  have hnow : fab.1.now = s.now := State.fabricTake_now _ _ _ _
  have hok' : (s.marked p .x).farAllowed u.d f = true := hok
  rw [State.xFar, if_neg (by simp [hstray]), State.issue_eq _ h]
  simp only [State.cycle_marked, UnitS.areg_mark, UnitS.opnd_mark, UnitS.far_mark, UnitS.isFar_mark, hfar,
    if_neg (Nat.not_lt.mpr (show ((s.unit p).mark .x).xBusy ≤ _ from hbusy))]
  obtain ⟨rfl, rfl⟩ | ⟨hk, hfmt, hloc, rfl, hne, hlen⟩ := hlines
  · simp only [htakes, beq_self_eq_true, bne_self_eq_false, if_true, Bool.not_true, Bool.false_and, Bool.or_self,
      Bool.false_eq_true, if_false]
    rw [State.takePort_of_free (s := s.marked p .x) (x := (s.unit p).mark .x) _ hport]
    simp only [hok', if_true, Bool.and_false, State.tuFlagIf, Bool.false_eq_true, if_false, Bool.not_true, Bool.false_or,
      show (List.range 256).isEmpty = false by decide]
    rw [State.farMove, hnow]
    rfl
  · have hk' : (k == .iload) = false := beq_false_of_ne hk
    have hs : ((s.unit p).mark .x).sized o.ldesc ((s.unit p).areg o.lreg) =
        (s.unit p).opnd o.ldesc ((s.unit p).areg o.lreg) :=
      UnitS.sized_of_fmt hfmt
    have hnone := Option.isNone_eq_false_iff.mpr hfmt
    simp only [htakes, hk', hloc, hs, bne, hnone, List.take_of_length_le hlen, Bool.not_true, Bool.or_self,
      Bool.false_eq_true, if_false, Bool.and_false]
    rw [State.takePort_of_free (s := s.marked p .x) (x := (s.unit p).mark .x) _ hport]
    simp only [hok', if_true, State.tuFlagIf, Bool.false_eq_true, if_false, Bool.not_true, Bool.false_or,
      List.isEmpty_eq_false_iff.mpr hne, decide_eq_false (Nat.not_lt.mpr hlen), Bool.false_and]
    simp only [State.farMove, hnow, bne, hk']
    simp only [fab, src]
    rcases hin : (k.inbound == some true) <;> rfl

/-- A far move that nothing refuses and whose port is free launches. -/
theorem State.launchesFar_of_due (hdue : s.FarDue u p o k f lines) {inb : Bool} {delay : Nat}
    (hinb : (k.inbound == some true) = inb) (hdelay : delay = if inb then farTicks u.d f else 0)
    (hport : s.PortFree u (s.unit p) inb (portFirst (s.region u.region).gear inb s.now delay) (portCycles lines.length)) :
    let src := sourceAccs (s.cycle u.region) ((s.unit p).opnd o.ldesc ((s.unit p).areg o.lreg)) lines
    s.LaunchesFar u p o f (.next (s.xFar u o k)) k lines (if inb then [] else src.1) (if inb then [] else src.2) := by
  have hnow := State.fabricTake_now (s.marked p .x) u.d f (k.inbound == some true)
  refine ⟨_, congrArg _ (State.xFar_of_due hdue hinb hdelay hport), rfl, rfl, rfl, rfl, rfl, rfl, hnow, rfl, rfl, rfl,
    ?_⟩
  simp only [State.farMove, hnow, beq_iff_eq]
  rfl

/-- An outbound move reads its source and holds its port from its issue (R235, R244). -/
theorem State.launchesFar_outbound (hdue : s.FarDue u p o k f lines) (hout : (k.inbound == some true) = false)
    (hport : s.PortFree u (s.unit p) false ((s.region u.region).gear.edges s.now) (portCycles lines.length)) :
    let src := sourceAccs (s.cycle u.region) ((s.unit p).opnd o.ldesc ((s.unit p).areg o.lreg)) lines
    s.LaunchesFar u p o f (.next (s.xFar u o k)) k lines src.1 src.2 :=
  State.launchesFar_of_due hdue hout rfl hport

/-- An inbound move reads nothing of the unit and holds its port when its first lines come (R235, R244). -/
theorem State.launchesFar_inbound (hdue : s.FarDue u p o k f lines) (hin : (k.inbound == some true) = true)
    (hport : s.PortFree u (s.unit p) true ((s.region u.region).gear.edges (s.now + farTicks u.d f) + 1)
      (portCycles lines.length)) :
    s.LaunchesFar u p o f (.next (s.xFar u o k)) k lines [] [] :=
  State.launchesFar_of_due hdue hin rfl hport

end

/-! ### Local moves -/

section
variable {s : State} {u : LU} {p : PU} {o : MoveOp} {k : MoveKind} {l : Opnd}

/-- A unit whose X slot has issued and whose X engine is held until a cycle. -/
def UnitS.engaged (x : UnitS) (c : Nat) : UnitS := { x.mark .x with xBusy := c }

@[simp] theorem UnitS.xSource_engaged (x : UnitS) (c : Nat) (o : MoveOp) : (x.engaged c).xSource o = x.xSource o := rfl
@[simp] theorem UnitS.areg_engaged (x : UnitS) (c : Nat) (r : Fin 16) : (x.engaged c).areg r = x.areg r := rfl

/-- A local move whose fields are sound and whose engine is free holds the engine for its cycles. -/
theorem State.xLocal_of_free (h : s.issuer u .x = some p) (hstray : k.stray o = false)
    (hbusy : (s.unit p).xBusy ≤ s.cycle u.region) (occ : Nat) (f : State → PU → UnitS → Nat → State) :
    s.xLocal u k o occ f =
      let x := (s.unit p).engaged (s.cycle u.region + occ)
      f (s.setUnit p x) p x (s.cycle u.region) := by
  rw [State.xLocal, if_neg (by simp [hstray]), State.issue_eq _ h]
  simp only [State.cycle_marked, State.setUnit_marked,
    if_neg (Nat.not_lt.mpr (show ((s.unit p).mark .x).xBusy ≤ _ from hbusy))]
  rfl

/-- An operation that launches one local move: only the unit changes, and its engine is held. -/
def State.LaunchesLocal (s : State) (u : LU) (p : PU) (o : MoveOp) (l : Opnd) (e : Host.Outcome State Fault Refusal)
    (k : MoveKind) (occ : Nat) (accs : List LineAcc) (pops : List PopDue) : Prop :=
  let x := s.unit p
  let c := s.cycle u.region
  ∃ m : MoveFlight,
    e = .next (s.setUnit p ((x.engaged (c + occ)).launch .x c accs pops (.move m)))
    ∧ m.kind = k ∧ m.lines = l.moveLines ∧ m.next = 0 ∧ m.opnd = some l
    ∧ (k = .eng → m.tag = s.now / 16384 * 2 + o.slot.val % 2 ∧ m.fixed = (x.areg o.freg).toNat)

section
variable (h : s.issuer u .x = some p) (hbusy : (s.unit p).xBusy ≤ s.cycle u.region) (hsrc : (s.unit p).xSource o = some l)
include h hbusy hsrc

theorem State.xPush_launches (hstray : MoveKind.push.stray o = false) (hlen : l.moveLines.length = 16) :
    let src := sourceAccs (s.cycle u.region) l l.moveLines
    s.LaunchesLocal u p o l (.next (s.xPush u o)) .push 8
      (src.1 ++ (List.range 16).map fun n => ⟨s.cycle u.region + n / 2 + 3, n, some o.gal, 1, n, .tile false⟩) src.2 := by
  rw [State.xPush, State.xLocal_of_free h hstray hbusy]
  simp only [UnitS.xSource_engaged, hsrc, List.take_of_length_le hlen.le, hlen, bne_self_eq_false, State.tuFlagIf,
    Bool.false_eq_true, if_false, State.setUnit_setUnit]
  exact ⟨_, rfl, rfl, rfl, rfl, rfl, nofun⟩

theorem State.xPop_launches (hstray : MoveKind.pop.stray o = false) (hlen : l.moveLines.length = 16) :
    s.LaunchesLocal u p o l (.next (s.xPop u o)) .pop 8
      ((List.range 16).map fun n => ⟨s.cycle u.region + n / 2, n, some o.gal, 0, n, .read⟩)
      [⟨s.cycle u.region, o.gal, 0, 0⟩] := by
  rw [State.xPop, State.xLocal_of_free h hstray hbusy]
  simp only [UnitS.xSource_engaged, hsrc, List.take_of_length_le hlen.le, hlen, bne_self_eq_false, State.tuFlagIf,
    Bool.false_eq_true, if_false, State.setUnit_setUnit]
  exact ⟨_, rfl, rfl, rfl, rfl, rfl, nofun⟩

/-- X.WTBL and X.DTBL take the lines of their table. -/
theorem State.xTable_launches (hk : k ≠ .eng) (hstray : k.stray o = false) (n occ : Nat) (hlen : l.moveLines.length = n) :
    let src := sourceAccs (s.cycle u.region) l l.moveLines
    s.LaunchesLocal u p o l (.next (s.xTable u o k n occ)) k occ src.1 src.2 := by
  rw [State.xTable, State.xLocal_of_free h hstray hbusy]
  simp only [UnitS.xSource_engaged, hsrc, List.take_of_length_le hlen.le, hlen, bne_self_eq_false, State.tuFlagIf,
    Bool.false_eq_true, if_false, State.setUnit_setUnit]
  exact ⟨_, rfl, rfl, rfl, rfl, rfl, fun he => absurd he hk⟩

theorem State.xMon_launches (hstray : MoveKind.mon.stray o = false) (hlen : l.moveLines.length = 16) (hgal : l.gal = none) :
    s.LaunchesLocal u p o l (.next (s.xMon u o)) .mon 8
      (l.moveLines.zipIdx.map fun e => ⟨s.cycle u.region + e.2 / 2 + 1, e.1, none, 1, e.2, .claim⟩) [] := by
  rw [State.xMon, State.xLocal_of_free h hstray hbusy]
  simp only [UnitS.xSource_engaged, hsrc, List.take_of_length_le hlen.le, hlen, hgal, bne_self_eq_false, State.tuFlagIf,
    Option.isSome_none, Bool.or_self, Bool.false_eq_true, if_false, State.setUnit_setUnit]
  exact ⟨_, rfl, rfl, rfl, rfl, rfl, nofun⟩

/-- X.ENG sends its block through the outbound port (R372). -/
theorem State.xEng_launches (hstray : MoveKind.eng.stray o = false) (hgal : l.gal = none) (hne : l.moveLines ≠ [])
    (hlen : l.moveLines.length ≤ 64)
    (hport : s.PortFree u (s.unit p) false ((s.region u.region).gear.edges s.now) (portCycles l.moveLines.length)) :
    let src := sourceAccs (s.cycle u.region) l l.moveLines
    s.LaunchesLocal u p o l (.next (s.xEng u o)) .eng 2 src.1 src.2 := by
  have hlines : l.lines = l.moveLines := by simp only [Opnd.moveLines, hgal]
  rw [State.xEng, State.xLocal_of_free h hstray hbusy]
  simp only [UnitS.xSource_engaged, hsrc, hgal, hlines, List.take_of_length_le hlen]
  rw [State.takePort_of_free (s := s.setUnit p _) (x := (s.unit p).engaged _) _ hport]
  simp only [decide_eq_false (Nat.not_lt.mpr hlen), List.isEmpty_eq_false_iff.mpr hne, State.tuFlagIf,
    Bool.false_eq_true, if_false, State.setUnit_setUnit]
  exact ⟨_, rfl, rfl, rfl, rfl, rfl, fun _ => ⟨rfl, rfl⟩⟩

end
end

/-- Settles O16: a move whose fields, engine, target, operand and port are as R224, R231, R243 and R244 ask is launched by
the laws of the far moves, outbound or inbound, and of each local move above. -/
theorem movesLaunch : Obligations.MovesLaunch := by
  unfold Obligations.MovesLaunch
  refine ⟨fun s u p o f h => ?_, fun s u p o l h => ?_⟩
  · intro x c g l owned slotTag launched out n hfree hfar hok
    have due : ∀ {k lines}, k.stray o = false → k.takes f.space = true → x.carries o k lines →
        s.FarDue u p o k f lines :=
      fun hstray htakes hlines => ⟨h, hstray, hfree, hfar, hok, htakes, hlines⟩
    have cacheOrHbm : ∀ {k : MoveKind}, k.takes .cache = true → k.takes .hbm = true →
        (f.space = .cache ∨ f.space = .hbm) → k.takes f.space = true := by
      rintro k hcache hhbm (hs | hs)
      · rwa [hs]
      · rwa [hs]
    refine ⟨fun hfmt hloc hne hlen => ?_, fun ⟨hstray, hport⟩ hs =>
      State.launchesFar_inbound (due hstray (cacheOrHbm rfl rfl hs) (.inl ⟨rfl, rfl⟩)) rfl
        (by rw [List.length_range]; exact hport)⟩
    have lines : ∀ {k : MoveKind}, k ≠ .iload → x.carries o k l.moveLines :=
      fun hk => .inr ⟨hk, hfmt, hloc, rfl, hne, hlen⟩
    refine ⟨fun hs ⟨hstray, hport⟩ => ?_, fun hs ⟨hstray, hport⟩ => ?_, fun hs ⟨hstray, hport⟩ => ?_,
      fun hs ⟨hstray, hport⟩ => ?_, fun hs ⟨hstray, hport⟩ => ?_⟩
    · exact State.launchesFar_outbound (due hstray (cacheOrHbm rfl rfl hs) (lines nofun)) rfl hport
    · exact State.launchesFar_outbound (due hstray (by rw [hs]; rfl) (lines nofun)) rfl hport
    · exact State.launchesFar_outbound (due hstray (by rw [hs]; rfl) (lines nofun)) rfl hport
    · exact State.launchesFar_inbound (due hstray (cacheOrHbm rfl rfl hs) (lines nofun)) rfl hport
    · exact State.launchesFar_inbound (due hstray (by rw [hs]; rfl) (lines nofun)) rfl hport
  · intro x c g reads pops launched hfree hsrc
    refine ⟨fun hlen => ⟨fun hstray => ?_, fun hstray => ?_, fun hstray => ?_, fun hgal hstray => ?_⟩,
      fun hlen hstray => ?_, fun hstray hgal hne hlen hheld howned => ?_⟩
    · exact State.xPush_launches h hfree hsrc hstray hlen
    · exact State.xPop_launches h hfree hsrc hstray hlen
    · exact State.xTable_launches h hfree hsrc (k := .dtbl) nofun hstray 16 8 hlen
    · exact State.xMon_launches h hfree hsrc hstray hlen hgal
    · exact State.xTable_launches h hfree hsrc (k := .wtbl) nofun hstray 2 1 hlen
    · exact State.xEng_launches h hfree hsrc hstray hgal hne hlen ⟨hheld, howned⟩

end Sys2Proof.Machine
end


section
/-!
PROOF. What a source that is raised leaves of a register that no fence writes: a raise sets its own bit, and what it raises
in turn are sources of the fences alone (12_silent_errors_and_faults.md R45, R492, R495, R509).
-/
namespace Sys2Proof.Machine

/-- Sources of the registers that a fence writes, as those are that a fence raises. -/
def RaisesOfFence (rs : List Raise) : Prop := ∀ x ∈ rs, x.reg.name.byFence = true

theorem RaisesOfFence.nil : RaisesOfFence [] := nofun

theorem RaisesOfFence.append {a b : List Raise} (ha : RaisesOfFence a) (hb : RaisesOfFence b) : RaisesOfFence (a ++ b) :=
  List.forall_mem_append.mpr ⟨ha, hb⟩

theorem RaisesOfFence.fenceDone_cons {d : Die} {suspect : Bool} {rs : List Raise} (h : RaisesOfFence rs) :
    RaisesOfFence (fenceDone d suspect :: rs) := List.forall_mem_cons.mpr ⟨rfl, h⟩

theorem State.substitute_raises (s : State) (l : LU) : RaisesOfFence (s.substitute l).2 := by
  unfold State.substitute
  split
  · exact RaisesOfFence.nil
  · exact List.forall_mem_singleton.mpr rfl

theorem State.applyFences_raises (s : State) (r : RegionId) (t : Nat) : RaisesOfFence (s.applyFences r t).2 := by
  unfold State.applyFences
  split
  · exact RaisesOfFence.nil
  · extract_lets ready
    split
    · exact RaisesOfFence.nil
    · split
      next heq =>
        refine (congrArg (fun z : State × List Raise => z.2) heq) ▸ List.foldlRecOn
          (motive := fun acc : State × List Raise => RaisesOfFence acc.2) _ _ RaisesOfFence.nil fun acc hacc l _ => ?_
        split
        · split
          · exact hacc.append (State.substitute_raises _ _)
          · exact hacc
        · exact hacc

theorem State.fenceUnit_raises (s : State) (p : PU) : RaisesOfFence (s.fenceUnit p).2 := by
  simp only [State.fenceUnit]
  split
  · exact RaisesOfFence.nil
  · split
    · exact (State.applyFences_raises _ _ _).fenceDone_cons
    · exact RaisesOfFence.nil.fenceDone_cons

theorem State.fenceRegion_raises (s : State) (r : RegionId) : RaisesOfFence (s.fenceRegion r).2 := by
  simp only [State.fenceRegion]
  split
  · exact RaisesOfFence.nil
  · split
    · exact (State.applyFences_raises _ _ _).fenceDone_cons
    · exact RaisesOfFence.nil.fenceDone_cons

theorem State.fenceDie_raises (s : State) (d : Die) : RaisesOfFence (s.fenceDie d).2 := by
  simp only [State.fenceDie]
  split
  · exact RaisesOfFence.nil
  · split
    · refine RaisesOfFence.fenceDone_cons (List.foldlRecOn (motive := fun acc : State × List Raise => RaisesOfFence acc.2)
        _ _ RaisesOfFence.nil fun acc hacc r _ => ?_)
      exact hacc.append (State.applyFences_raises _ _ _)
    · exact RaisesOfFence.nil.fenceDone_cons

theorem State.react_raises (s : State) (r : Reg) (code : Nat) : RaisesOfFence (s.react r code).2 := by
  unfold State.react
  split
  case isTrue => exact RaisesOfFence.nil
  split
  case h_1 => exact RaisesOfFence.nil
  case h_2 => exact RaisesOfFence.nil
  case h_3 =>
    extract_lets d region
    split
    · split
      · exact State.fenceUnit_raises _ _
      · exact RaisesOfFence.nil
    · exact State.fenceRegion_raises _ _
    · exact State.fenceDie_raises _ _

theorem State.raised_raises (s : State) (r : Raise) : RaisesOfFence (s.raised r).2 := by
  unfold State.raised
  extract_lets s1 code s2 s3 t
  show RaisesOfFence t.2
  show RaisesOfFence (if r.fixed.isSome then (s3, []) else s3.react r.reg code : State × List Raise).2
  split
  · exact RaisesOfFence.nil
  · exact State.react_raises s3 _ _

section
variable {q : Reg} (hq : q.name.byFence = false)
include hq

theorem RaisesOfFence.ne {rs : List Raise} (h : RaisesOfFence rs) : ∀ x ∈ rs, q ≠ x.reg :=
  fun x hx => Reg.ne_of_byFence hq (h x hx)

/-- Raising sources of other registers leaves a register that no fence writes. -/
theorem State.rd_raiseAll (n : Nat) {rs : List Raise} (hrs : ∀ x ∈ rs, q ≠ x.reg) (s : State) :
    (s.raiseAll n rs).rd q = s.rd q := by
  induction n generalizing rs s with
  | zero => rfl
  | succ n ih =>
    cases rs with
    | nil => rfl
    | cons r rest =>
      obtain ⟨hr, hrest⟩ := List.forall_mem_cons.mp hrs
      rw [State.raiseAll_cons]
      split
      · exact ih hrest s
      · rw [ih (List.forall_mem_append.mpr ⟨(State.raised_raises s r).ne hq, hrest⟩), State.rd_raised hq,
          State.rd_wrBit_ne s hr]

theorem State.rd_raiseBit {r : Reg} (hr : q ≠ r) (s : State) (b : Nat) (suspect : Bool) (detail : Nat) :
    (s.raiseBit r b suspect detail).rd q = s.rd q :=
  State.rd_raiseAll hq 16 (List.forall_mem_singleton.mpr hr) s

theorem State.rd_settleRegion (s : State) (r : RegionId) (t : Nat) : (s.settleRegion r t).rd q = s.rd q := by
  simp only [State.settleRegion]
  split
  · exact State.rd_applyFences hq s r t
  · rw [State.rd_raiseAll hq 16 ((State.applyFences_raises s r t).ne hq), State.rd_syncFence hq,
      State.rd_applyFences hq]

theorem State.rd_settleFences (s : State) (p : Part) (t : Nat) : (s.settleFences p t).rd q = s.rd q :=
  foldl_rd q _ (fun s r => State.rd_settleRegion hq s r t) _ s

end

end Sys2Proof.Machine
end

section
/-!
PROOF. The counters that hold (10_memory.md R367, R423; 11_fabric_and_links.md R460; 13_power_and_thermal.md R543;
16_reset_boot_firmware.md R667): no reset but a cold or a fundamental one writes them, and FORME_LOAD clears those of the
reductions.
-/
namespace Sys2Proof.Machine

/-- The counters of the reductions, which FORME_LOAD clears (R367). -/
def sumCounters : List RegName := [.cdRedExhCnt, .cdRedGleanCnt, .cdRedMismCnt, .cdRedNanCnt, .cdRedUnfCnt]

/-- The counters that hold, as the statement lists them. -/
def counters : List RegName :=
  [RegName.hbmCeCnt, .hbmUeCnt, .hbmRefuseCnt, .hbmScrubPass, .scCeCnt] ++ [RegName.ldLaneCw, .ldLaneUcw, .ldLaneBlank]
    ++ sumCounters ++ [RegName.pwrDroopCyc, .pwrCapCyc, .pwrDroopEv]

/-! ### What every counter is -/

theorem counters_notByFence : ∀ n ∈ counters, n.byFence = false := by decide

theorem counters_keptByBlock : ∀ n ∈ counters, n.keptByBlock = true := by decide

/-- No bit of a counter is writable, and its reset value is 0. -/
theorem counters_info : ∀ n ∈ counters, n.info.rw ||| n.info.wq = 0 ∧ n.info.reset = 0 := by decide

theorem counters_cleared (k : Keeps) : ∀ n ∈ counters, k.reg n = false := by cases k <;> decide

section
variable {q : Reg} (hq : q.name ∈ counters)
include hq

theorem Reg.ne_of_counter {r : Reg} (hr : counters.contains r.name = false) : q ≠ r :=
  Reg.ne_of_name fun h => by rw [h, ← List.contains_iff_mem, hr] at hq; exact absurd hq (by decide)

/-- The families in which the reset value and the writes have rules of their own are not counters. -/
theorem Reg.counter_rules (s : State) (who : Requester) (v : Word) :
    q.default = q.name.info.reset ∧ s.ownWrite who q v = s.storeReg q v := by
  simp only [counters, sumCounters, List.cons_append, List.nil_append, List.mem_cons, List.not_mem_nil, or_false] at hq
  rcases hq with h | h | h | h | h | h | h | h | h | h | h | h | h | h | h | h <;>
    simp only [Reg.default, State.ownWrite, h, and_self]

/-- No write changes a counter (R367, R423, R460, R543). -/
theorem State.rd_ownWrite_of_counter (s : State) (who : Requester) (v : Word) : (s.ownWrite who q v).rd q = s.rd q := by
  obtain ⟨hmask, -⟩ := counters_info _ hq
  rw [(Reg.counter_rules hq s who v).2, (s.storeReg_leaves q v).1, hmask]
  show v &&& 0#32 ||| s.rd q &&& ~~~0#32 = s.rd q
  rw [BitVec.and_zero, BitVec.zero_or, BitVec.not_zero, BitVec.and_allOnes]

end

/-- A count holds at 0xFFFF_FFFF. -/
theorem State.rd_count (s : State) (r : Reg) (n : Nat) :
    ((s.count r n).rd r).toNat = min ((s.rd r).toNat + n) 0xFFFFFFFF := by
  rw [State.count, State.modReg, State.rd_wr, satAdd32, BitVec.toNat_ofNat]
  omega

/-- A table whose values are mapped reads the same where the value of the key is kept. -/
theorem AMap.getD_mapVals {α β : Type} [DecidableEq α] (m : AMap α β) {f : α → β → β} {k : α} (h : ∀ w, f k w = w) (d : β) :
    (m.mapVals f).getD k d = m.getD k d := by
  unfold AMap.getD AMap.mapVals
  rw [List.find?_map]
  cases hfind : m.entries.find? fun e => e.1 = k with
  | none => simp [hfind]
  | some e =>
    have he : e.1 = k := by simpa using List.find?_some hfind
    simp [hfind, he, h]

/-! ### Replies and jobs -/

theorem State.rd_of_regs {s t : State} (h : t.regs = s.regs) (r : Reg) : t.rd r = s.rd r := by
  rw [State.rd, State.rd, h]

theorem State.rd_modFw (s : State) (f : FwS → FwS) (r : Reg) : (s.modFw f).rd r = s.rd r := rfl

theorem State.rd_replyAt (s : State) (q : Req) (h st d : Nat) (b : List Byte) (r : Reg) :
    (s.replyAt q h st d b).rd r = s.rd r := by
  unfold State.replyAt
  split
  · dsimp only
    split <;> rfl
  · rfl
  · rfl

theorem State.rd_endJobs (s : State) (p : Job → Bool) (st d : Nat) (b : List Byte) (r : Reg) :
    (s.endJobs p st d b).rd r = s.rd r :=
  foldl_rd r (fun s (j : Job) => s.replyAt j.req j.at_ st d b) (fun s j => State.rd_replyAt s j.req j.at_ st d b r) _ _

theorem State.rd_endProof (s : State) (p : Part) (r : Reg) : (s.endProof p).rd r = s.rd r :=
  foldl_rd r _ (fun s x => by unfold State.proofOff; split <;> rfl) _ _

/-! ### What the resets write is none of the counters -/

section
variable {q : Reg} (hq : q.name ∈ counters)
include hq

theorem State.rd_wrBit_of_counter {r : Reg} (hr : counters.contains r.name = false) (s : State) (i : Nat) (b : Bool) :
    (s.wrBit r i b).rd q = s.rd q := State.rd_wrBit_ne s (Reg.ne_of_counter hq hr) i b

theorem State.rd_wrFld_of_counter {r : Reg} (hr : counters.contains r.name = false) (s : State) (hi lo v : Nat) :
    (s.wrFld r hi lo v).rd q = s.rd q := State.rd_wrFld_ne s (Reg.ne_of_counter hq hr) hi lo v

theorem State.rd_raiseBit_of_counter {r : Reg} (hr : counters.contains r.name = false) (s : State) (b : Nat)
    (suspect : Bool) (detail : Nat) : (s.raiseBit r b suspect detail).rd q = s.rd q :=
  State.rd_raiseBit (counters_notByFence _ hq) (Reg.ne_of_counter hq hr) s b suspect detail

/-! Halting a partition. -/

theorem State.rd_setArmed_of_counter (s : State) (p : Part) (b : Bool) : (s.setArmed p b).rd q = s.rd q :=
  foldl_rd q _ (fun s d => State.rd_wrBit_of_counter hq (r := dreg .cdPartition d) rfl s 4 b) _ _

theorem State.rd_dropProv_of_counter (s : State) (p : Part) : (s.dropProv p).rd q = s.rd q :=
  foldl_rd q _ (fun s e => State.rd_wrBit_of_counter hq (r := ureg .tuChk (ProvEv.unit e)) rfl s 2 false) _ _

theorem State.rd_switchPage_of_counter (s : State) (d : Die) : (s.switchPage d).rd q = s.rd q := by
  unfold State.switchPage
  split
  · rfl
  · dsimp only
    rw [State.rd_endJobs, State.rd_raiseBit_of_counter hq rfl, State.rd_wrFld_of_counter hq rfl,
      State.rd_wrBit_of_counter hq rfl]
    rfl

theorem State.rd_switchWaiting_of_counter (s : State) (p : Part) : (s.switchWaiting p).rd q = s.rd q :=
  foldl_rd q _ (fun s d => by
    split
    · split
      · exact State.rd_switchPage_of_counter hq s d
      · rfl
    · rfl) _ _

theorem State.rd_haltPart_of_counter (s : State) (p : Part) : (s.haltPart p).rd q = s.rd q := by
  simp only [State.haltPart, State.rd_switchWaiting_of_counter hq, State.rd_settleFences (counters_notByFence _ hq),
    State.rd_endJobs, State.rd_modPart, State.rd_dropProv_of_counter hq, State.rd_endProof,
    State.rd_setArmed_of_counter hq]
  split <;> rfl

/-! Lanes that are spared out, and a partition that is unloaded. -/

theorem State.rd_syncPort_of_counter (s : State) (p : Port) : (s.syncPort p).rd q = s.rd q :=
  foldl_rd q _ (fun s i => State.rd_wrFld_of_counter hq (r := portReg .ldPortStat p i) rfl s 11 8 _) _ _

theorem State.rd_syncTwin_of_counter (s : State) : s.syncTwin.rd q = s.rd q := by
  unfold State.syncTwin
  split
  · rfl
  · exact State.rd_wrFld_of_counter hq (r := xreg .twStatus) rfl s 2 0 _

theorem State.rd_setLane_of_counter (s : State) (l : Lane) (st : Nat) : (s.setLane l st).rd q = s.rd q := by
  have hwrite (t : State) : ((t.wrFld (lreg .ldLaneStat l) 2 0 st).syncPort (portOfLane l).1).rd q = t.rd q := by
    rw [State.rd_syncPort_of_counter hq, State.rd_wrFld_of_counter hq rfl]
  unfold State.setLane
  extract_lets p s1 s2
  have h1 : s1.rd q = s.rd q := by
    show State.rd (if st = lnTrain then _ else s) q = _
    split <;> rfl
  have h2 : s2.rd q = s.rd q := (hwrite s1).trans h1
  split
  · rw [State.rd_syncTwin_of_counter hq, h2]
  · exact h2

theorem State.rd_laneLost_of_counter (s : State) (l : Lane) : (s.laneLost l).rd q = s.rd q := by
  simp only [State.laneLost]
  show State.rd (State.sendMsg _ _ _ _ _) q = _
  rw [State.rd_sendMsg, State.rd_raiseBit_of_counter hq rfl]

theorem State.rd_spareOut_of_counter (s : State) (l : Lane) : (s.spareOut l).rd q = s.rd q := by
  have hraise : State.rd (if s.laneState l = lnUp then s.raiseBit (lreg .ldLaneStat l) 13 else s) q = s.rd q := by
    split
    · exact State.rd_raiseBit_of_counter hq rfl s 13 _ _
    · rfl
  rw [State.spareOut, State.rd_laneLost_of_counter hq, State.rd_setLane_of_counter hq]
  exact (State.rd_wrBit_of_counter hq (r := lreg .ldLaneStat l) rfl _ 7 true).trans hraise

theorem State.rd_sparesDue_of_counter (s : State) (who : Option Part) : (s.sparesDue who).rd q = s.rd q :=
  foldl_rd q _ (fun s l => State.rd_spareOut_of_counter hq s l) _ _

theorem State.rd_degradeOkNow_of_counter (s : State) (p : Port) : (s.degradeOkNow p).rd q = s.rd q :=
  foldl_rd q _ (fun s i => State.rd_wrBit_of_counter hq (r := portReg .ldPortStat p i) rfl s 16 _) _ _

theorem State.rd_unload_of_counter (s : State) (p : Part) : (s.unload p).rd q = s.rd q :=
  (State.rd_sparesDue_of_counter hq _ none).trans (foldl_rd q _ (fun s i => State.rd_degradeOkNow_of_counter hq s i) _ _)

/-! Commands that wait. -/

theorem State.rd_syncGear_of_counter (s : State) (p : Part) : (s.syncGear p).rd q = s.rd q := by
  unfold State.syncGear
  split <;> rw [State.rd_wrFld_of_counter hq rfl, State.rd_wrBit_of_counter hq rfl]

theorem State.rd_clearPending_of_counter (s : State) : s.clearPending.rd q = s.rd q :=
  foldl_rd q _ (fun s p => by
    dsimp only
    rw [State.rd_syncGear_of_counter hq]
    split
    · rw [State.rd_wrFld_of_counter hq rfl, State.rd_wrBit_of_counter hq rfl]
    · rfl) _ _

theorem State.rd_cancelTaken_of_counter (s : State) : s.cancelTaken.rd q = s.rd q := by
  unfold State.cancelTaken
  refine (foldl_rd q _ (fun s j => ?_) _ _).trans ((foldl_rd q _ (fun s i => ?_) _ _).trans ?_)
  · split
    · split
      · exact State.rd_replyAt ..
      · rfl
    · rfl
  · split
    · exact State.rd_replyAt ..
    · rfl
  · rw [State.rd_clearPending_of_counter hq, State.rd_endJobs]

/-! ### A warm reset (R604, R611 to R614) -/

theorem State.rd_warmReset_of_counter (s : State) (c : Req) : (s.warmReset c).rd q = s.rd q := by
  have hhalt (t : State) (p : Part) :
      State.rd (State.unload (if (t.part p).armed || (t.part p).running then t.haltPart p else t) p) q = t.rd q := by
    rw [State.rd_unload_of_counter hq]
    split
    · exact State.rd_haltPart_of_counter hq t p
    · rfl
  unfold State.warmReset
  split
  · exact State.rd_replyAt ..
  · extract_lets s1 cause s2 s3 s4 host s5 s6
    have h1 : s1.rd q = s.rd q := foldl_rd q _ hhalt allParts s
    have h2 : s2.rd q = s1.rd q := (State.rd_modFw (s1.wrFld (xreg .rstCause) 2 0 cause) _ q).trans
      (State.rd_wrFld_of_counter hq (r := xreg .rstCause) rfl s1 2 0 cause)
    have h3 : s3.rd q = s2.rd q := State.rd_wr_ne s2 (xreg .rstBoots) q _ (Reg.ne_of_counter hq rfl)
    have h5 : s5.rd q = s3.rd q := State.rd_of_regs (s := s3) (t := s5) rfl q
    have h6 : s6.rd q = s5.rd q := State.rd_clearPending_of_counter hq s5
    rw [State.rd_addJob, State.rd_modFw, h6, h5, h3, h2, h1]

theorem State.rd_warmBlocks_of_counter (s : State) (w : WarmRun) : (s.warmBlocks w).rd q = s.rd q := by
  unfold State.warmBlocks
  extract_lets g s1 s2 s3
  have h1 : s1.rd q = s.rd q :=
    foldl_rd q _ (fun s e => State.rd_wrBit_of_counter hq (r := ureg .tuChk (ProvEv.unit e)) rfl s 2 false) s.prov s
  have h3 : s3.rd q = s2.rd q := foldl_rd q _ (fun s d => foldl_rd q _ (fun s c => by
    split
    · exact State.rd_wrBit_of_counter hq (r := tgReg .tgCtl d c) rfl s 9 false
    · rfl) (List.finRange 32) s) allDies s2
  rw [State.rd_modFw, h3]
  exact h1

theorem State.rd_warmEnd_of_counter (s : State) : s.warmEnd.rd q = s.rd q := by
  unfold State.warmEnd
  extract_lets s1 s2
  have h1 : s1.rd q = s.rd q := State.rd_endJobs s (fun j => j.kind == .warm) stOk 0 [] q
  have h2 : s2.rd q = s1.cancelTaken.rd q :=
    (State.rd_of_regs (s := s1.cancelTaken.wrBit (xreg .rstFw) 3 false) (t := s2) rfl q).trans
      (State.rd_wrBit_of_counter hq (r := xreg .rstFw) rfl s1.cancelTaken 3 false)
  refine Eq.trans (State.rd_of_regs (s := s2) ?_ q) (h2.trans ((State.rd_cancelTaken_of_counter hq s1).trans h1))
  rfl

/-! ### A block reset (R618, R620) -/

theorem Reg.inBlock_of_counter (level target : Nat) : q.inBlock level target = false := by
  simp only [Reg.inBlock, counters_keptByBlock _ hq, if_true]

theorem Reg.leftInBlock_of_counter (level target : Nat) (w : Word) : q.leftInBlock level target w = w := by
  unfold Reg.leftInBlock
  split
  next h => rw [h] at hq; exact absurd hq (by decide)
  next h => rw [h] at hq; exact absurd hq (by decide)
  · rfl

theorem State.rd_resetBlock_of_counter (s : State) (level target : Nat) : (s.resetBlock level target).rd q = s.rd q := by
  unfold State.resetBlock
  extract_lets rs g s1 s2 k mine s3 s4
  have h1 : s1.rd q = s.rd q := by
    refine (AMap.getD_mapVals (s.regs.drop _) (f := fun r w => r.leftInBlock level target w)
      (Reg.leftInBlock_of_counter hq level target) q.default).trans ?_
    rw [AMap.getD_drop, Reg.inBlock_of_counter hq]
    rfl
  have h2 : s2.rd q = s1.rd q := by
    show State.rd (if level = 1 then _ else s1) q = _
    split
    · exact foldl_rd q _ (fun s d => s.rd_modDie d _ q) _ s1
    · rfl
  have hlane (t : State) (n : Fin 50) :
      ((t.modLane ⟨k, n⟩ fun _ => .reset).setLane ⟨k, n⟩ lnTrain).rd q = t.rd q :=
    State.rd_setLane_of_counter hq (t.modLane ⟨k, n⟩ fun _ => .reset) ⟨k, n⟩ lnTrain
  have h4 : s4.rd q = s2.rd q := by
    show State.rd (if level = 2 then _ else s2) q = _
    split
    · exact (foldl_rd q _ hlane _ s3).trans (State.rd_of_regs (s := s2) (t := s3) rfl q)
    · rfl
  exact (foldl_rd q _ (fun s r => State.rd_wrBit_of_counter hq (r := rreg .pwrRegionStat r) rfl s 4 true) rs s4).trans
    (h4.trans (h2.trans h1))

/-! ### FORME_LOAD (R687) -/

omit hq in
/-- What clears a register at one of the things it goes through, and never sets a bit of it, clears it. -/
theorem foldl_rd_zero {β : Type} {r : Reg} {f : State → β → State} {l : List β} {b : β} (hb : b ∈ l)
    (hkeep : ∀ s c, s.rd r = 0 → (f s c).rd r = 0) (hclear : ∀ s, (f s b).rd r = 0) (s : State) :
    (l.foldl f s).rd r = 0 := by
  induction l generalizing s with
  | nil => exact absurd hb List.not_mem_nil
  | cons c rest ih =>
    rcases List.mem_cons.mp hb with rfl | hrest
    · exact List.foldlRecOn (motive := fun s : State => s.rd r = 0) rest f (hclear s) fun s hs c _ => hkeep s c hs
    · exact ih hrest (f s c)

/-- The counters of the reductions of a die are cleared. -/
def State.clearSums (s : State) (d : Die) : State := sumCounters.foldl (fun s n => s.wr (dreg n d) 0) s

omit hq in
theorem State.rd_wr_zero_of_zero {s : State} {r : Reg} (h : s.rd r = 0) (c : Reg) : (s.wr c 0).rd r = 0 := by
  by_cases hc : r = c
  · subst hc
    exact s.rd_wr r 0
  · exact (s.rd_wr_ne c r 0 hc).trans h

omit hq in
theorem State.rd_clearSums_of_zero {s : State} {r : Reg} (h : s.rd r = 0) (d : Die) : (s.clearSums d).rd r = 0 :=
  List.foldlRecOn (motive := fun s : State => s.rd r = 0) sumCounters _ h fun _ hs n _ =>
    State.rd_wr_zero_of_zero hs (dreg n d)

omit hq in
theorem State.rd_clearSums_sum (s : State) {m : RegName} (hm : m ∈ sumCounters) (d : Die) :
    (s.clearSums d).rd (dreg m d) = 0 :=
  foldl_rd_zero hm (fun _ n hs => State.rd_wr_zero_of_zero hs (dreg n d)) (fun s => s.rd_wr (dreg m d) 0) s

/-- What FORME_LOAD writes into a die is none of the counters but those of the reductions, which it clears. -/
theorem State.rd_loadDie_of_counter (s : State) (f : Forme) (d : Die) :
    ∃ t : State, t.rd q = s.rd q ∧ (s.loadDie f d).rd q = (t.clearSums d).rd q := by
  unfold State.loadDie
  extract_lets pair s1 of pg hs s2 s3 s4 s5 s6 s7 s8
  have hpair (t : State) {lo hi : RegName} (hlo : counters.contains lo = false) (hhi : counters.contains hi = false)
      (v : Nat) : (pair t lo hi v).rd q = t.rd q := by
    show State.rd ((t.wr (dreg lo d) _).wr (dreg hi d) _) q = _
    rw [State.rd_wr_ne _ _ _ _ (Reg.ne_of_counter hq hhi), State.rd_wr_ne _ _ _ _ (Reg.ne_of_counter hq hlo)]
  have h2 : s2.rd q = s.rd q := by
    rw [State.rd_wrBit_of_counter hq rfl, State.rd_wrBit_of_counter hq rfl]
  have h3 : s3.rd q = s2.rd q := by rw [hpair _ rfl rfl, hpair _ rfl rfl, hpair _ rfl rfl]
  have h4 : s4.rd q = s3.rd q := by rw [hpair _ rfl rfl, hpair _ rfl rfl, hpair _ rfl rfl]
  have h6 : s6.rd q = s4.rd q := by
    rw [State.rd_wrFld_of_counter hq rfl, State.rd_wrFld_of_counter hq rfl]
  refine ⟨s6, h6.trans (h4.trans (h3.trans h2)), ?_⟩
  rw [State.rd_wrBit_of_counter hq rfl, State.rd_wrFld_of_counter hq rfl, State.rd_wrFld_of_counter hq rfl]
  rfl

theorem State.rd_loadDie_of_zero {s : State} (h : s.rd q = 0) (f : Forme) (d : Die) : (s.loadDie f d).rd q = 0 := by
  obtain ⟨t, ht, hload⟩ := State.rd_loadDie_of_counter hq s f d
  rw [hload]
  exact State.rd_clearSums_of_zero (ht.trans h) d

theorem State.rd_switchLane_of_counter (s : State) (p : Port) (k : Nat) : (s.switchLane p k).rd q = s.rd q := by
  unfold State.switchLane
  extract_lets r s1 s2
  have h1 : s1.rd q = s.rd q := foldl_rd q _ (fun s i => by
    rw [State.rd_wrFld_of_counter hq rfl, State.rd_wrBit_of_counter hq rfl]) (portHeads p) s
  have h2 : s2.rd q = s1.rd q := State.rd_wrBit_of_counter hq rfl s1 7 true
  split
  · rw [State.rd_syncPort_of_counter hq]
    split
    · rw [State.rd_wrBit_of_counter hq rfl, h2, h1]
    · rw [h2, h1]
  · rfl

theorem State.rd_loadPort_of_counter (s : State) (c : PortClaim) : (s.loadPort c).rd q = s.rd q := by
  unfold State.loadPort
  extract_lets s1 s2 s3 s4
  have h1 : s1.rd q = s.rd q := foldl_rd q _ (fun s k => by
    dsimp only
    rw [State.rd_wrFld_of_counter hq rfl, State.rd_wrBit_of_counter hq rfl, State.rd_wrBit_of_counter hq rfl]
    split
    · rfl
    · exact State.rd_wrBit_of_counter hq rfl s 7 false) (List.range (portLanes c.port)) s
  have h2 : s2.rd q = s1.rd q := by
    show State.rd (if c.port.val = 48 then _ else s1) q = _
    split
    · exact State.rd_wrBit_of_counter hq rfl s1 3 false
    · rfl
  have h4 : s4.rd q = s3.rd q := foldl_rd q _ (fun s k => by
    dsimp only
    split
    · exact State.rd_switchLane_of_counter hq s c.port k
    · rfl) (List.range (portLanes c.port)) s3
  rw [State.rd_syncPort_of_counter hq, h4]
  exact h2.trans h1

omit hq in
theorem State.rd_syncRegionGear (s : State) (d : Die) (r : Reg) : (s.syncRegionGear d).rd r = s.rd r :=
  foldl_rd r _ (fun s x => by
    dsimp only
    split <;> rfl) (dieRegions d) s

omit hq in
theorem State.rd_loadVariant (s : State) (p : Part) (r : Reg) : (s.loadVariant p).rd r = s.rd r :=
  foldl_rd r _ (fun s d => foldl_rd r _ (fun s x => foldl_rd r _ (fun s l => by
    split
    · exact State.rd_loadBanks s l _
    · rfl) (regionLus x) s) (dieRegions d) s) (s.partDies p) s

omit hq in
/-- FORME_LOAD clears the counters of the reductions of its dies. -/
theorem State.rd_loadForme_sum (s : State) {p : Part} (f : Forme) {d : Die} (hd : d ∈ s.partDies p) {m : RegName}
    (hm : m ∈ sumCounters) : (s.loadForme p f).rd (dreg m d) = 0 := by
  have hc : (dreg m d).name ∈ counters :=
    List.mem_append_left _ (List.mem_append_right _ hm)
  unfold State.loadForme
  extract_lets v loaded s1 s2 s3 s4 s5 s6
  have h2 : s2.rd (dreg m d) = 0 :=
    foldl_rd_zero (f := fun s d => s.loadDie f d) (l := s1.partDies p) hd
      (fun _ e hs => State.rd_loadDie_of_zero hc hs f e) (fun s => by
        obtain ⟨t, -, hload⟩ := State.rd_loadDie_of_counter hc s f d
        rw [hload]
        exact State.rd_clearSums_sum t hm d) s1
  have h3 : s3.rd (dreg m d) = s2.rd (dreg m d) := foldl_rd _ _ (fun s l => by
    split
    · rfl
    · exact State.rd_wrFld_of_counter hc rfl s 31 16 0) ((s2.partRegions p).flatMap regionLus) s2
  have h4 : s4.rd (dreg m d) = s3.rd (dreg m d) :=
    foldl_rd _ _ (fun s c => State.rd_loadPort_of_counter hc s c) f.claims s3
  have h5 : s5.rd (dreg m d) = s4.rd (dreg m d) :=
    foldl_rd _ _ (fun s d => State.rd_syncRegionGear s d _) (s4.partDies p) s4
  have h6 : s6.rd (dreg m d) = s5.rd (dreg m d) := by
    show State.rd (if _ then _ else s5) _ = _
    split
    · exact State.rd_wrBit_of_counter hc rfl s5 4 false
    · rfl
  rw [State.rd_loadVariant, h6, h5, h4, h3, h2]

end

/-- Settles O7: no write and no reset but a cold and a fundamental one writes a counter, a count holds at the top, and
FORME_LOAD clears those of the reductions of its dies. -/
theorem countersAreKept : Obligations.CountersAreKept := by
  unfold Obligations.CountersAreKept
  intro s c r n v who w k g p f d lanes sums droops hr
  have hq : r.name ∈ counters := hr
  have hdefault : r.default = 0 := (Reg.counter_rules hq s who v).1.trans (counters_info _ hq).2
  refine ⟨State.rd_ownWrite_of_counter hq s who v, hdefault, State.rd_count s r n, ?_,
    State.rd_warmReset_of_counter hq s c, State.rd_warmBlocks_of_counter hq s w, State.rd_warmEnd_of_counter hq s,
    fun level target => State.rd_resetBlock_of_counter hq s level target, fun hd m hm => State.rd_loadForme_sum s f hd hm⟩
  have hne : r.name ≠ .secState := fun h => by rw [h] at hq; exact absurd hq (by decide)
  rw [State.rd_afterReset s k g hne, counters_cleared k _ hq, if_neg Bool.false_ne_true, hdefault]

end Sys2Proof.Machine
end
